-- ==== Sys2Proof/Word.lean ====
section
/-! DEFINITION. The word types of both parts and the two plain containers the state is made of: a table sorted by
number, and a byte memory. -/

namespace Sys2Proof

/-- One byte. -/
abbrev Byte := BitVec 8

/-- A register: every register of both parts is 64 bits wide (R10). -/
abbrev Word := BitVec 64

/-- A 64-byte digest or measurement register; byte k is bits [8k+7:8k] (R9, R282). -/
abbrev Digest := BitVec 512

/-- A byte string, the byte at the lowest offset first. -/
abbrev Bytes := List Byte

/-- A sparse table: pairs of an index and an entry, indices strictly rising. -/
abbrev Tbl (α : Type) := List (Nat × α)

/-- A byte memory in canonical form: addresses strictly rising, no entry equal to zero, which is what an unlisted
address reads as (R479 for controller memory; the log for the rest). -/
abbrev Mem := List Host.Cell

end Sys2Proof
end

