-- ==== Sys2Proof/Syntax.lean ====
section
/-! DEFINITION. The commands of the block, one constructor per row of spec/opcode_table.json, and the data their
operands are made of. The table gives the rows no operands: each row's operands here are what the rule named beside it
says the command carries, and what the part measures or is told by its surroundings at that moment (log entry 2). -/

namespace Sys2Proof

/-- Which Twidel agent a command reaches: the packaged agent, or the instance embedded in the Pelron die (R5, R515). -/
inductive Who where
  | twd
  | emb
  deriving DecidableEq, Repr

/-- Which die a command reaches, for rows that exist on both parts. -/
inductive Place where
  | ctl
  | agt (w : Who)
  deriving DecidableEq, Repr

/-- The path a register access takes; each keeps its own latch (R13, R456). -/
inductive Path where
  | jtag
  | host
  | mgmt (fid : Nat)
  | skein (port : Nat)
  | mortar (session : Nat)
  | core (k : Nat)
  /-- a class B master that is no management core, by its ID (R471, R525) -/
  | unit (id : Nat)
  deriving DecidableEq, Repr

/-- An access entry of R456: offset, kind (0 read, 1 write), status byte and value. `size` is the access size in bytes;
an entry is always one aligned 64-bit access, other paths may present another size (R10). -/
structure Access where
  offset : Nat
  kind : Nat
  size : Nat
  value : Word
  deriving DecidableEq, Repr

/-- A worm: the fields of its head flit (R105), the 32 operand bytes, the payload its data flits carry and the tag its
trailer carries when enc is 1 (R102). -/
structure Worm where
  version : Nat
  cls : Nat
  epoch : Nat
  scheduled : Nat
  partition : Nat
  dstFid : Nat
  srcFid : Nat
  hopLimit : Nat
  mcast : Nat
  irack : Nat
  phase : Nat
  age : Nat
  length : Nat
  op : Nat
  keySlot : Nat
  cg : Nat
  offset : Nat
  headerCheck : Nat
  enc : Nat
  flowSeq : Nat
  /-- the reserved bits of the head: bit 0 is bit 191, bits [32:1] are bits [255:224] -/
  reserved : Nat
  operand : Bytes
  payload : Bytes
  tag : Bytes
  deriving DecidableEq, Repr

/-- An identity block (R300). -/
structure IdBlock where
  fid : Nat
  mode : Nat
  lane : Nat
  bond : Nat
  state : Nat
  fwVersion : Nat
  linkLevel : Nat
  epochBit : Nat
  cls : Nat
  dieId : Nat
  /-- bytes 0 to 15 of PAT_ACTIVE_DIGEST -/
  patternDigest : Nat
  skew : Nat
  patCode : Nat
  patDetail : Nat
  fabricId : Nat
  patStream : Nat
  patNext : Nat
  deriving DecidableEq, Repr

/-- A TRAIN entry (03, TRAIN row). -/
structure TrainEnt where
  lane : Nat
  reach : Nat
  preset : Nat
  flags : Nat
  /-- transmit taps, CTLE, VGA, dfe_count, reserved byte and dfe taps: bytes 4 to 23 -/
  settings : Bytes
  eyeHeight : Nat
  eyeWidth : Nat
  cycles : Nat
  deriving DecidableEq, Repr

/-- The source a lane trains from (R298). -/
inductive TrainSrc where
  | boot
  | saved
  | full
  deriving DecidableEq, Repr

/-- What self test found and what the ROM's look at the firmware banks gave: physical units that do not work, in each
map's numbering (R302, R521, R378). -/
structure SelfTest where
  badLanes : List Nat
  badBanks : List Nat
  /-- UCIe lanes that do not work, as module × 64 + logical lane positions lost beyond the redundant ones -/
  badUcie : List Nat
  /-- the fused UCIe lane repair: logical index to lane within its module, where it is not the identity -/
  ucieMap : List (Nat × Nat)
  deriving DecidableEq, Repr

/-- Units that came over a module of the host interface, by their 64-bit tags in order (R267). -/
structure Units where
  modl : Nat
  tags : List Nat
  deriving DecidableEq, Repr

/-- A region's worst-corner delay in UQ16.16 ns, and whether that corner lies outside the gauge's grid (R63, R365). -/
structure GaugeDelay where
  worst : Nat
  outside : Bool
  deriving DecidableEq, Repr

/-- A measured stage delay and the gauge value at the measured corner, UQ16.16 ns: the two terms of gauge_ratio (R65). -/
structure GaugeRatio where
  dMeas : Nat
  ref : Nat
  deriving DecidableEq, Repr

/-- Health readings a part takes at one sample (R363): per region a temperature in 0.125 °C, per rail millivolts, die power
in mW, and per lane the eye height in mV. -/
structure Health where
  temps : List Int
  /-- millivolts per rail, in the order VDD_CORE, VDD_SRAM, VDD_IO, VDDQ_UCIE on an agent; the core supply on Pelron -/
  rails : List Nat
  powerMw : Nat
  /-- the average of die power over the last telemetry window, mW -/
  windowPowerMw : Nat
  /-- (lane, eye height in mV) of the active lanes -/
  eyes : List (Nat × Nat)
  /-- milliseconds since the part's reset at this sample -/
  ms : Nat
  deriving DecidableEq, Repr

/-- One wear sample entry (R368): kind, monitor index, sample index and value. -/
structure WearEnt where
  kind : Nat
  monitor : Nat
  sample : Nat
  value : Int
  deriving DecidableEq, Repr

/-- An SPDM connection as the responder sees it: where it came in and whether it is inside a link session (R399, R454). -/
structure Conn where
  /-- Skein port, or 2 for a connection the control node relays inside the link session -/
  port : Nat
  /-- connection number the responder keeps its state under -/
  id : Nat
  deriving DecidableEq, Repr

/-- A work entry of a DOORBELL frame (R457). -/
structure WorkEntry where
  opcode : Nat
  length : Nat
  addr : Nat
  wrId : Nat
  deriving DecidableEq, Repr

/-- The header of a Skein frame that was received and decrypted (R452). -/
structure FrameHdr where
  port : Nat
  ftype : Nat
  encrypted : Bool
  qp : Nat
  sequence : Nat
  id : Nat
  offset : Nat
  /-- the frame's tag verified and the link's error check passed -/
  intact : Bool
  deriving DecidableEq, Repr

/-- Energy and rail readings, in nJ, since the part's last reading (R407, R414). -/
abbrev Energy := Nat

/-- A trigger of the power-down sequence (R534). -/
inductive PowerTrigger where
  | pwrFail
  | modEn
  | input42
  | standby
  | thermal
  deriving DecidableEq, Repr

/-- A dump block as its read ended (R335, R336): the 4,096 bytes read, or how the read failed. -/
inductive BlockResult where
  | valid (data : Bytes)
  | noAnswer
  | hostRefused
  | notRead
  deriving DecidableEq, Repr

/-- The commands. Where a docstring names an arbiter, the order in which the commands reach the block is the arbiter's
decision. -/
inductive Instr where
  /-- R12: a write of `size` bytes at `off` over `path`. -/
  | registerWrite (pl : Place) (path : Path) (off size : Nat) (val : Word)
  /-- R4: RST_N of an agent rises with MODE_SEL and TEST_EN at these levels. -/
  | agentResetDeassert (w : Who) (modeSel : Nat) (testEn : Bool)
  /-- R302 -/
  | agentResetAssert (w : Who)
  /-- R544 -/
  | pwrgdFall (w : Who)
  /-- R302, R233, R521: self test ends with these findings. -/
  | selfTestDone (w : Who) (r : SelfTest)
  /-- R266 -/
  | ucieModuleFail (w : Who) (module : Nat)
  /-- R298: the lane's training from a source ended with this class and eye; `ent` is what full training arrived at. -/
  | laneTrainDone (w : Who) (lane : Nat) (src : TrainSrc) (cls eyeH eyeW : Nat) (settings : Bytes)
  /-- R29 -/
  | laneRetrainTimer (w : Who) (lane : Nat)
  /-- R29 -/
  | laneRejoin (w : Who) (lane : Nat)
  /-- R28 -/
  | laneLoss (w : Who) (lane : Nat)
  /-- R300 -/
  | identityBlock (w : Who) (lane : Nat) (blk : IdBlock)
  /-- R308: a report of the sponsor with this FID: near lanes and far block. -/
  | neighbourReport (fid : Nat) (lanes : List Nat) (blk : IdBlock)
  /-- R381 -/
  | keyEncaps (w : Who) (inBond : Nat) (wm : Worm)
  /-- R304 -/
  | nameResultTimeout (dieId : Nat)
  /-- R299 -/
  | trainSave (fid : Nat) (ents : List TrainEnt)
  /-- R318 -/
  | lnkRetrain (w : Who)
  /-- R318 -/
  | lnkClearCounters (w : Who)
  /-- R522 -/
  | fabRetrain
  /-- R522 -/
  | fabClearCounters
  /-- R86, R100 -/
  | patStart (pl : Place)
  /-- R101 -/
  | patAbort (pl : Place)
  /-- R469 -/
  | patternData (w : Who) (inBond : Nat) (wm : Worm)
  /-- R469 -/
  | patternStreamAbandon (w : Who)
  /-- R86 -/
  | patternStaged (pl : Place)
  /-- R90 -/
  | patternActivate (pl : Place)
  /-- R89 -/
  | epochSlotFree (w : Who)
  /-- R115, R117: the head an input bond presents, the syndrome the host computed, whether the host then found no free
  output (R125, R274), and how many multicast copies it dropped (R143). -/
  | lookupRequest (w : Who) (inBond : Nat) (wm : Worm) (syndrome : Nat) (noOutput : Bool) (mcastLost : Nat)
  /-- R155: the oldest queued ERROR reply is taken by an output, or is discarded by the host for want of one (R274). -/
  | errorQueueSend (w : Who) (taken : Bool)
  /-- R267, R269: the units of a worm that arrived on a bond, which their tags name; `busy` are the bonds that are not free at that
  moment. -/
  | rxWorm (w : Who) (units : Units) (wm : Worm) (busy : List Nat)
  /-- R267, R271: the host's INJECT: the worm as the host supplies it, its request tag, the retry bit, and the units it came in. -/
  | inject (w : Who) (wm : Worm) (reqTag : Nat) (retry : Bool) (units : Units) (busy : List Nat)
  /-- R150 -/
  | reqInjectDeferred (w : Who) (busy : List Nat)
  /-- R138: the tracker entry of this request tag. -/
  | requestTimeout (w : Who) (reqTag : Nat)
  /-- R158 -/
  | injStallInterval (w : Who) (cls : Nat)
  /-- R270 -/
  | presentStart (w : Who) (cls : Nat)
  /-- R270 -/
  | accept (w : Who) (cls : Nat)
  /-- R270 -/
  | acceptLate (w : Who) (cls : Nat)
  /-- R119: the HOLDs of the slot `slot` of course `course`, `lead` ns ahead. -/
  | slotHold (w : Who) (course slot lead : Nat)
  /-- R277 -/
  | mirrorAck (w : Who) (copy first count : Nat)
  /-- R144 -/
  | lkpLock (w : Who)
  /-- R144 -/
  | lkpClearCounters (w : Who)
  /-- R152 -/
  | rspSpaceReturn (w : Who) (flits : Nat)
  /-- R275 -/
  | cgRead (w : Who) (msgTag group : Nat)
  /-- R281 -/
  | cgArm (w : Who) (msgTag group targetWorms targetBytes : Nat)
  /-- R281 -/
  | cgClear (w : Who) (msgTag group : Nat)
  /-- R276 -/
  | reqRelease (w : Who) (msgTag reqTag : Nat)
  /-- R284 -/
  | heartbeat (w : Who) (timer : Nat)
  /-- R284 -/
  | progress (w : Who) (timer engine : Nat)
  /-- R283 -/
  | msrExtend (w : Who) (msgTag register partition kind : Nat) (digest : Digest)
  /-- R279 -/
  | regRead (w : Who) (msgTag off : Nat)
  /-- R279 -/
  | regWrite (w : Who) (msgTag off : Nat) (val : Word)
  /-- R278 -/
  | phyResult (w : Who) (val : Word)
  /-- R278: the MEMDATA units that answer the MEM_READ of this tag. -/
  | memdata (w : Who) (tag : Nat) (data : Bytes)
  /-- R328 -/
  | resetDone (w : Who) (level target result : Nat)
  /-- R285 -/
  | hostReady (w : Who)
  /-- R357: `late` is the arbiter's decision against the 8 µs bound. -/
  | hostCounts (w : Who) (window first : Nat) (ents : List (Nat × Nat)) (late : Bool)
  /-- R275 -/
  | unknownMessage (w : Who) (mtype msgTag : Nat)
  /-- R288 -/
  | agtHifClearCounters (w : Who)
  /-- R167 -/
  | probeSend (w : Who)
  /-- R171: a probe with the stamp of its receipt, UQ64.16. -/
  | probeReceive (w : Who) (bond : Nat) (wm : Worm) (t2 : Nat)
  /-- R170 -/
  | linkSettled (w : Who) (bond : Nat)
  /-- R174 -/
  | parentLoss (w : Who)
  /-- R174 -/
  | holdoverExpire (w : Who)
  /-- R175 -/
  | plbReload (w : Who)
  /-- R188 -/
  | plbClearCounters (pl : Place)
  /-- R163 -/
  | plbParentWrite (w : Who) (val : Word)
  /-- R161 -/
  | masterModeWrite (val : Word)
  /-- R188 -/
  | masterLock
  /-- R162 -/
  | masterLoad (val : Word)
  /-- R47 -/
  | masterRateWrite (val : Word)
  /-- R186: an edge on the trigger input, stamped in units of 2^-16 ns. -/
  | triggerEdge (pl : Place) (stamp : Nat)
  /-- R188 -/
  | trigRead (pl : Place) (path : Path)
  /-- R186: the start of this course. -/
  | courseMark (pl : Place) (course : Nat)
  /-- R180: an INJECT run of this collective on this bond whose first slot is `slot` of course `course`. -/
  | injectRunLaunch (w : Who) (course slot outBond collective : Nat)
  /-- R249 -/
  | emitRunSelect (w : Who) (course slot outBond collective : Nat) (queuedInput : Bool)
  /-- R180 -/
  | emitRunLaunch (w : Who) (course slot outBond collective : Nat)
  /-- R246: a COL worm that an ACCUMULATE entry of this bond and slot delivered. -/
  | purlInput (w : Who) (inBond course slot : Nat) (wm : Worm)
  /-- R244 -/
  | purlRangeStart (w : Who) (collective : Nat)
  /-- R236: a lane by its number, or the engine. -/
  | purlLaneFence (w : Who) (lane : Option Nat)
  /-- R237: an access to PRL_STO_DATA, a write of `val` or a read. -/
  | prlStoAccess (w : Who) (path : Path) (val : Option Word)
  /-- R263 -/
  | prlClearCounters (w : Who)
  /-- R195 -/
  | solverFullTask
  /-- R197 -/
  | solverFailureTask
  /-- R231 -/
  | solverReleaseTask
  /-- R226 -/
  | admissionTask
  /-- R229 -/
  | compileTask
  /-- R163 -/
  | plumbTreeTask
  /-- R211 -/
  | shardTask
  /-- R196 -/
  | taskPreempt
  /-- R191 -/
  | tileFence (tile : Nat)
  /-- R215 -/
  | solTileEn (val : Word)
  /-- R215 -/
  | solClearCounters
  /-- R216 -/
  | shdRead (index : Nat)
  /-- R214 -/
  | shdWrite (index : Nat)
  /-- R214 -/
  | shdDelete (index : Nat)
  /-- R212 -/
  | shardReady (fid partition model granule : Nat) (digest : Nat)
  /-- R217 -/
  | admSubmit
  /-- R231 -/
  | admRelease
  /-- R232 -/
  | admClearCounters
  /-- R228 -/
  | admRingConsWrite (val : Word)
  /-- R322 -/
  | failover (fid bond farFid time : Nat)
  /-- R322 -/
  | restoredBondTimer
  /-- R324 -/
  | watchExpire (w : Who) (timer : Nat)
  /-- R330 -/
  | recoveryCmd (w : Who) (level target flags : Nat)
  /-- R328 -/
  | recoveryLevelTimeout (w : Who)
  /-- R547 -/
  | trayAck (w : Who)
  /-- R332 -/
  | bindOffDrainComplete (w : Who)
  /-- R335 -/
  | dumpBlockTimeout (pl : Place) (block : Nat)
  /-- R336: `blocks` are the register blocks and core states as the dump engine read them. -/
  | dumpComplete (pl : Place)
  /-- R339 -/
  | chunkXfer (wm : Worm)
  /-- R504 -/
  | chunkFetch (w : Who) (sequence count : Nat) (bitmap : Nat)
  /-- R504 -/
  | chunkAck (w : Who) (sequence : Nat)
  /-- R350 -/
  | wchClearCounters (w : Who)
  /-- R330 -/
  | rcvCmd (val : Word)
  /-- R330 -/
  | recoveryReport (fid level target result origin dumpSeq : Nat)
  /-- R343 -/
  | recoveryReportTimeout
  /-- R345 -/
  | funcReinit (val : Word)
  /-- R343 -/
  | funcReinitTimeout (block : Nat)
  /-- R344 -/
  | funcHung (block : Nat)
  /-- R346 -/
  | ctrlReset (val : Word)
  /-- R351 -/
  | rcvClearCounters
  /-- R349 -/
  | roleActive (val : Word)
  /-- R347 -/
  | mirrorSend
  /-- R340 -/
  | dmpStart
  /-- R352 -/
  | dmpClearCounters
  /-- R291: the write of CST_CTL with run set. -/
  | cstRun (val : Word)
  /-- R292 -/
  | cstAbort
  /-- R292: the running step's work ends: its failure code and detail (0 for none), whether anything was fully trained,
  its duration in ms, and what the step found of the die (defective tiles and channels), and for step 7 the partition entries found in agents: FID and
  tag (R348). -/
  | cstStepComplete (code detail : Nat) (fully : Bool) (ms : Nat) (defects : List Nat) (found : List (Nat × Nat))
  /-- R292, R313: the duration in ms, and the FIDs of the agents that the controller found not chain_locked. -/
  | cstStepTimeout (ms : Nat) (unaligned : List Nat)
  /-- R311: with the partition entries found in agents: FID and tag (R348). -/
  | discoveryQuiet (found : List (Nat × Nat))
  /-- R354 -/
  | telemetryRecordSend (w : Who) (window : Nat)
  /-- R358: the record's 192 or 384 bytes as they arrived, with the sender's FID. -/
  | telemetryRecord (fid : Nat) (rec : Bytes)
  /-- R358 -/
  | mapClose
  /-- R361 -/
  | tenantWindowEnd (window : Nat)
  /-- R370 -/
  | telCfgWrite (val : Word)
  /-- R353 -/
  | telConfigChange (pl : Place)
  /-- R370 -/
  | telClearCounters
  /-- R363 -/
  | healthSample (pl : Place) (h : Health)
  /-- R364: a region's stage delay in UQ16.16 ns, and the voltage in mV and temperature in 0.125 °C it was taken at. -/
  | gaugeMeasure (pl : Place) (region dMeas mv : Nat) (temp : Int)
  /-- R364 -/
  | gaugeExceedExit (pl : Place) (region : Nat)
  /-- R366 -/
  | gaugeReport (fid region : Nat) (delay : GaugeDelay) (ratio : GaugeRatio) (exceed : Bool)
  /-- R368: the readings at a multiple of 57,600 operating seconds. -/
  | wearSampleTake (pl : Place) (ents : List WearEnt)
  /-- R369 -/
  | wearSample (fid dieId : Nat) (ents : List WearEnt)
  /-- R372 -/
  | werClearCounters
  /-- R372 -/
  | gauClearCounters
  /-- R380 -/
  | kstLoadCerts
  /-- R383 -/
  | kstEnrol
  /-- R376 -/
  | rollbackCommit (val : Word)
  /-- R404 -/
  | kstClearCounters
  /-- R399 -/
  | getVersion (c : Conn)
  /-- R399: the requester's capability flags -/
  | getCapabilities (c : Conn) (version : Nat) (flags : Nat)
  /-- R399: the algorithms the requester offers, as the extended IDs of R526, and its signature algorithm. -/
  | negotiateAlgorithms (c : Conn) (version : Nat) (algs : List Nat)
  /-- R399 -/
  | getDigests (c : Conn)
  /-- R399 -/
  | getCertificate (c : Conn) (slot offset length : Nat)
  /-- R399 -/
  | challenge (c : Conn) (nonce : Nat)
  /-- R399: block 0 asks for the count, 0xFF for all. -/
  | getMeasurements (c : Conn) (block : Nat) (signed : Bool) (nonce : Nat)
  /-- R399: the requester's ML-KEM-1024 encapsulation key and session ID half. -/
  | keyExchange (c : Conn) (reqSession : Nat) (ek : Bytes)
  /-- R454: FINISH with the requester's certificate chain (root key first) and signature where mutual authentication is
  used, and its verify data. -/
  | finish (c : Conn) (session : Nat) (chain : List Bytes) (signature verify : Bytes)
  /-- R454 -/
  | keyUpdate (c : Conn) (session : Nat) (tagOp : Nat)
  /-- R454 -/
  | spdmHeartbeat (c : Conn) (session : Nat)
  /-- R454: one second has passed on a port. -/
  | spdmHeartbeatSend (port : Nat)
  /-- R454 -/
  | endSession (c : Conn) (session : Nat)
  /-- R399: handle, chunk number, last bit and bytes. -/
  | chunkSend (c : Conn) (handle seq : Nat) (last : Bool) (data : Bytes)
  /-- R399 -/
  | chunkGet (c : Conn) (handle seq : Nat)
  /-- R399 -/
  | unsupportedRequest (c : Conn) (code : Nat)
  /-- R387 -/
  | keyDeliver (c : Conn) (session : Nat) (key : Bytes) (use flags : Nat) (member : Digest)
  /-- R387 -/
  | keyDestroy (c : Conn) (session : Nat) (keyId : Nat)
  /-- R400 -/
  | fabricReport (c : Conn) (session : Nat) (nonce : Nat)
  /-- R400 -/
  | partitionReport (c : Conn) (session : Nat) (tag nonce : Nat)
  /-- R383: op 0 adds the key, 1 removes the entry. -/
  | operatorKeys (c : Conn) (session : Nat) (op : Nat) (key : Bytes)
  /-- R391 -/
  | keyWrap (w : Who) (inBond : Nat) (wm : Worm)
  /-- R391 -/
  | keyResult (fid slot status wrapCounter : Nat)
  /-- R391 -/
  | keySlotUnusedTimeout (w : Who) (slot : Nat)
  /-- R391 -/
  | keySlotRetire (w : Who) (slot : Nat)
  /-- R392: the partition whose traffic generation has been ACTIVE for 2^49 ns. -/
  | rekey (tag : Nat)
  /-- R392 -/
  | keyExpire (w : Who) (slot : Nat)
  /-- R405 -/
  | gcmClearCounters (w : Who)
  /-- R401 -/
  | measureReq (w : Who) (nonce mask : Nat)
  /-- R401 -/
  | measureReport (fid register agentState lastSeq extendSeq nonce : Nat) (value tag : Digest)
  /-- R401 -/
  | measureTimeout (fid : Nat)
  /-- R397 -/
  | debugAttach (pl : Place)
  /-- R409: the write of MTR_CTL with load_fw. -/
  | meterLoadFw (val : Word)
  /-- R410 -/
  | meterLoadPattern
  /-- R430 -/
  | mtrClearCounters
  /-- R425 -/
  | meterStart
  /-- R411 -/
  | meterEncaps (w : Who) (inBond : Nat) (wm : Worm)
  /-- R412 -/
  | meterEncapsRetry
  /-- R416: the interval that ended and the rail energy since the last reading. -/
  | tapIntervalRecord (w : Who) (interval : Nat) (energy : Energy)
  /-- R417 -/
  | meterTap (wm : Worm)
  /-- R418: the interval closed and the module's input energy over it. -/
  | meterIntervalClose (interval : Nat) (energy : Energy)
  /-- R419 -/
  | meterOpen (tag inst course : Nat)
  /-- R419 -/
  | meterClose (tag inst course : Nat)
  /-- R422 -/
  | meterBatchClose
  /-- R424 -/
  | meterBatchSigned
  /-- R423 -/
  | mtrRingConsWrite (val : Word)
  /-- R431 -/
  | mtpClearCounters (w : Who)
  /-- R435: a raise of an event code for an instance. -/
  | eventRaise (pl : Place) (code inst : Nat)
  /-- R437 -/
  | snapshotComplete (pl : Place)
  /-- R437: the snapshot's read with this number -/
  | snapshotReadTimeout (pl : Place) (index : Nat)
  /-- R440: a unit by block index and instance reports itself faulty. -/
  | faultReport (pl : Place) (block inst : Nat)
  /-- R443: the write of FLC_CTL with enter_safe. -/
  | enterSafe (pl : Place) (val : Word)
  /-- R443: the compare of the duplicates, and whether they differ. -/
  | flcSelfCheck (pl : Place) (mismatch : Bool)
  /-- R444 -/
  | flcInject (pl : Place) (val : Word)
  /-- R451 -/
  | flcInjectTick (pl : Place)
  /-- R451 -/
  | flcAlertClear (pl : Place) (val : Word)
  /-- R451 -/
  | flcClearCounters (pl : Place)
  /-- R445 -/
  | evrRetainedClear (val : Word)
  /-- R450 -/
  | evrClearCounters (pl : Place)
  /-- R446: an agent's forwarded record. -/
  | eventRecord (wm : Worm)
  /-- R446 -/
  | evrFetch (w : Who) (first count : Nat)
  /-- R447, R448 -/
  | fallbackCopy (pl : Place)
  /-- R438 -/
  | opsecSave
  /-- R438 -/
  | agentOpsecSave (dieId opsec : Nat)
  /-- R453 -/
  | skeinLinkUp (port lanes : Nat)
  /-- R453 -/
  | skeinLinkFrame (h : FrameHdr)
  /-- R456 -/
  | regReq (h : FrameHdr) (ents : List Access)
  /-- R457 -/
  | doorbell (h : FrameHdr) (ents : List WorkEntry)
  /-- R457: the next WRITE entry of a queue pair is taken up. -/
  | qpWrite (qp : Nat)
  /-- R457: the queue pair's next entry, a READ, is run. -/
  | qpRead (qp : Nat)
  /-- R457 -/
  | mirrorOut (qp : Nat)
  /-- R457: the mirror record as the control node delivered it. -/
  | mirrorIn (qp : Nat) (rec : Bytes)
  /-- R457 -/
  | skeinData (h : FrameHdr) (data : Bytes)
  /-- R458 -/
  | qpWriteTimeout (qp wrId : Nat)
  /-- R472 -/
  | sknClearCounters
  /-- R459 -/
  | mortarConnect
  /-- R460 -/
  | clientHello (session : Nat) (chain : List Bytes) (ek : Bytes) (nonce : Bytes)
  /-- R460 -/
  | clientFinish (session : Nat) (signature : Bytes)
  /-- R460 -/
  | mortarHandshakeTimeout (session : Nat)
  /-- R461: record sequence, whether its tag verified, access entries. -/
  | mortarReg (session sequence : Nat) (intact : Bool) (ents : List Access)
  /-- R461 -/
  | mortarMemWrite (session sequence : Nat) (intact : Bool) (addr : Nat) (data : Bytes)
  /-- R461 -/
  | mortarMemRead (session sequence : Nat) (intact : Bool) (addr length : Nat)
  /-- R461 -/
  | mortarKeepalive (session sequence : Nat) (intact : Bool)
  /-- R461 -/
  | mortarClose (session sequence : Nat) (intact : Bool)
  /-- R462 -/
  | preludeReg (session : Nat) (ents : List Access)
  /-- R461 -/
  | mortarIdleTimeout (session : Nat)
  /-- R473 -/
  | mnpCloseAll
  /-- R473 -/
  | mnpSave (val : Word)
  /-- R473 -/
  | mnpClearCounters
  /-- R466: an MBX_A worm; `room` tells whether the receiver has space for it (R156). -/
  | mbxA (pl : Place) (wm : Worm) (room : Bool)
  /-- R466 -/
  | mbxASend (pl : Place) (peer mtype flags : Nat) (body : Bytes)
  /-- R466 -/
  | mbxAck (pl : Place) (wm : Worm)
  /-- R467 -/
  | mbxARetry (pl : Place) (peer seq : Nat)
  /-- R468; `room` tells whether the relay share has space for it -/
  | relay (w : Who) (inBond : Nat) (wm : Worm) (room : Bool)
  /-- R469: an agent's report of a stream and the next offset -/
  | patternProgress (fid stream next : Nat)
  /-- R470: whether the worm is a request at an agent -/
  | mgmtOp (w : Who) (inBond : Nat) (wm : Worm)
  /-- R470 -/
  | mgmtOpResponse (wm : Worm)
  /-- R470 -/
  | mgmtOpTimeout
  /-- R470 -/
  | mbxRmtGo (val : Word)
  /-- R471 -/
  | mbxBSend (pl : Place) (channel : Nat) (master : Path)
  /-- R471 -/
  | mbxBPop (pl : Place) (channel : Nat) (master : Path)
  /-- R474 -/
  | mbxClearCounters (pl : Place)
  /-- R484 -/
  | narrowWrite (addr : Nat) (data : Bytes)
  /-- R484: the write-back of the entry for this code word -/
  | mergeWriteback (codeword : Nat)
  /-- R487: the scrubber's next read, with the symbol errors that the stored word has taken since it was last read: symbol
  of the code word (R482) and error value. -/
  | scrubRead (errs : List (Nat × Nat))
  /-- R486 -/
  | rowSpare (channel row : Nat)
  /-- R492 -/
  | memClearCounters
  /-- R489: the write of CVU_CTL of a unit with start. -/
  | cvuStart (pl : Place) (unit : Nat) (val : Word)
  /-- R491 -/
  | cvuAbort (pl : Place) (unit : Nat)
  /-- R489 -/
  | cvuComplete (pl : Place) (unit : Nat)
  /-- R490: `reg` 0 is CVU_RUN, 1 CVU_COUNT. -/
  | cvuContextWrite (pl : Place) (unit reg : Nat) (val : Word)
  /-- R496 -/
  | fdsStage
  /-- R498 -/
  | fdsDistribute
  /-- R507 -/
  | fdsActivate
  /-- R510 -/
  | fdsCommit
  /-- R510 -/
  | fdsAbandon
  /-- R511 -/
  | fdsClearCounters
  /-- R500: the next chunk of the pass. -/
  | fwPassChunk
  /-- R501 -/
  | fwChunk (w : Who) (inBond : Nat) (wm : Worm)
  /-- R503 -/
  | fwVerifyDone (w : Who)
  /-- R504: whether the bank's write and read-back succeeded -/
  | fwProgramDone (w : Who) (ok : Bool)
  /-- R505 -/
  | fwStitchesSend (w : Who)
  /-- R505 -/
  | fwQuery (w : Who) (imageId : Nat)
  /-- R505 -/
  | fwQuerySend
  /-- R506 -/
  | fwStitches (fid imageId count missing state : Nat) (bitmap : Nat)
  /-- R506 -/
  | fwRepairRound
  /-- R507 -/
  | fwReady (fid imageId version : Nat) (digest : Digest)
  /-- R503 -/
  | fwRefused (fid imageId reason : Nat)
  /-- R507 -/
  | fwActivate (w : Who) (imageId course : Nat)
  /-- R508 -/
  | fwActivationCourse (w : Who)
  /-- R509 -/
  | fwResult (fid imageId result course version : Nat)
  /-- R510 -/
  | fwCommit (w : Who) (imageId : Nat)
  /-- R510 -/
  | fwAbandon (w : Who) (imageId : Nat)
  /-- R523 -/
  | blkClearCounters (w : Who)
  /-- R523 -/
  | tryClearCounters (w : Who)
  /-- R543 -/
  | vcoreFloorWrite (w : Who) (val : Word)
  /-- R532 -/
  | modEnAssert
  /-- R532 -/
  | controllerLeaveReset (testEn : Bool)
  /-- R533: RST_N low for this many ns -/
  | controllerRstN (ns : Nat)
  /-- R534 -/
  | powerDownTrigger (t : PowerTrigger)
  /-- R541 -/
  | refclkLoss (pl : Place)
  /-- R45 -/
  | referenceTick (pl : Place)
  /-- R264 -/
  | ucieModuleTrained (w : Who) (module : Nat)
  /-- R508 -/
  | fwCoreRestartDone (w : Who)
  /-- R452: the optical lanes still working -/
  | skeinLinkDown (port lanes : Nat)
  /-- R473: `up` is the new state of the port's link -/
  | mgmtPortLinkChange (port link : Nat)
  /-- R536 -/
  | powerDownEnd
  /-- R547 -/
  | trayAckRelease (w : Who)
  /-- R93: result, code, detail and row sequence that an agent reports, with the header digest -/
  | patternResultTake (fid : Nat) (digest : Digest) (result code detail rowSeq : Nat)
  /-- R341: a NOTICE: code, partition and body -/
  | controllerNotice (w : Who) (code partition : Nat) (body : Bytes)
  deriving DecidableEq, Repr

end Sys2Proof
end

