-- ==== Sys2Proof/Config.lean ====
section
/-! DEFINITION. What the spec leaves open as a value (free values) and the cryptographic functions it names by
reference to a published standard. Each is a constant without a body: nothing can be proved about its value, so a claim
that holds, holds whatever it is. -/

namespace Sys2Proof.Config

/-- A free value: the n-th value a part takes where the spec states none (log entry 3). -/
opaque freeValue : Nat → Word

/-- The stepping of the die (R516, R517): bits [7:4] its letter, bits [3:0] its digit. -/
opaque stepping : Nat

/-- The register of a lane that takes the i-th 8 bytes of its training settings, and the one that agent firmware monitors: the
integrator's numbers (R278). -/
opaque phyRegister : Nat → Nat
opaque phyMonitor : Nat

/-- The tenant's reading of a difference under a full-scale value of 0, for which R44's quotient does not exist (log entry 60). -/
opaque quantiseNoScale : Nat → Nat

/-- A measured stage delay over a gauge value of 0, which R65 and R366 leave without a value (log entry 60). -/
opaque ratioOverZero : Nat → Nat

/-- A region index of the agent core, of the Purl engine and of the Sealed Meter, and which other regions belong to them: the spec names
the regions of each and numbers none (log entry 19). -/
opaque coreNumber : Fin 24
opaque purlNumber : Fin 24
opaque meterNumber : Fin 24
opaque coreMore : Nat → Bool
opaque purlMore : Nat → Bool
opaque meterMore : Nat → Bool

/-- Whether a region index of an agent is of its agent core, of its Purl engine, and one of the controller of the Sealed Meter. -/
def coreRegion (r : Nat) : Bool := r = coreNumber.val || coreMore r
def purlRegion (r : Nat) : Bool := r = purlNumber.val || purlMore r
def meterRegion (r : Nat) : Bool := r = meterNumber.val || meterMore r

/-- The equaliser settings of a reach class's preset (R298), 20 bytes in the form of a TRAIN entry. -/
opaque presetSettings : (cls preset : Nat) → Bytes

/-- The digest of the agent ROM's code, which the ROM extends at reset (R378). -/
opaque romDigest : Digest

/-- SHAKE256 with a 64-byte output (FIPS 202; R74, R282). -/
opaque shake256 : Bytes → Digest

/-- KMAC256 (SP 800-185): key, input, output length in bits, customisation string (R75, R401). -/
opaque kmac256 : (key : Bytes) → (input : Bytes) → (bits : Nat) → (custom : Bytes) → Bytes

/-- AES-256-GCM sealing: key, nonce, additional data, plaintext; the ciphertext and the 16-byte tag (R389, R452). -/
opaque gcmSeal : (key nonce aad plain : Bytes) → Bytes × Bytes

/-- The plaintext that AES-256-GCM opens to; whether the tag verifies is `gcmOk`. -/
opaque gcmOpen : (key nonce aad cipher : Bytes) → Bytes

/-- Whether the tag over a ciphertext verifies under AES-256-GCM. -/
opaque gcmOk : (key nonce aad cipher tag : Bytes) → Bool

/-- Whether the tag of an encrypted worm verifies at its receiver, and the plaintext it opens to: slot key, source FID,
additional data (R104), ciphertext, tag. The spec does not say how a receiver learns the sender's time field of the nonce
(R393), so the receiver's side is one open function (log entry 12). -/
opaque wormOk : (key : Bytes) → (src : Nat) → (aad cipher tag : Bytes) → Bool
opaque wormPlain : (key : Bytes) → (src : Nat) → (aad cipher : Bytes) → Bytes

/-- AES-256-CMAC, the PRF of the KDF of R393. -/
opaque aesCmac : (key msg : Bytes) → Bytes

/-- SLH-DSA verification (FIPS 205): public key, message, signature. `fast` selects the parameter set 256f. -/
opaque slhVerify : (fast : Bool) → (key msg sig : Bytes) → Bool

/-- SLH-DSA signing by the key with this name (a key that never leaves its island): name, message. -/
opaque slhSign : (fast : Bool) → (keyName : Nat) → (msg : Bytes) → Bytes

/-- The public key of the signing key with this name. -/
opaque publicKey : (keyName : Nat) → Bytes

/-- The shared secret that ML-KEM-1024 decapsulation gives the holder of the key with this name (FIPS 203). -/
opaque kemDecaps : (keyName : Nat) → (cipher : Bytes) → Bytes

/-- ML-KEM-1024 encapsulation against an encapsulation key, with the n-th random draw: ciphertext and secret. -/
opaque kemEncaps : (ek : Bytes) → (draw : Nat) → Bytes × Bytes

/-- A certificate's public key, and whether its chain verifies up to the root key given first (R380, R454, R460). -/
opaque certKey : (cert : Bytes) → Bytes
opaque certOk : (issuerKey cert : Bytes) → Bool

/-- The certificate's extensions as a partition tag, or a device identity, in an opaque numbering (R454, R460). -/
opaque certSubject : (cert : Bytes) → Nat

/-- SHA3-512, the hash of the SPDM responder (R399). -/
opaque sha3 : Bytes → Digest

/-- The certificate chain of the module with this die_id, kept in module flash since manufacture (R380). -/
opaque deviceCert : (dieId : Nat) → Bytes

/-- The master secret of an SPDM session from its shared secret and transcript, and the verify data of an end (R399): the key
schedule is the SPDM standard's. -/
opaque spdmSecret : (shared transcript : Bytes) → Bytes
opaque spdmFinished : (responder : Bool) → (secret transcript : Bytes) → Bytes

/-- The Sealed Meter's fused secret and its certificate (R408, R411). -/
opaque meterSecret : Bytes
opaque meterCert : Bytes

/-- The DRAM row of a channel that holds a code word, by its channel-local index: the spec gives no row geometry (log entry
15). -/
opaque rowOfWord : Nat → Nat

/-- What Keystone extends a register with where R377 names the event but no digest of it: kind, value (log entry 20). -/
opaque eventDigest : (kind value : Nat) → Digest

/-- The route_seed that a PARTITION entry carries for a tag: the spec does not say how the controller chooses it (log entry
18). -/
opaque routeSeed : Nat → Word

/-- The chunk records of a Purl engine as a store access sees them, and as they stand after a write: the spec gives them 2 MiB of the
store and no layout (R234, R237; log entry 13). The records are numbers in an order of the model's. -/
opaque recordRead : (records : List (List Nat)) → (addr : Nat) → Word
opaque recordWrite : (records : List (List Nat)) → (addr : Nat) → Word → List (List Nat)

/-- Whether a FID is a member of a partition, as an agent knows it for one that has sent it no REQ (R272, log entry 68). -/
opaque partitionMember : (partition fid : Nat) → Bool

/-- The rows of a channel. -/
opaque channelRows : Nat

end Sys2Proof.Config
end

