-- ==== Sys2Proof/Machine/RegMap.lean ====
section
/-! DEFINITION. The register map: every register of the spec's register tables (R14, R514, R515 and the tables named there),
each with its block, its offset, its access type (R12), the bits software may write and its value at reset. A register is
keyed by its block's number times 0x1_0000 plus its offset in the block, so a block that both parts have (PLB, EVR, FLC,
MBX, CVU, PAT) has one key for each register. -/

namespace Sys2Proof.Machine

/-- The access types of R12 that the register tables use. -/
inductive Acc where
  | ro | rw | rwl | w1c | w1s | wo
  deriving DecidableEq, Repr

/-- One register: its key, access type, writable bits, reset value, and the parts that map it: 0 both, 1 Pelron,
2 Twidel, 3 PLN-9210 alone. -/
structure RegRow where
  key : Nat
  acc : Acc
  mask : Nat
  reset : Nat
  parts : Nat
  deriving DecidableEq, Repr

/-- A field of a register: the register's key and the field's bits. -/
structure Fld where
  reg : Nat
  hi : Nat
  lo : Nat
  deriving DecidableEq, Repr

/-! ## Block numbers used in keys -/

/-- The key number of block CTL. -/
def Blk.CTL : Nat := 0
/-- The key number of block CST. -/
def Blk.CST : Nat := 1
/-- The key number of block KST. -/
def Blk.KST : Nat := 2
/-- The key number of block SOL. -/
def Blk.SOL : Nat := 3
/-- The key number of block TEL. -/
def Blk.TEL : Nat := 4
/-- The key number of block PLB. -/
def Blk.PLB : Nat := 5
/-- The key number of block MTR. -/
def Blk.MTR : Nat := 6
/-- The key number of block EVR. -/
def Blk.EVR : Nat := 7
/-- The key number of block FLC. -/
def Blk.FLC : Nat := 8
/-- The key number of block MBX. -/
def Blk.MBX : Nat := 9
/-- The key number of block CVU. -/
def Blk.CVU : Nat := 10
/-- The key number of block MEM. -/
def Blk.MEM : Nat := 11
/-- The key number of block SKN. -/
def Blk.SKN : Nat := 12
/-- The key number of block MNP. -/
def Blk.MNP : Nat := 13
/-- The key number of block FAB. -/
def Blk.FAB : Nat := 14
/-- The key number of block RCV. -/
def Blk.RCV : Nat := 15
/-- The key number of block DMP. -/
def Blk.DMP : Nat := 16
/-- The key number of block GAU. -/
def Blk.GAU : Nat := 17
/-- The key number of block WER. -/
def Blk.WER : Nat := 18
/-- The key number of block PAT. -/
def Blk.PAT : Nat := 19
/-- The key number of block FDS. -/
def Blk.FDS : Nat := 20
/-- The key number of block SHD. -/
def Blk.SHD : Nat := 21
/-- The key number of block ADM. -/
def Blk.ADM : Nat := 22
/-- The key number of block AGT. -/
def Blk.AGT : Nat := 23
/-- The key number of block LKP. -/
def Blk.LKP : Nat := 24
/-- The key number of block PRL. -/
def Blk.PRL : Nat := 25
/-- The key number of block GCM. -/
def Blk.GCM : Nat := 26
/-- The key number of block MTP. -/
def Blk.MTP : Nat := 27
/-- The key number of block MSR. -/
def Blk.MSR : Nat := 28
/-- The key number of block BLK. -/
def Blk.BLK : Nat := 29
/-- The key number of block LNK. -/
def Blk.LNK : Nat := 30
/-- The key number of block WCH. -/
def Blk.WCH : Nat := 31
/-- The key number of block TRY. -/
def Blk.TRY : Nat := 32

/-! ## Register keys -/

/-- R100 -/
def Reg.PAT_CTL : Nat := 0x130000
/-- R100 -/
def Reg.PAT_STATUS : Nat := 0x130008
/-- R100 -/
def Reg.PAT_ACTIVE_EPOCH : Nat := 0x130010
/-- R100 -/
def Reg.PAT_ACTIVE_SEQ : Nat := 0x130018
/-- R100 -/
def Reg.PAT_STAGED_COURSE : Nat := 0x130020
/-- R100 -/
def Reg.PAT_COUNT : Nat := 0x130028
/-- R100 -/
def Reg.PAT_SRC_ADDR : Nat := 0x130030
/-- R100 -/
def Reg.PAT_SRC_LEN : Nat := 0x130038
/-- R100 -/
def Reg.PAT_ACTIVE_DIGEST0 : Nat := 0x130040
/-- R100 -/
def Reg.PAT_STAGED_DIGEST0 : Nat := 0x130080
/-- R144 -/
def Reg.LKP_CTL : Nat := 0x180000
/-- R144 -/
def Reg.LKP_STATUS : Nat := 0x180008
/-- R144 -/
def Reg.LKP_HOP_INIT : Nat := 0x180010
/-- R144 -/
def Reg.LKP_REQ_TIMEOUT : Nat := 0x180018
/-- R144 -/
def Reg.LKP_DRAIN : Nat := 0x180020
/-- R144 -/
def Reg.LKP_SLOT_FREE_AT : Nat := 0x180028
/-- R144 -/
def Reg.LKP_TRACKER : Nat := 0x180030
/-- R144 -/
def Reg.LKP_WINDOWS : Nat := 0x180038
/-- R144 -/
def Reg.LKP_CNT_LOOKUPS : Nat := 0x180040
/-- R144 -/
def Reg.LKP_CNT_HDR_FAIL : Nat := 0x180048
/-- R144 -/
def Reg.LKP_CNT_HOP_LIMIT : Nat := 0x180050
/-- R144 -/
def Reg.LKP_CNT_EXPIRED : Nat := 0x180058
/-- R144 -/
def Reg.LKP_CNT_NO_ROUTE : Nat := 0x180060
/-- R144 -/
def Reg.LKP_CNT_NO_OUTPUT : Nat := 0x180068
/-- R144 -/
def Reg.LKP_CNT_BOUNCED : Nat := 0x180070
/-- R144 -/
def Reg.LKP_CNT_MCAST_DROP : Nat := 0x180078
/-- R144 -/
def Reg.LKP_CNT_SCHED_MISS : Nat := 0x180080
/-- R144 -/
def Reg.LKP_CNT_DUPLICATE : Nat := 0x180088
/-- R144 -/
def Reg.LKP_CNT_STALE : Nat := 0x180090
/-- R144 -/
def Reg.LKP_CNT_LATE_ARRIVAL : Nat := 0x180098
/-- R144 -/
def Reg.LKP_CNT_TIMEOUT : Nat := 0x1800A0
/-- R144 -/
def Reg.LKP_CNT_ERR_SENT : Nat := 0x1800A8
/-- R159 -/
def Reg.LKP_RSP_SPACE : Nat := 0x1800B0
/-- R159 -/
def Reg.LKP_RSP_RESERVED : Nat := 0x1800B8
/-- R159 -/
def Reg.LKP_CNT_RSP_SPACE_WAIT : Nat := 0x1800C0
/-- R159 -/
def Reg.LKP_CNT_INJ_STALL_REQ : Nat := 0x1800C8
/-- R159 -/
def Reg.LKP_CNT_INJ_STALL_RSP : Nat := 0x1800D0
/-- R159 -/
def Reg.LKP_CNT_INJ_STALL_FWD : Nat := 0x1800D8
/-- R159 -/
def Reg.LKP_CNT_EJECT_BOUNCE : Nat := 0x1800E0
/-- R159 -/
def Reg.LKP_CNT_EJECT_DISCARD : Nat := 0x1800E8
/-- R159 -/
def Reg.LKP_CNT_ERR_LOST : Nat := 0x1800F0
/-- R159 -/
def Reg.LKP_CNT_FWD_DROP : Nat := 0x1800F8
/-- R188 -/
def Reg.PLB_CTL : Nat := 0x50000
/-- R188 -/
def Reg.PLB_TIME_LO : Nat := 0x50008
/-- R188 -/
def Reg.PLB_TIME_HI : Nat := 0x50010
/-- R188 -/
def Reg.PLB_STATUS : Nat := 0x50018
/-- R188 -/
def Reg.PLB_RATE : Nat := 0x50020
/-- R188 -/
def Reg.PLB_PARENT : Nat := 0x50028
/-- R188 -/
def Reg.PLB_BOUND : Nat := 0x50030
/-- R188 -/
def Reg.PLB_WINDOW : Nat := 0x50038
/-- R188 -/
def Reg.PLB_HOST_SKEW0 : Nat := 0x50040
/-- R188 -/
def Reg.PLB_HOST_SKEW1 : Nat := 0x50048
/-- R188 -/
def Reg.PLB_LINK_SEL : Nat := 0x50050
/-- R188 -/
def Reg.PLB_LINK_DELAY : Nat := 0x50058
/-- R188 -/
def Reg.PLB_LINK_THETA : Nat := 0x50060
/-- R188 -/
def Reg.PLB_LINK_ASYM : Nat := 0x50068
/-- R188 -/
def Reg.PLB_LINK_STATE : Nat := 0x50070
/-- R188 -/
def Reg.PLB_TRIG_LO : Nat := 0x50078
/-- R188 -/
def Reg.PLB_TRIG_HI : Nat := 0x50080
/-- R188 -/
def Reg.PLB_IO_CFG : Nat := 0x50088
/-- R188 -/
def Reg.PLB_CNT_SLIP : Nat := 0x50090
/-- R188 -/
def Reg.PLB_CNT_PARENT_SWITCH : Nat := 0x50098
/-- R188 -/
def Reg.PLB_CNT_PROBE_MISS : Nat := 0x500A0
/-- R188 -/
def Reg.PLB_CNT_PROBE_MISROUTE : Nat := 0x500A8
/-- R188 -/
def Reg.PLB_CNT_SCHED_SUPPRESSED : Nat := 0x500B0
/-- R188 -/
def Reg.PLB_CNT_INJECT_EMPTY : Nat := 0x500B8
/-- R188 -/
def Reg.PLB_MASTER_CTL : Nat := 0x50100
/-- R188 -/
def Reg.PLB_MASTER_LOAD_LO : Nat := 0x50108
/-- R188 -/
def Reg.PLB_MASTER_LOAD_HI : Nat := 0x50110
/-- R188 -/
def Reg.PLB_MASTER_RATE : Nat := 0x50118
/-- R215 -/
def Reg.SOL_CTL : Nat := 0x30000
/-- R215 -/
def Reg.SOL_STATUS : Nat := 0x30008
/-- R215 -/
def Reg.SOL_TILES : Nat := 0x30010
/-- R215 -/
def Reg.SOL_MAP_SEL : Nat := 0x30018
/-- R215 -/
def Reg.SOL_MAP : Nat := 0x30020
/-- R215 -/
def Reg.SOL_GEN : Nat := 0x30028
/-- R215 -/
def Reg.SOL_INPUT_DIGEST0 : Nat := 0x30030
/-- R215 -/
def Reg.SOL_LAST : Nat := 0x30070
/-- R215 -/
def Reg.SOL_QUEUE : Nat := 0x30078
/-- R215 -/
def Reg.SOL_CNT_TASKS : Nat := 0x30080
/-- R215 -/
def Reg.SOL_CNT_RESTART : Nat := 0x30088
/-- R215 -/
def Reg.SOL_CNT_PREEMPT : Nat := 0x30090
/-- R215 -/
def Reg.SOL_CNT_OVERRUN : Nat := 0x30098
/-- R216 -/
def Reg.SHD_CMD : Nat := 0x150000
/-- R216 -/
def Reg.SHD_STATUS : Nat := 0x150008
/-- R216 -/
def Reg.SHD_ENTRY0 : Nat := 0x150010
/-- R216 -/
def Reg.SHD_COUNT : Nat := 0x150050
/-- R232 -/
def Reg.ADM_CTL : Nat := 0x160000
/-- R232 -/
def Reg.ADM_STATUS : Nat := 0x160008
/-- R232 -/
def Reg.ADM_REQ_ADDR : Nat := 0x160010
/-- R232 -/
def Reg.ADM_REQ_LEN : Nat := 0x160018
/-- R232 -/
def Reg.ADM_REL_TAG : Nat := 0x160020
/-- R232 -/
def Reg.ADM_RING_BASE : Nat := 0x160028
/-- R232 -/
def Reg.ADM_RING_PROD : Nat := 0x160030
/-- R232 -/
def Reg.ADM_RING_CONS : Nat := 0x160038
/-- R232 -/
def Reg.ADM_PARTS : Nat := 0x160040
/-- R232 -/
def Reg.ADM_CNT_ADMITTED : Nat := 0x160048
/-- R232 -/
def Reg.ADM_CNT_REFUSED : Nat := 0x160050
/-- R232 -/
def Reg.ADM_CNT_FAILED : Nat := 0x160058
/-- R232 -/
def Reg.ADM_CNT_AT_RISK : Nat := 0x160060
/-- R232 -/
def Reg.ADM_CNT_RELEASED : Nat := 0x160068
/-- R263 -/
def Reg.PRL_CTL : Nat := 0x190000
/-- R263 -/
def Reg.PRL_STATUS : Nat := 0x190008
/-- R263 -/
def Reg.PRL_LANES : Nat := 0x190010
/-- R263 -/
def Reg.PRL_LANE_SEL : Nat := 0x190018
/-- R263 -/
def Reg.PRL_LANE_MAP : Nat := 0x190020
/-- R263 -/
def Reg.PRL_DESC_SEL : Nat := 0x190028
/-- R263 -/
def Reg.PRL_DESC : Nat := 0x190030
/-- R263 -/
def Reg.PRL_DESC_FLAGS : Nat := 0x190038
/-- R263 -/
def Reg.PRL_STORE_USE : Nat := 0x190040
/-- R263 -/
def Reg.PRL_STO_ADDR : Nat := 0x190048
/-- R263 -/
def Reg.PRL_STO_DATA : Nat := 0x190050
/-- R263 -/
def Reg.PRL_CNT_INPUTS : Nat := 0x190080
/-- R263 -/
def Reg.PRL_CNT_ELEM_OPS : Nat := 0x190088
/-- R263 -/
def Reg.PRL_CNT_EMITS : Nat := 0x190090
/-- R263 -/
def Reg.PRL_CNT_EMIT_EMPTY : Nat := 0x190098
/-- R263 -/
def Reg.PRL_CNT_EMIT_LATE : Nat := 0x1900A0
/-- R263 -/
def Reg.PRL_CNT_UNKNOWN : Nat := 0x1900A8
/-- R263 -/
def Reg.PRL_CNT_MISMATCH : Nat := 0x1900B0
/-- R263 -/
def Reg.PRL_CNT_TAG_FAIL : Nat := 0x1900B8
/-- R263 -/
def Reg.PRL_CNT_STALE_COURSE : Nat := 0x1900C0
/-- R263 -/
def Reg.PRL_CNT_DUPLICATE : Nat := 0x1900C8
/-- R263 -/
def Reg.PRL_CNT_SLOT_BUSY : Nat := 0x1900D0
/-- R263 -/
def Reg.PRL_CNT_STEP_MISMATCH : Nat := 0x1900D8
/-- R263 -/
def Reg.PRL_CNT_LATE_INPUT : Nat := 0x1900E0
/-- R263 -/
def Reg.PRL_CNT_FAN_IN : Nat := 0x1900E8
/-- R263 -/
def Reg.PRL_CNT_INCOMPLETE : Nat := 0x1900F0
/-- R263 -/
def Reg.PRL_CNT_INEXACT : Nat := 0x1900F8
/-- R263 -/
def Reg.PRL_CNT_OVERFLOW : Nat := 0x190100
/-- R263 -/
def Reg.PRL_CNT_INVALID : Nat := 0x190108
/-- R263 -/
def Reg.PRL_CNT_RESET_DISCARD : Nat := 0x190110
/-- R288 -/
def Reg.AGT_HIF_CTL : Nat := 0x170400
/-- R288 -/
def Reg.AGT_UCIE_STATUS : Nat := 0x170408
/-- R288 -/
def Reg.AGT_HIF_STATUS : Nat := 0x170410
/-- R288 -/
def Reg.AGT_CG_ARMS : Nat := 0x170418
/-- R288 -/
def Reg.AGT_CNT_INJECTED : Nat := 0x170420
/-- R288 -/
def Reg.AGT_CNT_PRESENTED : Nat := 0x170428
/-- R288 -/
def Reg.AGT_CNT_ACCEPT_LATE : Nat := 0x170430
/-- R288 -/
def Reg.AGT_CNT_INJ_REFUSED : Nat := 0x170438
/-- R288 -/
def Reg.AGT_CNT_UNIT_ERR : Nat := 0x170440
/-- R288 -/
def Reg.AGT_CNT_MSG_DENIED : Nat := 0x170448
/-- R288 -/
def Reg.AGT_CNT_HB_LATE : Nat := 0x170450
/-- R288 -/
def Reg.AGT_CNT_CG_EVENTS : Nat := 0x170458
/-- R289 -/
def Reg.MSR_SEL : Nat := 0x1C0000
/-- R289 -/
def Reg.MSR_VALUE0 : Nat := 0x1C0008
/-- R289 -/
def Reg.MSR_LAST_SEQ : Nat := 0x1C0048
/-- R289 -/
def Reg.MSR_SEQ : Nat := 0x1C0050
/-- R289 -/
def Reg.MSR_COUNT : Nat := 0x1C0058
/-- R317 -/
def Reg.CST_CTL : Nat := 0x10000
/-- R317 -/
def Reg.CST_STATUS : Nat := 0x10008
/-- R317 -/
def Reg.CST_CFG : Nat := 0x10010
/-- R317 -/
def Reg.CST_REPORT_BASE : Nat := 0x10018
/-- R317 -/
def Reg.CST_REPORT_PROD : Nat := 0x10020
/-- R317 -/
def Reg.CST_REPORT_CONS : Nat := 0x10028
/-- R317 -/
def Reg.CST_AGENTS : Nat := 0x10030
/-- R317 -/
def Reg.CST_LINKS : Nat := 0x10038
/-- R317 -/
def Reg.CST_STEP1 : Nat := 0x10040
/-- R318 -/
def Reg.LNK_CTL : Nat := 0x1E0000
/-- R318 -/
def Reg.LNK_LANE_SEL : Nat := 0x1E0008
/-- R318 -/
def Reg.LNK_LANE_STATE : Nat := 0x1E0010
/-- R318 -/
def Reg.LNK_LANE_EYE : Nat := 0x1E0018
/-- R318 -/
def Reg.LNK_FAR_ID0 : Nat := 0x1E0020
/-- R318 -/
def Reg.LNK_SUMMARY : Nat := 0x1E0060
/-- R318 -/
def Reg.LNK_CNT_TRAIN_SAVED : Nat := 0x1E0080
/-- R318 -/
def Reg.LNK_CNT_TRAIN_FULL : Nat := 0x1E0088
/-- R318 -/
def Reg.LNK_CNT_TRAIN_FAIL : Nat := 0x1E0090
/-- R318 -/
def Reg.LNK_CNT_RETRY : Nat := 0x1E0098
/-- R350 -/
def Reg.WCH_CTL : Nat := 0x1F0000
/-- R350 -/
def Reg.WCH_STATUS : Nat := 0x1F0008
/-- R350 -/
def Reg.WCH_TIMER_SEL : Nat := 0x1F0010
/-- R350 -/
def Reg.WCH_TIMER : Nat := 0x1F0018
/-- R350 -/
def Reg.WCH_LIMIT : Nat := 0x1F0020
/-- R350 -/
def Reg.WCH_LAST_DUMP : Nat := 0x1F0028
/-- R350 -/
def Reg.WCH_SHARE : Nat := 0x1F0030
/-- R350 -/
def Reg.WCH_CNT_EXPIRED : Nat := 0x1F0080
/-- R350 -/
def Reg.WCH_CNT_LEVEL1 : Nat := 0x1F0088
/-- R350 -/
def Reg.WCH_CNT_LEVEL2 : Nat := 0x1F0090
/-- R350 -/
def Reg.WCH_CNT_LEVEL3 : Nat := 0x1F0098
/-- R350 -/
def Reg.WCH_CNT_LEVEL4 : Nat := 0x1F00A0
/-- R350 -/
def Reg.WCH_CNT_LEVEL5 : Nat := 0x1F00A8
/-- R350 -/
def Reg.WCH_CNT_EXHAUSTED : Nat := 0x1F00B0
/-- R350 -/
def Reg.WCH_CNT_DUMPS : Nat := 0x1F00B8
/-- R350 -/
def Reg.WCH_CNT_BLOCK_INVALID : Nat := 0x1F00C0
/-- R350 -/
def Reg.WCH_CNT_DUMP_SKIPPED : Nat := 0x1F00C8
/-- R350 -/
def Reg.WCH_CNT_PRESENT_ABORT : Nat := 0x1F00D0
/-- R350 -/
def Reg.WCH_CNT_LATE_ARRIVAL : Nat := 0x1F00D8
/-- R351 -/
def Reg.RCV_CTL : Nat := 0xF0000
/-- R351 -/
def Reg.RCV_ROLE : Nat := 0xF0008
/-- R351 -/
def Reg.RCV_FUNC_REINIT : Nat := 0xF0010
/-- R351 -/
def Reg.RCV_FUNC_STATUS : Nat := 0xF0018
/-- R351 -/
def Reg.RCV_CMD : Nat := 0xF0020
/-- R351 -/
def Reg.RCV_CMD_STATUS : Nat := 0xF0028
/-- R351 -/
def Reg.RCV_MIRROR : Nat := 0xF0030
/-- R351 -/
def Reg.RCV_CNT_REINIT : Nat := 0xF0080
/-- R351 -/
def Reg.RCV_CNT_CMD : Nat := 0xF0088
/-- R351 -/
def Reg.RCV_CNT_REPORTS : Nat := 0xF0090
/-- R351 -/
def Reg.RCV_CNT_LATE_ARRIVAL : Nat := 0xF0098
/-- R352 -/
def Reg.DMP_CTL : Nat := 0x100000
/-- R352 -/
def Reg.DMP_STATUS : Nat := 0x100008
/-- R352 -/
def Reg.DMP_RING : Nat := 0x100010
/-- R352 -/
def Reg.DMP_SEL : Nat := 0x100018
/-- R352 -/
def Reg.DMP_REC : Nat := 0x100020
/-- R352 -/
def Reg.DMP_REC_INFO : Nat := 0x100028
/-- R352 -/
def Reg.DMP_CNT_RECORDS : Nat := 0x100080
/-- R352 -/
def Reg.DMP_CNT_BLOCK_INVALID : Nat := 0x100088
/-- R352 -/
def Reg.DMP_CNT_LATE_ARRIVAL : Nat := 0x100090
/-- R370 -/
def Reg.TEL_CTL : Nat := 0x40000
/-- R370 -/
def Reg.TEL_CFG : Nat := 0x40008
/-- R370 -/
def Reg.TEL_STATUS : Nat := 0x40010
/-- R370 -/
def Reg.TEL_LAST : Nat := 0x40018
/-- R370 -/
def Reg.TEL_HIST_SEL : Nat := 0x40020
/-- R370 -/
def Reg.TEL_HIST_ADDR : Nat := 0x40028
/-- R370 -/
def Reg.TEL_TENANT_RING : Nat := 0x40030
/-- R370 -/
def Reg.TEL_TENANT_PROD : Nat := 0x40038
/-- R370 -/
def Reg.TEL_TENANT_CONS : Nat := 0x40040
/-- R370 -/
def Reg.TEL_HEALTH : Nat := 0x40048
/-- R370 -/
def Reg.TEL_CNT_RECORDS : Nat := 0x40080
/-- R370 -/
def Reg.TEL_CNT_MISSING : Nat := 0x40088
/-- R370 -/
def Reg.TEL_CNT_LATE : Nat := 0x40090
/-- R370 -/
def Reg.TEL_CNT_MALFORMED : Nat := 0x40098
/-- R370 -/
def Reg.TEL_CNT_TENANT_LOST : Nat := 0x400A0
/-- R372 -/
def Reg.WER_CTL : Nat := 0x120000
/-- R372 -/
def Reg.WER_CFG : Nat := 0x120008
/-- R372 -/
def Reg.WER_SEL : Nat := 0x120010
/-- R372 -/
def Reg.WER_RESULT : Nat := 0x120018
/-- R372 -/
def Reg.WER_FLEET : Nat := 0x120020
/-- R372 -/
def Reg.WER_COUNT : Nat := 0x120028
/-- R372 -/
def Reg.WER_CNT_SAMPLES : Nat := 0x120080
/-- R372 -/
def Reg.WER_CNT_RESTART : Nat := 0x120088
/-- R372 -/
def Reg.GAU_CTL : Nat := 0x110000
/-- R372 -/
def Reg.GAU_SEL : Nat := 0x110008
/-- R372 -/
def Reg.GAU_REGION : Nat := 0x110010
/-- R372 -/
def Reg.GAU_EXCEEDING : Nat := 0x110018
/-- R372 -/
def Reg.GAU_CNT_EXCEED : Nat := 0x110080
/-- R372 -/
def Reg.GAU_CNT_REPORTS : Nat := 0x110088
/-- R404 -/
def Reg.KST_CTL : Nat := 0x20000
/-- R404 -/
def Reg.KST_STATUS : Nat := 0x20008
/-- R404 -/
def Reg.KST_MGMT_AUTH : Nat := 0x20010
/-- R404 -/
def Reg.KST_ROLLBACK : Nat := 0x20018
/-- R404 -/
def Reg.KST_SEQ : Nat := 0x20020
/-- R404 -/
def Reg.KST_MEAS_SEL : Nat := 0x20028
/-- R404 -/
def Reg.KST_MEAS0 : Nat := 0x20030
/-- R404 -/
def Reg.KST_MEAS_SEQ : Nat := 0x20070
/-- R404 -/
def Reg.KST_KEYS : Nat := 0x20078
/-- R404 -/
def Reg.KST_CERT_ADDR : Nat := 0x20080
/-- R404 -/
def Reg.KST_CERT_LEN : Nat := 0x20088
/-- R404 -/
def Reg.KST_DIE_ID : Nat := 0x20090
/-- R404 -/
def Reg.KST_CNT_REPORTS : Nat := 0x200C0
/-- R404 -/
def Reg.KST_CNT_KEYS_ACCEPTED : Nat := 0x200C8
/-- R404 -/
def Reg.KST_CNT_KEYS_REFUSED : Nat := 0x200D0
/-- R404 -/
def Reg.KST_CNT_SESSION_FAIL : Nat := 0x200D8
/-- R404 -/
def Reg.KST_CNT_CERT_BAD : Nat := 0x200E0
/-- R404 -/
def Reg.KST_CNT_BAD_MAC : Nat := 0x200E8
/-- R405 -/
def Reg.GCM_CTL : Nat := 0x1A0000
/-- R405 -/
def Reg.GCM_STATUS : Nat := 0x1A0008
/-- R405 -/
def Reg.GCM_SLOT_SEL : Nat := 0x1A0010
/-- R405 -/
def Reg.GCM_SLOT : Nat := 0x1A0018
/-- R405 -/
def Reg.GCM_SLOT_KEY_ID0 : Nat := 0x1A0020
/-- R405 -/
def Reg.GCM_SLOT_INSTANCE : Nat := 0x1A0030
/-- R405 -/
def Reg.GCM_WRAP_SEQ : Nat := 0x1A0038
/-- R405 -/
def Reg.GCM_CNT_ENC : Nat := 0x1A0080
/-- R405 -/
def Reg.GCM_CNT_DEC : Nat := 0x1A0088
/-- R405 -/
def Reg.GCM_CNT_TAG_FAIL : Nat := 0x1A0090
/-- R405 -/
def Reg.GCM_CNT_WRAP_REFUSED : Nat := 0x1A0098
/-- R405 -/
def Reg.GCM_CNT_KEY_MISS : Nat := 0x1A00A0
/-- R405 -/
def Reg.GCM_CNT_KEY_EXPIRED : Nat := 0x1A00A8
/-- R430 -/
def Reg.MTR_CTL : Nat := 0x60000
/-- R430 -/
def Reg.MTR_STATUS : Nat := 0x60008
/-- R430 -/
def Reg.MTR_SEAL : Nat := 0x60010
/-- R430 -/
def Reg.MTR_SEQ : Nat := 0x60018
/-- R430 -/
def Reg.MTR_SRC_ADDR : Nat := 0x60020
/-- R430 -/
def Reg.MTR_SRC_LEN : Nat := 0x60028
/-- R430 -/
def Reg.MTR_RING_BASE : Nat := 0x60030
/-- R430 -/
def Reg.MTR_RING_PROD : Nat := 0x60038
/-- R430 -/
def Reg.MTR_RING_CONS : Nat := 0x60040
/-- R430 -/
def Reg.MTR_CFG : Nat := 0x60048
/-- R430 -/
def Reg.MTR_LAST : Nat := 0x60050
/-- R430 -/
def Reg.MTR_KEY_ID0 : Nat := 0x60058
/-- R430 -/
def Reg.MTR_CNT_TAKEN : Nat := 0x60080
/-- R430 -/
def Reg.MTR_CNT_MALFORMED : Nat := 0x60088
/-- R430 -/
def Reg.MTR_CNT_KEY_UNKNOWN : Nat := 0x60090
/-- R430 -/
def Reg.MTR_CNT_BAD_MAC : Nat := 0x60098
/-- R430 -/
def Reg.MTR_CNT_STALE : Nat := 0x600A0
/-- R430 -/
def Reg.MTR_CNT_INTAKE_DROP : Nat := 0x600A8
/-- R430 -/
def Reg.MTR_CNT_BATCHES : Nat := 0x600B0
/-- R430 -/
def Reg.MTR_CNT_LATE : Nat := 0x600B8
/-- R431 -/
def Reg.MTP_CTL : Nat := 0x1B0000
/-- R431 -/
def Reg.MTP_STATUS : Nat := 0x1B0008
/-- R431 -/
def Reg.MTP_KEY_SEL : Nat := 0x1B0010
/-- R431 -/
def Reg.MTP_KEY_ID : Nat := 0x1B0018
/-- R431 -/
def Reg.MTP_KEY_FID : Nat := 0x1B0020
/-- R431 -/
def Reg.MTP_KEY_SEQ : Nat := 0x1B0028
/-- R431 -/
def Reg.MTP_ENERGY : Nat := 0x1B0030
/-- R431 -/
def Reg.MTP_INTERVAL : Nat := 0x1B0038
/-- R431 -/
def Reg.MTP_CNT_RECORDS : Nat := 0x1B0080
/-- R431 -/
def Reg.MTP_CNT_WORMS : Nat := 0x1B0088
/-- R431 -/
def Reg.MTP_CNT_ENCAPS_REFUSED : Nat := 0x1B0090
/-- R450 -/
def Reg.EVR_CTL : Nat := 0x70000
/-- R450 -/
def Reg.EVR_STATUS : Nat := 0x70008
/-- R450 -/
def Reg.EVR_WR_SEQ0 : Nat := 0x70010
/-- R450 -/
def Reg.EVR_WR_SEQ1 : Nat := 0x70018
/-- R450 -/
def Reg.EVR_RD_SEL : Nat := 0x70020
/-- R450 -/
def Reg.EVR_RD_DATA0 : Nat := 0x70028
/-- R450 -/
def Reg.EVR_RET_COUNT : Nat := 0x70228
/-- R450 -/
def Reg.EVR_TIME_BASE : Nat := 0x70230
/-- R450 -/
def Reg.EVR_OPSEC : Nat := 0x70238
/-- R450 -/
def Reg.EVR_CNT_RECORDS : Nat := 0x70280
/-- R450 -/
def Reg.EVR_CNT_OVERWRITTEN : Nat := 0x70288
/-- R450 -/
def Reg.EVR_CNT_FALLBACK_LOST : Nat := 0x70290
/-- R450 -/
def Reg.EVR_CNT_QUEUE_DROP : Nat := 0x70298
/-- R450 -/
def Reg.EVR_CNT_SNAP_TIMEOUT : Nat := 0x702A0
/-- R450 -/
def Reg.EVR_CNT_FWD_SENT : Nat := 0x702A8
/-- R450 -/
def Reg.EVR_CNT_FWD_LOST : Nat := 0x702B0
/-- R451 -/
def Reg.FLC_CTL : Nat := 0x80000
/-- R451 -/
def Reg.FLC_STATUS : Nat := 0x80008
/-- R451 -/
def Reg.FLC_ALERT : Nat := 0x80010
/-- R451 -/
def Reg.FLC_FENCED : Nat := 0x80018
/-- R451 -/
def Reg.FLC_UNIT_SEL : Nat := 0x80020
/-- R451 -/
def Reg.FLC_UNIT : Nat := 0x80028
/-- R451 -/
def Reg.FLC_INJECT : Nat := 0x80030
/-- R451 -/
def Reg.FLC_CNT_S0 : Nat := 0x80080
/-- R451 -/
def Reg.FLC_CNT_S1 : Nat := 0x80088
/-- R451 -/
def Reg.FLC_CNT_S2 : Nat := 0x80090
/-- R451 -/
def Reg.FLC_CNT_S3 : Nat := 0x80098
/-- R451 -/
def Reg.FLC_CNT_S4 : Nat := 0x800A0
/-- R472 -/
def Reg.SKN_CTL : Nat := 0xC0000
/-- R472 -/
def Reg.SKN_PORT_SEL : Nat := 0xC0008
/-- R472 -/
def Reg.SKN_PORT_STATUS : Nat := 0xC0010
/-- R472 -/
def Reg.SKN_QP_SEL : Nat := 0xC0018
/-- R472 -/
def Reg.SKN_QP_CFG : Nat := 0xC0020
/-- R472 -/
def Reg.SKN_QP_STATUS : Nat := 0xC0028
/-- R472 -/
def Reg.SKN_SESSION : Nat := 0xC0030
/-- R472 -/
def Reg.SKN_CNT_FRAMES_RX : Nat := 0xC0080
/-- R472 -/
def Reg.SKN_CNT_PLAIN_DISCARD : Nat := 0xC0088
/-- R472 -/
def Reg.SKN_CNT_TAG_FAIL : Nat := 0xC0090
/-- R472 -/
def Reg.SKN_CNT_CREDIT_OVERRUN : Nat := 0xC0098
/-- R472 -/
def Reg.SKN_CNT_LATE_ARRIVAL : Nat := 0xC00A0
/-- R473 -/
def Reg.MNP_CTL : Nat := 0xD0000
/-- R473 -/
def Reg.MNP_CFG : Nat := 0xD0008
/-- R473 -/
def Reg.MNP_ADDR0 : Nat := 0xD0010
/-- R473 -/
def Reg.MNP_PREFIX : Nat := 0xD0020
/-- R473 -/
def Reg.MNP_STATUS : Nat := 0xD0028
/-- R473 -/
def Reg.MNP_CNT_ACCEPTED : Nat := 0xD0080
/-- R473 -/
def Reg.MNP_CNT_REFUSED : Nat := 0xD0088
/-- R473 -/
def Reg.MNP_CNT_AUTH_FAIL : Nat := 0xD0090
/-- R474 -/
def Reg.MBX_CTL : Nat := 0x90000
/-- R474 -/
def Reg.MBX_A_CFG : Nat := 0x90008
/-- R474 -/
def Reg.MBX_A_STATUS : Nat := 0x90010
/-- R474 -/
def Reg.MBX_A_PEER_SEL : Nat := 0x90018
/-- R474 -/
def Reg.MBX_A_PEER : Nat := 0x90020
/-- R474 -/
def Reg.MBX_CNT_A_RETX : Nat := 0x90080
/-- R474 -/
def Reg.MBX_CNT_A_TIMEOUT : Nat := 0x90088
/-- R474 -/
def Reg.MBX_CNT_A_DUPLICATE : Nat := 0x90090
/-- R474 -/
def Reg.MBX_CNT_A_SKIPPED : Nat := 0x90098
/-- R474 -/
def Reg.MBX_CNT_MARK_DENIED : Nat := 0x900A0
/-- R474 -/
def Reg.MBX_CNT_LATE_ARRIVAL : Nat := 0x900A8
/-- R474 -/
def Reg.MBX_CNT_PAT_DISCARD : Nat := 0x900B0
/-- R474 -/
def Reg.MBX_CNT_B_LOST : Nat := 0x900B8
/-- R474 -/
def Reg.MBX_CNT_A_UNKNOWN : Nat := 0x900C0
/-- R474 -/
def Reg.MBX_RMT_ADDR : Nat := 0x90100
/-- R474 -/
def Reg.MBX_RMT_CMD : Nat := 0x90108
/-- R474 -/
def Reg.MBX_RMT_STATUS : Nat := 0x90110
/-- R474 -/
def Reg.MBX_B_TX0 : Nat := 0x91000
/-- R474 -/
def Reg.MBX_B_CMD : Nat := 0x91040
/-- R474 -/
def Reg.MBX_B_STATUS : Nat := 0x91048
/-- R474 -/
def Reg.MBX_B_RX0 : Nat := 0x91080
/-- R492 -/
def Reg.MEM_CTL : Nat := 0xB0000
/-- R492 -/
def Reg.MEM_STATUS : Nat := 0xB0008
/-- R492 -/
def Reg.MEM_CFG : Nat := 0xB0010
/-- R492 -/
def Reg.MEM_CHAN_SEL : Nat := 0xB0018
/-- R492 -/
def Reg.MEM_CHAN : Nat := 0xB0020
/-- R492 -/
def Reg.MEM_SPARES : Nat := 0xB0028
/-- R492 -/
def Reg.MEM_MERGE : Nat := 0xB0030
/-- R492 -/
def Reg.MEM_SCRUB : Nat := 0xB0038
/-- R492 -/
def Reg.MEM_ERR_ADDR : Nat := 0xB0040
/-- R492 -/
def Reg.MEM_ERR_INFO : Nat := 0xB0048
/-- R492 -/
def Reg.MEM_CNT_CORRECTED : Nat := 0xB0080
/-- R492 -/
def Reg.MEM_CNT_UNCORRECTABLE : Nat := 0xB0088
/-- R492 -/
def Reg.MEM_CNT_SCRUB_WB : Nat := 0xB0090
/-- R492 -/
def Reg.MEM_CNT_SPARED : Nat := 0xB0098
/-- R492 -/
def Reg.MEM_CNT_MERGE_WAIT : Nat := 0xB00A0
/-- R493 -/
def Reg.CVU_CTL : Nat := 0xA0000
/-- R493 -/
def Reg.CVU_STATUS : Nat := 0xA0008
/-- R493 -/
def Reg.CVU_SRC : Nat := 0xA0010
/-- R493 -/
def Reg.CVU_DST : Nat := 0xA0018
/-- R493 -/
def Reg.CVU_LEN : Nat := 0xA0020
/-- R493 -/
def Reg.CVU_RUN : Nat := 0xA0028
/-- R493 -/
def Reg.CVU_COUNT : Nat := 0xA0030
/-- R493 -/
def Reg.CVU_VALUE : Nat := 0xA0038
/-- R511 -/
def Reg.FDS_CTL : Nat := 0x140000
/-- R511 -/
def Reg.FDS_STATUS : Nat := 0x140008
/-- R511 -/
def Reg.FDS_SRC_ADDR : Nat := 0x140010
/-- R511 -/
def Reg.FDS_SRC_LEN : Nat := 0x140018
/-- R511 -/
def Reg.FDS_CFG : Nat := 0x140020
/-- R511 -/
def Reg.FDS_IMAGE : Nat := 0x140028
/-- R511 -/
def Reg.FDS_AGENTS : Nat := 0x140030
/-- R511 -/
def Reg.FDS_AGENTS2 : Nat := 0x140038
/-- R511 -/
def Reg.FDS_COURSE : Nat := 0x140040
/-- R511 -/
def Reg.FDS_CNT_CHUNKS : Nat := 0x140080
/-- R511 -/
def Reg.FDS_CNT_UNICAST : Nat := 0x140088
/-- R511 -/
def Reg.FDS_CNT_ROW_REPAIR : Nat := 0x140090
/-- R511 -/
def Reg.FDS_CNT_QUERIES : Nat := 0x140098
/-- R512 -/
def Reg.AGT_FW_STATUS : Nat := 0x170700
/-- R512 -/
def Reg.AGT_FW_VERSION : Nat := 0x170708
/-- R512 -/
def Reg.AGT_FW_ROLLBACK : Nat := 0x170710
/-- R512 -/
def Reg.AGT_CNT_FW_CHUNK_BAD : Nat := 0x170718
/-- R512 -/
def Reg.AGT_CNT_FW_DUPLICATE : Nat := 0x170720
/-- R516 -/
def Reg.CTL_ID : Nat := 0x0
/-- R516 -/
def Reg.CTL_DIE_ID : Nat := 0x8
/-- R516 -/
def Reg.CTL_CAP : Nat := 0x10
/-- R516 -/
def Reg.CTL_CAP2 : Nat := 0x18
/-- R516 -/
def Reg.CTL_LOCK : Nat := 0x20
/-- R516 -/
def Reg.CTL_FW : Nat := 0x28
/-- R516 -/
def Reg.CTL_MAP_SEL : Nat := 0x30
/-- R516 -/
def Reg.CTL_MAP : Nat := 0x38
/-- R517 -/
def Reg.AGT_ID : Nat := 0x170000
/-- R517 -/
def Reg.AGT_DIE_ID : Nat := 0x170008
/-- R517 -/
def Reg.AGT_CAP : Nat := 0x170010
/-- R517 -/
def Reg.AGT_CAP2 : Nat := 0x170018
/-- R517 -/
def Reg.AGT_IDENT : Nat := 0x170020
/-- R517 -/
def Reg.AGT_FABRIC_ID : Nat := 0x170028
/-- R517 -/
def Reg.AGT_LOCK : Nat := 0x170030
/-- R517 -/
def Reg.AGT_BOOT : Nat := 0x170038
/-- R517 -/
def Reg.AGT_MAP_SEL : Nat := 0x170100
/-- R517 -/
def Reg.AGT_MAP : Nat := 0x170108
/-- R522 -/
def Reg.FAB_CTL : Nat := 0xE0000
/-- R522 -/
def Reg.FAB_LANE_SEL : Nat := 0xE0008
/-- R522 -/
def Reg.FAB_LANE_STATE : Nat := 0xE0010
/-- R522 -/
def Reg.FAB_LANE_EYE : Nat := 0xE0018
/-- R522 -/
def Reg.FAB_AGENT : Nat := 0xE0020
/-- R522 -/
def Reg.FAB_CNT_TRAIN_FULL : Nat := 0xE0080
/-- R522 -/
def Reg.FAB_CNT_TRAIN_FAIL : Nat := 0xE0088
/-- R523 -/
def Reg.BLK_CTL : Nat := 0x1D0000
/-- R523 -/
def Reg.BLK_SHARE_SEL : Nat := 0x1D0008
/-- R523 -/
def Reg.BLK_SHARE : Nat := 0x1D0010
/-- R523 -/
def Reg.BLK_CNT_FULL : Nat := 0x1D0080
/-- R523 -/
def Reg.TRY_CTL : Nat := 0x200000
/-- R523 -/
def Reg.TRY_STATUS : Nat := 0x200008
/-- R523 -/
def Reg.TRY_CNT_CYCLES : Nat := 0x200080
/-- R319 -/
def Reg.AGT_CST_STATUS : Nat := 0x170500
/-- R371 -/
def Reg.AGT_TEL_CFG : Nat := 0x170600
/-- R543 -/
def Reg.AGT_VCORE : Nat := 0x170900
/-- R519 -/
def Reg.AGT_CG_SEL : Nat := 0x170800
/-- R519 -/
def Reg.AGT_CG_CTX0 : Nat := 0x170808
/-- R519 -/
def Reg.AGT_CG_CTX1 : Nat := 0x170810
/-- R429 -/
def Reg.TEL_METER_RING : Nat := 0x40050
/-- R429 -/
def Reg.TEL_METER_PROD : Nat := 0x40058
/-- R429 -/
def Reg.TEL_METER_CONS : Nat := 0x40060

/-! ## Fields -/

/-- 1 begins a load from PAT_SRC_ADDR on Pelron -/
def Fl.PAT_CTL_start : Fld := ⟨Reg.PAT_CTL, 0, 0⟩
/-- 1 discards a Pattern in RECEIVING -/
def Fl.PAT_CTL_abort : Fld := ⟨Reg.PAT_CTL, 1, 1⟩
/-- 0b000 — IDLE -/
def Fl.PAT_STATUS_state : Fld := ⟨Reg.PAT_STATUS, 2, 0⟩
/-- 0b00 — none -/
def Fl.PAT_STATUS_last_result : Fld := ⟨Reg.PAT_STATUS, 9, 8⟩
/-- refusal code -/
def Fl.PAT_STATUS_code : Fld := ⟨Reg.PAT_STATUS, 23, 16⟩
/-- detail code -/
def Fl.PAT_STATUS_detail : Fld := ⟨Reg.PAT_STATUS, 31, 24⟩
/-- sequence of the failing row -/
def Fl.PAT_STATUS_row_seq : Fld := ⟨Reg.PAT_STATUS, 63, 32⟩
/-- 1 clears every LKP_CNT register and its saturation bit -/
def Fl.LKP_CTL_clear_counters : Fld := ⟨Reg.LKP_CTL, 0, 0⟩
/-- 1 sets LKP_STATUS.locked -/
def Fl.LKP_CTL_lock : Fld := ⟨Reg.LKP_CTL, 1, 1⟩
/-- bit 0 of the active epoch -/
def Fl.LKP_STATUS_epoch_bit : Fld := ⟨Reg.LKP_STATUS, 0, 0⟩
/-- slot 0 holds valid tables -/
def Fl.LKP_STATUS_slot0_valid : Fld := ⟨Reg.LKP_STATUS, 1, 1⟩
/-- slot 1 holds valid tables -/
def Fl.LKP_STATUS_slot1_valid : Fld := ⟨Reg.LKP_STATUS, 2, 2⟩
/-- RWL fields of LKP are locked until agent reset -/
def Fl.LKP_STATUS_locked : Fld := ⟨Reg.LKP_STATUS, 3, 3⟩
/-- H -/
def Fl.LKP_HOP_INIT_hop_init : Fld := ⟨Reg.LKP_HOP_INIT, 5, 0⟩
/-- request timeout in ns. A write below 2 × D -/
def Fl.LKP_REQ_TIMEOUT_timeout_ns : Fld := ⟨Reg.LKP_REQ_TIMEOUT, 31, 0⟩
/-- flits of reply space in the host's RSP ejection queue -/
def Fl.LKP_RSP_SPACE_space_flits : Fld := ⟨Reg.LKP_RSP_SPACE, 19, 0⟩
/-- flits reserved for replies not yet returned -/
def Fl.LKP_RSP_RESERVED_reserved_flits : Fld := ⟨Reg.LKP_RSP_RESERVED, 19, 0⟩
/-- largest reserved_flits since agent reset or LKP_CTL.clear_co -/
def Fl.LKP_RSP_RESERVED_high_water : Fld := ⟨Reg.LKP_RSP_RESERVED, 39, 20⟩
/-- 1 returns the follower to INVALID -/
def Fl.PLB_CTL_reload : Fld := ⟨Reg.PLB_CTL, 0, 0⟩
/-- 1 clears every PLB_CNT register and its saturation bit -/
def Fl.PLB_CTL_clear_counters : Fld := ⟨Reg.PLB_CTL, 1, 1⟩
/-- 0b000 — INVALID -/
def Fl.PLB_STATUS_state : Fld := ⟨Reg.PLB_STATUS, 2, 0⟩
/-- per R174 -/
def Fl.PLB_STATUS_chain_locked : Fld := ⟨Reg.PLB_STATUS, 3, 3⟩
/-- bond in use as parent -/
def Fl.PLB_STATUS_parent_in_use : Fld := ⟨Reg.PLB_STATUS, 11, 4⟩
/-- consecutive in-window exchanges -/
def Fl.PLB_STATUS_in_window : Fld := ⟨Reg.PLB_STATUS, 15, 12⟩
/-- probe periods elapsed in HOLDOVER -/
def Fl.PLB_STATUS_holdover_periods : Fld := ⟨Reg.PLB_STATUS, 22, 16⟩
/-- bond -/
def Fl.PLB_PARENT_parent : Fld := ⟨Reg.PLB_PARENT, 7, 0⟩
/-- first alternate bond -/
def Fl.PLB_PARENT_alt1 : Fld := ⟨Reg.PLB_PARENT, 15, 8⟩
/-- second alternate bond -/
def Fl.PLB_PARENT_alt2 : Fld := ⟨Reg.PLB_PARENT, 23, 16⟩
/-- LOCKED window -/
def Fl.PLB_WINDOW_window_ps : Fld := ⟨Reg.PLB_WINDOW, 7, 0⟩
/-- HOLDOVER limit -/
def Fl.PLB_WINDOW_hold_limit : Fld := ⟨Reg.PLB_WINDOW, 15, 8⟩
/-- 0b00 — NONE -/
def Fl.PLB_LINK_STATE_state : Fld := ⟨Reg.PLB_LINK_STATE, 1, 0⟩
/-- bits [3:0] of the state byte of the last probe received -/
def Fl.PLB_LINK_STATE_far_state : Fld := ⟨Reg.PLB_LINK_STATE, 11, 8⟩
/-- the far end's k for this bond's class -/
def Fl.PLB_LINK_STATE_far_skew : Fld := ⟨Reg.PLB_LINK_STATE, 63, 32⟩
/-- 0 — FREE -/
def Fl.PLB_MASTER_CTL_mode : Fld := ⟨Reg.PLB_MASTER_CTL, 0, 0⟩
/-- 1 locks the RWL registers of PLB until controller reset -/
def Fl.PLB_MASTER_CTL_lock : Fld := ⟨Reg.PLB_MASTER_CTL, 8, 8⟩
/-- 1 lets the array take tasks -/
def Fl.SOL_CTL_tile_en : Fld := ⟨Reg.SOL_CTL, 0, 0⟩
/-- 1 clears every SOL_CNT register and its saturation bit -/
def Fl.SOL_CTL_clear_counters : Fld := ⟨Reg.SOL_CTL, 1, 1⟩
/-- 0b00 — IDLE -/
def Fl.SOL_STATUS_state : Fld := ⟨Reg.SOL_STATUS, 1, 0⟩
/-- kind of the running task -/
def Fl.SOL_STATUS_task : Fld := ⟨Reg.SOL_STATUS, 5, 2⟩
/-- entry index -/
def Fl.SHD_CMD_index : Fld := ⟨Reg.SHD_CMD, 21, 0⟩
/-- 0b00 — READ: entry into SHD_ENTRY -/
def Fl.SHD_CMD_op : Fld := ⟨Reg.SHD_CMD, 23, 22⟩
/-- 0b000 — OK -/
def Fl.SHD_STATUS_result : Fld := ⟨Reg.SHD_STATUS, 2, 0⟩
/-- 1 queues the request at ADM_REQ_ADDR and ADM_REQ_LEN (R217) -/
def Fl.ADM_CTL_submit : Fld := ⟨Reg.ADM_CTL, 0, 0⟩
/-- 1 queues release of the tag in ADM_REL_TAG (R231) -/
def Fl.ADM_CTL_release : Fld := ⟨Reg.ADM_CTL, 1, 1⟩
/-- 1 clears every ADM_CNT register and its saturation bit -/
def Fl.ADM_CTL_clear_counters : Fld := ⟨Reg.ADM_CTL, 2, 2⟩
/-- 0b00 — IDLE -/
def Fl.ADM_STATUS_state : Fld := ⟨Reg.ADM_STATUS, 1, 0⟩
/-- 0b000 — none -/
def Fl.ADM_STATUS_last_cmd : Fld := ⟨Reg.ADM_STATUS, 4, 2⟩
/-- requests queued -/
def Fl.ADM_STATUS_queued : Fld := ⟨Reg.ADM_STATUS, 15, 8⟩
/-- 1 while records wait in the backlog (R228) -/
def Fl.ADM_STATUS_ring_full : Fld := ⟨Reg.ADM_STATUS, 16, 16⟩
/-- 1 clears every PRL_CNT register and its saturation bit -/
def Fl.PRL_CTL_clear_counters : Fld := ⟨Reg.PRL_CTL, 0, 0⟩
/-- 0b00 — IDLE: no descriptor active -/
def Fl.PRL_STATUS_state : Fld := ⟨Reg.PRL_STATUS, 1, 0⟩
/-- active descriptors -/
def Fl.PRL_STATUS_descriptors : Fld := ⟨Reg.PRL_STATUS, 14, 8⟩
/-- 1 while TEST_EN opens PRL_STO_ADDR and PRL_STO_DATA -/
def Fl.PRL_STATUS_test_access : Fld := ⟨Reg.PRL_STATUS, 16, 16⟩
/-- collective of the selected descriptor -/
def Fl.PRL_DESC_collective_id : Fld := ⟨Reg.PRL_DESC, 31, 0⟩
/-- partition tag -/
def Fl.PRL_DESC_partition : Fld := ⟨Reg.PRL_DESC, 43, 32⟩
/-- 0b00 — NONE -/
def Fl.PRL_DESC_state : Fld := ⟨Reg.PRL_DESC, 45, 44⟩
/-- chunk slots of the descriptor -/
def Fl.PRL_DESC_chunk_slots : Fld := ⟨Reg.PRL_DESC, 58, 48⟩
/-- 1 clears every AGT_CNT register and its saturation bit -/
def Fl.AGT_HIF_CTL_clear_counters : Fld := ⟨Reg.AGT_HIF_CTL, 0, 0⟩
/-- 1 from HOST_READY until agent reset or the start of a host r -/
def Fl.AGT_HIF_STATUS_host_ready : Fld := ⟨Reg.AGT_HIF_STATUS, 0, 0⟩
/-- classes with a presentation open -/
def Fl.AGT_HIF_STATUS_open_presentations : Fld := ⟨Reg.AGT_HIF_STATUS, 3, 1⟩
/-- m of R265 -/
def Fl.AGT_HIF_STATUS_data_modules : Fld := ⟨Reg.AGT_HIF_STATUS, 11, 8⟩
/-- message credits held by the host -/
def Fl.AGT_HIF_STATUS_msg_credits : Fld := ⟨Reg.AGT_HIF_STATUS, 22, 16⟩
/-- step to run -/
def Fl.CST_CTL_step : Fld := ⟨Reg.CST_CTL, 3, 0⟩
/-- 1 starts the step under R291 -/
def Fl.CST_CTL_run : Fld := ⟨Reg.CST_CTL, 4, 4⟩
/-- 1 aborts the running step under R292 -/
def Fl.CST_CTL_abort : Fld := ⟨Reg.CST_CTL, 5, 5⟩
/-- 1 forces full training in steps 2 -/
def Fl.CST_CTL_full : Fld := ⟨Reg.CST_CTL, 6, 6⟩
/-- step running or last run -/
def Fl.CST_STATUS_current : Fld := ⟨Reg.CST_STATUS, 3, 0⟩
/-- 0b00 — IDLE -/
def Fl.CST_STATUS_state : Fld := ⟨Reg.CST_STATUS, 5, 4⟩
/-- 1 when cast-on is warm (R296) -/
def Fl.CST_STATUS_warm : Fld := ⟨Reg.CST_STATUS, 6, 6⟩
/-- 1 when step 10 is DONE -/
def Fl.CST_STATUS_serving : Fld := ⟨Reg.CST_STATUS, 7, 7⟩
/-- quiet time of R311 -/
def Fl.CST_CFG_quiet_s : Fld := ⟨Reg.CST_CFG, 7, 0⟩
/-- step 7 timeout -/
def Fl.CST_CFG_disc_limit_s : Fld := ⟨Reg.CST_CFG, 23, 8⟩
/-- 0b00 — IDLE -/
def Fl.CST_STEP_state : Fld := ⟨Reg.CST_STEP1, 1, 0⟩
/-- 1 when anything was fully trained in the step -/
def Fl.CST_STEP_fully_trained : Fld := ⟨Reg.CST_STEP1, 2, 2⟩
/-- failure code of R297's table -/
def Fl.CST_STEP_code : Fld := ⟨Reg.CST_STEP1, 15, 8⟩
/-- detail of that code -/
def Fl.CST_STEP_detail : Fld := ⟨Reg.CST_STEP1, 23, 16⟩
/-- duration of the last run -/
def Fl.CST_STEP_duration_ms : Fld := ⟨Reg.CST_STEP1, 63, 32⟩
/-- 1 retrains the selected lane under R299 -/
def Fl.LNK_CTL_retrain : Fld := ⟨Reg.LNK_CTL, 0, 0⟩
/-- 1 clears every LNK_CNT register and its saturation bit -/
def Fl.LNK_CTL_clear_counters : Fld := ⟨Reg.LNK_CTL, 1, 1⟩
/-- 0b000 — DOWN -/
def Fl.LNK_LANE_STATE_state : Fld := ⟨Reg.LNK_LANE_STATE, 2, 0⟩
/-- reach class trained -/
def Fl.LNK_LANE_STATE_class : Fld := ⟨Reg.LNK_LANE_STATE, 4, 3⟩
/-- 0b00 — none -/
def Fl.LNK_LANE_STATE_source : Fld := ⟨Reg.LNK_LANE_STATE, 6, 5⟩
/-- bond of the lane -/
def Fl.LNK_LANE_STATE_bond : Fld := ⟨Reg.LNK_LANE_STATE, 15, 8⟩
/-- trainings since agent reset -/
def Fl.LNK_LANE_STATE_trainings : Fld := ⟨Reg.LNK_LANE_STATE, 31, 16⟩
/-- detail of R312 for a HELD lane -/
def Fl.LNK_LANE_STATE_detail : Fld := ⟨Reg.LNK_LANE_STATE, 39, 32⟩
/-- seconds until the next retry of an UNTRAINED lane -/
def Fl.LNK_LANE_STATE_retry_s : Fld := ⟨Reg.LNK_LANE_STATE, 47, 40⟩
/-- 1 clears every WCH_CNT register and its saturation bit -/
def Fl.WCH_CTL_clear_counters : Fld := ⟨Reg.WCH_CTL, 0, 0⟩
/-- level in progress -/
def Fl.WCH_STATUS_level : Fld := ⟨Reg.WCH_STATUS, 2, 0⟩
/-- 1 during bind-off -/
def Fl.WCH_STATUS_bind_off : Fld := ⟨Reg.WCH_STATUS, 3, 3⟩
/-- 0x0 — IDLE -/
def Fl.WCH_STATUS_state : Fld := ⟨Reg.WCH_STATUS, 7, 4⟩
/-- target as commanded or as reported -/
def Fl.WCH_STATUS_target : Fld := ⟨Reg.WCH_STATUS, 15, 8⟩
/-- 0b00 — none -/
def Fl.WCH_STATUS_origin : Fld := ⟨Reg.WCH_STATUS, 17, 16⟩
/-- the expired timer -/
def Fl.WCH_STATUS_timer : Fld := ⟨Reg.WCH_STATUS, 23, 20⟩
/-- level 4 limit -/
def Fl.WCH_LIMIT_l4_ms : Fld := ⟨Reg.WCH_LIMIT, 15, 0⟩
/-- level 5 limit -/
def Fl.WCH_LIMIT_l5_ms : Fld := ⟨Reg.WCH_LIMIT, 31, 16⟩
/-- grace for commanded levels 1 to 4 -/
def Fl.WCH_LIMIT_grace_ms : Fld := ⟨Reg.WCH_LIMIT, 47, 32⟩
/-- 1 resets the controller under R346 -/
def Fl.RCV_CTL_ctrl_reset : Fld := ⟨Reg.RCV_CTL, 0, 0⟩
/-- 1 clears every RCV_CNT register and its saturation bit -/
def Fl.RCV_CTL_clear_counters : Fld := ⟨Reg.RCV_CTL, 1, 1⟩
/-- must be 0x5A for ctrl_reset to act -/
def Fl.RCV_CTL_key : Fld := ⟨Reg.RCV_CTL, 15, 8⟩
/-- agent addressed -/
def Fl.RCV_CMD_fid : Fld := ⟨Reg.RCV_CMD, 17, 0⟩
/-- 1 to 5 -/
def Fl.RCV_CMD_level : Fld := ⟨Reg.RCV_CMD, 20, 18⟩
/-- context or engine -/
def Fl.RCV_CMD_target : Fld := ⟨Reg.RCV_CMD, 31, 24⟩
/-- 1 continues up the levels on failure -/
def Fl.RCV_CMD_escalate : Fld := ⟨Reg.RCV_CMD, 32, 32⟩
/-- 1 takes a dump and nothing else -/
def Fl.RCV_CMD_dump_only : Fld := ⟨Reg.RCV_CMD, 33, 33⟩
/-- k of R353. A write whose window_log2 lies below the variant' -/
def Fl.TEL_CFG_window_log2 : Fld := ⟨Reg.TEL_CFG, 3, 0⟩
/-- m of R361. A write whose tenant_log2 lies below 4 -/
def Fl.TEL_CFG_tenant_log2 : Fld := ⟨Reg.TEL_CFG, 7, 4⟩
/-- 1 enables records at every agent -/
def Fl.TEL_CFG_enable : Fld := ⟨Reg.TEL_CFG, 8, 8⟩
/-- 1 clears every KST_CNT register and its saturation bit -/
def Fl.KST_CTL_clear_counters : Fld := ⟨Reg.KST_CTL, 0, 0⟩
/-- 1 loads the bundle at KST_CERT_ADDR (R380) -/
def Fl.KST_CTL_load_certs : Fld := ⟨Reg.KST_CTL, 1, 1⟩
/-- 1 arms enrolment while the operator store is empty (R383) -/
def Fl.KST_CTL_enrol : Fld := ⟨Reg.KST_CTL, 2, 2⟩
/-- 1 blows the field named by field to the running index -/
def Fl.KST_CTL_rollback_commit : Fld := ⟨Reg.KST_CTL, 3, 3⟩
/-- 0b000 — keystone_fw -/
def Fl.KST_CTL_field : Fld := ⟨Reg.KST_CTL, 6, 4⟩
/-- must be 0xC3 for rollback_commit to act -/
def Fl.KST_CTL_key : Fld := ⟨Reg.KST_CTL, 15, 8⟩
/-- 0b00 — ROM -/
def Fl.KST_STATUS_boot : Fld := ⟨Reg.KST_STATUS, 1, 0⟩
/-- 1 in test mode (R379) -/
def Fl.KST_STATUS_test_mode : Fld := ⟨Reg.KST_STATUS, 2, 2⟩
/-- 1 after a debug attach since reset (R397) -/
def Fl.KST_STATUS_debug_attached : Fld := ⟨Reg.KST_STATUS, 3, 3⟩
/-- 1 when the operator store passed its tag -/
def Fl.KST_STATUS_store_valid : Fld := ⟨Reg.KST_STATUS, 4, 4⟩
/-- 1 while enrolment is armed -/
def Fl.KST_STATUS_enrol_armed : Fld := ⟨Reg.KST_STATUS, 5, 5⟩
/-- 1 while a report is being built (R402) -/
def Fl.KST_STATUS_report_busy : Fld := ⟨Reg.KST_STATUS, 6, 6⟩
/-- 0b01 — KEYSTONE -/
def Fl.KST_MGMT_AUTH_auth : Fld := ⟨Reg.KST_MGMT_AUTH, 1, 0⟩
/-- 0b00 — EMPTY -/
def Fl.GCM_SLOT_state : Fld := ⟨Reg.GCM_SLOT, 1, 0⟩
/-- 0b00 — traffic -/
def Fl.GCM_SLOT_use : Fld := ⟨Reg.GCM_SLOT, 3, 2⟩
/-- partition tag -/
def Fl.GCM_SLOT_partition : Fld := ⟨Reg.GCM_SLOT, 19, 8⟩
/-- milliseconds of ACTIVE time as R392 measures it -/
def Fl.GCM_SLOT_active_ms : Fld := ⟨Reg.GCM_SLOT, 63, 32⟩
/-- 1 loads the image at MTR_SRC_ADDR under R409 -/
def Fl.MTR_CTL_load_fw : Fld := ⟨Reg.MTR_CTL, 0, 0⟩
/-- 1 loads the METER Pattern at MTR_SRC_ADDR (R410) -/
def Fl.MTR_CTL_load_pattern : Fld := ⟨Reg.MTR_CTL, 1, 1⟩
/-- 1 clears every MTR_CNT register and its saturation bit -/
def Fl.MTR_CTL_clear_counters : Fld := ⟨Reg.MTR_CTL, 2, 2⟩
/-- must be 0x3C for load_fw to act -/
def Fl.MTR_CTL_key : Fld := ⟨Reg.MTR_CTL, 15, 8⟩
/-- 0b00 — STARTING -/
def Fl.MTR_STATUS_state : Fld := ⟨Reg.MTR_STATUS, 1, 0⟩
/-- 0b000 — none -/
def Fl.MTR_STATUS_load_result : Fld := ⟨Reg.MTR_STATUS, 4, 2⟩
/-- refusal code of R96 -/
def Fl.MTR_STATUS_pattern_code : Fld := ⟨Reg.MTR_STATUS, 15, 8⟩
/-- detail of R96 -/
def Fl.MTR_STATUS_pattern_detail : Fld := ⟨Reg.MTR_STATUS, 23, 16⟩
/-- 1 when the snapshot verified at the last start -/
def Fl.MTR_STATUS_snapshot_valid : Fld := ⟨Reg.MTR_STATUS, 24, 24⟩
/-- 1 while the next batch will set GAP -/
def Fl.MTR_STATUS_gap_pending : Fld := ⟨Reg.MTR_STATUS, 25, 25⟩
/-- 1 while batches wait in SRAM (R423) -/
def Fl.MTR_STATUS_ring_full : Fld := ⟨Reg.MTR_STATUS, 26, 26⟩
/-- 1 clears every EVR_CNT register and its saturation bit -/
def Fl.EVR_CTL_clear_counters : Fld := ⟨Reg.EVR_CTL, 0, 0⟩
/-- 1 empties the retained area -/
def Fl.EVR_CTL_retained_clear : Fld := ⟨Reg.EVR_CTL, 1, 1⟩
/-- must be 0xE7 for retained_clear to act -/
def Fl.EVR_CTL_key : Fld := ⟨Reg.EVR_CTL, 15, 8⟩
/-- 0b00 — NORMAL -/
def Fl.EVR_STATUS_mode : Fld := ⟨Reg.EVR_STATUS, 1, 0⟩
/-- highest severity lost in the fall-back since reset -/
def Fl.EVR_STATUS_lost_sev : Fld := ⟨Reg.EVR_STATUS, 4, 2⟩
/-- records held in the fall-back -/
def Fl.EVR_STATUS_fallback_used : Fld := ⟨Reg.EVR_STATUS, 21, 8⟩
/-- 1 when the retained area holds its 4 -/
def Fl.EVR_STATUS_retained_full : Fld := ⟨Reg.EVR_STATUS, 22, 22⟩
/-- 1 clears every FLC_CNT register and its saturation bit -/
def Fl.FLC_CTL_clear_counters : Fld := ⟨Reg.FLC_CTL, 0, 0⟩
/-- 1 enters the safe state (R443) -/
def Fl.FLC_CTL_enter_safe : Fld := ⟨Reg.FLC_CTL, 1, 1⟩
/-- must be 0xA5 for enter_safe to act -/
def Fl.FLC_CTL_key : Fld := ⟨Reg.FLC_CTL, 15, 8⟩
/-- 1 in the safe state -/
def Fl.FLC_STATUS_safe : Fld := ⟨Reg.FLC_STATUS, 0, 0⟩
/-- highest severity raised since reset -/
def Fl.FLC_STATUS_worst : Fld := ⟨Reg.FLC_STATUS, 3, 1⟩
/-- event code that caused the safe state -/
def Fl.FLC_STATUS_safe_code : Fld := ⟨Reg.FLC_STATUS, 23, 8⟩
/-- block index of the target -/
def Fl.FLC_INJECT_block : Fld := ⟨Reg.FLC_INJECT, 7, 0⟩
/-- instance within the block -/
def Fl.FLC_INJECT_instance : Fld := ⟨Reg.FLC_INJECT, 23, 8⟩
/-- 0b000 — none -/
def Fl.FLC_INJECT_kind : Fld := ⟨Reg.FLC_INJECT, 26, 24⟩
/-- faults to raise -/
def Fl.FLC_INJECT_count : Fld := ⟨Reg.FLC_INJECT, 47, 32⟩
/-- 0b00 — DOWN -/
def Fl.SKN_PORT_STATUS_link : Fld := ⟨Reg.SKN_PORT_STATUS, 1, 0⟩
/-- 0b00 — NONE -/
def Fl.SKN_PORT_STATUS_session : Fld := ⟨Reg.SKN_PORT_STATUS, 3, 2⟩
/-- 1 while R455 admits plaintext REG_REQ -/
def Fl.SKN_PORT_STATUS_prelude : Fld := ⟨Reg.SKN_PORT_STATUS, 4, 4⟩
/-- lanes up -/
def Fl.SKN_PORT_STATUS_lanes : Fld := ⟨Reg.SKN_PORT_STATUS, 9, 8⟩
/-- frame credits the control node holds -/
def Fl.SKN_PORT_STATUS_credits : Fld := ⟨Reg.SKN_PORT_STATUS, 31, 16⟩
/-- messages waiting for this master -/
def Fl.MBX_B_STATUS_rx_count : Fld := ⟨Reg.MBX_B_STATUS, 3, 0⟩
/-- this master's messages not yet popped -/
def Fl.MBX_B_STATUS_tx_count : Fld := ⟨Reg.MBX_B_STATUS, 7, 4⟩
/-- 0b000 — OK -/
def Fl.MBX_B_STATUS_result : Fld := ⟨Reg.MBX_B_STATUS, 10, 8⟩
/-- 1 when this master is master_a or master_b -/
def Fl.MBX_B_STATUS_bound : Fld := ⟨Reg.MBX_B_STATUS, 11, 11⟩
/-- 1 after messages were lost under R471 -/
def Fl.MBX_B_STATUS_lost : Fld := ⟨Reg.MBX_B_STATUS, 12, 12⟩
/-- scrub period -/
def Fl.MEM_CFG_scrub_hours : Fld := ⟨Reg.MEM_CFG, 7, 0⟩
/-- corrected code words per row in one pass above which the row -/
def Fl.MEM_CFG_row_limit : Fld := ⟨Reg.MEM_CFG, 15, 8⟩
/-- 1 permits sparing under R486 -/
def Fl.MEM_CFG_spare_en : Fld := ⟨Reg.MEM_CFG, 16, 16⟩
/-- 0b00 — DOWN -/
def Fl.MEM_CHAN_state : Fld := ⟨Reg.MEM_CHAN, 1, 0⟩
/-- 1 when the last step 2 trained it fully -/
def Fl.MEM_CHAN_fully_trained : Fld := ⟨Reg.MEM_CHAN, 2, 2⟩
/-- number in the usable list -/
def Fl.MEM_CHAN_usable_index : Fld := ⟨Reg.MEM_CHAN, 14, 8⟩
/-- spare rows not yet used -/
def Fl.MEM_CHAN_spares_free : Fld := ⟨Reg.MEM_CHAN, 23, 16⟩
/-- CORRECTED outcomes since step 2 -/
def Fl.MEM_CHAN_corrected : Fld := ⟨Reg.MEM_CHAN, 63, 32⟩
/-- 1 starts an operation under R489 -/
def Fl.CVU_CTL_start : Fld := ⟨Reg.CVU_CTL, 0, 0⟩
/-- 1 aborts under R491 -/
def Fl.CVU_CTL_abort : Fld := ⟨Reg.CVU_CTL, 1, 1⟩
/-- 0 — CRC-32C -/
def Fl.CVU_CTL_code : Fld := ⟨Reg.CVU_CTL, 2, 2⟩
/-- 0b00 — COMPUTE -/
def Fl.CVU_CTL_mode : Fld := ⟨Reg.CVU_CTL, 4, 3⟩
/-- 1 loads init into the running value -/
def Fl.CVU_CTL_first : Fld := ⟨Reg.CVU_CTL, 5, 5⟩
/-- 1 finalises -/
def Fl.CVU_CTL_last : Fld := ⟨Reg.CVU_CTL, 6, 6⟩
/-- 1 while an operation runs -/
def Fl.CVU_STATUS_busy : Fld := ⟨Reg.CVU_STATUS, 0, 0⟩
/-- 0b000 — DONE -/
def Fl.CVU_STATUS_result : Fld := ⟨Reg.CVU_STATUS, 3, 1⟩
/-- code of the last operation -/
def Fl.CVU_STATUS_code : Fld := ⟨Reg.CVU_STATUS, 4, 4⟩
/-- 1 stages the image at FDS_SRC_ADDR (R496) -/
def Fl.FDS_CTL_stage : Fld := ⟨Reg.FDS_CTL, 0, 0⟩
/-- 1 distributes the staged agent image (R498) -/
def Fl.FDS_CTL_distribute : Fld := ⟨Reg.FDS_CTL, 1, 1⟩
/-- 1 activates the distributed image (R507) -/
def Fl.FDS_CTL_activate : Fld := ⟨Reg.FDS_CTL, 2, 2⟩
/-- 1 sends FW_COMMIT (R510) -/
def Fl.FDS_CTL_commit : Fld := ⟨Reg.FDS_CTL, 3, 3⟩
/-- 1 sends FW_ABANDON and ends the distribution (R510) -/
def Fl.FDS_CTL_abandon : Fld := ⟨Reg.FDS_CTL, 4, 4⟩
/-- 1 clears every FDS_CNT register and its saturation bit -/
def Fl.FDS_CTL_clear_counters : Fld := ⟨Reg.FDS_CTL, 5, 5⟩
/-- 0b000 — IDLE -/
def Fl.FDS_STATUS_state : Fld := ⟨Reg.FDS_STATUS, 2, 0⟩
/-- 0b000 — OK -/
def Fl.FDS_STATUS_result : Fld := ⟨Reg.FDS_STATUS, 10, 8⟩
/-- interval between chunks of a pass -/
def Fl.FDS_CFG_chunk_ns : Fld := ⟨Reg.FDS_CFG, 15, 0⟩
/-- repair rounds -/
def Fl.FDS_CFG_rounds : Fld := ⟨Reg.FDS_CFG, 23, 16⟩
/-- R505 -/
def Fl.FDS_CFG_quiet_us : Fld := ⟨Reg.FDS_CFG, 39, 24⟩
/-- R507 -/
def Fl.FDS_CFG_lead_ms : Fld := ⟨Reg.FDS_CFG, 55, 40⟩
/-- state of R502 -/
def Fl.AGT_FW_STATUS_state : Fld := ⟨Reg.AGT_FW_STATUS, 2, 0⟩
/-- bank the agent core runs from -/
def Fl.AGT_FW_STATUS_active_bank : Fld := ⟨Reg.AGT_FW_STATUS, 3, 3⟩
/-- 1 when the ROM booted the other bank (R504) -/
def Fl.AGT_FW_STATUS_bank_fallback : Fld := ⟨Reg.AGT_FW_STATUS, 4, 4⟩
/-- last refusal reason (R503) -/
def Fl.AGT_FW_STATUS_reason : Fld := ⟨Reg.AGT_FW_STATUS, 15, 8⟩
/-- chunks held -/
def Fl.AGT_FW_STATUS_received : Fld := ⟨Reg.AGT_FW_STATUS, 31, 16⟩
/-- image held -/
def Fl.AGT_FW_STATUS_image_id : Fld := ⟨Reg.AGT_FW_STATUS, 63, 32⟩
/-- 0x9400 — PLN-9400 -/
def Fl.CTL_ID_part : Fld := ⟨Reg.CTL_ID, 15, 0⟩
/-- bits [23:20] letter -/
def Fl.CTL_ID_stepping : Fld := ⟨Reg.CTL_ID, 23, 16⟩
/-- the Yarulais family -/
def Fl.CTL_ID_family : Fld := ⟨Reg.CTL_ID, 31, 24⟩
/-- register-map version that this manual describes -/
def Fl.CTL_ID_map_version : Fld := ⟨Reg.CTL_ID, 47, 32⟩
/-- logical solver tiles T: 256 -/
def Fl.CTL_CAP_tiles : Fld := ⟨Reg.CTL_CAP, 8, 0⟩
/-- 1 when the Sealed Meter is present -/
def Fl.CTL_CAP_meter : Fld := ⟨Reg.CTL_CAP, 9, 9⟩
/-- 2 -/
def Fl.CTL_CAP_skein_ports : Fld := ⟨Reg.CTL_CAP, 11, 10⟩
/-- 32 -/
def Fl.CTL_CAP_fabric_lanes : Fld := ⟨Reg.CTL_CAP, 17, 12⟩
/-- 24 -/
def Fl.CTL_CAP_lpddr6_packages : Fld := ⟨Reg.CTL_CAP, 22, 18⟩
/-- LPDDR6 Mbit/s per pin: 12 -/
def Fl.CTL_CAP_data_rate : Fld := ⟨Reg.CTL_CAP, 39, 24⟩
/-- W: 320 -/
def Fl.CTL_CAP_power_limit : Fld := ⟨Reg.CTL_CAP, 49, 40⟩
/-- mV: 800 -/
def Fl.CTL_CAP_vcore_ceiling : Fld := ⟨Reg.CTL_CAP, 61, 50⟩
/-- 96 -/
def Fl.CTL_CAP2_mem_channels : Fld := ⟨Reg.CTL_CAP2, 6, 0⟩
/-- check-value units -/
def Fl.CTL_CAP2_cvu_units : Fld := ⟨Reg.CTL_CAP2, 11, 8⟩
/-- class B channels -/
def Fl.CTL_CAP2_mbx_b_channels : Fld := ⟨Reg.CTL_CAP2, 22, 16⟩
/-- management cores -/
def Fl.CTL_CAP2_mgmt_cores : Fld := ⟨Reg.CTL_CAP2, 31, 24⟩
/-- 272 -/
def Fl.CTL_CAP2_physical_tiles : Fld := ⟨Reg.CTL_CAP2, 40, 32⟩
/-- set when cast-on step 1 starts -/
def Fl.CTL_LOCK_cast_on : Fld := ⟨Reg.CTL_LOCK, 0, 0⟩
/-- set by PLB_MASTER_CTL.lock -/
def Fl.CTL_LOCK_plumb : Fld := ⟨Reg.CTL_LOCK, 1, 1⟩
/-- set at the first ADMISSION task -/
def Fl.CTL_LOCK_admission : Fld := ⟨Reg.CTL_LOCK, 2, 2⟩
/-- set when step 10 is DONE -/
def Fl.CTL_LOCK_tenant_rings : Fld := ⟨Reg.CTL_LOCK, 3, 3⟩
/-- set at the first batch after a meter start -/
def Fl.CTL_LOCK_meter_ring : Fld := ⟨Reg.CTL_LOCK, 4, 4⟩
/-- set when the BASE Pattern's MBXBIND row applies -/
def Fl.CTL_LOCK_mailboxes : Fld := ⟨Reg.CTL_LOCK, 5, 5⟩
/-- 1 when the Purl engine is present: TWD-210 -/
def Fl.AGT_CAP_purl : Fld := ⟨Reg.AGT_CAP, 0, 0⟩
/-- logical accumulator lanes: 512 -/
def Fl.AGT_CAP_purl_lanes : Fld := ⟨Reg.AGT_CAP, 10, 1⟩
/-- physical accumulator lanes: 544 -/
def Fl.AGT_CAP_purl_physical : Fld := ⟨Reg.AGT_CAP, 20, 11⟩
/-- 32 or 16 -/
def Fl.AGT_CAP_store_mib : Fld := ⟨Reg.AGT_CAP, 26, 21⟩
/-- 256 -/
def Fl.AGT_CAP_key_slots : Fld := ⟨Reg.AGT_CAP, 35, 27⟩
/-- 8 -/
def Fl.AGT_CAP_ucie_modules : Fld := ⟨Reg.AGT_CAP, 39, 36⟩
/-- 2 -/
def Fl.AGT_CAP_cvu_units : Fld := ⟨Reg.AGT_CAP, 42, 40⟩
/-- 16 -/
def Fl.AGT_CAP_watch_timers : Fld := ⟨Reg.AGT_CAP, 47, 43⟩
/-- 16 -/
def Fl.AGT_CAP_mbx_b_channels : Fld := ⟨Reg.AGT_CAP, 52, 48⟩
/-- W: 30 or 20 -/
def Fl.AGT_CAP_power_limit : Fld := ⟨Reg.AGT_CAP, 62, 53⟩
/-- 800 mV -/
def Fl.AGT_CAP2_vcore_ceiling : Fld := ⟨Reg.AGT_CAP2, 11, 0⟩
/-- 8 -/
def Fl.AGT_CAP2_table_sram_mib : Fld := ⟨Reg.AGT_CAP2, 19, 12⟩
/-- 4 -/
def Fl.AGT_CAP2_bulk_mib : Fld := ⟨Reg.AGT_CAP2, 23, 20⟩
/-- 16 -/
def Fl.AGT_CAP2_msr_registers : Fld := ⟨Reg.AGT_CAP2, 28, 24⟩
/-- FID (R33) -/
def Fl.AGT_IDENT_fid : Fld := ⟨Reg.AGT_IDENT, 17, 0⟩
/-- rack index (R35) -/
def Fl.AGT_IDENT_rack : Fld := ⟨Reg.AGT_IDENT, 28, 18⟩
/-- rack bits [10:6] -/
def Fl.AGT_IDENT_row : Fld := ⟨Reg.AGT_IDENT, 33, 29⟩
/-- rack bits [5:0] -/
def Fl.AGT_IDENT_column : Fld := ⟨Reg.AGT_IDENT, 39, 34⟩
/-- slot (R35) -/
def Fl.AGT_IDENT_slot : Fld := ⟨Reg.AGT_IDENT, 46, 40⟩
/-- 1 once an IDENT row has applied -/
def Fl.AGT_IDENT_named : Fld := ⟨Reg.AGT_IDENT, 47, 47⟩
/-- MODE_SEL[1:0] as sampled under R4 -/
def Fl.AGT_IDENT_mode : Fld := ⟨Reg.AGT_IDENT, 49, 48⟩
/-- 1 in MODE_INVALID (R5) -/
def Fl.AGT_IDENT_mode_invalid : Fld := ⟨Reg.AGT_IDENT, 50, 50⟩
/-- equal to LKP_STATUS.locked (R144) -/
def Fl.AGT_LOCK_lookup : Fld := ⟨Reg.AGT_LOCK, 0, 0⟩
/-- set at the first activation of an AGENT Pattern -/
def Fl.AGT_LOCK_plumb : Fld := ⟨Reg.AGT_LOCK, 1, 1⟩
/-- set at the first activation of an AGENT Pattern -/
def Fl.AGT_LOCK_watch : Fld := ⟨Reg.AGT_LOCK, 2, 2⟩
/-- set at the first activation at an epoch course -/
def Fl.AGT_LOCK_time_base : Fld := ⟨Reg.AGT_LOCK, 3, 3⟩
/-- set when an MBXBIND row applies (R91) -/
def Fl.AGT_LOCK_mailboxes : Fld := ⟨Reg.AGT_LOCK, 4, 4⟩
/-- 0b000 — OK -/
def Fl.AGT_BOOT_rom_result : Fld := ⟨Reg.AGT_BOOT, 2, 0⟩
/-- 1 when self test found a defect that the spares cannot hide -/
def Fl.AGT_BOOT_self_test_fail : Fld := ⟨Reg.AGT_BOOT, 3, 3⟩
/-- link_level of the running firmware -/
def Fl.AGT_BOOT_link_level : Fld := ⟨Reg.AGT_BOOT, 31, 16⟩
/-- state of R302 -/
def Fl.AGT_CST_STATUS_state : Fld := ⟨Reg.AGT_CST_STATUS, 3, 0⟩
/-- 1 while the agent is in the cast-on regime (R307) -/
def Fl.AGT_CST_STATUS_cast_on_regime : Fld := ⟨Reg.AGT_CST_STATUS, 4, 4⟩
/-- epoch_bit of the sponsor's identity block -/
def Fl.AGT_CST_STATUS_sponsor_epoch_bit : Fld := ⟨Reg.AGT_CST_STATUS, 5, 5⟩
/-- bond over which the first AGENT Pattern arrived -/
def Fl.AGT_CST_STATUS_sponsor_bond : Fld := ⟨Reg.AGT_CST_STATUS, 15, 8⟩
/-- milliseconds from agent reset to the last change of state -/
def Fl.AGT_CST_STATUS_changed_ms : Fld := ⟨Reg.AGT_CST_STATUS, 63, 32⟩
/-- k from change_at on -/
def Fl.AGT_TEL_CFG_window_log2 : Fld := ⟨Reg.AGT_TEL_CFG, 3, 0⟩
/-- 1 sends records from change_at on -/
def Fl.AGT_TEL_CFG_enable : Fld := ⟨Reg.AGT_TEL_CFG, 4, 4⟩
/-- fabric time of effect -/
def Fl.AGT_TEL_CFG_change_at : Fld := ⟨Reg.AGT_TEL_CFG, 63, 16⟩
/-- lowest permitted VDD_CORE in mV -/
def Fl.AGT_VCORE_floor_mv : Fld := ⟨Reg.AGT_VCORE, 11, 0⟩
/-- VDD_CORE at the bumps -/
def Fl.AGT_VCORE_measured_mv : Fld := ⟨Reg.AGT_VCORE, 27, 16⟩
/-- lowest measured_mv since the last write of floor_mv -/
def Fl.AGT_VCORE_lowest_mv : Fld := ⟨Reg.AGT_VCORE, 43, 32⟩

/-! ## Tables -/

/-- Rows of block CTL, part 0. -/
def rowsCTL0 : List RegRow := [
  ⟨0x0, .ro, 0x0, 0x10059000000, 1⟩,
  ⟨0x8, .ro, 0x0, 0x0, 1⟩,
  ⟨0x10, .ro, 0x0, 0x0, 1⟩,
  ⟨0x18, .ro, 0x0, 0x11010400800, 1⟩,
  ⟨0x20, .ro, 0x0, 0x0, 1⟩,
  ⟨0x28, .ro, 0x0, 0x0, 1⟩,
  ⟨0x30, .rw, 0x1FF000F, 0x0, 1⟩,
  ⟨0x38, .ro, 0x0, 0x0, 1⟩]
/-- The registers of block CTL, in offset order. -/
def rowsCTL : List RegRow := rowsCTL0
/-- Rows of block CST, part 0. -/
def rowsCST0 : List RegRow := [
  ⟨0x10000, .wo, 0x7F, 0x0, 1⟩,
  ⟨0x10008, .ro, 0x0, 0x0, 1⟩,
  ⟨0x10010, .rwl, 0xFFFFFF, 0x7805, 1⟩,
  ⟨0x10018, .rwl, 0xFFFFFFFFFFFFFFFF, 0x0, 1⟩,
  ⟨0x10020, .ro, 0x0, 0x0, 1⟩,
  ⟨0x10028, .rw, 0xFFFF, 0x0, 1⟩,
  ⟨0x10030, .ro, 0x0, 0x0, 1⟩,
  ⟨0x10038, .ro, 0x0, 0x0, 1⟩,
  ⟨0x10040, .ro, 0x0, 0x0, 1⟩,
  ⟨0x10048, .ro, 0x0, 0x0, 1⟩,
  ⟨0x10050, .ro, 0x0, 0x0, 1⟩,
  ⟨0x10058, .ro, 0x0, 0x0, 1⟩,
  ⟨0x10060, .ro, 0x0, 0x0, 1⟩,
  ⟨0x10068, .ro, 0x0, 0x0, 1⟩,
  ⟨0x10070, .ro, 0x0, 0x0, 1⟩,
  ⟨0x10078, .ro, 0x0, 0x0, 1⟩,
  ⟨0x10080, .ro, 0x0, 0x0, 1⟩,
  ⟨0x10088, .ro, 0x0, 0x0, 1⟩]
/-- The registers of block CST, in offset order. -/
def rowsCST : List RegRow := rowsCST0
/-- Rows of block KST, part 0. -/
def rowsKST0 : List RegRow := [
  ⟨0x20000, .wo, 0xFF7F, 0x0, 1⟩,
  ⟨0x20008, .ro, 0x0, 0x0, 1⟩,
  ⟨0x20010, .rwl, 0x3, 0x1, 1⟩,
  ⟨0x20018, .ro, 0x0, 0x0, 1⟩,
  ⟨0x20020, .ro, 0x0, 0x0, 1⟩,
  ⟨0x20028, .rw, 0x7, 0x0, 1⟩,
  ⟨0x20030, .ro, 0x0, 0x0, 1⟩,
  ⟨0x20038, .ro, 0x0, 0x0, 1⟩,
  ⟨0x20040, .ro, 0x0, 0x0, 1⟩,
  ⟨0x20048, .ro, 0x0, 0x0, 1⟩,
  ⟨0x20050, .ro, 0x0, 0x0, 1⟩,
  ⟨0x20058, .ro, 0x0, 0x0, 1⟩,
  ⟨0x20060, .ro, 0x0, 0x0, 1⟩,
  ⟨0x20068, .ro, 0x0, 0x0, 1⟩,
  ⟨0x20070, .ro, 0x0, 0x0, 1⟩,
  ⟨0x20078, .ro, 0x0, 0x0, 1⟩,
  ⟨0x20080, .rw, 0xFFFFFFFFFFFFFFFF, 0x0, 1⟩,
  ⟨0x20088, .rw, 0xFFFFFFF, 0x0, 1⟩,
  ⟨0x20090, .ro, 0x0, 0x0, 1⟩,
  ⟨0x200C0, .ro, 0x0, 0x0, 1⟩,
  ⟨0x200C8, .ro, 0x0, 0x0, 1⟩,
  ⟨0x200D0, .ro, 0x0, 0x0, 1⟩,
  ⟨0x200D8, .ro, 0x0, 0x0, 1⟩,
  ⟨0x200E0, .ro, 0x0, 0x0, 1⟩,
  ⟨0x200E8, .ro, 0x0, 0x0, 1⟩]
/-- The registers of block KST, in offset order. -/
def rowsKST : List RegRow := rowsKST0
/-- Rows of block SOL, part 0. -/
def rowsSOL0 : List RegRow := [
  ⟨0x30000, .rw, 0x3, 0x0, 1⟩,
  ⟨0x30008, .ro, 0x0, 0x0, 1⟩,
  ⟨0x30010, .ro, 0x0, 0x0, 1⟩,
  ⟨0x30018, .rw, 0xFF, 0x0, 1⟩,
  ⟨0x30020, .ro, 0x0, 0x0, 1⟩,
  ⟨0x30028, .ro, 0x0, 0x0, 1⟩,
  ⟨0x30030, .ro, 0x0, 0x0, 1⟩,
  ⟨0x30038, .ro, 0x0, 0x0, 1⟩,
  ⟨0x30040, .ro, 0x0, 0x0, 1⟩,
  ⟨0x30048, .ro, 0x0, 0x0, 1⟩,
  ⟨0x30050, .ro, 0x0, 0x0, 1⟩,
  ⟨0x30058, .ro, 0x0, 0x0, 1⟩,
  ⟨0x30060, .ro, 0x0, 0x0, 1⟩,
  ⟨0x30068, .ro, 0x0, 0x0, 1⟩,
  ⟨0x30070, .ro, 0x0, 0x0, 1⟩,
  ⟨0x30078, .ro, 0x0, 0x0, 1⟩,
  ⟨0x30080, .ro, 0x0, 0x0, 1⟩,
  ⟨0x30088, .ro, 0x0, 0x0, 1⟩,
  ⟨0x30090, .ro, 0x0, 0x0, 1⟩,
  ⟨0x30098, .ro, 0x0, 0x0, 1⟩]
/-- The registers of block SOL, in offset order. -/
def rowsSOL : List RegRow := rowsSOL0
/-- Rows of block TEL, part 0. -/
def rowsTEL0 : List RegRow := [
  ⟨0x40000, .wo, 0x1, 0x0, 1⟩,
  ⟨0x40008, .rw, 0x1FF, 0x142, 1⟩,
  ⟨0x40010, .ro, 0x0, 0x0, 1⟩,
  ⟨0x40018, .ro, 0x0, 0x0, 1⟩,
  ⟨0x40020, .rw, 0x3FF0003, 0x0, 1⟩,
  ⟨0x40028, .ro, 0x0, 0x0, 1⟩,
  ⟨0x40030, .rwl, 0xFFFFFFFFFFFFFFFF, 0x0, 1⟩,
  ⟨0x40038, .ro, 0x0, 0x0, 1⟩,
  ⟨0x40040, .rw, 0x3FFFFFF, 0x0, 1⟩,
  ⟨0x40048, .ro, 0x0, 0x0, 1⟩,
  ⟨0x40050, .rwl, 0xFFFFFFFFFFFFFFFF, 0x0, 3⟩,
  ⟨0x40058, .ro, 0x0, 0x0, 3⟩,
  ⟨0x40060, .rw, 0xFF, 0x0, 3⟩,
  ⟨0x40080, .ro, 0x0, 0x0, 1⟩,
  ⟨0x40088, .ro, 0x0, 0x0, 1⟩,
  ⟨0x40090, .ro, 0x0, 0x0, 1⟩,
  ⟨0x40098, .ro, 0x0, 0x0, 1⟩,
  ⟨0x400A0, .ro, 0x0, 0x0, 1⟩]
/-- The registers of block TEL, in offset order. -/
def rowsTEL : List RegRow := rowsTEL0
/-- Rows of block PLB, part 0. -/
def rowsPLB0 : List RegRow := [
  ⟨0x50000, .wo, 0x3, 0x0, 0⟩,
  ⟨0x50008, .ro, 0x0, 0x0, 0⟩,
  ⟨0x50010, .ro, 0x0, 0x0, 0⟩,
  ⟨0x50018, .ro, 0x0, 0xFF0, 2⟩,
  ⟨0x50020, .ro, 0x0, 0x0, 2⟩,
  ⟨0x50028, .rw, 0xFFFFFF, 0xFFFFFF, 2⟩,
  ⟨0x50030, .rw, 0xFFFF, 0xFFFF, 2⟩,
  ⟨0x50038, .rwl, 0xFFFF, 0x1020, 2⟩,
  ⟨0x50040, .rwl, 0xFFFFFFFFFFFFFFFF, 0x0, 2⟩,
  ⟨0x50048, .rwl, 0xFFFFFFFFFFFFFFFF, 0x0, 2⟩,
  ⟨0x50050, .rw, 0xFF, 0x0, 2⟩,
  ⟨0x50058, .ro, 0x0, 0x0, 2⟩,
  ⟨0x50060, .ro, 0x0, 0x0, 2⟩,
  ⟨0x50068, .rw, 0xFFFFFFFFFFFF, 0x0, 2⟩,
  ⟨0x50070, .ro, 0x0, 0x0, 2⟩,
  ⟨0x50078, .ro, 0x0, 0x0, 0⟩,
  ⟨0x50080, .ro, 0x0, 0x0, 0⟩,
  ⟨0x50088, .rwl, 0x1F, 0x0, 0⟩,
  ⟨0x50090, .ro, 0x0, 0x0, 0⟩,
  ⟨0x50098, .ro, 0x0, 0x0, 0⟩,
  ⟨0x500A0, .ro, 0x0, 0x0, 0⟩,
  ⟨0x500A8, .ro, 0x0, 0x0, 0⟩,
  ⟨0x500B0, .ro, 0x0, 0x0, 0⟩,
  ⟨0x500B8, .ro, 0x0, 0x0, 0⟩,
  ⟨0x50100, .rw, 0x101, 0x1, 1⟩,
  ⟨0x50108, .rwl, 0xFFFFFFFFFFFFFFFF, 0x0, 1⟩,
  ⟨0x50110, .rwl, 0xFFFF, 0x0, 1⟩,
  ⟨0x50118, .rw, 0xFFFFFFFF, 0x0, 1⟩]
/-- The registers of block PLB, in offset order. -/
def rowsPLB : List RegRow := rowsPLB0
/-- Rows of block MTR, part 0. -/
def rowsMTR0 : List RegRow := [
  ⟨0x60000, .wo, 0xFF07, 0x0, 1⟩,
  ⟨0x60008, .ro, 0x0, 0x0, 1⟩,
  ⟨0x60010, .ro, 0x0, 0x0, 1⟩,
  ⟨0x60018, .ro, 0x0, 0x0, 1⟩,
  ⟨0x60020, .rw, 0xFFFFFFFFFFFFFFFF, 0x0, 1⟩,
  ⟨0x60028, .rw, 0xFFFFFF, 0x0, 1⟩,
  ⟨0x60030, .rwl, 0xFFFFFFFFFFFFFFFF, 0x0, 1⟩,
  ⟨0x60038, .ro, 0x0, 0x0, 1⟩,
  ⟨0x60040, .rw, 0xFF, 0x0, 1⟩,
  ⟨0x60048, .ro, 0x0, 0x0, 1⟩,
  ⟨0x60050, .ro, 0x0, 0x0, 1⟩,
  ⟨0x60058, .ro, 0x0, 0x0, 1⟩,
  ⟨0x60060, .ro, 0x0, 0x0, 1⟩,
  ⟨0x60080, .ro, 0x0, 0x0, 1⟩,
  ⟨0x60088, .ro, 0x0, 0x0, 1⟩,
  ⟨0x60090, .ro, 0x0, 0x0, 1⟩,
  ⟨0x60098, .ro, 0x0, 0x0, 1⟩,
  ⟨0x600A0, .ro, 0x0, 0x0, 1⟩,
  ⟨0x600A8, .ro, 0x0, 0x0, 1⟩,
  ⟨0x600B0, .ro, 0x0, 0x0, 1⟩,
  ⟨0x600B8, .ro, 0x0, 0x0, 1⟩]
/-- The registers of block MTR, in offset order. -/
def rowsMTR : List RegRow := rowsMTR0
/-- Rows of block EVR, part 0. -/
def rowsEVR0 : List RegRow := [
  ⟨0x70000, .wo, 0xFF03, 0x0, 0⟩,
  ⟨0x70008, .ro, 0x0, 0x1D, 0⟩,
  ⟨0x70010, .ro, 0x0, 0x0, 0⟩,
  ⟨0x70018, .ro, 0x0, 0x0, 1⟩,
  ⟨0x70020, .rw, 0xFFFFFFFFFFFFFF03, 0x0, 0⟩,
  ⟨0x70028, .ro, 0x0, 0x0, 0⟩,
  ⟨0x70030, .ro, 0x0, 0x0, 0⟩,
  ⟨0x70038, .ro, 0x0, 0x0, 0⟩,
  ⟨0x70040, .ro, 0x0, 0x0, 0⟩,
  ⟨0x70048, .ro, 0x0, 0x0, 0⟩,
  ⟨0x70050, .ro, 0x0, 0x0, 0⟩,
  ⟨0x70058, .ro, 0x0, 0x0, 0⟩,
  ⟨0x70060, .ro, 0x0, 0x0, 0⟩,
  ⟨0x70068, .ro, 0x0, 0x0, 0⟩,
  ⟨0x70070, .ro, 0x0, 0x0, 0⟩,
  ⟨0x70078, .ro, 0x0, 0x0, 0⟩,
  ⟨0x70080, .ro, 0x0, 0x0, 0⟩,
  ⟨0x70088, .ro, 0x0, 0x0, 0⟩,
  ⟨0x70090, .ro, 0x0, 0x0, 0⟩,
  ⟨0x70098, .ro, 0x0, 0x0, 0⟩,
  ⟨0x700A0, .ro, 0x0, 0x0, 0⟩,
  ⟨0x700A8, .ro, 0x0, 0x0, 0⟩,
  ⟨0x700B0, .ro, 0x0, 0x0, 0⟩,
  ⟨0x700B8, .ro, 0x0, 0x0, 0⟩,
  ⟨0x700C0, .ro, 0x0, 0x0, 0⟩,
  ⟨0x700C8, .ro, 0x0, 0x0, 0⟩,
  ⟨0x700D0, .ro, 0x0, 0x0, 0⟩,
  ⟨0x700D8, .ro, 0x0, 0x0, 0⟩,
  ⟨0x700E0, .ro, 0x0, 0x0, 0⟩,
  ⟨0x700E8, .ro, 0x0, 0x0, 0⟩,
  ⟨0x700F0, .ro, 0x0, 0x0, 0⟩,
  ⟨0x700F8, .ro, 0x0, 0x0, 0⟩,
  ⟨0x70100, .ro, 0x0, 0x0, 0⟩,
  ⟨0x70108, .ro, 0x0, 0x0, 0⟩,
  ⟨0x70110, .ro, 0x0, 0x0, 0⟩,
  ⟨0x70118, .ro, 0x0, 0x0, 0⟩,
  ⟨0x70120, .ro, 0x0, 0x0, 0⟩,
  ⟨0x70128, .ro, 0x0, 0x0, 0⟩,
  ⟨0x70130, .ro, 0x0, 0x0, 0⟩,
  ⟨0x70138, .ro, 0x0, 0x0, 0⟩]
/-- Rows of block EVR, part 1. -/
def rowsEVR1 : List RegRow := [
  ⟨0x70140, .ro, 0x0, 0x0, 0⟩,
  ⟨0x70148, .ro, 0x0, 0x0, 0⟩,
  ⟨0x70150, .ro, 0x0, 0x0, 0⟩,
  ⟨0x70158, .ro, 0x0, 0x0, 0⟩,
  ⟨0x70160, .ro, 0x0, 0x0, 0⟩,
  ⟨0x70168, .ro, 0x0, 0x0, 0⟩,
  ⟨0x70170, .ro, 0x0, 0x0, 0⟩,
  ⟨0x70178, .ro, 0x0, 0x0, 0⟩,
  ⟨0x70180, .ro, 0x0, 0x0, 0⟩,
  ⟨0x70188, .ro, 0x0, 0x0, 0⟩,
  ⟨0x70190, .ro, 0x0, 0x0, 0⟩,
  ⟨0x70198, .ro, 0x0, 0x0, 0⟩,
  ⟨0x701A0, .ro, 0x0, 0x0, 0⟩,
  ⟨0x701A8, .ro, 0x0, 0x0, 0⟩,
  ⟨0x701B0, .ro, 0x0, 0x0, 0⟩,
  ⟨0x701B8, .ro, 0x0, 0x0, 0⟩,
  ⟨0x701C0, .ro, 0x0, 0x0, 0⟩,
  ⟨0x701C8, .ro, 0x0, 0x0, 0⟩,
  ⟨0x701D0, .ro, 0x0, 0x0, 0⟩,
  ⟨0x701D8, .ro, 0x0, 0x0, 0⟩,
  ⟨0x701E0, .ro, 0x0, 0x0, 0⟩,
  ⟨0x701E8, .ro, 0x0, 0x0, 0⟩,
  ⟨0x701F0, .ro, 0x0, 0x0, 0⟩,
  ⟨0x701F8, .ro, 0x0, 0x0, 0⟩,
  ⟨0x70200, .ro, 0x0, 0x0, 0⟩,
  ⟨0x70208, .ro, 0x0, 0x0, 0⟩,
  ⟨0x70210, .ro, 0x0, 0x0, 0⟩,
  ⟨0x70218, .ro, 0x0, 0x0, 0⟩,
  ⟨0x70220, .ro, 0x0, 0x0, 0⟩,
  ⟨0x70228, .ro, 0x0, 0x0, 0⟩,
  ⟨0x70230, .rwl, 0xFFFFFFFFFFFFFFFF, 0x0, 2⟩,
  ⟨0x70238, .ro, 0x0, 0x0, 0⟩,
  ⟨0x70280, .ro, 0x0, 0x0, 0⟩,
  ⟨0x70288, .ro, 0x0, 0x0, 0⟩,
  ⟨0x70290, .ro, 0x0, 0x0, 0⟩,
  ⟨0x70298, .ro, 0x0, 0x0, 0⟩,
  ⟨0x702A0, .ro, 0x0, 0x0, 0⟩,
  ⟨0x702A8, .ro, 0x0, 0x0, 2⟩,
  ⟨0x702B0, .ro, 0x0, 0x0, 1⟩]
/-- The registers of block EVR, in offset order. -/
def rowsEVR : List RegRow := rowsEVR0 ++ rowsEVR1
/-- Rows of block FLC, part 0. -/
def rowsFLC0 : List RegRow := [
  ⟨0x80000, .wo, 0xFF03, 0x0, 0⟩,
  ⟨0x80008, .ro, 0x0, 0x0, 0⟩,
  ⟨0x80010, .w1c, 0x1F, 0x0, 0⟩,
  ⟨0x80018, .ro, 0x0, 0x0, 0⟩,
  ⟨0x80020, .rw, 0xFFFFFF, 0x0, 0⟩,
  ⟨0x80028, .ro, 0x0, 0x0, 0⟩,
  ⟨0x80030, .rw, 0xFFFF07FFFFFF, 0x0, 0⟩,
  ⟨0x80080, .ro, 0x0, 0x0, 0⟩,
  ⟨0x80088, .ro, 0x0, 0x0, 0⟩,
  ⟨0x80090, .ro, 0x0, 0x0, 0⟩,
  ⟨0x80098, .ro, 0x0, 0x0, 0⟩,
  ⟨0x800A0, .ro, 0x0, 0x0, 0⟩]
/-- The registers of block FLC, in offset order. -/
def rowsFLC : List RegRow := rowsFLC0
/-- Rows of block MBX, part 0. -/
def rowsMBX0 : List RegRow := [
  ⟨0x90000, .wo, 0x1, 0x0, 0⟩,
  ⟨0x90008, .rwl, 0x1FFFFFF, 0x1080064, 0⟩,
  ⟨0x90010, .ro, 0x0, 0x0, 0⟩,
  ⟨0x90018, .rw, 0x3FFFF, 0x0, 0⟩,
  ⟨0x90020, .ro, 0x0, 0x0, 0⟩,
  ⟨0x90080, .ro, 0x0, 0x0, 0⟩,
  ⟨0x90088, .ro, 0x0, 0x0, 0⟩,
  ⟨0x90090, .ro, 0x0, 0x0, 0⟩,
  ⟨0x90098, .ro, 0x0, 0x0, 0⟩,
  ⟨0x900A0, .ro, 0x0, 0x0, 0⟩,
  ⟨0x900A8, .ro, 0x0, 0x0, 0⟩,
  ⟨0x900B0, .ro, 0x0, 0x0, 2⟩,
  ⟨0x900B8, .ro, 0x0, 0x0, 0⟩,
  ⟨0x900C0, .ro, 0x0, 0x0, 0⟩,
  ⟨0x90100, .rw, 0xFFFFFFFFFFFFFFFF, 0x0, 1⟩,
  ⟨0x90108, .wo, 0x10003FFFF, 0x0, 1⟩,
  ⟨0x90110, .ro, 0x0, 0x0, 1⟩,
  ⟨0x91000, .rw, 0xFFFFFFFFFFFFFFFF, 0x0, 0⟩,
  ⟨0x91008, .rw, 0xFFFFFFFFFFFFFFFF, 0x0, 0⟩,
  ⟨0x91010, .rw, 0xFFFFFFFFFFFFFFFF, 0x0, 0⟩,
  ⟨0x91018, .rw, 0xFFFFFFFFFFFFFFFF, 0x0, 0⟩,
  ⟨0x91020, .rw, 0xFFFFFFFFFFFFFFFF, 0x0, 0⟩,
  ⟨0x91028, .rw, 0xFFFFFFFFFFFFFFFF, 0x0, 0⟩,
  ⟨0x91030, .rw, 0xFFFFFFFFFFFFFFFF, 0x0, 0⟩,
  ⟨0x91038, .rw, 0xFFFFFFFFFFFFFFFF, 0x0, 0⟩,
  ⟨0x91040, .wo, 0x3, 0x0, 0⟩,
  ⟨0x91048, .ro, 0x0, 0x0, 0⟩,
  ⟨0x91080, .ro, 0x0, 0x0, 0⟩,
  ⟨0x91088, .ro, 0x0, 0x0, 0⟩,
  ⟨0x91090, .ro, 0x0, 0x0, 0⟩,
  ⟨0x91098, .ro, 0x0, 0x0, 0⟩,
  ⟨0x910A0, .ro, 0x0, 0x0, 0⟩,
  ⟨0x910A8, .ro, 0x0, 0x0, 0⟩,
  ⟨0x910B0, .ro, 0x0, 0x0, 0⟩,
  ⟨0x910B8, .ro, 0x0, 0x0, 0⟩]
/-- The registers of block MBX, in offset order. -/
def rowsMBX : List RegRow := rowsMBX0
/-- Rows of block CVU, part 0. -/
def rowsCVU0 : List RegRow := [
  ⟨0xA0000, .wo, 0x7F, 0x0, 0⟩,
  ⟨0xA0008, .ro, 0x0, 0x0, 0⟩,
  ⟨0xA0010, .rw, 0xFFFFFFFFFFFFFFFF, 0x0, 0⟩,
  ⟨0xA0018, .rw, 0xFFFFFFFFFFFFFFFF, 0x0, 0⟩,
  ⟨0xA0020, .rw, 0x1FFFFFF, 0x0, 0⟩,
  ⟨0xA0028, .rw, 0xFFFFFFFFFFFFFFFF, 0x0, 0⟩,
  ⟨0xA0030, .rw, 0xFFFFFFFFFFFF, 0x0, 0⟩,
  ⟨0xA0038, .ro, 0x0, 0x0, 0⟩]
/-- The registers of block CVU, in offset order. -/
def rowsCVU : List RegRow := rowsCVU0
/-- Rows of block MEM, part 0. -/
def rowsMEM0 : List RegRow := [
  ⟨0xB0000, .wo, 0x1, 0x0, 1⟩,
  ⟨0xB0008, .ro, 0x0, 0x0, 1⟩,
  ⟨0xB0010, .rw, 0x1FFFF, 0x10818, 1⟩,
  ⟨0xB0018, .rw, 0x7F, 0x0, 1⟩,
  ⟨0xB0020, .ro, 0x0, 0x7F00, 1⟩,
  ⟨0xB0028, .ro, 0x0, 0x0, 1⟩,
  ⟨0xB0030, .ro, 0x0, 0x0, 1⟩,
  ⟨0xB0038, .ro, 0x0, 0x0, 1⟩,
  ⟨0xB0040, .ro, 0x0, 0x0, 1⟩,
  ⟨0xB0048, .ro, 0x0, 0x0, 1⟩,
  ⟨0xB0080, .ro, 0x0, 0x0, 1⟩,
  ⟨0xB0088, .ro, 0x0, 0x0, 1⟩,
  ⟨0xB0090, .ro, 0x0, 0x0, 1⟩,
  ⟨0xB0098, .ro, 0x0, 0x0, 1⟩,
  ⟨0xB00A0, .ro, 0x0, 0x0, 1⟩]
/-- The registers of block MEM, in offset order. -/
def rowsMEM : List RegRow := rowsMEM0
/-- Rows of block SKN, part 0. -/
def rowsSKN0 : List RegRow := [
  ⟨0xC0000, .wo, 0x1, 0x0, 1⟩,
  ⟨0xC0008, .rw, 0x1, 0x0, 1⟩,
  ⟨0xC0010, .ro, 0x0, 0x10, 1⟩,
  ⟨0xC0018, .rw, 0x3FF, 0x0, 1⟩,
  ⟨0xC0020, .rw, 0x7, 0x0, 1⟩,
  ⟨0xC0028, .ro, 0x0, 0x0, 1⟩,
  ⟨0xC0030, .ro, 0x0, 0x0, 1⟩,
  ⟨0xC0080, .ro, 0x0, 0x0, 1⟩,
  ⟨0xC0088, .ro, 0x0, 0x0, 1⟩,
  ⟨0xC0090, .ro, 0x0, 0x0, 1⟩,
  ⟨0xC0098, .ro, 0x0, 0x0, 1⟩,
  ⟨0xC00A0, .ro, 0x0, 0x0, 1⟩]
/-- The registers of block SKN, in offset order. -/
def rowsSKN : List RegRow := rowsSKN0
/-- Rows of block MNP, part 0. -/
def rowsMNP0 : List RegRow := [
  ⟨0xD0000, .wo, 0x3, 0x0, 1⟩,
  ⟨0xD0008, .rw, 0x1FFFF, 0x1529, 1⟩,
  ⟨0xD0010, .rw, 0xFFFFFFFFFFFFFFFF, 0x0, 1⟩,
  ⟨0xD0018, .rw, 0xFFFFFFFFFFFFFFFF, 0x0, 1⟩,
  ⟨0xD0020, .rw, 0xFF, 0x0, 1⟩,
  ⟨0xD0028, .ro, 0x0, 0x0, 1⟩,
  ⟨0xD0080, .ro, 0x0, 0x0, 1⟩,
  ⟨0xD0088, .ro, 0x0, 0x0, 1⟩,
  ⟨0xD0090, .ro, 0x0, 0x0, 1⟩]
/-- The registers of block MNP, in offset order. -/
def rowsMNP : List RegRow := rowsMNP0
/-- Rows of block FAB, part 0. -/
def rowsFAB0 : List RegRow := [
  ⟨0xE0000, .wo, 0x3, 0x0, 1⟩,
  ⟨0xE0008, .rw, 0x1F, 0x0, 1⟩,
  ⟨0xE0010, .ro, 0x0, 0x0, 1⟩,
  ⟨0xE0018, .ro, 0x0, 0x0, 1⟩,
  ⟨0xE0020, .ro, 0x0, 0x0, 1⟩,
  ⟨0xE0080, .ro, 0x0, 0x0, 1⟩,
  ⟨0xE0088, .ro, 0x0, 0x0, 1⟩]
/-- The registers of block FAB, in offset order. -/
def rowsFAB : List RegRow := rowsFAB0
/-- Rows of block RCV, part 0. -/
def rowsRCV0 : List RegRow := [
  ⟨0xF0000, .wo, 0xFF03, 0x0, 1⟩,
  ⟨0xF0008, .w1s, 0x1, 0x0, 1⟩,
  ⟨0xF0010, .w1s, 0xFFFFFFFFFFFFFFFF, 0x0, 1⟩,
  ⟨0xF0018, .ro, 0x0, 0x0, 1⟩,
  ⟨0xF0020, .wo, 0x3FF1FFFFF, 0x0, 1⟩,
  ⟨0xF0028, .ro, 0x0, 0x0, 1⟩,
  ⟨0xF0030, .ro, 0x0, 0x0, 1⟩,
  ⟨0xF0080, .ro, 0x0, 0x0, 1⟩,
  ⟨0xF0088, .ro, 0x0, 0x0, 1⟩,
  ⟨0xF0090, .ro, 0x0, 0x0, 1⟩,
  ⟨0xF0098, .ro, 0x0, 0x0, 1⟩]
/-- The registers of block RCV, in offset order. -/
def rowsRCV : List RegRow := rowsRCV0
/-- Rows of block DMP, part 0. -/
def rowsDMP0 : List RegRow := [
  ⟨0x100000, .wo, 0x3, 0x0, 1⟩,
  ⟨0x100008, .ro, 0x0, 0x0, 1⟩,
  ⟨0x100010, .ro, 0x0, 0x0, 1⟩,
  ⟨0x100018, .rw, 0x1FFF, 0x0, 1⟩,
  ⟨0x100020, .ro, 0x0, 0x0, 1⟩,
  ⟨0x100028, .ro, 0x0, 0x0, 1⟩,
  ⟨0x100080, .ro, 0x0, 0x0, 1⟩,
  ⟨0x100088, .ro, 0x0, 0x0, 1⟩,
  ⟨0x100090, .ro, 0x0, 0x0, 1⟩]
/-- The registers of block DMP, in offset order. -/
def rowsDMP : List RegRow := rowsDMP0
/-- Rows of block GAU, part 0. -/
def rowsGAU0 : List RegRow := [
  ⟨0x110000, .wo, 0x1, 0x0, 1⟩,
  ⟨0x110008, .rw, 0xFF03FFFF, 0x0, 1⟩,
  ⟨0x110010, .ro, 0x0, 0x0, 1⟩,
  ⟨0x110018, .ro, 0x0, 0x0, 1⟩,
  ⟨0x110080, .ro, 0x0, 0x0, 1⟩,
  ⟨0x110088, .ro, 0x0, 0x0, 1⟩]
/-- The registers of block GAU, in offset order. -/
def rowsGAU : List RegRow := rowsGAU0
/-- Rows of block WER, part 0. -/
def rowsWER0 : List RegRow := [
  ⟨0x120000, .wo, 0x1, 0x0, 1⟩,
  ⟨0x120008, .rw, 0xFFFFFFFFFF, 0x4000002238, 1⟩,
  ⟨0x120010, .rw, 0xFF03FFFF, 0x0, 1⟩,
  ⟨0x120018, .ro, 0x0, 0x0, 1⟩,
  ⟨0x120020, .ro, 0x0, 0x0, 1⟩,
  ⟨0x120028, .ro, 0x0, 0x0, 1⟩,
  ⟨0x120080, .ro, 0x0, 0x0, 1⟩,
  ⟨0x120088, .ro, 0x0, 0x0, 1⟩]
/-- The registers of block WER, in offset order. -/
def rowsWER : List RegRow := rowsWER0
/-- Rows of block PAT, part 0. -/
def rowsPAT0 : List RegRow := [
  ⟨0x130000, .wo, 0x3, 0x0, 0⟩,
  ⟨0x130008, .ro, 0x0, 0x0, 0⟩,
  ⟨0x130010, .ro, 0x0, 0x0, 0⟩,
  ⟨0x130018, .ro, 0x0, 0x0, 0⟩,
  ⟨0x130020, .ro, 0x0, 0x0, 0⟩,
  ⟨0x130028, .ro, 0x0, 0x0, 0⟩,
  ⟨0x130030, .rw, 0xFFFFFFFFFFFFFFFF, 0x0, 0⟩,
  ⟨0x130038, .rw, 0xFFFFFFFFFFFFFFFF, 0x0, 0⟩,
  ⟨0x130040, .ro, 0x0, 0x0, 0⟩,
  ⟨0x130048, .ro, 0x0, 0x0, 0⟩,
  ⟨0x130050, .ro, 0x0, 0x0, 0⟩,
  ⟨0x130058, .ro, 0x0, 0x0, 0⟩,
  ⟨0x130060, .ro, 0x0, 0x0, 0⟩,
  ⟨0x130068, .ro, 0x0, 0x0, 0⟩,
  ⟨0x130070, .ro, 0x0, 0x0, 0⟩,
  ⟨0x130078, .ro, 0x0, 0x0, 0⟩,
  ⟨0x130080, .ro, 0x0, 0x0, 0⟩,
  ⟨0x130088, .ro, 0x0, 0x0, 0⟩,
  ⟨0x130090, .ro, 0x0, 0x0, 0⟩,
  ⟨0x130098, .ro, 0x0, 0x0, 0⟩,
  ⟨0x1300A0, .ro, 0x0, 0x0, 0⟩,
  ⟨0x1300A8, .ro, 0x0, 0x0, 0⟩,
  ⟨0x1300B0, .ro, 0x0, 0x0, 0⟩,
  ⟨0x1300B8, .ro, 0x0, 0x0, 0⟩]
/-- The registers of block PAT, in offset order. -/
def rowsPAT : List RegRow := rowsPAT0
/-- Rows of block FDS, part 0. -/
def rowsFDS0 : List RegRow := [
  ⟨0x140000, .wo, 0x3F, 0x0, 1⟩,
  ⟨0x140008, .ro, 0x0, 0x0, 1⟩,
  ⟨0x140010, .rw, 0xFFFFFFFFFFFFFFFF, 0x0, 1⟩,
  ⟨0x140018, .rw, 0x3FFFFFF, 0x0, 1⟩,
  ⟨0x140020, .rw, 0xFFFFFFFFFFFFFF, 0x3E803E8080FA0, 1⟩,
  ⟨0x140028, .ro, 0x0, 0x0, 1⟩,
  ⟨0x140030, .ro, 0x0, 0x0, 1⟩,
  ⟨0x140038, .ro, 0x0, 0x0, 1⟩,
  ⟨0x140040, .ro, 0x0, 0x0, 1⟩,
  ⟨0x140080, .ro, 0x0, 0x0, 1⟩,
  ⟨0x140088, .ro, 0x0, 0x0, 1⟩,
  ⟨0x140090, .ro, 0x0, 0x0, 1⟩,
  ⟨0x140098, .ro, 0x0, 0x0, 1⟩]
/-- The registers of block FDS, in offset order. -/
def rowsFDS : List RegRow := rowsFDS0
/-- Rows of block SHD, part 0. -/
def rowsSHD0 : List RegRow := [
  ⟨0x150000, .wo, 0xFFFFFF, 0x0, 1⟩,
  ⟨0x150008, .ro, 0x0, 0x0, 1⟩,
  ⟨0x150010, .rw, 0xFFFFFFFFFFFFFFFF, 0x0, 1⟩,
  ⟨0x150018, .rw, 0xFFFFFFFFFFFFFFFF, 0x0, 1⟩,
  ⟨0x150020, .rw, 0xFFFFFFFFFFFFFFFF, 0x0, 1⟩,
  ⟨0x150028, .rw, 0xFFFFFFFFFFFFFFFF, 0x0, 1⟩,
  ⟨0x150030, .rw, 0xFFFFFFFFFFFFFFFF, 0x0, 1⟩,
  ⟨0x150038, .rw, 0xFFFFFFFFFFFFFFFF, 0x0, 1⟩,
  ⟨0x150040, .rw, 0xFFFFFFFFFFFFFFFF, 0x0, 1⟩,
  ⟨0x150048, .rw, 0xFFFFFFFFFFFFFFFF, 0x0, 1⟩,
  ⟨0x150050, .ro, 0x0, 0x0, 1⟩]
/-- The registers of block SHD, in offset order. -/
def rowsSHD : List RegRow := rowsSHD0
/-- Rows of block ADM, part 0. -/
def rowsADM0 : List RegRow := [
  ⟨0x160000, .wo, 0x7, 0x0, 1⟩,
  ⟨0x160008, .ro, 0x0, 0x0, 1⟩,
  ⟨0x160010, .rw, 0xFFFFFFFFFFFFFFFF, 0x0, 1⟩,
  ⟨0x160018, .rw, 0xFFFFFF, 0x0, 1⟩,
  ⟨0x160020, .rw, 0xFFF, 0x0, 1⟩,
  ⟨0x160028, .rwl, 0xFFFFFFFFFFFFFFFF, 0x0, 1⟩,
  ⟨0x160030, .ro, 0x0, 0x0, 1⟩,
  ⟨0x160038, .rw, 0x3FF, 0x0, 1⟩,
  ⟨0x160040, .ro, 0x0, 0x0, 1⟩,
  ⟨0x160048, .ro, 0x0, 0x0, 1⟩,
  ⟨0x160050, .ro, 0x0, 0x0, 1⟩,
  ⟨0x160058, .ro, 0x0, 0x0, 1⟩,
  ⟨0x160060, .ro, 0x0, 0x0, 1⟩,
  ⟨0x160068, .ro, 0x0, 0x0, 1⟩]
/-- The registers of block ADM, in offset order. -/
def rowsADM : List RegRow := rowsADM0
/-- Rows of block AGT, part 0. -/
def rowsAGT0 : List RegRow := [
  ⟨0x170000, .ro, 0x0, 0x0, 2⟩,
  ⟨0x170008, .ro, 0x0, 0x0, 2⟩,
  ⟨0x170010, .ro, 0x0, 0x10828800000000, 2⟩,
  ⟨0x170018, .ro, 0x0, 0x10408320, 2⟩,
  ⟨0x170020, .ro, 0x0, 0x3FFFF, 2⟩,
  ⟨0x170028, .ro, 0x0, 0x0, 2⟩,
  ⟨0x170030, .ro, 0x0, 0x0, 2⟩,
  ⟨0x170038, .ro, 0x0, 0x0, 2⟩,
  ⟨0x170100, .rw, 0x1FF000F, 0x0, 2⟩,
  ⟨0x170108, .ro, 0x0, 0x0, 2⟩,
  ⟨0x170400, .wo, 0x1, 0x0, 2⟩,
  ⟨0x170408, .ro, 0x0, 0x0, 2⟩,
  ⟨0x170410, .ro, 0x0, 0x0, 2⟩,
  ⟨0x170418, .ro, 0x0, 0x0, 2⟩,
  ⟨0x170420, .ro, 0x0, 0x0, 2⟩,
  ⟨0x170428, .ro, 0x0, 0x0, 2⟩,
  ⟨0x170430, .ro, 0x0, 0x0, 2⟩,
  ⟨0x170438, .ro, 0x0, 0x0, 2⟩,
  ⟨0x170440, .ro, 0x0, 0x0, 2⟩,
  ⟨0x170448, .ro, 0x0, 0x0, 2⟩,
  ⟨0x170450, .ro, 0x0, 0x0, 2⟩,
  ⟨0x170458, .ro, 0x0, 0x0, 2⟩,
  ⟨0x170500, .ro, 0x0, 0xFF10, 2⟩,
  ⟨0x170600, .rw, 0xFFFFFFFFFFFF001F, 0x2, 2⟩,
  ⟨0x170700, .ro, 0x0, 0x0, 2⟩,
  ⟨0x170708, .ro, 0x0, 0x0, 2⟩,
  ⟨0x170710, .ro, 0x0, 0x0, 2⟩,
  ⟨0x170718, .ro, 0x0, 0x0, 2⟩,
  ⟨0x170720, .ro, 0x0, 0x0, 2⟩,
  ⟨0x170800, .rw, 0xFFFFF, 0x0, 2⟩,
  ⟨0x170808, .ro, 0x0, 0x0, 2⟩,
  ⟨0x170810, .ro, 0x0, 0x0, 2⟩,
  ⟨0x170900, .rw, 0xFFF, 0xFFF00000258, 2⟩]
/-- The registers of block AGT, in offset order. -/
def rowsAGT : List RegRow := rowsAGT0
/-- Rows of block LKP, part 0. -/
def rowsLKP0 : List RegRow := [
  ⟨0x180000, .wo, 0x3, 0x0, 2⟩,
  ⟨0x180008, .ro, 0x0, 0x0, 2⟩,
  ⟨0x180010, .rwl, 0x3F, 0x18, 2⟩,
  ⟨0x180018, .rwl, 0xFFFFFFFF, 0x186A0, 2⟩,
  ⟨0x180020, .ro, 0x0, 0x0, 2⟩,
  ⟨0x180028, .ro, 0x0, 0x0, 2⟩,
  ⟨0x180030, .ro, 0x0, 0x0, 2⟩,
  ⟨0x180038, .ro, 0x0, 0x0, 2⟩,
  ⟨0x180040, .ro, 0x0, 0x0, 2⟩,
  ⟨0x180048, .ro, 0x0, 0x0, 2⟩,
  ⟨0x180050, .ro, 0x0, 0x0, 2⟩,
  ⟨0x180058, .ro, 0x0, 0x0, 2⟩,
  ⟨0x180060, .ro, 0x0, 0x0, 2⟩,
  ⟨0x180068, .ro, 0x0, 0x0, 2⟩,
  ⟨0x180070, .ro, 0x0, 0x0, 2⟩,
  ⟨0x180078, .ro, 0x0, 0x0, 2⟩,
  ⟨0x180080, .ro, 0x0, 0x0, 2⟩,
  ⟨0x180088, .ro, 0x0, 0x0, 2⟩,
  ⟨0x180090, .ro, 0x0, 0x0, 2⟩,
  ⟨0x180098, .ro, 0x0, 0x0, 2⟩,
  ⟨0x1800A0, .ro, 0x0, 0x0, 2⟩,
  ⟨0x1800A8, .ro, 0x0, 0x0, 2⟩,
  ⟨0x1800B0, .rwl, 0xFFFFF, 0x4000, 2⟩,
  ⟨0x1800B8, .ro, 0x0, 0x0, 2⟩,
  ⟨0x1800C0, .ro, 0x0, 0x0, 2⟩,
  ⟨0x1800C8, .ro, 0x0, 0x0, 2⟩,
  ⟨0x1800D0, .ro, 0x0, 0x0, 2⟩,
  ⟨0x1800D8, .ro, 0x0, 0x0, 2⟩,
  ⟨0x1800E0, .ro, 0x0, 0x0, 2⟩,
  ⟨0x1800E8, .ro, 0x0, 0x0, 2⟩,
  ⟨0x1800F0, .ro, 0x0, 0x0, 2⟩,
  ⟨0x1800F8, .ro, 0x0, 0x0, 2⟩]
/-- The registers of block LKP, in offset order. -/
def rowsLKP : List RegRow := rowsLKP0
/-- Rows of block PRL, part 0. -/
def rowsPRL0 : List RegRow := [
  ⟨0x190000, .wo, 0x1, 0x0, 2⟩,
  ⟨0x190008, .ro, 0x0, 0x0, 2⟩,
  ⟨0x190010, .ro, 0x0, 0x0, 2⟩,
  ⟨0x190018, .rw, 0x1FF, 0x0, 2⟩,
  ⟨0x190020, .ro, 0x0, 0x0, 2⟩,
  ⟨0x190028, .rw, 0x3F, 0x0, 2⟩,
  ⟨0x190030, .ro, 0x0, 0x0, 2⟩,
  ⟨0x190038, .ro, 0x0, 0x0, 2⟩,
  ⟨0x190040, .ro, 0x0, 0x0, 2⟩,
  ⟨0x190048, .rw, 0xFFFFFFFFFFFFFFFF, 0x0, 2⟩,
  ⟨0x190050, .rw, 0xFFFFFFFFFFFFFFFF, 0x0, 2⟩,
  ⟨0x190080, .ro, 0x0, 0x0, 2⟩,
  ⟨0x190088, .ro, 0x0, 0x0, 2⟩,
  ⟨0x190090, .ro, 0x0, 0x0, 2⟩,
  ⟨0x190098, .ro, 0x0, 0x0, 2⟩,
  ⟨0x1900A0, .ro, 0x0, 0x0, 2⟩,
  ⟨0x1900A8, .ro, 0x0, 0x0, 2⟩,
  ⟨0x1900B0, .ro, 0x0, 0x0, 2⟩,
  ⟨0x1900B8, .ro, 0x0, 0x0, 2⟩,
  ⟨0x1900C0, .ro, 0x0, 0x0, 2⟩,
  ⟨0x1900C8, .ro, 0x0, 0x0, 2⟩,
  ⟨0x1900D0, .ro, 0x0, 0x0, 2⟩,
  ⟨0x1900D8, .ro, 0x0, 0x0, 2⟩,
  ⟨0x1900E0, .ro, 0x0, 0x0, 2⟩,
  ⟨0x1900E8, .ro, 0x0, 0x0, 2⟩,
  ⟨0x1900F0, .ro, 0x0, 0x0, 2⟩,
  ⟨0x1900F8, .ro, 0x0, 0x0, 2⟩,
  ⟨0x190100, .ro, 0x0, 0x0, 2⟩,
  ⟨0x190108, .ro, 0x0, 0x0, 2⟩,
  ⟨0x190110, .ro, 0x0, 0x0, 2⟩]
/-- The registers of block PRL, in offset order. -/
def rowsPRL : List RegRow := rowsPRL0
/-- Rows of block GCM, part 0. -/
def rowsGCM0 : List RegRow := [
  ⟨0x1A0000, .wo, 0x1, 0x0, 2⟩,
  ⟨0x1A0008, .ro, 0x0, 0x0, 2⟩,
  ⟨0x1A0010, .rw, 0xFF, 0x0, 2⟩,
  ⟨0x1A0018, .ro, 0x0, 0x0, 2⟩,
  ⟨0x1A0020, .ro, 0x0, 0x0, 2⟩,
  ⟨0x1A0028, .ro, 0x0, 0x0, 2⟩,
  ⟨0x1A0030, .ro, 0x0, 0x0, 2⟩,
  ⟨0x1A0038, .ro, 0x0, 0x0, 2⟩,
  ⟨0x1A0080, .ro, 0x0, 0x0, 2⟩,
  ⟨0x1A0088, .ro, 0x0, 0x0, 2⟩,
  ⟨0x1A0090, .ro, 0x0, 0x0, 2⟩,
  ⟨0x1A0098, .ro, 0x0, 0x0, 2⟩,
  ⟨0x1A00A0, .ro, 0x0, 0x0, 2⟩,
  ⟨0x1A00A8, .ro, 0x0, 0x0, 2⟩]
/-- The registers of block GCM, in offset order. -/
def rowsGCM : List RegRow := rowsGCM0
/-- Rows of block MTP, part 0. -/
def rowsMTP0 : List RegRow := [
  ⟨0x1B0000, .wo, 0x1, 0x0, 2⟩,
  ⟨0x1B0008, .ro, 0x0, 0x0, 2⟩,
  ⟨0x1B0010, .rw, 0x1, 0x0, 2⟩,
  ⟨0x1B0018, .ro, 0x0, 0x0, 2⟩,
  ⟨0x1B0020, .ro, 0x0, 0x0, 2⟩,
  ⟨0x1B0028, .ro, 0x0, 0x0, 2⟩,
  ⟨0x1B0030, .ro, 0x0, 0x0, 2⟩,
  ⟨0x1B0038, .ro, 0x0, 0x0, 2⟩,
  ⟨0x1B0080, .ro, 0x0, 0x0, 2⟩,
  ⟨0x1B0088, .ro, 0x0, 0x0, 2⟩,
  ⟨0x1B0090, .ro, 0x0, 0x0, 2⟩]
/-- The registers of block MTP, in offset order. -/
def rowsMTP : List RegRow := rowsMTP0
/-- Rows of block MSR, part 0. -/
def rowsMSR0 : List RegRow := [
  ⟨0x1C0000, .rw, 0xF, 0x0, 2⟩,
  ⟨0x1C0008, .ro, 0x0, 0x0, 2⟩,
  ⟨0x1C0010, .ro, 0x0, 0x0, 2⟩,
  ⟨0x1C0018, .ro, 0x0, 0x0, 2⟩,
  ⟨0x1C0020, .ro, 0x0, 0x0, 2⟩,
  ⟨0x1C0028, .ro, 0x0, 0x0, 2⟩,
  ⟨0x1C0030, .ro, 0x0, 0x0, 2⟩,
  ⟨0x1C0038, .ro, 0x0, 0x0, 2⟩,
  ⟨0x1C0040, .ro, 0x0, 0x0, 2⟩,
  ⟨0x1C0048, .ro, 0x0, 0x0, 2⟩,
  ⟨0x1C0050, .ro, 0x0, 0x0, 2⟩,
  ⟨0x1C0058, .ro, 0x0, 0x0, 2⟩]
/-- The registers of block MSR, in offset order. -/
def rowsMSR : List RegRow := rowsMSR0
/-- Rows of block BLK, part 0. -/
def rowsBLK0 : List RegRow := [
  ⟨0x1D0000, .wo, 0x1, 0x0, 2⟩,
  ⟨0x1D0008, .rw, 0x3, 0x0, 2⟩,
  ⟨0x1D0010, .ro, 0x0, 0x0, 2⟩,
  ⟨0x1D0080, .ro, 0x0, 0x0, 2⟩]
/-- The registers of block BLK, in offset order. -/
def rowsBLK : List RegRow := rowsBLK0
/-- Rows of block LNK, part 0. -/
def rowsLNK0 : List RegRow := [
  ⟨0x1E0000, .wo, 0x3, 0x0, 2⟩,
  ⟨0x1E0008, .rw, 0xFF, 0x0, 2⟩,
  ⟨0x1E0010, .ro, 0x0, 0xFF00, 2⟩,
  ⟨0x1E0018, .ro, 0x0, 0x0, 2⟩,
  ⟨0x1E0020, .ro, 0x0, 0x0, 2⟩,
  ⟨0x1E0028, .ro, 0x0, 0x0, 2⟩,
  ⟨0x1E0030, .ro, 0x0, 0x0, 2⟩,
  ⟨0x1E0038, .ro, 0x0, 0x0, 2⟩,
  ⟨0x1E0040, .ro, 0x0, 0x0, 2⟩,
  ⟨0x1E0048, .ro, 0x0, 0x0, 2⟩,
  ⟨0x1E0050, .ro, 0x0, 0x0, 2⟩,
  ⟨0x1E0058, .ro, 0x0, 0x0, 2⟩,
  ⟨0x1E0060, .ro, 0x0, 0x0, 2⟩,
  ⟨0x1E0080, .ro, 0x0, 0x0, 2⟩,
  ⟨0x1E0088, .ro, 0x0, 0x0, 2⟩,
  ⟨0x1E0090, .ro, 0x0, 0x0, 2⟩,
  ⟨0x1E0098, .ro, 0x0, 0x0, 2⟩]
/-- The registers of block LNK, in offset order. -/
def rowsLNK : List RegRow := rowsLNK0
/-- Rows of block WCH, part 0. -/
def rowsWCH0 : List RegRow := [
  ⟨0x1F0000, .wo, 0x1, 0x0, 2⟩,
  ⟨0x1F0008, .ro, 0x0, 0xFF00, 2⟩,
  ⟨0x1F0010, .rw, 0xF, 0x0, 2⟩,
  ⟨0x1F0018, .ro, 0x0, 0x0, 2⟩,
  ⟨0x1F0020, .rwl, 0xFFFFFFFFFFFF, 0x1475301388, 2⟩,
  ⟨0x1F0028, .ro, 0x0, 0x0, 2⟩,
  ⟨0x1F0030, .ro, 0x0, 0x0, 2⟩,
  ⟨0x1F0080, .ro, 0x0, 0x0, 2⟩,
  ⟨0x1F0088, .ro, 0x0, 0x0, 2⟩,
  ⟨0x1F0090, .ro, 0x0, 0x0, 2⟩,
  ⟨0x1F0098, .ro, 0x0, 0x0, 2⟩,
  ⟨0x1F00A0, .ro, 0x0, 0x0, 2⟩,
  ⟨0x1F00A8, .ro, 0x0, 0x0, 2⟩,
  ⟨0x1F00B0, .ro, 0x0, 0x0, 2⟩,
  ⟨0x1F00B8, .ro, 0x0, 0x0, 2⟩,
  ⟨0x1F00C0, .ro, 0x0, 0x0, 2⟩,
  ⟨0x1F00C8, .ro, 0x0, 0x0, 2⟩,
  ⟨0x1F00D0, .ro, 0x0, 0x0, 2⟩,
  ⟨0x1F00D8, .ro, 0x0, 0x0, 2⟩]
/-- The registers of block WCH, in offset order. -/
def rowsWCH : List RegRow := rowsWCH0
/-- Rows of block TRY, part 0. -/
def rowsTRY0 : List RegRow := [
  ⟨0x200000, .wo, 0x1, 0x0, 2⟩,
  ⟨0x200008, .ro, 0x0, 0x0, 2⟩,
  ⟨0x200080, .ro, 0x0, 0x0, 2⟩]
/-- The registers of block TRY, in offset order. -/
def rowsTRY : List RegRow := rowsTRY0

/-- The registers of a block by its key number. -/
def rowsOf : Nat → List RegRow
  | 0 => rowsCTL
  | 1 => rowsCST
  | 2 => rowsKST
  | 3 => rowsSOL
  | 4 => rowsTEL
  | 5 => rowsPLB
  | 6 => rowsMTR
  | 7 => rowsEVR
  | 8 => rowsFLC
  | 9 => rowsMBX
  | 10 => rowsCVU
  | 11 => rowsMEM
  | 12 => rowsSKN
  | 13 => rowsMNP
  | 14 => rowsFAB
  | 15 => rowsRCV
  | 16 => rowsDMP
  | 17 => rowsGAU
  | 18 => rowsWER
  | 19 => rowsPAT
  | 20 => rowsFDS
  | 21 => rowsSHD
  | 22 => rowsADM
  | 23 => rowsAGT
  | 24 => rowsLKP
  | 25 => rowsPRL
  | 26 => rowsGCM
  | 27 => rowsMTP
  | 28 => rowsMSR
  | 29 => rowsBLK
  | 30 => rowsLNK
  | 31 => rowsWCH
  | 32 => rowsTRY
  | _ => []

/-- The counter registers of a block (the CNT registers of its table). -/
def countersOf : Nat → List Nat
  | 2 => [Reg.KST_CNT_REPORTS, Reg.KST_CNT_KEYS_ACCEPTED, Reg.KST_CNT_KEYS_REFUSED, Reg.KST_CNT_SESSION_FAIL, Reg.KST_CNT_CERT_BAD, Reg.KST_CNT_BAD_MAC]
  | 3 => [Reg.SOL_CNT_TASKS, Reg.SOL_CNT_RESTART, Reg.SOL_CNT_PREEMPT, Reg.SOL_CNT_OVERRUN]
  | 4 => [Reg.TEL_CNT_RECORDS, Reg.TEL_CNT_MISSING, Reg.TEL_CNT_LATE, Reg.TEL_CNT_MALFORMED, Reg.TEL_CNT_TENANT_LOST]
  | 5 => [Reg.PLB_CNT_SLIP, Reg.PLB_CNT_PARENT_SWITCH, Reg.PLB_CNT_PROBE_MISS, Reg.PLB_CNT_PROBE_MISROUTE, Reg.PLB_CNT_SCHED_SUPPRESSED, Reg.PLB_CNT_INJECT_EMPTY]
  | 6 => [Reg.MTR_CNT_TAKEN, Reg.MTR_CNT_MALFORMED, Reg.MTR_CNT_KEY_UNKNOWN, Reg.MTR_CNT_BAD_MAC, Reg.MTR_CNT_STALE, Reg.MTR_CNT_INTAKE_DROP, Reg.MTR_CNT_BATCHES, Reg.MTR_CNT_LATE]
  | 7 => [Reg.EVR_CNT_RECORDS, Reg.EVR_CNT_OVERWRITTEN, Reg.EVR_CNT_FALLBACK_LOST, Reg.EVR_CNT_QUEUE_DROP, Reg.EVR_CNT_SNAP_TIMEOUT, Reg.EVR_CNT_FWD_SENT, Reg.EVR_CNT_FWD_LOST]
  | 8 => [Reg.FLC_CNT_S0, Reg.FLC_CNT_S1, Reg.FLC_CNT_S2, Reg.FLC_CNT_S3, Reg.FLC_CNT_S4]
  | 9 => [Reg.MBX_CNT_A_RETX, Reg.MBX_CNT_A_TIMEOUT, Reg.MBX_CNT_A_DUPLICATE, Reg.MBX_CNT_A_SKIPPED, Reg.MBX_CNT_MARK_DENIED, Reg.MBX_CNT_LATE_ARRIVAL, Reg.MBX_CNT_PAT_DISCARD, Reg.MBX_CNT_B_LOST, Reg.MBX_CNT_A_UNKNOWN]
  | 11 => [Reg.MEM_CNT_CORRECTED, Reg.MEM_CNT_UNCORRECTABLE, Reg.MEM_CNT_SCRUB_WB, Reg.MEM_CNT_SPARED, Reg.MEM_CNT_MERGE_WAIT]
  | 12 => [Reg.SKN_CNT_FRAMES_RX, Reg.SKN_CNT_PLAIN_DISCARD, Reg.SKN_CNT_TAG_FAIL, Reg.SKN_CNT_CREDIT_OVERRUN, Reg.SKN_CNT_LATE_ARRIVAL]
  | 13 => [Reg.MNP_CNT_ACCEPTED, Reg.MNP_CNT_REFUSED, Reg.MNP_CNT_AUTH_FAIL]
  | 14 => [Reg.FAB_CNT_TRAIN_FULL, Reg.FAB_CNT_TRAIN_FAIL]
  | 15 => [Reg.RCV_CNT_REINIT, Reg.RCV_CNT_CMD, Reg.RCV_CNT_REPORTS, Reg.RCV_CNT_LATE_ARRIVAL]
  | 16 => [Reg.DMP_CNT_RECORDS, Reg.DMP_CNT_BLOCK_INVALID, Reg.DMP_CNT_LATE_ARRIVAL]
  | 17 => [Reg.GAU_CNT_EXCEED, Reg.GAU_CNT_REPORTS]
  | 18 => [Reg.WER_CNT_SAMPLES, Reg.WER_CNT_RESTART]
  | 20 => [Reg.FDS_CNT_CHUNKS, Reg.FDS_CNT_UNICAST, Reg.FDS_CNT_ROW_REPAIR, Reg.FDS_CNT_QUERIES]
  | 22 => [Reg.ADM_CNT_ADMITTED, Reg.ADM_CNT_REFUSED, Reg.ADM_CNT_FAILED, Reg.ADM_CNT_AT_RISK, Reg.ADM_CNT_RELEASED]
  | 23 => [Reg.AGT_CNT_INJECTED, Reg.AGT_CNT_PRESENTED, Reg.AGT_CNT_ACCEPT_LATE, Reg.AGT_CNT_INJ_REFUSED, Reg.AGT_CNT_UNIT_ERR, Reg.AGT_CNT_MSG_DENIED, Reg.AGT_CNT_HB_LATE, Reg.AGT_CNT_CG_EVENTS, Reg.AGT_CNT_FW_CHUNK_BAD, Reg.AGT_CNT_FW_DUPLICATE]
  | 24 => [Reg.LKP_CNT_LOOKUPS, Reg.LKP_CNT_HDR_FAIL, Reg.LKP_CNT_HOP_LIMIT, Reg.LKP_CNT_EXPIRED, Reg.LKP_CNT_NO_ROUTE, Reg.LKP_CNT_NO_OUTPUT, Reg.LKP_CNT_BOUNCED, Reg.LKP_CNT_MCAST_DROP, Reg.LKP_CNT_SCHED_MISS, Reg.LKP_CNT_DUPLICATE, Reg.LKP_CNT_STALE, Reg.LKP_CNT_LATE_ARRIVAL, Reg.LKP_CNT_TIMEOUT, Reg.LKP_CNT_ERR_SENT, Reg.LKP_CNT_RSP_SPACE_WAIT, Reg.LKP_CNT_INJ_STALL_REQ, Reg.LKP_CNT_INJ_STALL_RSP, Reg.LKP_CNT_INJ_STALL_FWD, Reg.LKP_CNT_EJECT_BOUNCE, Reg.LKP_CNT_EJECT_DISCARD, Reg.LKP_CNT_ERR_LOST, Reg.LKP_CNT_FWD_DROP]
  | 25 => [Reg.PRL_CNT_INPUTS, Reg.PRL_CNT_ELEM_OPS, Reg.PRL_CNT_EMITS, Reg.PRL_CNT_EMIT_EMPTY, Reg.PRL_CNT_EMIT_LATE, Reg.PRL_CNT_UNKNOWN, Reg.PRL_CNT_MISMATCH, Reg.PRL_CNT_TAG_FAIL, Reg.PRL_CNT_STALE_COURSE, Reg.PRL_CNT_DUPLICATE, Reg.PRL_CNT_SLOT_BUSY, Reg.PRL_CNT_STEP_MISMATCH, Reg.PRL_CNT_LATE_INPUT, Reg.PRL_CNT_FAN_IN, Reg.PRL_CNT_INCOMPLETE, Reg.PRL_CNT_INEXACT, Reg.PRL_CNT_OVERFLOW, Reg.PRL_CNT_INVALID, Reg.PRL_CNT_RESET_DISCARD]
  | 26 => [Reg.GCM_CNT_ENC, Reg.GCM_CNT_DEC, Reg.GCM_CNT_TAG_FAIL, Reg.GCM_CNT_WRAP_REFUSED, Reg.GCM_CNT_KEY_MISS, Reg.GCM_CNT_KEY_EXPIRED]
  | 27 => [Reg.MTP_CNT_RECORDS, Reg.MTP_CNT_WORMS, Reg.MTP_CNT_ENCAPS_REFUSED]
  | 29 => [Reg.BLK_CNT_FULL]
  | 30 => [Reg.LNK_CNT_TRAIN_SAVED, Reg.LNK_CNT_TRAIN_FULL, Reg.LNK_CNT_TRAIN_FAIL, Reg.LNK_CNT_RETRY]
  | 31 => [Reg.WCH_CNT_EXPIRED, Reg.WCH_CNT_LEVEL1, Reg.WCH_CNT_LEVEL2, Reg.WCH_CNT_LEVEL3, Reg.WCH_CNT_LEVEL4, Reg.WCH_CNT_LEVEL5, Reg.WCH_CNT_EXHAUSTED, Reg.WCH_CNT_DUMPS, Reg.WCH_CNT_BLOCK_INVALID, Reg.WCH_CNT_DUMP_SKIPPED, Reg.WCH_CNT_PRESENT_ABORT, Reg.WCH_CNT_LATE_ARRIVAL]
  | 32 => [Reg.TRY_CNT_CYCLES]
  | _ => []

/-- The blocks of Pelron in the order of their block index (R514). -/
def pelronBlocks : List Nat := [0, 1, 2, 3, 4, 5, 6, 7, 8, 9, 10, 11, 12, 13, 14, 15, 16, 17, 18, 19, 20, 21, 22]

/-- The blocks of Twidel in the order of their block index (R515). -/
def twidelBlocks : List Nat := [23, 24, 25, 26, 5, 27, 28, 29, 7, 8, 9, 10, 30, 31, 32, 19]

end Sys2Proof.Machine
end

