-- ==== Sys2Proof/Machine/Bytes.lean ====
section
/-! DEFINITION. The helpers every unit uses: little-endian fields of byte strings (R9), bit fields, sparse tables in
canonical form, and byte memory in canonical form. -/

namespace Sys2Proof.Machine

/-! ## Little-endian fields and bit fields -/

/-- The n lowest bytes of v, least significant first (R9). -/
def le : Nat → Nat → Bytes
  | 0, _ => []
  | n + 1, v => BitVec.ofNat 8 v :: le n (v / 256)

/-- The number whose bytes these are, least significant first (R9). -/
def leNat : Bytes → Nat
  | [] => 0
  | b :: bs => b.toNat + 256 * leNat bs

/-- n bytes at an offset; bytes beyond the end read zero. -/
def slice (bs : Bytes) (off n : Nat) : Bytes :=
  let t := (bs.drop off).take n
  t ++ List.replicate (n - t.length) 0

/-- The little-endian field of n bytes at an offset (R9). -/
def fieldAt (bs : Bytes) (off n : Nat) : Nat := leNat ((bs.drop off).take n)

/-- One byte at an offset. -/
def byteAt (bs : Bytes) (off : Nat) : Nat := (bs.getD off 0).toNat

/-- Bits [hi:lo] of a number. -/
def bitsOf (v hi lo : Nat) : Nat := v / 2 ^ lo % 2 ^ (hi - lo + 1)

/-- Bit i of a number. -/
def bitOf (v i : Nat) : Bool := v / 2 ^ i % 2 = 1

/-- 1 or 0. -/
def b2n (b : Bool) : Nat := if b then 1 else 0

/-- The positions of the 1 bits of a number below n, ascending. -/
def bitList (v n : Nat) : List Nat := (List.range n).filter (bitOf v)

/-- The number with exactly these bits set. -/
def ofBitList (l : List Nat) : Nat := (l.foldl (fun (s : List Nat) i => if s.contains i then s else i :: s) []).foldl
  (fun v i => v + 2 ^ i) 0

/-- The n-bit two's complement of an integer. -/
def toTwos (n : Nat) (v : Int) : Nat := (v % (2 : Int) ^ n).toNat

/-- The integer an n-bit two's complement stands for. -/
def ofTwos (n v : Nat) : Int := if v % 2 ^ n < 2 ^ (n - 1) then (v % 2 ^ n : Nat) else ((v % 2 ^ n : Nat) : Int) - 2 ^ n

/-- The words of a byte string, eight bytes each, first word first (R13). -/
def wordsOf (n : Nat) (bs : Bytes) : List Word := (List.range n).map fun i => BitVec.ofNat 64 (fieldAt bs (8 * i) 8)

/-- The bytes of a digest, byte 0 first (R9). -/
def digestBytes (d : Digest) : Bytes := le 64 d.toNat

/-- The digest of these bytes. -/
def digestOf (bs : Bytes) : Digest := BitVec.ofNat 512 (leNat (bs.take 64))

/-! ## Sparse tables -/

/-- The entry at an index. -/
def tget {α : Type} (t : Tbl α) (i : Nat) : Option α := (t.find? fun p => p.1 = i).map (·.2)

/-- The entry at an index, or a default. -/
def tgetD {α : Type} (t : Tbl α) (i : Nat) (d : α) : α := (tget t i).getD d

/-- Store an entry, keeping the indices strictly rising. -/
def tset {α : Type} (t : Tbl α) (i : Nat) (v : α) : Tbl α :=
  t.filter (fun p => p.1 < i) ++ (i, v) :: t.filter (fun p => i < p.1)

/-- Remove an entry. -/
def tdel {α : Type} (t : Tbl α) (i : Nat) : Tbl α := t.filter fun p => p.1 ≠ i

/-- Change an entry that is there. -/
def tmod {α : Type} (t : Tbl α) (i : Nat) (f : α → α) : Tbl α := t.map fun p => if p.1 = i then (p.1, f p.2) else p

/-- Whether the indices rise strictly. -/
def tsorted {α : Type} : Tbl α → Bool
  | [] => true
  | [_] => true
  | a :: b :: t => decide (a.1 < b.1) && tsorted (b :: t)

/-! ## Byte memory -/

/-- The byte at an address; an unlisted address reads zero. -/
def mbyte (m : Mem) (a : Nat) : Byte := ((m.find? fun c => c.1 = a).map (·.2)).getD 0

/-- n bytes from an address. -/
def mread (m : Mem) (a n : Nat) : Bytes :=
  let part := m.filter fun c => a ≤ c.1 && c.1 < a + n
  (List.range n).map fun i => mbyte part (a + i)

/-- The cells of a byte string laid at an address, zero bytes left out. -/
def cellsAt (a : Nat) : Bytes → Mem
  | [] => []
  | b :: bs => if b = 0 then cellsAt (a + 1) bs else (a, b) :: cellsAt (a + 1) bs

/-- Write bytes at an address, keeping the canonical form. -/
def mwrite (m : Mem) (a : Nat) (bs : Bytes) : Mem :=
  m.filter (fun c => c.1 < a) ++ cellsAt a bs ++ m.filter (fun c => a + bs.length ≤ c.1)

/-- The canonical form of a memory: addresses strictly rising, no zero byte listed. -/
def Memory.wf (m : Mem) : Bool := tsorted m && m.all fun c => c.2 ≠ 0

/-! ## Lists -/

/-- Replace the first element that satisfies p. -/
def replaceFirst {α : Type} (p : α → Bool) (f : α → α) : List α → List α
  | [] => []
  | x :: xs => if p x then f x :: xs else x :: replaceFirst p f xs

/-- Remove the first element that satisfies p. -/
def removeFirst {α : Type} (p : α → Bool) : List α → List α
  | [] => []
  | x :: xs => if p x then xs else x :: removeFirst p xs

/-- Sum of a list. -/
def sumL (l : List Nat) : Nat := l.foldl (· + ·) 0

/-- Largest of a list, 0 for none. -/
def maxL (l : List Nat) : Nat := l.foldl max 0

/-- Smallest of a list, d for none. -/
def minL (d : Nat) (l : List Nat) : Nat := match l with
  | [] => d
  | x :: xs => xs.foldl min x

/-- The remainder of a rounded-up division: ceil(a / b). -/
def ceilDiv (a b : Nat) : Nat := (b - 1 + a) / b

/-- The sublist of bytes packed from bits, least significant bit first. -/
def packBits (bits : List Bool) : Nat := bits.foldr (fun b v => b2n b + 2 * v) 0

end Sys2Proof.Machine
end

