-- ==== Sys2Proof/Machine/EventMap.lean ====
section
/-! DEFINITION. The events of both parts (R527, R528): block, number within the block, severity. -/

namespace Sys2Proof.Machine

/-- An event: the key number of its block, its low byte, its severity. -/
structure Event where
  blk : Nat
  low : Nat
  sev : Nat
  deriving DecidableEq, Repr

/-- R527 -/
def Ev.CST_STEP_FAILED : Event := ⟨Blk.CST, 1, 2⟩
/-- R527 -/
def Ev.CST_SETTINGS_SAVED : Event := ⟨Blk.CST, 2, 0⟩
/-- R527 -/
def Ev.PLAN_MISMATCH : Event := ⟨Blk.CST, 3, 1⟩
/-- R527 -/
def Ev.EXTRA_NEIGHBOUR : Event := ⟨Blk.CST, 4, 1⟩
/-- R527 -/
def Ev.AGENT_MISSING : Event := ⟨Blk.CST, 5, 2⟩
/-- R527 -/
def Ev.LINK_QUARANTINE : Event := ⟨Blk.CST, 6, 2⟩
/-- R527 -/
def Ev.OPERATOR_STORE_INVALID : Event := ⟨Blk.KST, 1, 3⟩
/-- R527 -/
def Ev.KEY_MISSING : Event := ⟨Blk.KST, 2, 3⟩
/-- R527 -/
def Ev.CONSUMED_LIST_WRAPPED : Event := ⟨Blk.KST, 3, 1⟩
/-- R527 -/
def Ev.DEBUG_ATTACHED : Event := ⟨Blk.KST, 4, 0⟩
/-- R527 -/
def Ev.MEASURE_BAD_MAC : Event := ⟨Blk.KST, 5, 3⟩
/-- R527 -/
def Ev.KEYSTONE_FAULT : Event := ⟨Blk.KST, 6, 4⟩
/-- R527 -/
def Ev.SOL_TILES_SHORT : Event := ⟨Blk.SOL, 1, 2⟩
/-- R527 -/
def Ev.SOL_SHADOW_FULL : Event := ⟨Blk.SOL, 2, 2⟩
/-- R527 -/
def Ev.ROUTE_HOP_MARGIN : Event := ⟨Blk.SOL, 3, 2⟩
/-- R527 -/
def Ev.THERMAL_HIGH : Event := ⟨Blk.TEL, 1, 1⟩
/-- R527 -/
def Ev.THERMAL_LIMIT : Event := ⟨Blk.TEL, 2, 2⟩
/-- R527 -/
def Ev.VOLTAGE_RANGE : Event := ⟨Blk.TEL, 3, 2⟩
/-- R527 -/
def Ev.POWER_LIMIT : Event := ⟨Blk.TEL, 4, 2⟩
/-- R527 -/
def Ev.EYE_LOW : Event := ⟨Blk.TEL, 5, 1⟩
/-- R527 -/
def Ev.PLUMB_RATE_CLAMP : Event := ⟨Blk.PLB, 1, 2⟩
/-- R527 -/
def Ev.PLUMB_LOOP_RESIDUAL : Event := ⟨Blk.PLB, 2, 1⟩
/-- R527 -/
def Ev.PLUMB_BOUND_UNMET : Event := ⟨Blk.PLB, 3, 2⟩
/-- R527 -/
def Ev.SEAL_BROKEN : Event := ⟨Blk.MTR, 1, 1⟩
/-- R527 -/
def Ev.TAP_BAD_MAC : Event := ⟨Blk.MTR, 2, 1⟩
/-- R527 -/
def Ev.METER_INTAKE_DROP : Event := ⟨Blk.MTR, 3, 1⟩
/-- R527 -/
def Ev.AGENT_SILENT : Event := ⟨Blk.MTR, 4, 1⟩
/-- R527 -/
def Ev.METER_RING_FULL : Event := ⟨Blk.MTR, 5, 1⟩
/-- R527 -/
def Ev.BATCH_LATE : Event := ⟨Blk.MTR, 6, 2⟩
/-- R527 -/
def Ev.SNAPSHOT_INVALID : Event := ⟨Blk.MTR, 7, 3⟩
/-- R527 -/
def Ev.POWER_FAIL : Event := ⟨Blk.EVR, 1, 2⟩
/-- R527 -/
def Ev.FLC_SELF_FAULT : Event := ⟨Blk.FLC, 1, 4⟩
/-- R527 -/
def Ev.INJECT_DENIED : Event := ⟨Blk.FLC, 2, 0⟩
/-- R527 -/
def Ev.MBX_MARK_DENIED : Event := ⟨Blk.MBX, 1, 1⟩
/-- R527 -/
def Ev.MBX_A_TIMEOUT : Event := ⟨Blk.MBX, 2, 1⟩
/-- R527 -/
def Ev.CVU_BUSY : Event := ⟨Blk.CVU, 1, 0⟩
/-- R527 -/
def Ev.MEM_CORRECTED : Event := ⟨Blk.MEM, 1, 1⟩
/-- R527 -/
def Ev.MEM_ROW_SPARED : Event := ⟨Blk.MEM, 2, 1⟩
/-- R527 -/
def Ev.MEM_MIRROR_REBUILT : Event := ⟨Blk.MEM, 3, 1⟩
/-- R527 -/
def Ev.MEM_UNCORRECTABLE : Event := ⟨Blk.MEM, 4, 2⟩
/-- R527 -/
def Ev.MEM_ADDRESS_FAULT : Event := ⟨Blk.MEM, 5, 2⟩
/-- R527 -/
def Ev.MEM_SPARES_EXHAUSTED : Event := ⟨Blk.MEM, 6, 2⟩
/-- R527 -/
def Ev.MEM_CHANNEL_FENCED : Event := ⟨Blk.MEM, 7, 2⟩
/-- R527 -/
def Ev.SKN_SESSION_LOST : Event := ⟨Blk.SKN, 1, 2⟩
/-- R527 -/
def Ev.MNP_AUTH_FAIL : Event := ⟨Blk.MNP, 1, 1⟩
/-- R527 -/
def Ev.FUNC_HUNG : Event := ⟨Blk.RCV, 1, 2⟩
/-- R527 -/
def Ev.ORPHAN_PARTITION : Event := ⟨Blk.RCV, 2, 3⟩
/-- R527 -/
def Ev.GAUGE_EXCEED : Event := ⟨Blk.GAU, 1, 2⟩
/-- R527 -/
def Ev.WEAR_WARNING : Event := ⟨Blk.WER, 1, 1⟩
/-- R527 -/
def Ev.PATTERN_BUSY : Event := ⟨Blk.PAT, 1, 0⟩
/-- R527 -/
def Ev.FW_STAGED : Event := ⟨Blk.FDS, 1, 0⟩
/-- R527 -/
def Ev.FW_ACTIVATED : Event := ⟨Blk.FDS, 2, 0⟩
/-- R527 -/
def Ev.FW_INCOMPLETE : Event := ⟨Blk.FDS, 3, 1⟩
/-- R527 -/
def Ev.FW_PENDING_REFUSED : Event := ⟨Blk.FDS, 4, 2⟩
/-- R527 -/
def Ev.SHARD_DIGEST_MISMATCH : Event := ⟨Blk.SHD, 1, 3⟩
/-- R527 -/
def Ev.SHARD_UNDER_REPLICATED : Event := ⟨Blk.SHD, 2, 2⟩
/-- R527 -/
def Ev.ADM_RING_FULL : Event := ⟨Blk.ADM, 1, 1⟩
/-- R527 -/
def Ev.UCIE_MODULE_DOWN : Event := ⟨Blk.AGT, 1, 2⟩
/-- R527 -/
def Ev.UCIE_CONTROL_DOWN : Event := ⟨Blk.AGT, 2, 3⟩
/-- R527 -/
def Ev.HIF_UNIT_ERROR : Event := ⟨Blk.AGT, 3, 1⟩
/-- R527 -/
def Ev.AGT_THERMAL_HIGH : Event := ⟨Blk.AGT, 4, 1⟩
/-- R527 -/
def Ev.AGT_THERMAL_LIMIT : Event := ⟨Blk.AGT, 5, 2⟩
/-- R527 -/
def Ev.AGT_VOLTAGE_RANGE : Event := ⟨Blk.AGT, 6, 2⟩
/-- R527 -/
def Ev.AGT_POWER_LIMIT : Event := ⟨Blk.AGT, 7, 2⟩
/-- R527 -/
def Ev.AGT_EYE_LOW : Event := ⟨Blk.AGT, 8, 1⟩
/-- R527 -/
def Ev.AGT_GAUGE_EXCEED : Event := ⟨Blk.AGT, 9, 2⟩
/-- R527 -/
def Ev.AGENT_FENCED : Event := ⟨Blk.AGT, 10, 3⟩
/-- R527 -/
def Ev.BANK_FALLBACK : Event := ⟨Blk.AGT, 11, 2⟩
/-- R527 -/
def Ev.AGT_DEBUG_ATTACHED : Event := ⟨Blk.AGT, 12, 0⟩
/-- R527 -/
def Ev.BOND_NARROWED : Event := ⟨Blk.LKP, 1, 1⟩
/-- R527 -/
def Ev.BOND_FAILED : Event := ⟨Blk.LKP, 2, 2⟩
/-- R527 -/
def Ev.BOND_RESTORED : Event := ⟨Blk.LKP, 3, 1⟩
/-- R527 -/
def Ev.EJECT_BACKPRESSURE : Event := ⟨Blk.LKP, 4, 1⟩
/-- R527 -/
def Ev.RSP_SPACE_UNDERFLOW : Event := ⟨Blk.LKP, 5, 2⟩
/-- R527 -/
def Ev.PURL_INPUT_DISCARD : Event := ⟨Blk.PRL, 1, 1⟩
/-- R527 -/
def Ev.PURL_EMIT_LATE : Event := ⟨Blk.PRL, 2, 1⟩
/-- R527 -/
def Ev.PURL_INCOMPLETE : Event := ⟨Blk.PRL, 3, 0⟩
/-- R527 -/
def Ev.PURL_LANES_SHORT : Event := ⟨Blk.PRL, 4, 2⟩
/-- R527 -/
def Ev.PURL_LANE_FENCED : Event := ⟨Blk.PRL, 5, 2⟩
/-- R527 -/
def Ev.PURL_ENGINE_FENCED : Event := ⟨Blk.PRL, 6, 2⟩
/-- R527 -/
def Ev.STORE_LOCKED : Event := ⟨Blk.PRL, 7, 0⟩
/-- R527 -/
def Ev.KEY_UNUSED : Event := ⟨Blk.GCM, 1, 0⟩
/-- R527 -/
def Ev.KEY_EXPIRED : Event := ⟨Blk.GCM, 2, 2⟩
/-- R527 -/
def Ev.PLUMB_SLIP : Event := ⟨Blk.PLB, 2, 2⟩
/-- R527 -/
def Ev.PLUMB_PARENT_SWITCH : Event := ⟨Blk.PLB, 3, 1⟩
/-- R527 -/
def Ev.PLUMB_HOLDOVER : Event := ⟨Blk.PLB, 4, 1⟩
/-- R527 -/
def Ev.PLUMB_UNALIGNED : Event := ⟨Blk.PLB, 5, 3⟩
/-- R527 -/
def Ev.PLUMB_FAR : Event := ⟨Blk.PLB, 6, 3⟩
/-- R527 -/
def Ev.PLUMB_DELAY_DRIFT : Event := ⟨Blk.PLB, 7, 2⟩
/-- R527 -/
def Ev.TAP_KEY_ABSENT : Event := ⟨Blk.MTP, 1, 1⟩
/-- R527 -/
def Ev.LNK_LINK_QUARANTINE : Event := ⟨Blk.LNK, 1, 2⟩
/-- R527 -/
def Ev.LANE_UNTRAINED : Event := ⟨Blk.LNK, 2, 1⟩
/-- R527 -/
def Ev.LINK_REACH_EXCEEDED : Event := ⟨Blk.LNK, 3, 2⟩
/-- R527 -/
def Ev.WATCH_EXPIRED : Event := ⟨Blk.WCH, 1, 2⟩
/-- R527 -/
def Ev.MBX_NO_RESPONSE : Event := ⟨Blk.WCH, 2, 1⟩
/-- R527 -/
def Ev.RECOVERY_EXHAUSTED : Event := ⟨Blk.WCH, 3, 3⟩
/-- R527 -/
def Ev.DUMP_SKIPPED : Event := ⟨Blk.WCH, 4, 1⟩
/-- R528 -/
def Ev.LOCKED_WRITE (blk : Nat) : Event := ⟨blk, 0xF0, 0⟩
/-- R528 -/
def Ev.ABSENT_ACCESS (blk : Nat) : Event := ⟨blk, 0xF1, 0⟩
/-- R528 -/
def Ev.WRITE_IGNORED (blk : Nat) : Event := ⟨blk, 0xF2, 0⟩
/-- R528 -/
def Ev.FENCED_ACCESS (blk : Nat) : Event := ⟨blk, 0xF3, 0⟩
/-- R528 -/
def Ev.UNIT_FAULT (blk : Nat) : Event := ⟨blk, 0xF4, 2⟩
/-- R528 -/
def Ev.CORRECTED_ERROR (blk : Nat) : Event := ⟨blk, 0xF5, 1⟩
/-- R528 -/
def Ev.STORED_DATA_ERROR (blk : Nat) : Event := ⟨blk, 0xF6, 2⟩
/-- The events of Pelron (R527), part 0. -/
def pelronEvents0 : List Event := [Ev.CST_STEP_FAILED, Ev.CST_SETTINGS_SAVED, Ev.PLAN_MISMATCH, Ev.EXTRA_NEIGHBOUR, Ev.AGENT_MISSING, Ev.LINK_QUARANTINE, Ev.OPERATOR_STORE_INVALID, Ev.KEY_MISSING, Ev.CONSUMED_LIST_WRAPPED, Ev.DEBUG_ATTACHED, Ev.MEASURE_BAD_MAC, Ev.KEYSTONE_FAULT, Ev.SOL_TILES_SHORT, Ev.SOL_SHADOW_FULL, Ev.ROUTE_HOP_MARGIN, Ev.THERMAL_HIGH, Ev.THERMAL_LIMIT, Ev.VOLTAGE_RANGE, Ev.POWER_LIMIT, Ev.EYE_LOW, Ev.PLUMB_RATE_CLAMP, Ev.PLUMB_LOOP_RESIDUAL, Ev.PLUMB_BOUND_UNMET, Ev.SEAL_BROKEN, Ev.TAP_BAD_MAC, Ev.METER_INTAKE_DROP, Ev.AGENT_SILENT, Ev.METER_RING_FULL, Ev.BATCH_LATE, Ev.SNAPSHOT_INVALID, Ev.POWER_FAIL, Ev.FLC_SELF_FAULT, Ev.INJECT_DENIED, Ev.MBX_MARK_DENIED, Ev.MBX_A_TIMEOUT, Ev.CVU_BUSY, Ev.MEM_CORRECTED, Ev.MEM_ROW_SPARED, Ev.MEM_MIRROR_REBUILT, Ev.MEM_UNCORRECTABLE]
/-- The events of Pelron (R527), part 1. -/
def pelronEvents1 : List Event := [Ev.MEM_ADDRESS_FAULT, Ev.MEM_SPARES_EXHAUSTED, Ev.MEM_CHANNEL_FENCED, Ev.SKN_SESSION_LOST, Ev.MNP_AUTH_FAIL, Ev.FUNC_HUNG, Ev.ORPHAN_PARTITION, Ev.GAUGE_EXCEED, Ev.WEAR_WARNING, Ev.PATTERN_BUSY, Ev.FW_STAGED, Ev.FW_ACTIVATED, Ev.FW_INCOMPLETE, Ev.FW_PENDING_REFUSED, Ev.SHARD_DIGEST_MISMATCH, Ev.SHARD_UNDER_REPLICATED, Ev.ADM_RING_FULL]
/-- The events of Pelron (R527). -/
def pelronEvents : List Event := pelronEvents0 ++ pelronEvents1
/-- The events of Twidel (R527), part 0. -/
def twidelEvents0 : List Event := [Ev.UCIE_MODULE_DOWN, Ev.UCIE_CONTROL_DOWN, Ev.HIF_UNIT_ERROR, Ev.AGT_THERMAL_HIGH, Ev.AGT_THERMAL_LIMIT, Ev.AGT_VOLTAGE_RANGE, Ev.AGT_POWER_LIMIT, Ev.AGT_EYE_LOW, Ev.AGT_GAUGE_EXCEED, Ev.AGENT_FENCED, Ev.BANK_FALLBACK, Ev.AGT_DEBUG_ATTACHED, Ev.BOND_NARROWED, Ev.BOND_FAILED, Ev.BOND_RESTORED, Ev.EJECT_BACKPRESSURE, Ev.RSP_SPACE_UNDERFLOW, Ev.PURL_INPUT_DISCARD, Ev.PURL_EMIT_LATE, Ev.PURL_INCOMPLETE, Ev.PURL_LANES_SHORT, Ev.PURL_LANE_FENCED, Ev.PURL_ENGINE_FENCED, Ev.STORE_LOCKED, Ev.KEY_UNUSED, Ev.KEY_EXPIRED, Ev.PLUMB_RATE_CLAMP, Ev.PLUMB_SLIP, Ev.PLUMB_PARENT_SWITCH, Ev.PLUMB_HOLDOVER, Ev.PLUMB_UNALIGNED, Ev.PLUMB_FAR, Ev.PLUMB_DELAY_DRIFT, Ev.TAP_KEY_ABSENT, Ev.FLC_SELF_FAULT, Ev.INJECT_DENIED, Ev.MBX_MARK_DENIED, Ev.MBX_A_TIMEOUT, Ev.CVU_BUSY, Ev.LNK_LINK_QUARANTINE]
/-- The events of Twidel (R527), part 1. -/
def twidelEvents1 : List Event := [Ev.LANE_UNTRAINED, Ev.LINK_REACH_EXCEEDED, Ev.WATCH_EXPIRED, Ev.MBX_NO_RESPONSE, Ev.RECOVERY_EXHAUSTED, Ev.DUMP_SKIPPED, Ev.PATTERN_BUSY]
/-- The events of Twidel (R527). -/
def twidelEvents : List Event := twidelEvents0 ++ twidelEvents1
/-- The severity of the common code with this low byte (R528). -/
def commonSev : Nat → Option Nat
  | 0xF0 => some 0 | 0xF1 => some 0 | 0xF2 => some 0 | 0xF3 => some 0
  | 0xF4 => some 2 | 0xF5 => some 1 | 0xF6 => some 2
  | _ => none

/-- The events of a block that this event code names on a part with these blocks, in order of block index (R433). -/
def eventOf (blocks : List Nat) (events : List Event) (code : Nat) : Option Event := do
  let blk ← blocks[code / 256]?
  match commonSev (code % 256) with
  | some s => some ⟨blk, code % 256, s⟩
  | none => events.find? fun e => e.blk = blk && e.low = code % 256

end Sys2Proof.Machine
end

