-- ==== Sys2Proof/Machine/Arith.lean ====
section
/-! DEFINITION. The arithmetic both parts share: fixed point and saturation (R41 to R47), number formats, exact values and
the one rounding of a result (R48 to R59), gauge, energy and wear arithmetic (R60 to R70), and the check codes
(R107, R488, R482). Everything here is a plain function on numbers. -/

namespace Sys2Proof.Machine

/-! ## Fixed point -/

/-- Round an exact quotient to nearest, ties to even (R41). -/
def roundDivNE (n : Int) (d : Nat) : Int :=
  let q := n / (d : Int)
  let r := n - q * (d : Int)
  if 2 * r > d then q + 1 else if 2 * r < d then q else if q % 2 = 0 then q else q + 1

/-- An unsigned quantity of n bits that saturates (R42). -/
def satU (n v : Nat) : Nat := min v (2 ^ n - 1)

/-- A signed quantity of n bits that saturates (R42). -/
def satS (n : Nat) (v : Int) : Int := max (-(2 : Int) ^ (n - 1)) (min v ((2 : Int) ^ (n - 1) - 1))

/-- The 6-bit value a tenant reads for a difference Δ and a full-scale value F (R44); open where F is 0. -/
def quantise6 (delta full : Nat) : Nat := min 63 (if full = 0 then Config.quantiseNoScale delta else 64 * delta / full)

/-! ## Fabric time (R45, R46) -/

/-- The base increment of tick k, in units of 2^-16 ns (R45). -/
def tickBase (k : Nat) : Nat := if k % 5 = 2 ∨ k % 5 = 4 then 419431 else 419430

/-- What tick k adds to the 120-bit count under rate word c (R46). -/
def tickInc (k : Nat) (c : Int) : Int := (tickBase k : Int) * 2 ^ 40 + (tickBase k : Int) * c

/-- The count after tick k, modulo 2^120 (R42, R46). -/
def tickCount (count k : Nat) (c : Int) : Nat := (((count : Int) + tickInc k c) % 2 ^ 120).toNat

/-! ## Number formats (R49, R50) -/

/-- The twelve formats of the PURL row's format table. -/
inductive Fmt where
  | fp32 | bf16 | fp16 | e4m3 | e5m2 | mxE4m3 | mxE5m2 | mxE3m2 | mxE2m3 | mxE2m1 | int8 | int32
  deriving DecidableEq, Repr

/-- The format codes of the PURL row (03). -/
def fmtOfCode : Nat → Option Fmt
  | 0x01 => some .fp32 | 0x02 => some .bf16 | 0x03 => some .fp16 | 0x04 => some .e4m3 | 0x05 => some .e5m2
  | 0x06 => some .mxE4m3 | 0x07 => some .mxE5m2 | 0x08 => some .mxE3m2 | 0x09 => some .mxE2m3 | 0x0A => some .mxE2m1
  | 0x0B => some .int8 | 0x0C => some .int32
  | _ => none

/-- The shape of a floating-point element: exponent bits, bias, fraction bits, the code of the largest finite value, and
which special encodings it has: 0 none, 1 a NaN only, 2 IEEE Inf and NaN (R49). -/
structure FloatShape where
  ebits : Nat
  bias : Nat
  fbits : Nat
  maxCode : Nat
  special : Nat
  deriving DecidableEq, Repr

/-- The element shape of a format; none for the integer formats. -/
def fmtShape : Fmt → Option FloatShape
  | .fp32 => some ⟨8, 127, 23, 0x7F7FFFFF, 2⟩
  | .bf16 => some ⟨8, 127, 7, 0x7F7F, 2⟩
  | .fp16 => some ⟨5, 15, 10, 0x7BFF, 2⟩
  | .e4m3 | .mxE4m3 => some ⟨4, 7, 3, 0x7E, 1⟩
  | .e5m2 | .mxE5m2 => some ⟨5, 15, 2, 0x7B, 2⟩
  | .mxE3m2 => some ⟨3, 3, 2, 0x1F, 0⟩
  | .mxE2m3 => some ⟨2, 1, 3, 0x1F, 0⟩
  | .mxE2m1 => some ⟨2, 1, 1, 0x07, 0⟩
  | .int8 | .int32 => none

/-- Bits of one element. -/
def fmtBits : Fmt → Nat
  | .fp32 | .int32 => 32
  | .bf16 | .fp16 => 16
  | .e4m3 | .e5m2 | .mxE4m3 | .mxE5m2 | .int8 => 8
  | .mxE3m2 | .mxE2m3 => 6
  | .mxE2m1 => 4

/-- The exponent of the largest normal value of an MX element format (R59). -/
def mxEmax : Fmt → Option Int
  | .mxE4m3 => some 8
  | .mxE5m2 => some 15
  | .mxE3m2 => some 4
  | .mxE2m3 => some 2
  | .mxE2m1 => some 2
  | _ => none

/-- A contribution: NaN, an infinity, or a finite value of sign and magnitude, the magnitude in units of 2^-149 (R48). -/
inductive Num where
  | nan
  | inf (neg : Bool)
  | fin (neg : Bool) (mag : Nat)
  deriving DecidableEq, Repr

/-- A floating-point element of shape f, scaled by 2^sh, sh at or above the format's need (R49, R50). -/
def decodeFloat (f : FloatShape) (w : Nat) (sh : Int) : Num :=
  let frac := w % 2 ^ f.fbits
  let exp := w / 2 ^ f.fbits % 2 ^ f.ebits
  let neg := w / 2 ^ (f.fbits + f.ebits) % 2 = 1
  if f.special = 2 ∧ exp = 2 ^ f.ebits - 1 then (if frac = 0 then .inf neg else .nan)
  else if f.special = 1 ∧ exp = 2 ^ f.ebits - 1 ∧ frac = 2 ^ f.fbits - 1 then .nan
  else
    let sig := if exp = 0 then frac else 2 ^ f.fbits + frac
    let e : Int := (if exp = 0 then 1 else (exp : Int)) - f.bias - f.fbits + 149 + sh
    .fin neg (sig * 2 ^ e.toNat)

/-- One element of a format outside MX (R49). -/
def decodeElem (f : Fmt) (w : Nat) : Num :=
  match fmtShape f with
  | some sh => decodeFloat sh w 0
  | none =>
    let bits := fmtBits f
    let v := w % 2 ^ bits
    if v < 2 ^ (bits - 1) then .fin false (v * 2 ^ 149) else .fin true ((2 ^ bits - v) * 2 ^ 149)

/-- One MX element under the shared scale s, and whether INPUT_RANGE is set (R50). -/
def decodeMx (f : Fmt) (s w : Nat) : Num × Bool :=
  if s = 0xFF then (.nan, false)
  else match fmtShape f with
    | none => (.nan, false)
    | some sh =>
      match decodeFloat sh w ((s : Int) - 127) with
      | .fin neg mag => if mag ≥ 2 ^ 277 then (.inf neg, true) else (.fin neg mag, false)
      | v => (v, false)

/-! ## Output conversion (R53 to R59) -/

/-- The rounding modes of R54. -/
inductive RoundMode where
  | rne | rtz | sr
  deriving DecidableEq, Repr

/-- Number of bits of m, 0 for 0. -/
def bitLength (m : Nat) : Nat := if m = 0 then 0 else Nat.log2 m + 1

/-- The exponent t with 2^t ≤ m/d < 2^(t+1) (R53). -/
def floorLog2 (m d : Nat) : Int :=
  let t : Int := (bitLength m : Int) - bitLength d
  let below := if t < 0 then m * 2 ^ (-t).toNat < d else m < d * 2 ^ t.toNat
  if below then t - 1 else t

/-- The rounded significand and whether the result is inexact: magnitude m/d in units of 2^-149, quantum 2^(j-149). -/
def roundSig (m d j : Nat) (mode : RoundMode) (rnd : Nat) : Nat × Bool :=
  let den := d * 2 ^ j
  let q := m / den
  let r := m % den
  let q' := match mode with
    | .rne => if 2 * r > den ∨ (2 * r = den ∧ q % 2 = 1) then q + 1 else q
    | .sr => if rnd < r * 2 ^ 32 / den then q + 1 else q
    | .rtz => q
  (q', r ≠ 0)

/-- The flags a rounding sets (R241's inexact, overflow, invalid). -/
structure RoundFlags where
  inexact : Bool := false
  overflow : Bool := false
  invalid : Bool := false
  deriving DecidableEq, Repr

/-- Both of two roundings' flags. -/
def RoundFlags.or (a b : RoundFlags) : RoundFlags :=
  ⟨a.inexact || b.inexact, a.overflow || b.overflow, a.invalid || b.invalid⟩

/-- An infinite result in a format (R55): Inf where it has one, the NaN of its own sign in E4M3, an extreme integer. -/
def encodeInf (f : Fmt) (neg : Bool) : Nat :=
  let sgn (bits : Nat) := if neg then 2 ^ (bits - 1) else 0
  match f with
  | .int8 | .int32 => if neg then 2 ^ (fmtBits f - 1) else 2 ^ (fmtBits f - 1) - 1
  | .e4m3 | .mxE4m3 => 0x7F + sgn 8
  | .fp32 => 0x7F800000 + sgn 32
  | .bf16 => 0x7F80 + sgn 16
  | .fp16 => 0x7C00 + sgn 16
  | .e5m2 | .mxE5m2 => 0x7C + sgn 8
  | .mxE3m2 | .mxE2m3 | .mxE2m1 => 0

/-- The canonical NaN of a format, and whether INVALID is set for want of one (R56). -/
def encodeNaN : Fmt → Nat × Bool
  | .fp32 => (0x7FC00000, false)
  | .bf16 => (0x7FC0, false)
  | .fp16 => (0x7E00, false)
  | .e4m3 | .mxE4m3 => (0x7F, false)
  | .e5m2 | .mxE5m2 => (0x7E, false)
  | .mxE3m2 | .mxE2m3 | .mxE2m1 => (0, false)
  | .int8 | .int32 => (0, true)

/-- What an overflowed magnitude encodes as (R55): `sat` is overflow mode SATURATE. -/
def encodeOverflow (f : Fmt) (neg sat : Bool) (mode : RoundMode) : Nat :=
  let bits := fmtBits f
  match f with
  | .int8 | .int32 => encodeInf f neg
  | .mxE4m3 | .mxE5m2 | .mxE3m2 | .mxE2m3 | .mxE2m1 =>
    ((fmtShape f).map (·.maxCode)).getD 0 + (if neg then 2 ^ (bits - 1) else 0)
  | .e4m3 => if sat then 0x7E + (if neg then 128 else 0) else encodeInf f neg
  | _ =>
    if sat ∨ mode = .rtz then ((fmtShape f).map (·.maxCode)).getD 0 + (if neg then 2 ^ (bits - 1) else 0)
    else encodeInf f neg

/-- One element rounded once (R53): sign, magnitude m/d in units of 2^-149, block exponent X (0 outside MX). -/
def roundOut (neg : Bool) (m d : Nat) (f : Fmt) (x : Int) (sat : Bool) (mode : RoundMode) (rnd : Nat) :
    Nat × RoundFlags :=
  match fmtShape f with
  | none =>
    let bits := fmtBits f
    let (q, ix) := if m = 0 then (0, false) else roundSig m d 149 mode rnd
    let limit := if neg then 2 ^ (bits - 1) else 2 ^ (bits - 1) - 1
    if q > limit then (encodeOverflow f neg sat mode, { inexact := ix, overflow := true })
    else (if neg then (2 ^ bits - q) % 2 ^ bits else q, { inexact := ix })
  | some sh =>
    let sgn := if neg then 2 ^ (sh.ebits + sh.fbits) else 0
    if m = 0 then (sgn, {})
    else
      let e := floorLog2 m d - 149
      let emin : Int := 1 - (sh.bias : Int)
      let u : Int := max (e - x) emin - sh.fbits
      let j := (u + x + 149).toNat
      let (q, ix) := roundSig m d j mode rnd
      let code : Nat :=
        if q < 2 ^ sh.fbits then q
        else ((u + sh.fbits + sh.bias).toNat) * 2 ^ sh.fbits + (q - 2 ^ sh.fbits)
      if code > sh.maxCode then (encodeOverflow f neg sat mode, { inexact := ix, overflow := true })
      else (sgn + code, { inexact := ix })

/-- The 64-bit mixer of R57. -/
def mix64 (x : Nat) : Nat :=
  let x := (Nat.xor x (x / 2 ^ 30)) * 0xBF58476D1CE4E5B9 % 2 ^ 64
  let x := (Nat.xor x (x / 2 ^ 27)) * 0x94D049BB133111EB % 2 ^ 64
  Nat.xor x (x / 2 ^ 31)

/-- The random word of an element (R57). -/
def srWord (seed collective step index : Nat) : Nat :=
  let z := mix64 (Nat.xor (Nat.xor seed (collective * 2 ^ 32 % 2 ^ 64)) step)
  mix64 (Nat.xor z index) / 2 ^ 32

/-- The block exponent of an MX output block over its finite magnitudes, all in units of 2^-149 / d (R59). -/
def mxExponent (f : Fmt) (mags : List Nat) (d : Nat) : Int :=
  let m := mags.foldl max 0
  if m = 0 then -127
  else max (-127) (min 127 (floorLog2 m d - 149 - (mxEmax f).getD 0))

/-! ## Gauge arithmetic (R60 to R65) -/

/-- One region's table of the GAUGE row: droop allowance, 8 voltages, 8 temperatures, 64 delays (g[8i+j]). -/
structure GaugeEnt where
  droop : Nat
  volts : List Nat
  temps : List Int
  delays : List Nat
  deriving DecidableEq, Repr

/-- The cell of a strictly rising axis that holds x: its lower index, none outside the axis (R62, R63). -/
def axisCell (ax : List Int) (x : Int) : Option Nat :=
  (List.range (ax.length - 1)).find? fun i => ax.getD i 0 ≤ x ∧ x ≤ ax.getD (i + 1) 0

/-- The delay at a corner (R62), none outside the grid (R63); it saturates at 0xFFFF_FFFF (R42). -/
def gaugeAt (g : GaugeEnt) (v t : Int) : Option Nat := do
  let vs := g.volts.map Int.ofNat
  let i ← axisCell vs v
  let j ← axisCell g.temps t
  let x := v - vs.getD i 0
  let y := t - g.temps.getD j 0
  let dv := vs.getD (i + 1) 0 - vs.getD i 0
  let dt := g.temps.getD (j + 1) 0 - g.temps.getD j 0
  let at' (a b : Nat) : Int := g.delays.getD (8 * a + b) 0
  let n := (dv - x) * (dt - y) * at' i j + x * (dt - y) * at' (i + 1) j
    + (dv - x) * y * at' i (j + 1) + x * y * at' (i + 1) (j + 1)
  let den := dv * dt
  some (satU 32 ((n + den - 1) / den).toNat)

/-- Clamp to an axis: the nearest grid value (R63, for reporting only). -/
def axisClamp (ax : List Int) (x : Int) : Int :=
  max (ax.getD 0 0) (min x (ax.getD (ax.length - 1) 0))

/-- The nearest grid point's index on an axis: the smallest distance, the lower index first. -/
def axisNearest (ax : List Int) (x : Int) : Nat :=
  ((List.range ax.length).foldl (fun (b : Nat × Nat) i =>
    let d := (ax.getD i 0 - x).natAbs
    if d < b.2 then (i, d) else b) (0, (ax.getD 0 0 - x).natAbs)).1

/-- The delay reported at a corner: the gauge value inside the grid, the nearest grid point's delay outside it (R63). -/
def gaugeReportAt (g : GaugeEnt) (v t : Int) : Nat :=
  match gaugeAt g v t with
  | some d => d
  | none => g.delays.getD (8 * axisNearest (g.volts.map Int.ofNat) v + axisNearest g.temps t) 0

/-- The worst corner of a region (R61): the measured voltage less the droop allowance, the temperature plus 5 °C. -/
def worstCorner (g : GaugeEnt) (mv : Nat) (temp : Int) : Int × Int := ((mv : Int) - g.droop, temp + 40)

/-- Whether a measured stage delay exceeds the gauge value by more than 12.5 % (R65). -/
def gaugeExceeds (dMeas g : Nat) : Bool := 8 * dMeas > 9 * g

/-- The gauge ratio d_meas / g in UQ2.14, narrowed to nearest even (R41, R355); open where g is 0. -/
def gaugeRatio (dMeas g : Nat) : Nat :=
  satU 16 (if g = 0 then Config.ratioOverZero dMeas else (roundDivNE (dMeas * 2 ^ 14) g).toNat)

/-- g′ of a region in EXCEED (R366), from the exact ratio (R41): it saturates (R42), and is open where g is 0. -/
def gaugePrime (worst dMeas g : Nat) : Nat := satU 32 (if g = 0 then Config.ratioOverZero dMeas else (worst * dMeas + g - 1) / g)

/-- A gauge that is saturated, as which one that is not there counts too: it fails every check (R42, R63). -/
def gaugeFull : Nat := 2 ^ 32 - 1

/-- The bound of a path, UQ48.16 ns, saturating (R42, R64). -/
def pathBound (stages gWorst : Nat) : Nat := satU 64 (stages * gWorst)

/-! ## Energy attribution (R66, R67) -/

/-- Whether a partition's remainder ranks before another's: larger first, equal ones by ascending partition (R66). -/
def remainderBefore (a b : Nat × Nat) : Bool := a.2 > b.2 || (a.2 = b.2 && a.1 < b.1)

/-- The attributed energy of each partition of a list of (partition, bytes) (R66). -/
def energyShares (e : Nat) (parts : List (Nat × Nat)) : List (Nat × Nat) :=
  let b := (parts.map (·.2)).foldl (· + ·) 0
  if b = 0 then [(0, e)]
  else
    let rem := parts.map fun p => (p.1, e * p.2 % b)
    let left := e - (parts.map fun p => e * p.2 / b).foldl (· + ·) 0
    parts.map fun (p : Nat × Nat) =>
      let rank := (rem.filter fun q => remainderBefore q (p.1, e * p.2 % b)).length
      (p.1, e * p.2 / b + (if p.2 > 0 ∧ rank < left then 1 else 0))

/-! ## Wear extrapolation (R68 to R70) -/

/-- The sums of R68 over a history, oldest first: (n, Sx, Sxx, Sy, Sxy, Syy). -/
structure WearSums where
  n : Int
  sx : Int
  sxx : Int
  sy : Int
  sxy : Int
  syy : Int
  deriving DecidableEq, Repr

/-- R68. -/
def wearSums (ys : List Int) : WearSums :=
  ys.foldl (fun s y => ⟨s.n + 1, s.sx + s.n, s.sxx + s.n * s.n, s.sy + y, s.sxy + s.n * y, s.syy + y * y⟩) ⟨0, 0, 0, 0, 0, 0⟩

/-- Remaining operating hours of a monitor with threshold y and direction dir (R69); no history gives no figure, which
is the full-scale value. -/
def wearRemaining (ys : List Int) (y dir : Int) : Nat :=
  let s := wearSums ys
  let num := s.n * s.sxy - s.sx * s.sy
  let den := s.n * s.sxx - s.sx * s.sx
  let a := dir * (s.n * y * den - s.sy * den - num * (s.n * (s.n - 1) - s.sx))
  match ys with
  | [] => 0xFFFFFFFF
  | [y0] => if dir * (y0 - y) ≥ 0 then 0 else 0xFFFFFFFF
  | _ =>
    if a ≤ 0 then 0
    else if dir * num ≤ 0 then 0xFFFFFFFF
    else satU 32 (16 * (a / (s.n * (dir * num))).toNat)

/-- Confidence of a monitor's figure (R70). -/
def wearConfidence (ys : List Int) : Nat :=
  let s := wearSums ys
  let num := s.n * s.sxy - s.sx * s.sy
  let den := s.n * s.sxx - s.sx * s.sx
  let v := s.n * s.syy - s.sy * s.sy
  if s.n < 2 ∨ v = 0 then 0 else (255 * s.n * num * num / (64 * den * v)).toNat

/-! ## Check codes -/

/-- One step of a reflected CRC: the register after one bit shifted in. -/
def crcBit (poly reg : Nat) : Nat := if reg % 2 = 1 then Nat.xor (reg / 2) poly else reg / 2

/-- A reflected CRC register after n more bits. -/
def crcBits (poly : Nat) : Nat → Nat → Nat
  | 0, reg => reg
  | n + 1, reg => crcBits poly n (crcBit poly reg)

/-- A reflected CRC's running value over bytes (R489: held before the final XOR). -/
def crcRun (poly : Nat) (reg : Nat) (bs : Bytes) : Nat :=
  bs.foldl (fun r b => crcBits poly 8 (Nat.xor r b.toNat)) reg

/-- The reflected polynomials of R488. -/
def poly32c : Nat := 0x82F63B78
def poly64xz : Nat := 0xC96C5795D7870F42

/-- CRC-32C of R488. -/
def crc32c (bs : Bytes) : Nat := Nat.xor (crcRun poly32c 0xFFFFFFFF bs) 0xFFFFFFFF

/-- CRC-64/XZ of R488. -/
def crc64xz (bs : Bytes) : Nat := Nat.xor (crcRun poly64xz 0xFFFFFFFFFFFFFFFF bs) 0xFFFFFFFFFFFFFFFF

end Sys2Proof.Machine
end

