-- ==== Sys2Proof/Machine/State.lean ====
section
/-! DEFINITION. The state of the block: the Pelron controller, the packaged Twidel agent, the agent embedded in the
Pelron die, and the queue of commands that wait. Every register lives in its part's register file (one home); what the
spec keeps beside the registers (queues, tables, memories, pins, fuses, module flash) has a field of its own, and a
register that shows such a field is computed when it is read. -/

namespace Sys2Proof.Machine

/-! ## What both parts have -/

/-- The variants (R1) and the embedded agent (R5). -/
inductive Part where
  | pln9400 | pln9320 | pln9210 | twd210 | twd200 | embedded
  deriving DecidableEq, Repr

/-- A raise that waits for its snapshot (R435), with the time of its record taken when it was raised (R436), the snapshot list of R437
and the reads that timed out so far. -/
structure Raise where
  code : Nat
  inst : Nat
  sev : Nat
  alert : Bool
  /-- recorded at all (R434) -/
  keep : Bool
  snapList : Nat
  /-- the record's time_kind and time -/
  timeKind : Nat
  time : Nat
  /-- when it was raised, on the die's own clock -/
  atNs : Nat
  timedOut : List Nat
  deriving DecidableEq, Repr

/-- An event record (R436). -/
structure Record where
  code : Nat
  sev : Nat
  flags : Nat
  fid : Nat
  block : Nat
  timeKind : Nat
  inst : Nat
  fwdSeq : Nat
  time : Nat
  sequence : Nat
  snapList : Nat
  snapCount : Nat
  snapValid : Nat
  regs : List Word
  deriving DecidableEq, Repr

/-- What FLC_UNIT shows of a unit (R451). -/
structure UnitInfo where
  block : Nat
  inst : Nat
  fenced : Bool
  sev : Nat
  code : Nat
  at_ : Nat
  deriving DecidableEq, Repr

/-- The event recorder (R435 to R448). -/
structure Evr where
  queue : List Raise
  nextSeq : Nat
  /-- retained area, oldest first: module flash on Pelron, share 3 on Twidel -/
  retained : List Record
  /-- records written since the retained area was last cleared -/
  sinceClear : Nat
  /-- the agent's circulating area by slot (R448); Pelron's lies in controller memory (R445) -/
  circ : Tbl Record
  fallback : List Record
  /-- last-gasp area, oldest first; Pelron -/
  lastGasp : List Bytes
  /-- the agent's next fwd_seq -/
  fwdSeq : Nat
  /-- fwd_seq next expected by the controller of each agent (R446) -/
  fwdExpect : Tbl Nat
  /-- forwarded records asked for again and not yet here: FID, first and past the last fwd_seq -/
  fwdMissing : List (Nat × Nat × Nat)
  /-- operating seconds and power cycles when the tick count was zero (R438) -/
  secBase : Nat
  cycles : Nat
  based : Bool
  /-- operating seconds and power cycles as saved in module flash (R438) -/
  savedSec : Nat
  savedCycles : Nat
  /-- when they were saved last, on the die's own clock -/
  savedNs : Nat
  deriving DecidableEq, Repr

/-- A latch of R13: the words of a wide value not yet read over a path. -/
structure Latch where
  path : Path
  base : Nat
  words : List (Nat × Word)
  deriving DecidableEq, Repr

/-- A write to a lower word of a wide value, held until its highest word is written (R13). -/
structure HeldWrite where
  path : Path
  key : Nat
  val : Word
  deriving DecidableEq, Repr

/-- A row of a Selud file (R77). -/
structure Row where
  rtype : Nat
  flags : Nat
  /-- bytes 5 to 7, which must be zero -/
  reserved : Nat
  targetKind : Nat
  target : Nat
  seq : Nat
  payload : Bytes
  crc : Nat
  deriving DecidableEq, Repr

/-- The header of a Selud file (R74). -/
structure Header where
  magic : Nat
  version : Nat
  kind : Nat
  authKind : Nat
  scopeKind : Nat
  scopeValue : Nat
  epoch : Nat
  sequence : Nat
  length : Nat
  rowCount : Nat
  authLength : Nat
  rowsDigest : Bytes
  signerKey : Nat
  fwMin : Nat
  fwMax : Nat
  baseDigest : Bytes
  reservedZero : Bool
  deriving DecidableEq, Repr

/-- A Pattern that passed its checks (R86). -/
structure Pattern where
  header : Header
  headerBytes : Bytes
  rows : List Row
  activateCourse : Nat
  immediate : Bool
  deriving DecidableEq, Repr

/-- A Pattern loader (R86, R97, R469). PAT_STATUS holds its state and last result. -/
structure Loader where
  /-- stream held, next offset (the length of `bytes`), file length; Pelron: the file read from memory -/
  stream : Nat
  fileLen : Nat
  bytes : Bytes
  /-- accepted worms since the last PATTERN_PROGRESS -/
  accepted : Nat
  /-- a Pattern in VERIFYING or STAGED -/
  pattern : Option Pattern
  /-- the last activated sequence by kind × 2^20 + scope (R97) -/
  lastSeq : Tbl Nat
  /-- the last PATTERN_PROGRESS for a worm out of order and the last accepted worm, on the die's own clock -/
  lastGapNs : Option Nat
  acceptedNs : Nat := 0
  /-- pat_stream and pat_next of the identity block (R469) -/
  idStream : Nat
  idNext : Nat
  deriving DecidableEq, Repr

/-- A class A message (R465). -/
structure MsgA where
  mtype : Nat
  flags : Nat
  seq : Nat
  tag : Nat
  floor : Nat
  body : Bytes
  deriving DecidableEq, Repr

/-- A message a sender keeps until it is acknowledged (R467): its sends so far, and the time of the last on the die's own clock. -/
structure Unacked where
  msg : MsgA
  sends : Nat
  sentNs : Nat
  deriving DecidableEq, Repr

/-- The class A state toward one peer (R466). -/
structure Peer where
  fid : Nat
  nextSend : Nat
  nextExpect : Nat
  unacked : List Unacked
  /-- sends that wait for room in the window, their seq not yet given (R466) -/
  waiting : List MsgA
  /-- seqs that ended TIMEOUT_UNKNOWN and were not acknowledged since (R467) -/
  ended : List Nat
  /-- held beyond the next expected, by seq: the message with its mark -/
  held : Tbl (Nat × MsgA)
  /-- when the peer last sent, for the two controllers an agent keeps -/
  order : Nat
  deriving DecidableEq, Repr

/-- A class B queue of one direction (R471): `toB` from master_a to master_b. -/
structure ChanB where
  channel : Nat
  masterA : Nat
  masterB : Nat
  /-- each message with the master that sent it -/
  toB : List (Nat × List Word)
  toA : List (Nat × List Word)
  deriving DecidableEq, Repr

/-- A master's view of a channel: its staging words and the result bits of its last operation (R471, R474). -/
structure ViewB where
  channel : Nat
  master : Nat
  staging : List Word
  result : Nat
  lost : Bool
  deriving DecidableEq, Repr

/-- The mailboxes (R465 to R471). -/
structure Mbx where
  peers : List Peer
  clock : Nat
  chans : List ChanB
  views : List ViewB
  /-- class A messages delivered to firmware: source FID, the mark's privilege and partition, and the message -/
  inbox : List (Nat × Nat × Nat × MsgA)
  /-- fabric time in ns of the last MBX_MARK_DENIED raised -/
  lastDenied : Option Nat
  deriving DecidableEq, Repr

/-- The state of a check-value unit beside its registers (R489): the operation that runs, with its addresses and length as they stood at
its start. -/
structure Cvu where
  ctl : Nat
  src : Nat := 0
  dst : Nat := 0
  len : Nat := 0
  deriving DecidableEq, Repr

/-- The count of a fabric-time counter (R45, R46): UQ64.56, the tick number, and the rate word in force. -/
structure Clk where
  count : Nat
  tick : Nat
  rate : Int
  /-- a load of PLB_MASTER_LOAD that takes effect at the next tick -/
  load : Option Nat
  deriving DecidableEq, Repr

/-- One region under the gauge and health sampling (R363, R364). -/
structure Region where
  exceed : Bool
  /-- worst-corner delay last reported, and whether that corner lies outside the grid (R63) -/
  delay : Nat
  outside : Bool
  /-- worst-corner delay last found, and whether its corner lies outside the grid -/
  latest : Nat × Bool
  /-- the measured stage delay and the gauge value at the measured corner, last found -/
  dMeas : Nat
  ref : Nat
  /-- fabric time in ns since which every measurement was within the limit of leaving EXCEED (R364) -/
  within : Option Nat
  deriving DecidableEq, Repr

/-- A dump block as read (R335). -/
structure DumpBlock where
  num : Nat
  result : BlockResult
  deriving DecidableEq, Repr

/-- An EVR row entry (03). -/
structure EvrEnt where
  code : Nat
  flags : Nat
  snap : Nat
  deriving DecidableEq, Repr

/-- A RESOURCE row (R83): PLUMB_IO, UCIe functions, watch owners, bulk shares as (base, size). -/
structure Resource where
  plumbIo : Nat
  ucie : List Nat
  timers : List Nat
  shares : List (Nat × Nat)
  deriving DecidableEq, Repr

/-- A METER row entry (03). -/
structure MeterEnt where
  intervalUs : Nat
  periodMs : Nat
  tapKeyId : Nat
  flags : Nat
  deriving DecidableEq, Repr

/-- A firmware core's part in the dies: whether the running firmware's version and link level (R301, R512, R516). -/
structure Firmware where
  version : Nat
  linkLevel : Nat
  index : Nat
  deriving DecidableEq, Repr

/-- A message to control software or the host chip, a worm, a pin: what a part emits, oldest first. -/
inductive Out where
  /-- the 16 bytes of a lookup response, as a number (R118), for an input bond -/
  | verdict (inBond bits : Nat)
  /-- a HOLD message of R119, whose 16 bytes holdBits gives -/
  | hold (bond lead : Nat)
  /-- a worm to the host for a bond, 0xFE being the agent input: the module it crosses and its units' tags (R265, R267, R273) -/
  | tx (bond modl : Nat) (tags : List Nat) (wm : Worm)
  /-- a worm that ends in a unit of the agent's own (R269, R273) -/
  | own (wm : Worm)
  /-- the head unit of a presented worm, and the units that follow its ACCEPT: module, tags, content (R267, R270) -/
  | present (modl tag : Nat) (wm : Worm)
  | presentRest (modl : Nat) (tags : List Nat) (payload : Bytes)
  /-- a CREDIT unit: module and tag (R267, R271, R275) -/
  | credit (modl tag : Nat)
  /-- a control message to the host on a module: type, status, tag, body (R267, R275) -/
  | msg (modl mtype status tag : Nat) (body : Bytes)
  /-- a register access completed over a path: status of R456 and value -/
  | access (path : Path) (status : Nat) (value : Word)
  /-- a pin driven to a level -/
  | pin (name : String) (level : Bool)
  /-- an interrupt to a master of this die -/
  | irq (name : String) (arg : Nat)
  /-- a frame on a Skein port: type, whether encrypted, queue pair, sequence, id, offset, payload (R452) -/
  | frame (port ftype : Nat) (encrypted : Bool) (qp sequence id offset : Nat) (payload : Bytes)
  /-- a Mortar record in a session (R460, R461) -/
  | record (session rtype sequence : Nat) (payload : Bytes)
  /-- a connection accepted, reset or closed -/
  | conn (name : String) (session : Nat)
  /-- an SPDM response on a connection: code and body (R399) -/
  | spdm (port conn code : Nat) (body : Bytes)
  /-- an identity block sent on a lane (R300) -/
  | identity (lane : Nat) (blk : IdBlock)
  /-- a PHY write of training settings to a lane (R278) -/
  | phy (lane reg : Nat) (write : Bool) (val : Nat)
  deriving DecidableEq, Repr

/-- A FWD worm that waits to be originated by this die's agent: destination, op, multicast mode and root, the bond the
originator names (0xFF none), operand bytes 8 onward, payload, the originating block and privilege (R463). -/
structure FwdMsg where
  dst : Nat
  op : Nat
  mcast : Nat
  root : Nat
  bond : Nat
  operand : Bytes
  payload : Bytes
  block : Nat
  privilege : Nat
  /-- a mark copied from a relayed worm (R468); none where the originator stamps its own -/
  mark : Option Nat := none
  deriving DecidableEq, Repr

/-- What both parts have: the register file and the units that exist on both dies. -/
structure Die where
  part : Part
  rf : Tbl Word
  latches : List Latch
  held : List HeldWrite
  testEn : Bool
  /-- a debug attach has come since reset (R397) -/
  attached : Bool
  clk : Clk
  evr : Evr
  units : List UnitInfo
  /-- waits that FLC_INJECT made come out TIMED_OUT: block and instance (R444) -/
  injected : List (Nat × Nat)
  /-- when FLC_INJECT raised its last fault, on the die's own clock (R444) -/
  injectNs : Option Nat := none
  pat : Loader
  mbx : Mbx
  cvu : List Cvu
  /-- trigger stamps, oldest first, at most 16 (R186) -/
  trig : List Nat
  /-- controller memory on Pelron, the bulk buffer on Twidel -/
  mem : Mem
  /-- EVR rows and MBXBIND rows in force -/
  evrEnts : List EvrEnt
  gaugeTab : Tbl GaugeEnt
  regions : Tbl Region
  resource : Resource
  fw : Firmware
  fwdq : List FwdMsg
  out : List Out
  /-- ALERT_N as this die drives it: true is released -/
  alertN : Bool
  /-- what Mortar sessions are to be notified of and were not yet (R461); Pelron -/
  notes : List Bytes
  /-- ns of the last FENCED_ACCESS by block (R528) -/
  fencedNs : Tbl Nat
  /-- the number of the next free value (the model's own) -/
  free : Nat
  deriving DecidableEq, Repr

/-! ## The agent -/

/-- A lane (R298, R318). State: 0 DOWN, 1 TRAINING, 2 UP, 3 HELD, 4 QUARANTINE, 5 UNTRAINED. -/
structure Lane where
  state : Nat
  cls : Nat
  source : Nat
  bond : Nat
  trainings : Nat
  detail : Nat
  eyeH : Nat
  eyeW : Nat
  savedH : Nat
  savedW : Nat
  settings : Bytes
  far : Option IdBlock
  /-- retrained and waiting to rejoin its bond (R29) -/
  ready : Bool
  /-- fabric time of the next retry of an UNTRAINED lane (R29), ns -/
  retryNs : Nat
  /-- the source of the training in course (R298) -/
  training : Option TrainSrc
  /-- the source of a training that waits for a place among the 16 of R298 -/
  wants : Option TrainSrc := none
  /-- whether an identity block came over the lane since it last trained (R300) -/
  heard : Bool := false
  deriving DecidableEq, Repr

/-- The Plumb record of a bond (R171, R172, R185). State: 0 NONE, 1 SETTLING, 2 VALID. -/
structure Link where
  state : Nat
  d : Nat
  theta : Int
  valid : Nat
  w : Int
  uw : Nat
  farState : Nat
  farSkew : Int
  /-- its probes showed chain_locked and show it no longer (R174) -/
  stopped : Bool := false
  sentCur : Nat
  sentPrev : Nat
  /-- t_rx_last and t_echo of the next probe (R165), and the probe periods since it arrived -/
  rxLast : Nat
  rxEcho : Nat
  rxAge : Nat
  /-- probe periods SETTLING still lasts (R170) -/
  settle : Nat
  /-- D_out and D_in captured at the last activation with a COURSE row, in units of 2^-17 ns, and whether the drift
  stands raised (R185) -/
  captured : Option (Int × Int)
  drift : Bool
  /-- a VALID exchange arrived in the current probe period, and in how many periods before none did (R174) -/
  seen : Bool
  missed : Nat
  deriving DecidableEq, Repr

/-- A bond (R26): its BOND row and its active lanes. -/
structure Bond where
  reach : Nat
  farBond : Nat
  farFid : Nat
  lanes : List Nat
  active : List Nat
  /-- DOWN after the loss of its last lane (R320) -/
  down : Bool
  /-- not brought into service: the reach limit was exceeded (R31) -/
  reachFail : Bool
  link : Link
  deriving DecidableEq, Repr

/-- One epoch slot of the table SRAM (R110 to R114): entries that were never written read zero, which is not valid. -/
structure TabSlot where
  fid : Tbl Nat
  iset : Tbl Nat
  mcast : Tbl Nat
  deriving DecidableEq, Repr

/-- An active PARTITION entry (03). -/
structure PartEnt where
  flags : Nat
  trafficSlot : Nat
  dumpSlot : Nat
  cgBase : Nat
  cgCount : Nat
  routeSeed : Nat
  iset : Nat
  deriving DecidableEq, Repr

/-- A request-tracker entry (R138). `status` none while outstanding; HELD with the completion's status otherwise. -/
structure Track where
  dst : Nat
  partition : Nat
  seq : Nat
  op : Nat
  cg : Nat
  reqTag : Nat
  /-- injection time and deadline, ns (R138, R393) -/
  injNs : Nat
  deadline : Nat
  fingerprint : Bytes
  flits : Nat
  heldStatus : Option Nat
  deriving DecidableEq, Repr

/-- A de-duplication window (R136): the highest accepted sequence and the map, position 0 for it. -/
structure Window where
  src : Nat
  hs : Nat
  map : List Bool
  deriving DecidableEq, Repr

/-- A worm in the staging of a class, as the host gave it (R271). -/
structure Staged where
  wm : Worm
  reqTag : Nat
  retry : Bool
  /-- it was counted as waiting for reply space (R150) -/
  waited : Bool
  /-- the fabric time, UQ64.16, at which the host presented it (R180) -/
  since : Nat := 0
  deriving DecidableEq, Repr

/-- A worm in a class's ejection holding register (R147, R270). -/
structure Holding where
  wm : Worm
  reqTag : Nat
  status : Nat
  deriving DecidableEq, Repr

/-- A completion-group context (R140, R280). -/
structure CgCtx where
  bytes : Nat
  worms : Nat
  errors : Nat
  armSlot : Nat
  armed : Bool
  fired : Bool
  deriving DecidableEq, Repr

/-- An arm of the arm table (R281). -/
structure Arm where
  group : Nat
  worms : Nat
  bytes : Nat
  errors : Nat
  deriving DecidableEq, Repr

/-- The course geometry in force (R82). -/
structure Geom where
  slotCode : Nat
  countCode : Nat
  guard : Nat
  deriving DecidableEq, Repr

/-- A COURSE entry (03). -/
structure CourseEnt where
  course : Nat
  slot : Nat
  outBond : Nat
  action : Nat
  collective : Nat
  partition : Nat
  inBond : Nat
  deriving DecidableEq, Repr

/-- A measurement register (R282, R283). -/
structure Msr where
  value : Digest
  lastSeq : Nat
  count : Nat
  deriving DecidableEq, Repr

/-- A key slot (R391). State: 0 EMPTY, 1 LOADED, 2 ACTIVE, 3 RETIRING. -/
structure KeySlot where
  state : Nat
  use : Nat
  partition : Nat
  keyId : Nat
  key : Bytes
  inst : Nat
  gen : Nat
  /-- ns of the load, of the first entry into ACTIVE, and the retire time -/
  loadedNs : Nat
  activeNs : Option Nat
  retireNs : Option Nat
  deriving DecidableEq, Repr

/-- The keys of R381: the FID they were derived for and the controller's die_id. -/
structure AgentKeys where
  fid : Nat
  ctlDie : Nat
  patternKey : Bytes
  wrapKey : Bytes
  reportKey : Bytes
  deriving DecidableEq, Repr

/-- The encryption unit of the agent (R391 to R394). -/
structure Gcm where
  keys : Option AgentKeys
  slots : Tbl KeySlot
  /-- cached worm keys: slot and source -/
  cache : List (Nat × Nat)
  /-- the last encrypted RSPs: destination, flow sequence, time field; newest first (R394) -/
  rsps : List (Nat × Nat × Nat)
  /-- KEY_EXPIRED was raised -/
  expired : Bool
  deriving DecidableEq, Repr

/-- The flow state of an endpoint (R110, R134 to R140, R147, R271, R281). -/
structure Flow where
  seqs : Tbl Nat
  floors : Tbl Nat
  /-- least recently used first -/
  windows : List Window
  tracker : List Track
  /-- staged worms by class, oldest first, and the credits the host holds: REQ, RSP, COL -/
  stReq : List Staged
  stRsp : List Staged
  stCol : List Staged
  credReq : Nat
  credRsp : Nat
  credCol : Nat
  /-- ejection holding registers by class (R147) -/
  holding : Tbl Holding
  /-- open presentations by class: the module, and whether the head was counted as late; and the place of the rotation (R270) -/
  presenting : Tbl (Nat × Bool)
  presentNext : Nat
  /-- REQs presented and not yet answered by the host: what the answer counts (R135, R140) -/
  delivered : List Worm
  /-- sources whose requests the agent delivered since its membership began (R272) -/
  peers : List Nat
  cg : Tbl CgCtx
  arms : Tbl Arm
  deriving DecidableEq, Repr

/-- The forwarding structure of an agent (R110 to R120, R126, R155). -/
structure Fwd where
  lanes : Tbl Lane
  laneMap : Tbl (Nat × Nat)
  bonds : Tbl Bond
  slot0 : TabSlot
  slot1 : TabSlot
  mirror0 : Tbl Nat
  mirror1 : Tbl Nat
  /-- MIRROR_WRITEs not yet acknowledged: copy, first, count (R277) -/
  mirrorWait : List (Nat × Nat × Nat)
  parts : Tbl PartEnt
  keyrefs : List (Nat × Nat × Nat × Nat)
  geom : Option Geom
  periods : Tbl Nat
  course : List CourseEnt
  errQ : List Worm
  /-- FWD worms of an endpoint or embedded agent that wait for an output, in its relay share (R146, R147): each with the bond its
  originator names, 0xFF where none -/
  waiting : List (Worm × Nat)
  deflect : Nat
  /-- fabric time in ns of the last EJECT_BACKPRESSURE by class and of the last HIF_UNIT_ERROR (R149, R268) -/
  lastEject : Tbl Nat
  lastUnitErr : Option Nat
  deriving DecidableEq, Repr

/-- Pins of an agent (21). The names of the active-low pins keep their _N: true is high. -/
structure AgtPins where
  rstN : Bool
  pwrgd : Bool
  modeSel : Nat
  trayReqN : Bool
  trayAckN : Bool
  deriving DecidableEq, Repr


/-- An active PURL entry (03). -/
structure PurlEnt where
  collective : Nat
  partition : Nat
  op : Nat
  inFmt : Nat
  outFmt : Nat
  rounding : Nat
  overflow : Nat
  divisor : Nat
  seed : Nat
  elements : Nat
  fanIn : Nat
  laneBase : Nat
  laneCount : Nat
  storeOffset : Nat
  storeBytes : Nat
  deriving DecidableEq, Repr

/-- A chunk record (R245). State: 1 OPEN, 2 SEALED, 3 HOLDING; a FREE slot has no record. -/
structure Chunk where
  slot : Nat
  chunk : Nat
  step : Nat
  parent : Nat
  inputs : List Nat
  sent : List Nat
  nextSeg : Nat
  inputRange : Bool
  state : Nat
  /-- the result's operand flags and count once it is there (R248, R252) -/
  result : Option (Nat × Nat)
  deriving DecidableEq, Repr

/-- A descriptor (R243): its entry, whether it ended by a fence, its chunks, and PRL_DESC_FLAGS. -/
structure Desc where
  ent : PurlEnt
  ended : Bool
  chunks : List Chunk
  /-- chunk slots of the descriptor, and where its element states begin in the store (R243) -/
  slots : Nat
  flags : Nat
  rounded : Nat
  /-- the steps for which PURL_INCOMPLETE was raised (R254) -/
  incompleteSteps : List Nat
  /-- runs in whose occurrence a worm was accepted: in_bond, first slot, course number (R246 step 6) -/
  taken : List (Nat × Nat × Nat)
  deriving DecidableEq, Repr

/-- The Purl engine (R233 to R263). -/
structure Purl where
  /-- logical to physical accumulator lanes -/
  map : List Nat
  /-- physical lanes left over -/
  spares : Nat
  fencedLanes : List Nat
  descs : Tbl Desc
  store : Mem
  /-- ns of the last PURL_INPUT_DISCARD by reason and of the last PURL_EMIT_LATE -/
  lastDiscard : Tbl Nat
  lastLate : Option Nat
  /-- worms selected by EMIT runs and not yet launched: course, first slot, out_bond (R249) -/
  emits : List (Nat × Nat × Nat × Worm)
  deriving DecidableEq, Repr

/-- What cast-on found and keeps (R302, R521). -/
structure Cast where
  /-- logical table banks and UCIe lanes to physical units -/
  banks : List Nat
  ucieMap : Tbl Nat
  /-- UCIe module states: 0 DOWN, 1 TRAINING, 2 UP, 3 FENCED -/
  modules : List Nat
  train : Tbl TrainEnt
  /-- the bond that the first worm of the first AGENT Pattern arrived on -/
  sponsorLane : Option Nat
  deriving DecidableEq, Repr

/-- A watch timer (R324): its WATCH entry, and when it started, ns; none while stopped. -/
structure Timer where
  firstLevel : Nat
  timeoutUs : Nat
  graceUs : Nat
  startNs : Option Nat
  expired : Bool
  deriving DecidableEq, Repr

/-- A WATCH sample entry (03). -/
structure Sample where
  engine : Nat
  length : Nat
  offset : Nat
  partition : Nat
  deriving DecidableEq, Repr

/-- A dump in progress (R334): trigger, level, start, the blocks read so far, and MEM_READs outstanding (tag and the
sample half it fills). -/
structure Dump where
  trigger : Nat
  level : Nat
  startNs : Nat
  blocks : List DumpBlock
  /-- sample blocks not yet issued: data block and host address -/
  todo : List (Nat × Nat)
  /-- reads issued and not answered: message tag, data block, half -/
  reads : List (Nat × Nat × Nat)
  /-- when the dump began and when the reads outstanding were issued, by `Die.up` -/
  begunNs : Nat
  issuedNs : Nat
  halves : List (Nat × Nat × Bytes)
  shareFull : Bool
  noKey : Bool
  deriving DecidableEq, Repr

/-- A dump record kept in the staging share until the controller acknowledges it (R338). -/
structure DumpRec where
  sequence : Nat
  bytes : Bytes
  deriving DecidableEq, Repr

/-- Recovery and watch state of an agent (R324 to R343). WCH_STATUS holds level, bind-off, state, target and origin. -/
structure Rec where
  timers : Tbl Timer
  samples : List Sample
  escalate : Bool
  graceUs : Nat
  dump : Option Dump
  records : List DumpRec
  nextSeq : Nat
  /-- sequence of the dump of the recovery in progress, 0 for none -/
  lastTaken : Nat
  drained : Bool
  readTag : Nat
  /-- when RESET_CMD was sent or TRAY_REQ_N asserted, ns -/
  sinceNs : Nat
  /-- the tray cycle of the last level 5 was acknowledged (R328) -/
  trayed : Bool
  /-- expiries that wait for the restart of the agent core (R508) -/
  deferred : List Nat
  deriving DecidableEq, Repr

/-- What the health block of a record is made of (R355, R363): whether a sample fell into the window, the highest temperature and
its region, rails, average power, the lowest eye and its bond. -/
structure HealthAcc where
  fresh : Bool
  temp : Int
  region : Nat
  coreLo : Nat
  coreHi : Nat
  sramLo : Nat
  ioLo : Nat
  power : Nat
  eye : Nat
  eyeBond : Nat
  deriving DecidableEq, Repr

/-- What a telemetry window held at its end, kept until its record is sent (R354 to R356): the differences of the counters, the busy fields
of an endpoint, the health block, whether one of them is at full scale, the flags PARTIAL, GAUGE_EXCEED and UNALIGNED, and the Purl sizes. -/
structure TelWindow where
  window : Nat
  k : Nat
  diffs : List Nat
  busy : List Nat
  health : Bytes
  full : Bool
  skipped : Bool
  exceed : Bool
  unaligned : Bool
  lanes : Nat
  chunkHigh : Nat
  deriving DecidableEq, Repr

/-- Telemetry of an agent (R353 to R366). -/
structure TelAgt where
  /-- k and enable in force -/
  k : Nat
  enable : Bool
  /-- counters as they stood at the window's start, in the record's order -/
  last : List Word
  /-- windows that have ended and whose record has not been sent, at most two -/
  closed : List TelWindow
  /-- host counts of the last window: bond, busy, deflections (R357) -/
  counts : Tbl (Nat × Nat)
  countsWindow : Nat
  /-- the last health sample, or the samples of the window so far -/
  health : Option HealthAcc
  /-- SCHEDULED, MULTICAST and LOCAL verdicts given (R355) -/
  verdicts : List Nat
  /-- the most chunk slots held in the window (R355) -/
  chunkHigh : Nat
  exceedSeen : Bool
  partialFlag : Bool
  /-- (monitor key, millisecond) of the last health event raised (R363) -/
  lastRaised : Tbl Nat
  deriving DecidableEq, Repr

/-- A tap slot (R411, R413): 0 EMPTY. -/
structure TapSlot where
  held : Bool
  keyId : Nat
  fid : Nat
  key : Bytes
  seq : Nat
  sending : Bool
  deriving DecidableEq, Repr

/-- A tap entry (R414, R415): tag, open_count, the five counts (injected, delivered, forwarded, slot_ns, purl_ops), whether it
is open, whether it never held structure (FWD_ONLY), INTERVAL records that still repeat it as CLOSED, and whether it changed
since the last record of each slot. -/
structure TapEnt where
  tag : Nat
  opn : Nat
  counts : List Nat
  open_ : Bool
  fwdOnly : Bool
  repeats : Nat
  dirty0 : Bool
  dirty1 : Bool
  deriving DecidableEq, Repr

/-- The meter tap of an agent (R413 to R417, R431). -/
structure Tap where
  slot0 : TapSlot
  slot1 : TapSlot
  /-- entries of the active METER row -/
  cfg : List MeterEnt
  entries : List TapEnt
  /-- the next open_count of each tag -/
  opens : Tbl Nat
  /-- tags of which the agent has held structure since its reset (R415) -/
  heldTags : List Nat
  energy : Nat
  /-- fabric time in ns of the end of the last interval recorded (R416) -/
  sentNs : Nat
  deriving DecidableEq, Repr

/-- Firmware at an agent (R500 to R512): the image being received by chunk, what is known of it, and the banks. -/
structure FwRx where
  chunks : Tbl Bytes
  count : Nat
  total : Nat
  imageId : Nat
  version : Nat
  digest : Digest
  /-- the activation course of an FW_ACTIVATE decided ON_TIME -/
  course : Option Nat
  bankVersion0 : Nat
  bankVersion1 : Nat
  bankGood0 : Bool
  bankGood1 : Bool
  bank0 : Bytes
  bank1 : Bytes
  /-- rollback fuses blown -/
  rollback : Nat
  /-- image id last activated, 0 for none -/
  activated : Nat
  /-- when the last chunk was accepted and when one with LAST_OF_PASS was, on the die's own clock; and whether a report followed (R505) -/
  acceptedNs : Nat := 0
  lastNs : Option Nat := none
  reported : Bool := false
  deriving DecidableEq, Repr

/-- A kept MGMT_OP response (R470). -/
structure MgmtKept where
  fid : Nat
  opId : Nat
  response : Bytes
  deriving DecidableEq, Repr

/-- A Twidel agent. -/
structure Agt where
  die : Die
  dieId : Nat
  /-- PLB_PARENT was written and its parent takes effect at the next exchange (R163) -/
  parentPending : Bool
  /-- the instant, UQ64.16, of the last probes sent (R167) -/
  lastProbe : Option Nat := none
  pins : AgtPins
  cast : Cast
  fwd : Fwd
  flow : Flow
  gcm : Gcm
  purl : Purl
  msr : Tbl Msr
  rcv : Rec
  tel : TelAgt
  tap : Tap
  fwrx : FwRx
  mgmt : List MgmtKept
  /-- high-water mark of each bulk-buffer share, in units of 4 KiB (R523) -/
  shareHigh : List Nat
  /-- fabric lanes of the controller that an embedded agent belongs to (R1, R19) -/
  fabLanes : Nat
  deriving DecidableEq, Repr

/-! ## The controller -/

/-- An agent as the controller knows it (R192, R304 to R310). -/
structure AgentRec where
  fid : Nat
  dieId : Nat
  /-- rack index and slot (R35), and the plane of a switch -/
  rack : Nat
  slot : Nat
  plane : Nat
  mode : Nat
  /-- AGT_CST_STATUS.state as its identity block last gave it -/
  state : Nat
  named : Bool
  lost : Bool
  purl : Bool
  linkLevel : Nat
  fwVersion : Nat
  epochBit : Nat
  digest : Nat
  /-- recovery level last reported (R330), 0 for none -/
  level : Nat
  /-- in the cast-on regime (R307) -/
  castOn : Bool
  /-- when its naming began, by `Die.up` (R304) -/
  namedAt : Nat
  /-- its active epoch as the controller counts it, and the ns of its last IMMEDIATE activation (R88, R307) -/
  epoch : Nat
  immediateNs : Nat
  /-- its Purl engine is fenced (R222) -/
  purlFenced : Bool
  /-- bound B in ps and parent bond of the plumb tree (R163, R176); not chain_locked by its bound -/
  bound : Nat
  parent : Nat
  unmet : Bool
  /-- lanes remapped under plan adopt: logical, physical (R308) -/
  remap : List (Nat × Nat)
  /-- the sponsor and its bond toward the agent (R304) -/
  sponsor : Option (Nat × Nat)
  /-- the next Pattern carries the naming rows (R304) -/
  naming : Bool
  /-- fabric time at which the tables in force at the agent activated (R89, R133) -/
  tablesNs : Nat := 0
  /-- AGT_CAP, PLB_WINDOW and PRL_LANES as the controller last read them, and the logical lanes fenced since (R176, R192, R233, R236);
  before the first read the reset values stand -/
  cap : Nat := 0
  window : Nat := 0x20
  hold : Nat := 0x10
  /-- its structure differs from what the controller derives for it now: the next install carries it (R306, R308) -/
  renew : Bool := false
  lanes : Nat := 512
  fencedLanes : List Nat := []
  /-- the recovery level whose report was FAILED, until it reports another (R328, R342) -/
  failedLevel : Nat := 0
  deriving DecidableEq, Repr

/-- One end of a bond in the solver input (R192). -/
structure SolBond where
  fid : Nat
  bond : Nat
  farFid : Nat
  farBond : Nat
  reach : Nat
  lanes : Nat
  active : Nat
  d : Nat
  w : Int
  down : Bool
  quarantined : Bool
  /-- the asymmetry a of R171, SQ15.16 ns, and the offset θ as last reported, none before the first report -/
  asym : Int := 0
  theta : Option Int := none
  deriving DecidableEq, Repr

/-- A pending event of the solver (R196). -/
inductive SolEvent where
  | bondFailed (fid bond farFid time : Nat)
  | bondRestored (fid bond : Nat)
  | agentLost (fid : Nat)
  | gaugeExceed (fid region : Nat)
  | bondNarrowed (fid bond : Nat)
  /-- a Purl lane, or the engine (lane none), of a switch is fenced (R236) -/
  | purlFenced (fid : Nat) (lane : Option Nat)
  deriving DecidableEq, Repr

/-- A collective of an admitted partition, as requested and as compiled (R218, R221, R227). -/
structure Coll where
  id : Nat
  plan : Nat
  op : Nat
  inFmt : Nat
  outFmt : Nat
  rounding : Nat
  overflow : Nat
  divisor : Nat
  seed : Nat
  elements : Nat
  root : Nat
  turn : Nat
  deadline : Nat
  compiled : Nat
  cause : Nat
  courses : Nat
  stepNs : Nat
  atRisk : Bool
  deriving DecidableEq, Repr

/-- A scheduled run the solver assigned (R207, R208). -/
structure SolRun where
  fid : Nat
  ent : CourseEnt
  slots : Nat
  /-- the path it is part of, and the flits of its worm (R183) -/
  path : Nat := 0
  flits : Nat := 0
  deriving DecidableEq, Repr

/-- A partition the controller admitted (R219). Phase: 0 ADMITTED, 1 READY, 2 releasing. -/
structure PartPlan where
  tag : Nat
  requestId : Nat
  inst : Nat
  flags : Nat
  members : List Nat
  switches : List Nat
  samples : List Sample
  cgCount : Nat
  reactionUs : Nat
  dumpUs : Nat
  trafficKey : Nat
  dumpKey : Nat
  trafficSlot : Nat
  dumpSlot : Nat
  gen : Nat
  colls : List Coll
  period : Nat
  runs : List SolRun
  /-- PURL entries assigned, by switch FID (R257) -/
  purls : List (Nat × PurlEnt)
  phase : Nat
  replaces : Nat
  activateCourse : Nat
  /-- deadline codes reported at risk: reaction, meter, dump -/
  atRisk : List Nat
  /-- T_react, T_batch, T_dump as admitted, ns -/
  reactNs : Nat
  batchNs : Nat
  dumpNs : Nat
  /-- ns of the first ACTIVE time of its traffic generation (R392) -/
  activeNs : Option Nat
  deriving DecidableEq, Repr

/-- The Solver Array (R189 to R209). -/
structure Sol where
  /-- logical to physical tiles, fenced logical tiles, unused spares -/
  map : List Nat
  fencedTiles : List Nat
  spares : Nat
  failures : List SolEvent
  /-- other events: kind of the task each asks for -/
  others : List Nat
  gen : Nat
  bonds : List SolBond
  /-- a task that a FAILURE task preempted: its kind -/
  preempted : Option Nat
  /-- table shadows by FID: the active and the next epoch (R204) -/
  shadow : Tbl TabSlot
  next : Tbl TabSlot
  /-- ns of the activation of the last install -/
  lastInstall : Nat
  restored : List (Nat × Nat)
  restoredNs : Option Nat
  /-- endpoints whose shard holdings are lost and not yet taken by a task, all of them or those of one partition (R211) -/
  lostHolders : List (Nat × Option Nat)
  /-- ns of the activation of the active epoch (R206) -/
  epochNs : Nat := 0
  /-- the generation of the input of the computation under way (R228) -/
  taskGen : Option Nat := none
  /-- the largest slack of the first transfer that the last failed compile could not place (R208), 2^-17 ns -/
  slack : Option Nat := none
  /-- the task that was running when tile_en was cleared, which still finishes (R215) -/
  finishing : Option Nat := none
  /-- agents whose core-voltage floor a check has set (R543) -/
  floors : List Nat
  deriving DecidableEq, Repr

/-- A Shard Directory entry (R210). State: 0 FREE, 1 PLACED, 2 DEGRADED, 3 MOVING, 4 LOST. -/
structure Shard where
  model : Nat
  granule : Nat
  partition : Nat
  replicas : Nat
  state : Nat
  gen : Nat
  holders : List Nat
  offset : Nat
  length : Nat
  target : Nat
  digest : Nat
  /-- the source named in the last SHARD_MOVED, and the holder lost -/
  source : Nat
  lostHolder : Nat
  deriving DecidableEq, Repr

/-- Admission (R217 to R232). -/
structure Adm where
  /-- submitted requests: address and length -/
  queue : List (Nat × Nat)
  releases : List Nat
  parts : List PartPlan
  /-- tag and ns of its last release course -/
  released : List (Nat × Nat)
  backlog : List Bytes
  inst : Nat
  serving : Bool
  deriving DecidableEq, Repr

/-- A Pattern file that the controller streams to an agent (R469). -/
structure Stream where
  fid : Nat
  stream : Nat
  bytes : Bytes
  next : Nat
  reported : Nat
  /-- the sponsor and bond it goes through; none once the agent routes for itself -/
  via : Option (Nat × Nat)
  digest : Nat
  immediate : Bool
  /-- the course it activates at, and whether it carries table rows (R133) -/
  activate : Nat := 0
  tables : Bool := false
  deriving DecidableEq, Repr

/-- Cast-on and discovery (R290 to R316). -/
structure Cst where
  /-- running step, and whether full training was asked -/
  running : Option (Nat × Bool)
  agents : Tbl AgentRec
  /-- lane groups reported: sponsor FID, near lanes, far block, finding (0 accepted, else the kind of R312) -/
  reports : List (Nat × List Nat × IdBlock × Nat)
  streams : List Stream
  nextStream : Nat
  /-- agents that refused the install -/
  refusals : List (Nat × Nat)
  /-- agents that must report ACTIVATED for the install of step 9 -/
  taking : List Nat
  /-- reference tick of the last naming in step 7, or of its start (R311), and whether an agent has sent settings of a full training since
  the step started (R294) -/
  lastNaming : Nat := 0
  newSettings : Bool := false
  /-- last sequence of every derived Pattern, by kind × 2^20 + scope, and what a takeover adds (R348) -/
  seqs : Tbl Nat
  /-- when an agent's operating seconds were saved last, by die_id, on the die's own clock (R438) -/
  opsecNs : Tbl Nat := []
  deriving DecidableEq, Repr

/-- A repair entry: channel, failing row, spare row, and whether it is fused (R485). -/
structure Repair where
  channel : Nat
  row : Nat
  spare : Nat
  fused : Bool
  deriving DecidableEq, Repr

/-- A memory channel: 0 DOWN, 1 TRAINING, 2 USABLE, 3 FENCED (R492). -/
structure Chan where
  state : Nat
  fully : Bool
  corrected : Nat
  /-- ns of the last MEM_CORRECTED -/
  lastEvent : Option Nat
  exhausted : Bool
  deriving DecidableEq, Repr

/-- A merge-buffer entry: code-word address and its 128 bytes (R484). -/
structure Merge where
  addr : Nat
  data : Bytes
  startNs : Nat
  deriving DecidableEq, Repr

/-- The memory controller beside its registers (R476 to R487). -/
structure MemU where
  /-- when the scrubber's pass began, on the die's own clock (R487) -/
  passNs : Nat := 0
  chans : Tbl Chan
  usable : List Nat
  /-- symbol errors of code words as they read, by channel × 2^40 + code-word index: code-word symbol (0 to 7 address, 8 to
  135 data, 136 to 143 check, R482) and error value -/
  errors : Tbl (List (Nat × Nat))
  merge : List Merge
  /-- corrected code words by channel × 2^40 + row in the current pass -/
  rowHits : Tbl Nat
  /-- rows, keyed the same way, in which a code word that had read UNCORRECTABLE was written whole since, or that a finished scrub pass
  found over the limit (R486) -/
  rowsBad : List Nat
  /-- ns of the last event of R483 by code word: twice its key for MEM_UNCORRECTABLE, one more for MEM_ADDRESS_FAULT -/
  lastBad : Tbl Nat
  deriving DecidableEq, Repr

/-- What module flash keeps across resets. -/
structure Flash where
  /-- link calibration: fid, bond, w, u_w (R172) -/
  calib : List (Nat × Nat × Int × Nat)
  train : Tbl (List TrainEnt)
  /-- the memory channels whose training settings are saved (R294, R298) -/
  memSaved : List Nat := []
  certs : Tbl Bytes
  operators : List Bytes
  operatorsOk : Bool
  consumed : List Nat
  /-- images by kind (R497) -/
  running : Tbl Bytes
  staged : Tbl Bytes
  baseDigest : Option Digest
  baseSeq : Nat
  /-- fuses blown: keystone_fw, controller_fw, agent_fw_floor, base_floor (R376) -/
  fuses : List Nat
  repairs : List Repair
  mirrorOk : Bool
  mnpAddr : Nat
  mnpPort : Nat
  dumpSlot : Bytes
  /-- operating seconds and power cycles by agent die_id (R438) -/
  agentOpsec : Tbl (Nat × Nat)
  deriving DecidableEq, Repr

/-- A tenant key (R386). -/
structure TKey where
  keyId : Nat
  key : Bytes
  use : Nat
  owner : Nat
  member : Option Digest
  /-- the instance that consumed it -/
  bound : Option Nat
  deriving DecidableEq, Repr

/-- An SPDM connection's responder state (R399, R454). Phase: 0 none, 1 version, 2 capabilities, 3 algorithms, 4 key
exchange done, 5 session. -/
structure Spdm where
  port : Nat
  id : Nat
  phase : Nat
  /-- the requester signs with SLH-DSA-SHAKE-256f -/
  fast : Bool
  session : Nat
  /-- subject of the authenticated requester: an operator, a tenant's owner digest, a peer module -/
  mutualAuth : Bool
  operator : Bool
  owner : Nat
  rootKey : Bytes
  peer : Bool
  relayed : Bool
  transcript : Bytes
  secret : Bytes
  /-- key generations of the requester's and the responder's direction (KEY_UPDATE) -/
  keyGen : Nat × Nat
  /-- heartbeats sent and not answered, and when the session began or the last was sent -/
  missed : Nat
  beatNs : Nat
  /-- chunked request being assembled, and chunked response being read: handle, next chunk, bytes -/
  rxChunk : Option (Nat × Nat × Bytes)
  txChunk : Option (Nat × Nat × Bytes)
  deriving DecidableEq, Repr

/-- The last values of an agent that the controller verified (R401, R403). -/
structure Verified where
  fid : Nat
  /-- by register -/
  values : Tbl Digest
  seq : Nat
  time : Nat
  deriving DecidableEq, Repr

/-- An agent whose MEASURE_REPORTs are awaited (R401): the registers still missing, as a mask, and the values so far. -/
structure Awaited where
  fid : Nat
  mask : Nat
  values : Tbl Digest
  deriving DecidableEq, Repr

/-- A report being built (R400 to R402): kind, tag, nonce, connection, whether gathering has started, the agents still awaited, the
nonce they were asked with, and the state of each entry so far. -/
structure ReportJob where
  kind : Nat
  tag : Nat
  nonce : Nat
  conn : Conn
  started : Bool
  waiting : List Awaited
  askNonce : Nat
  /-- when the agents were asked, by `Die.up` (R401) -/
  askedNs : Nat
  states : Tbl Nat
  deriving DecidableEq, Repr

/-- The controller's keys of an agent (R381): the identifier of the pattern key, and the wrap counter. -/
structure CtlKeys where
  keys : AgentKeys
  ident : Nat
  wrap : Nat
  deriving DecidableEq, Repr

/-- Keystone (R374 to R404). -/
structure Kst where
  meas : Tbl Msr
  tenant : List TKey
  conns : List Spdm
  agentKeys : Tbl CtlKeys
  verified : List Verified
  jobs : List ReportJob
  nextSession : Nat
  /-- KEY_WRAPs sent and not answered: fid, slot, wrap counter, status so far -/
  wraps : List (Nat × Nat × Nat)
  deriving DecidableEq, Repr

/-- An agent's tap key as the meter holds it (R411). -/
structure MKey where
  fid : Nat
  dieId : Nat
  num : Nat
  keyId : Nat
  key : Bytes
  /-- established after the meter's start (R418) -/
  fresh : Bool
  /-- a record under it was taken; and one in the covered intervals (R412, R422) -/
  seen : Bool
  covered : Bool
  lastMac : Option Nat
  deriving DecidableEq, Repr

/-- A metered item (R417): energy (tag none) or an entry. -/
structure Item where
  fid : Nat
  keyId : Nat
  tag : Option (Nat × Nat)
  seq : Nat
  latest : List Nat
  base : List Nat
  based : Bool
  flags : Nat
  /-- the instance it is assigned to: tag and instance (R420) -/
  assigned : Nat × Nat
  deriving DecidableEq, Repr

/-- A partition instance as metered (R419 to R422). -/
structure MInst where
  tag : Nat
  inst : Nat
  openCourse : Nat
  /-- the course of its CLOSE, once reported -/
  closeCourse : Option Nat
  /-- injected, delivered, slot_ns, purl_ops, energy -/
  totals : List Nat
  /-- it received a delta in the intervals of the open batch -/
  active : Bool
  /-- batches in a row without a delta since its CLOSE was reported -/
  silent : Nat
  /-- its last entry, flagged CLOSED, has appeared (R422); kept while it is the tag's last closed instance (R420) -/
  retired : Bool
  deriving DecidableEq, Repr

/-- A closed batch (R422): its header's fields and the instances it has entries for. -/
structure Batch where
  flags : Nat
  seq : Nat
  first : Nat
  last : Nat
  closeNs : Nat
  silent : Nat
  eSum : Nat
  taken : Nat
  refused : Nat
  /-- entries: the instance and its CLOSED flag -/
  entries : List (MInst × Bool)
  /-- FIDs from which a value was taken in the intervals covered -/
  heard : List Nat
  bytes : Bytes
  deriving DecidableEq, Repr

/-- The snapshot of R425. -/
structure MSnap where
  insts : List MInst
  interval : Nat
  firstOpen : Option Nat
  eSum : Nat
  seq : Nat
  prevDigest : Digest
  deriving DecidableEq, Repr

/-- The Sealed Meter beside its registers (R407 to R429). -/
structure Meter where
  keys : List MKey
  items : List Item
  insts : List MInst
  pattern : MeterEnt
  patternDigest : Digest
  /-- a loaded METER entry with its header digest and activate_course, until the batch boundary at which it takes effect -/
  staged : Option (MeterEnt × Digest × Nat)
  /-- sequence of the last METER Pattern loaded (R97) -/
  patSeq : Nat
  /-- the last interval closed, the fabric time in ns up to which intervals have closed, that of the last batch boundary, and the first
  interval of the open batch -/
  interval : Nat
  closedNs : Nat
  batchNs : Nat
  firstOpen : Option Nat
  eSum : Nat
  taken : Nat
  refused : Nat
  /-- GAP is set in the next batch -/
  gap : Bool
  /-- a batch boundary passed while the signer was busy (R424), with the flags it asks for -/
  lateDue : Option Nat
  signing : Option Batch
  held : List Batch
  prevDigest : Digest
  version : Nat
  fwDigest : Digest
  snapshot : Option MSnap
  checkpoint : Nat
  powered : Bool
  /-- intake: the second in course and the worms taken in it, and the time of the last METER_INTAKE_DROP, by `Die.up` -/
  intakeSec : Nat
  intakeCount : Nat
  dropNs : Option Nat
  /-- fuses: seal breaks, rollback -/
  seals : Nat
  rollback : Nat
  dieId : Nat
  /-- a verified image whose start waits for a report to be signed (R402, R409) -/
  loading : Option Bytes
  /-- when METER_ENCAPS was last repeated, by `Die.up` (R412) -/
  retryNs : Option Nat
  deriving DecidableEq, Repr

/-- A frame that waits for a credit (R452, R453): type, queue pair, id, offset, payload; for an SPDM message the connection's port
and number and the message code. -/
structure TxFrame where
  ftype : Nat
  qp : Nat
  id : Nat
  offset : Nat
  payload : Bytes
  connPort : Nat
  code : Nat
  deriving DecidableEq, Repr

/-- A Skein port (R452 to R455). Link: 0 DOWN, 1 TRAINING, 2 UP. -/
structure Port where
  link : Nat
  lanes : Nat
  credits : Nat
  /-- credits the control node granted this side -/
  grant : Nat
  rxSeq : Option Nat
  txSeq : Nat
  session : Option Nat
  waiting : List TxFrame
  deriving DecidableEq, Repr

/-- A work request outstanding (R457, R458). -/
structure Work where
  entry : WorkEntry
  /-- a WRITE that was taken up -/
  open_ : Bool
  /-- byte ranges placed: start and length -/
  placed : List (Nat × Nat)
  lastNs : Nat
  deriving DecidableEq, Repr

/-- A queue pair (R457). -/
structure Qp where
  enable : Bool
  port : Nat
  kind : Nat
  work : List Work
  sent : Nat
  linkDown : Option Nat
  deriving DecidableEq, Repr

/-- A Mortar session (R459 to R461). Phase: 0 accepted, 1 hello answered, 2 open. -/
structure Mortar where
  id : Nat
  phase : Nat
  rxSeq : Nat
  txSeq : Nat
  lastNs : Nat
  transcript : Bytes
  secret : Bytes
  leaf : Bytes
  /-- the first key of its chain -/
  rootKey : Bytes
  deriving DecidableEq, Repr

/-- A MGMT_OP under way (R470); `soft` tells one that control software runs through MBX_RMT_CMD. -/
structure Rmt where
  soft : Bool
  /-- what the controller's own operation reads: 0 the active structure, 1 an agent's figures, 2 its links, 3 its links after a
  drift -/
  about : Nat := 0
  fid : Nat
  addr : Nat
  opId : Nat
  attempts : Nat
  startNs : Nat
  reads : Bool
  request : Bytes
  deriving DecidableEq, Repr

/-- An agent in a distribution (R505 to R510). State: 0 unknown, 1 receiving, 2 complete, 3 ready, 4 activated, 5 refused,
6 incomplete, 7 deferred or late; the chunks it last reported held, and whether its report of this pass or round is there. -/
structure FdsAgent where
  state : Nat
  bitmap : Nat
  reported : Bool
  deriving DecidableEq, Repr

/-- Firmware distribution (R496 to R511): the last image id issued, the image sent out, the next chunk of the pass, the agents, the
course chosen, an activation that waits for a report (R402) with its earliest time in ns, and whether the first course passed. -/
structure Fds where
  imageId : Nat
  image : Bytes
  next : Nat
  agents : Tbl FdsAgent
  course : Option Nat
  want : Option Nat
  activated : Bool
  /-- when the pass's last chunk left, or the last chunk of the last repair round, on the die's own clock; and whether the queries that
  follow it are out (R500, R505) -/
  sentNs : Nat := 0
  queried : Bool := false
  deriving DecidableEq, Repr

/-- A controller-side assembly of an agent's dump record (R339). -/
structure Assembly where
  fid : Nat
  sequence : Nat
  count : Nat
  total : Nat
  chunks : Tbl Bytes
  deriving DecidableEq, Repr

/-- Recovery, dumps and the mirror on the controller (R330 to R352). -/
structure RcvC where
  /-- the command sent: fid, level, flags and ns of sending -/
  cmd : Option (Nat × Nat × Nat × Nat)
  assemblies : List Assembly
  /-- dump ring slots: fid, source, trigger, sequence, length -/
  slots : Tbl (Nat × Nat × Nat × Nat × Nat)
  dump : Option Dump
  nextSeq : Nat
  /-- functions being reinitialised, by block index, and since when, ns (R345) -/
  reinit : List Nat
  reinitNs : Tbl Nat
  /-- generation mirrored, its ns, and the mirror records waiting on MIRROR queue pairs -/
  mirror : List Bytes
  mirrorNs : Nat
  /-- what a standby took from the mirror: records in order -/
  mirrored : List Bytes
  /-- notices standing: code (18 for an ENDPOINT_RESET of phase FAILED), partition, fid (R342) -/
  standing : List (Nat × Nat × Nat)
  deriving DecidableEq, Repr

/-- A wear monitor's history (R368, R369). -/
structure WearMon where
  fid : Nat
  kind : Nat
  monitor : Nat
  dieId : Nat
  lastIndex : Nat
  samples : List Int
  first : Int
  retrained : Bool
  warned : Bool
  deriving DecidableEq, Repr

/-- Telemetry on the controller (R353 to R372). -/
structure TelC where
  k : Nat
  m : Nat
  enable : Bool
  /-- pending change: k, m, enable, change_at -/
  change : Option (Nat × Nat × Bool × Nat)
  /-- where k came into force, in units of 64 µs -/
  since : Nat
  /-- open maps, records by FID; the key is the window's start in units of 64 µs × 16 + its k -/
  maps : Tbl (Tbl Bytes)
  /-- the last map closed: window and k -/
  lastClosed : Option (Nat × Nat)
  /-- the maps of the open groups of levels 1 and 2 -/
  group1 : List (Tbl Bytes)
  group2 : List (Tbl Bytes)
  /-- slots written at each level: slot and what it holds -/
  hist : Tbl Nat
  next0 : Nat
  next1 : Nat
  next2 : Nat
  /-- tenant counters by tenant window × 2^18 + FID: flits injected, presented, stalls, timeouts, records missing -/
  tenant : Tbl (List Nat)
  regions : Tbl Region
  wear : List WearMon
  /-- (monitor key, millisecond) of the last health event raised (R363) -/
  lastRaised : Tbl Nat
  deriving DecidableEq, Repr

/-- Power and pins of Pelron (R529 to R537). Phase: 0 off, 1 held in reset (rails coming up, or RST_N was low), 2 running, 3
power-down sequence, 4 off until MOD_EN has been low. -/
structure Pwr where
  phase : Nat
  pwrFailN : Bool
  modEn : Bool
  rstN : Bool
  refclk : Bool
  deriving DecidableEq, Repr

/-- The Pelron controller. -/
structure Ctl where
  die : Die
  sol : Sol
  shards : Tbl Shard
  adm : Adm
  cst : Cst
  kst : Kst
  meter : Meter
  memu : MemU
  flash : Flash
  ports : Tbl Port
  qps : Tbl Qp
  mortar : List Mortar
  nextMortar : Nat
  ops : List Rmt
  nextOp : Nat
  fds : Fds
  rcv : RcvC
  tel : TelC
  pwr : Pwr
  dieId : Nat
  /-- the BASE Pattern in force (R295) -/
  base : Option Pattern
  deriving DecidableEq, Repr

/-! ## The whole block -/

/-- The block: the controller, the packaged agent, the agent embedded in the controller's die, and the queue of commands
that wait, first in first out. -/
structure State where
  ctl : Ctl
  twd : Agt
  emb : Agt
  pending : List Instr
  deriving DecidableEq, Repr

/-- Why a command stops the block: the spec gives the block no such stop, so nothing raises one. -/
inductive Fault where
  deriving DecidableEq, Repr

/-- Why a command is turned away by the model. -/
inductive Refusal where
  /-- raised by the arms of exec of commands that have no meaning yet; safe -/
  | notModelled (mnemonic : String)
  deriving DecidableEq, Repr

/-! ## Reset -/

/-- The UCIe functions of the default assignment (R84): module 0 control; data, and two lookup channels in switch mode. -/
def defaultUcie (mode : Nat) : List Nat := if mode = 1 then [3, 1, 1, 2, 2, 2, 2, 2] else [3, 2, 2, 2, 2, 2, 2, 2]

/-- The default RESOURCE assignment of a mode (R84). -/
def defaultResource (mode : Nat) : Resource :=
  { plumbIo := 0, ucie := defaultUcie mode, timers := List.replicate 16 0,
    shares := [(0, 256), (256, 384), (640, 112), (752, 272)] }

/-- The event recorder after reset: nothing written, nothing based. -/
def Evr.reset : Evr :=
  { queue := [], nextSeq := 0, retained := [], sinceClear := 0, circ := [], fallback := [], lastGasp := [], fwdSeq := 0,
    fwdExpect := [], fwdMissing := [], secBase := 0, cycles := 0, based := false, savedSec := 0, savedCycles := 0, savedNs := 0 }

/-- A loader with nothing received and nothing activated. -/
def Loader.reset : Loader :=
  { stream := 0, fileLen := 0, bytes := [], accepted := 0, pattern := none, lastSeq := [], lastGapNs := none,
    idStream := 0, idNext := 0 }

/-- The units both dies have, after reset: every register at its reset value. -/
def Die.reset (p : Part) (mode : Nat) : Die :=
  { part := p, rf := [], latches := [], held := [], testEn := false, attached := false, clk := { count := 0, tick := 0, rate := 0, load := none },
    evr := Evr.reset, units := [], injected := [], pat := Loader.reset,
    mbx := { peers := [], clock := 0, chans := [], views := [], inbox := [], lastDenied := none },
    cvu := List.replicate 8 { ctl := 0 }, trig := [], mem := [], evrEnts := [], gaugeTab := [], regions := [],
    resource := defaultResource mode, fw := { version := 0, linkLevel := 0, index := 0 }, fwdq := [],
    out := [], alertN := true, notes := [], fencedNs := [], free := 0 }

/-- Empty epoch slot. -/
def TabSlot.empty : TabSlot := { fid := [], iset := [], mcast := [] }

/-- The meter entry in force before any METER Pattern (R410): interval 100 ms, period 10 s, energy enabled. -/
def MeterEnt.initial : MeterEnt := { intervalUs := 100000, periodMs := 10000, tapKeyId := 0, flags := 1 }

/-- The firmware banks and fuses of an agent as delivered: log entry 8. -/
def FwRx.reset : FwRx :=
  { chunks := [], count := 0, total := 0, imageId := 0, version := 0, digest := 0, course := none, bankVersion0 := 0,
    bankVersion1 := 0, bankGood0 := true, bankGood1 := true, bank0 := [], bank1 := [], rollback := 0, activated := 0 }

/-- An empty tap slot. -/
def TapSlot.empty : TapSlot := { held := false, keyId := 0, fid := 0, key := [], seq := 0, sending := false }

/-- An agent in reset (R302): its state after agent reset, with the fuses, banks and die_id it keeps. -/
def Agt.fresh (p : Part) (dieId : Nat) (pins : AgtPins) (fw : FwRx) (fabLanes : Nat := 32) : Agt :=
  { die := Die.reset p pins.modeSel, dieId := dieId, parentPending := false, pins := pins,
    cast := { banks := [], ucieMap := [], modules := List.replicate 8 0, train := [], sponsorLane := none },
    fwd := { lanes := [], laneMap := [], bonds := [], slot0 := TabSlot.empty, slot1 := TabSlot.empty, mirror0 := [],
             mirror1 := [], mirrorWait := [], parts := [], keyrefs := [], geom := none, periods := [], course := [],
             errQ := [], waiting := [], deflect := 0, lastEject := [], lastUnitErr := none },
    flow := { seqs := [], floors := [], windows := [], tracker := [], stReq := [], stRsp := [], stCol := [], credReq := 0,
              credRsp := 0, credCol := 0, holding := [], presenting := [], presentNext := 0, delivered := [], peers := [], cg := [], arms := [] },
    gcm := { keys := none, slots := [], cache := [], rsps := [], expired := false },
    purl := { map := [], spares := 0, fencedLanes := [], descs := [], store := [], lastDiscard := [], lastLate := none, emits := [] },
    msr := [],
    rcv := { timers := [], samples := [], escalate := false, graceUs := 0, dump := none, records := [], nextSeq := 0,
             lastTaken := 0, drained := false, readTag := 0, sinceNs := 0, trayed := false, deferred := [] },
    tel := { k := 2, enable := false, last := [], closed := [], counts := [], countsWindow := 0, health := none,
             verdicts := [0, 0, 0], chunkHigh := 0, exceedSeen := false, partialFlag := false, lastRaised := [] },
    tap := { slot0 := TapSlot.empty, slot1 := TapSlot.empty, cfg := [], entries := [], opens := [], heldTags := [], energy := 0, sentNs := 0 },
    fwrx := fw, mgmt := [], shareHigh := [0, 0, 0, 0], fabLanes := fabLanes }

/-- Module flash as delivered: log entry 8. -/
def Flash.reset : Flash :=
  { calib := [], train := [], certs := [], operators := [], operatorsOk := true, consumed := [], running := [], staged := [],
    baseDigest := none, baseSeq := 0, fuses := [0, 0, 0, 0], repairs := [], mirrorOk := true, mnpAddr := 0, mnpPort := 0x1529,
    dumpSlot := [], agentOpsec := [] }

/-- The Sealed Meter as delivered, at a meter start with an empty snapshot. -/
def Meter.reset : Meter :=
  { keys := [], items := [], insts := [], pattern := MeterEnt.initial, patternDigest := 0, staged := none, patSeq := 0,
    interval := 0, firstOpen := none, eSum := 0, taken := 0, refused := 0, gap := false, lateDue := none, signing := none,
    held := [], prevDigest := 0, version := 0, fwDigest := 0, snapshot := none, checkpoint := 0, powered := true,
    retryNs := none, closedNs := 0, batchNs := 0, intakeSec := 0, intakeCount := 0, dropNs := none, seals := 0, rollback := 0, dieId := 0,
    loading := none }

/-- The controller after controller reset, with what module flash and the meter's island keep (R346, R427). -/
def Ctl.fresh (p : Part) (dieId : Nat) (flash : Flash) (meter : Meter) (pwr : Pwr) : Ctl :=
  { die := Die.reset p 2,
    sol := { map := [], fencedTiles := [], spares := 0, failures := [], others := [], gen := 0, bonds := [],
             preempted := none, shadow := [], next := [], lastInstall := 0, restored := [], restoredNs := none,
             lostHolders := [], floors := [] },
    shards := [],
    adm := { queue := [], releases := [], parts := [], released := [], backlog := [], inst := 0, serving := false },
    cst := { running := none, agents := [], reports := [], streams := [], nextStream := 1, refusals := [],
             taking := [], seqs := [] },
    kst := { meas := [], tenant := [], conns := [], agentKeys := [], verified := [], jobs := [],
             nextSession := 1, wraps := [] },
    meter := meter,
    memu := { chans := [], usable := [], errors := [], merge := [], rowHits := [], rowsBad := [], lastBad := [] },
    flash := flash, ports := [], qps := [], mortar := [], nextMortar := 1, ops := [], nextOp := 1,
    fds := { imageId := 0, image := [], next := 0, agents := [], course := none, want := none, activated := false },
    rcv := { cmd := none, assemblies := [], slots := [], dump := none, nextSeq := 0, reinit := [], reinitNs := [], mirror := [], mirrorNs := 0,
             mirrored := [], standing := [] },
    tel := { k := 2, m := 4, enable := true, change := none, since := 0, maps := [], lastClosed := none, group1 := [], group2 := [],
             hist := [], next0 := 0, next1 := 0, next2 := 0, tenant := [], regions := [], wear := [],
             lastRaised := [] },
    pwr := pwr, dieId := dieId, base := none }

/-- The block right after reset: a PLN-9400 that has left controller reset, a TWD-210 in endpoint mode and the embedded
agent, both held in agent reset, and no command waiting (log entry 8). -/
def State.reset : State :=
  { ctl := Ctl.fresh .pln9400 0 Flash.reset Meter.reset
      { phase := 2, pwrFailN := true, modEn := true, rstN := true, refclk := true },
    twd := Agt.fresh .twd210 0
      { rstN := false, pwrgd := true, modeSel := 0, trayReqN := true, trayAckN := true } FwRx.reset,
    emb := Agt.fresh .embedded 0
      { rstN := false, pwrgd := true, modeSel := 2, trayReqN := true, trayAckN := true } FwRx.reset,
    pending := [] }

end Sys2Proof.Machine
end

