-- ==== Sys2Proof/Machine/Ops.lean ====
section
/-! DEFINITION. The operations every unit of both dies uses: the register file (R10 to R13, R144), free values, raising an
event and writing its record (R433 to R448), fences (R440), and the queue of FWD worms a die originates. -/

namespace Sys2Proof.Machine

/-! ## Parts -/

/-- Pelron, or a Twidel agent. -/
def Part.pelron : Part → Bool
  | .pln9400 | .pln9320 | .pln9210 => true
  | .twd210 | .twd200 | .embedded => false

/-- Fabric lanes of a controller (R1, R19). -/
def Part.fabLanes (p : Part) : Nat := if p = .pln9210 then 16 else 32

/-- The blocks of a part in the order of block index (R514, R515). -/
def Part.blocks (p : Part) : List Nat := if p.pelron then pelronBlocks else twidelBlocks

/-- The events of a part (R527). -/
def Part.events (p : Part) : List Event := if p.pelron then pelronEvents else twidelEvents

/-- The position of an element in a list, its length where it is absent. -/
def indexIn (l : List Nat) (x : Nat) : Nat := match l with
  | [] => 0
  | y :: ys => if y = x then 0 else 1 + indexIn ys x

/-- The block index of a block on a part (R433). -/
def Part.blockIndex (p : Part) (blk : Nat) : Nat := indexIn p.blocks blk

/-! ## The register file -/

/-- A unit's registers of CVU and a channel's of MBX have one row for all units and channels (R493, R474). -/
def normKey (key : Nat) : Nat :=
  let blk := key / 0x10000
  let off := key % 0x10000
  if blk = Blk.CVU ∧ off < 0x800 then blk * 0x10000 + off % 0x100
  else if blk = Blk.MBX ∧ 0x1000 ≤ off then blk * 0x10000 + 0x1000 + off % 0x100
  else key

/-- The row of a register key, whatever the part. -/
def rowOfKey (key : Nat) : Option RegRow := (rowsOf (key / 0x10000)).find? fun r => r.key = normKey key

/-- The reset value of a register. -/
def resetOf (key : Nat) : Word := BitVec.ofNat 64 (((rowOfKey key).map (·.reset)).getD 0)

/-- What the register file holds for a register: its stored value, or its reset value. -/
def rfGet (rf : Tbl Word) (key : Nat) : Word := (tget rf key).getD (resetOf key)

/-- Store a register; a register that holds its reset value is not listed. -/
def rfSet (rf : Tbl Word) (key : Nat) (v : Word) : Tbl Word := if v = resetOf key then tdel rf key else tset rf key v

/-- The canonical form of a register file: keys strictly rising, no register listed at its reset value. -/
def Rf.wf (rf : Tbl Word) : Bool := tsorted rf && rf.all fun p => decide (p.2 ≠ resetOf p.1)

/-- A register of a die. -/
def Die.get (d : Die) (key : Nat) : Word := rfGet d.rf key

/-- Set a register of a die. -/
def Die.set (d : Die) (key : Nat) (v : Word) : Die := { d with rf := rfSet d.rf key v }

/-- A register as a number. -/
def Die.getN (d : Die) (key : Nat) : Nat := (d.get key).toNat

/-- Set a register from a number. -/
def Die.setN (d : Die) (key : Nat) (v : Nat) : Die := d.set key (BitVec.ofNat 64 v)

/-- A field of a register. -/
def Die.fget (d : Die) (f : Fld) : Nat := bitsOf (d.getN f.reg) f.hi f.lo

/-- A value with bits [hi:lo] replaced. -/
def putBits (w hi lo v : Nat) : Nat :=
  w % 2 ^ lo + (v % 2 ^ (hi - lo + 1)) * 2 ^ lo + w / 2 ^ (hi + 1) * 2 ^ (hi + 1)

/-- Set a field of a register. -/
def Die.fset (d : Die) (f : Fld) (v : Nat) : Die := d.setN f.reg (putBits (d.getN f.reg) f.hi f.lo v)

/-- Bits [hi:lo] of a register that has no field table. -/
def Die.bget (d : Die) (key hi lo : Nat) : Nat := bitsOf (d.getN key) hi lo

/-- Set bits [hi:lo] of a register. -/
def Die.bset (d : Die) (key hi lo v : Nat) : Die := d.setN key (putBits (d.getN key) hi lo v)

/-- Bits [hi:lo] of a register as a saturating count. -/
def Die.bsat (d : Die) (key hi lo n : Nat) : Die := d.bset key hi lo (satU (hi - lo + 1) (d.bget key hi lo + n))

/-- A telemetry counter with n more (R43, R144): bits [47:0] saturate, bit 63 is the sticky saturation bit. -/
def counterAdd (w : Word) (n : Nat) : Word :=
  let c := w.toNat % 2 ^ 48 + n
  if c > 2 ^ 48 - 1 ∨ w.toNat ≥ 2 ^ 63 then BitVec.ofNat 64 (2 ^ 63 + min c (2 ^ 48 - 1)) else BitVec.ofNat 64 c

/-- Count n in a counter register. -/
def Die.countN (d : Die) (key n : Nat) : Die := if n = 0 then d else d.set key (counterAdd (d.get key) n)

/-- Count one in a counter register. -/
def Die.count (d : Die) (key : Nat) : Die := d.set key (counterAdd (d.get key) 1)

/-- Clear every counter of a block and its saturation bit (R43, R144). -/
def Die.clearCounters (d : Die) (blk : Nat) : Die := (countersOf blk).foldl (fun d k => d.set k (resetOf k)) d

/-! ## Output, free values, time -/

/-- Emit. -/
def Die.emit (d : Die) (o : Out) : Die := { d with out := d.out ++ [o] }

/-- The value a part takes where the spec states none, and the next number (log entry 3). -/
def Die.freeVal (d : Die) : Word × Die := (Config.freeValue d.free, { d with free := d.free + 1 })

/-- A free byte string of n bytes, eight bytes to a free value. -/
def Die.freeBytes : Nat → Die → Bytes × Die
  | 0, d => ([], d)
  | n + 1, d =>
    let (w, d) := d.freeVal
    let (bs, d) := Die.freeBytes n d
    (le 8 w.toNat ++ bs, d)

/-- Fabric time in ns (R42: UQ64.56 inside). -/
def Die.ns (d : Die) : Nat := d.clk.count / 2 ^ 56

/-- Time since power by the part's own reference, ns: 6.4 ns a tick (R45). What waits an elapsed time, or is raised at most once in one,
is measured by it, so that a load of fabric time ends no wait (log entry 72). -/
def Die.up (d : Die) : Nat := d.clk.tick * 32 / 5

/-- The visible fabric time, UQ64.16 (R46). -/
def Die.time80 (d : Die) : Nat := d.clk.count / 2 ^ 40

/-- Operating seconds (R438), from the reference ticks counted (log entry 7). -/
def Die.opsec (d : Die) : Nat := (d.evr.secBase + d.clk.tick / 156250000) % 2 ^ 40

/-- The OPSEC time of a record: seconds and power-cycle count (R436). -/
def Die.opsecTime (d : Die) : Nat := d.opsec + d.evr.cycles % 2 ^ 24 * 2 ^ 40

/-- The FID that the die's records carry (R436): the agent's, or the controller's embedded agent's. -/
def Die.fid (d : Die) : Nat := if d.part.pelron then d.bget Reg.FAB_AGENT 17 0 else d.fget Fl.AGT_IDENT_fid

/-- Whether a die is in its safe state (R443). -/
def Die.safe (d : Die) : Bool := d.fget Fl.FLC_STATUS_safe = 1

/-! ## Records -/

/-- A record's bytes (R436), its CRC included. -/
def Record.bytes (r : Record) : Bytes :=
  let body := le 2 r.code ++ le 1 r.sev ++ le 1 r.flags ++ le 4 r.fid ++ le 1 r.block ++ le 1 r.timeKind ++ le 2 r.inst
    ++ le 4 r.fwdSeq ++ le 8 r.time ++ le 8 r.sequence
    ++ le 2 r.snapList ++ le 1 r.snapCount ++ le 1 0 ++ le 8 r.snapValid
    ++ (List.range 58).flatMap fun i => le 8 ((r.regs.getD i 0).toNat)
  body ++ le 4 (crc32c body)

/-- Capacities: records of the circulating, retained and fall-back areas (R445, R447, R448). -/
def circCap (pelron : Bool) : Nat := if pelron then 1048576 else 2048
def retainedCap (pelron : Bool) : Nat := if pelron then 4096 else 128
def fallbackCap (pelron : Bool) : Nat := if pelron then 8192 else 256

/-- The base of the circulating event area, of the fabric event ring and of the dump ring (R480). -/
def circBase : Nat := 0x24D0000000
def fabricRingBase : Nat := 0x24D0000000 + 512 * 1048576
def dumpRingBase : Nat := 0x24D0000000 + 512 * 1048576 + 512 * 16777216

/-- Insert a record into a fall-back of a capacity (R447): where it is full, the oldest record of strictly lower severity
goes, or the new record where there is none. The second part is the record lost. -/
def fallbackPut (cap : Nat) (l : List Record) (r : Record) : List Record × Option Record :=
  if l.length < cap then (l ++ [r], none)
  else match l.find? fun x => x.sev < r.sev with
    | some x => (removeFirst (fun y => y.sequence = x.sequence) l ++ [r], some x)
    | none => (l, some r)

/-- Note the severity of a lost record (R447). -/
def Die.noteLost (d : Die) (sev : Nat) : Die :=
  let d := d.count Reg.EVR_CNT_FALLBACK_LOST
  let old := d.fget Fl.EVR_STATUS_lost_sev
  if old = 7 ∨ old < sev then d.fset Fl.EVR_STATUS_lost_sev sev else d

/-- Put a record into the fall-back. -/
def Die.toFallback (d : Die) (r : Record) : Die :=
  let (l, lost) := fallbackPut (fallbackCap d.part.pelron) d.evr.fallback r
  let d := { d with evr := { d.evr with fallback := l } }
  let d := d.fset Fl.EVR_STATUS_fallback_used l.length
  match lost with
  | some x => d.noteLost x.sev
  | none => d

/-- Put a record into the circulating area (R445, R448, R449). -/
def Die.toCirc (d : Die) (r : Record) : Die :=
  let cap := circCap d.part.pelron
  let d := if d.getN Reg.EVR_WR_SEQ0 ≥ cap then d.count Reg.EVR_CNT_OVERWRITTEN else d
  let slot := r.sequence % cap
  let d := if d.part.pelron then { d with mem := mwrite d.mem (circBase + 512 * slot) r.bytes }
    else { d with evr := { d.evr with circ := tset d.evr.circ slot r } }
  d.setN Reg.EVR_WR_SEQ0 (r.sequence + 1)

/-- Copy a record into the retained area while it has room (R445, R448). -/
def Die.toRetained (d : Die) (r : Record) : Die :=
  let cap := retainedCap d.part.pelron
  if d.evr.sinceClear < cap then
    let l := d.evr.retained ++ [r]
    let d := { d with evr := { d.evr with retained := l, sinceClear := d.evr.sinceClear + 1 } }
    let d := d.bset Reg.EVR_RET_COUNT 12 0 l.length
    d.fset Fl.EVR_STATUS_retained_full (b2n (l.length ≥ cap))
  else d

/-- Queue a FWD worm that this die's agent originates. -/
def Die.sendFwd (d : Die) (m : FwdMsg) : Die := { d with fwdq := d.fwdq ++ [m] }

/-- The active controller's FID, as an agent knows it: the class A peer that sent to it last (R466), 0x3_FFFF when none. -/
def Die.controllerFid (d : Die) : Nat :=
  (d.mbx.peers.foldl (fun (b : Nat × Nat) p => if p.order ≥ b.2 then (p.fid, p.order) else b) (0x3FFFF, 0)).1

/-- A named agent's forwarded records are counted anew (R304, R446). -/
def Die.forgetForwards (d : Die) (fid : Nat) : Die :=
  { d with evr := { d.evr with fwdExpect := tdel d.evr.fwdExpect fid, fwdMissing := d.evr.fwdMissing.filter fun m => m.1 ≠ fid } }

/-- Forward a record of S2 and above to the controller (R446). -/
def Die.forwardRecord (d : Die) (r : Record) : Die :=
  d.count Reg.EVR_CNT_FWD_SENT
  |>.sendFwd { dst := d.controllerFid, op := 0x8D, mcast := 0, root := 0, bond := 0xFF, operand := [],
               payload := r.bytes, block := d.part.blockIndex Blk.EVR, privilege := 0 }

/-- Which record flags a die's mode gives (R436): FALLBACK, UNBASED, RETAINED. -/
def Die.recordFlags (d : Die) (ra : Raise) (skipped : Bool) : Nat :=
  b2n (d.evr.sinceClear < retainedCap d.part.pelron)
  + 2 * b2n (d.fget Fl.EVR_STATUS_mode = 1)
  + 4 * b2n skipped
  + 8 * b2n (¬ d.part.pelron ∧ ¬ d.evr.based)
  + 16 * b2n ra.alert

/-- The time kind and time of a record of a block (R436, R439): Keystone's and the meter's events carry their own
sequences. -/
def Die.recordTime (d : Die) (blk : Nat) : Nat × Nat :=
  if d.part.pelron ∧ blk = Blk.KST then (1, d.getN Reg.KST_SEQ)
  else if d.part.pelron ∧ blk = Blk.MTR then (2, d.getN Reg.MTR_SEQ)
  else (0, d.opsecTime)

/-- Write the record of a raise with a snapshot (R436, R445 to R448). A collector self-fault goes to the fall-back only
(R443). -/
def Die.writeRecord (d : Die) (ra : Raise) (skipped : Bool) (valid : Nat) (regs : List Word) : Die :=
  let blkIx := ra.code / 256
  let blk := d.part.blocks.getD blkIx 0
  let forward := ¬ d.part.pelron ∧ ra.sev ≥ 2
  let r : Record :=
    { code := ra.code, sev := ra.sev, flags := d.recordFlags ra skipped + 32 * b2n forward, fid := d.fid, block := blkIx,
      timeKind := ra.timeKind, inst := ra.inst, fwdSeq := if forward then d.evr.fwdSeq + 1 else 0, time := ra.time,
      sequence := d.evr.nextSeq, snapList := ra.snapList, snapCount := regs.length, snapValid := valid, regs := regs }
  let d := { d with evr := { d.evr with nextSeq := d.evr.nextSeq + 1, fwdSeq := if forward then d.evr.fwdSeq + 1 else d.evr.fwdSeq } }
  let d := d.count Reg.EVR_CNT_RECORDS
  let selfFault := blk = Blk.FLC ∧ ra.code % 256 = 1
  let d := if selfFault ∨ d.fget Fl.EVR_STATUS_mode ≠ 0 then d.toFallback r else d.toCirc r
  let d := d.toRetained r
  let d : Die := if d.part.pelron ∧ ra.sev ≥ 2 then { d with notes := d.notes ++ [slice r.bytes 0 32] } else d
  if forward then d.forwardRecord r else d

/-! ## Raising -/

/-- The EVR entry of a code, if one is in force. -/
def Die.evrEnt (d : Die) (code : Nat) : Option EvrEnt := d.evrEnts.find? fun e => e.code = code

/-- Drive ALERT_N to a level: a change is emitted, and Mortar sessions are notified of it (R461; log entry 28). -/
def Die.driveAlert (d : Die) (level : Bool) : Die :=
  if d.alertN = level then d
  else
    let notes := if d.part.pelron then d.notes ++ [le 1 (b2n level)] else d.notes
    ({ d with alertN := level, notes := notes } : Die).emit (.pin "ALERT_N" level)

/-- Drive ALERT_N of a severity (R434, R451). -/
def Die.alert (d : Die) (sev : Nat) : Die :=
  let d := d.setN Reg.FLC_ALERT (putBits (d.getN Reg.FLC_ALERT) sev sev 1)
  d.driveAlert false

/-- Note an event at the unit it names (R451). -/
def Die.noteUnit (d : Die) (blkIx inst sev code : Nat) (fence : Bool) : Die :=
  let old := d.units.find? fun u => u.block = blkIx && u.inst = inst
  let u : UnitInfo := match old with
    | some u => { u with sev := sev, code := code, fenced := u.fenced || fence,
                         at_ := if fence && !u.fenced then d.opsec % 2 ^ 32 else u.at_ }
    | none => { block := blkIx, inst := inst, fenced := fence, sev := sev, code := code,
                at_ := if fence then d.opsec % 2 ^ 32 else 0 }
  { d with units := d.units.filter (fun u => !(u.block = blkIx && u.inst = inst)) ++ [u] }

/-- Enter the safe state with the code that caused it (R443): the collector's own part of the entry. -/
def Die.enterSafe (d : Die) (code : Nat) : Die :=
  if d.safe then d
  else
    let d := d.fset Fl.FLC_STATUS_safe 1
    let d := d.fset Fl.FLC_STATUS_safe_code code
    d.alert 4

/-- The collector takes a raise of a code with its severity (R434, R435, R437). -/
def Die.raiseCode (d : Die) (code inst sev : Nat) (fence : Bool) : Die :=
  let ent := d.evrEnt code
  let flags := (ent.map (·.flags)).getD 0
  let alert : Bool := decide (sev ≥ 3) || (ent.isSome && bitOf flags 1)
  let keep : Bool := decide (sev ≥ 3) || (match ent with
    | some e => bitOf e.flags 0
    | none => decide (sev ≥ 1))
  let snap := match ent with
    | some e => e.snap
    | none => if sev ≥ 2 then 0xFFFF else 0
  let d := d.count (Reg.FLC_CNT_S0 + 8 * sev)
  let d := if d.fget Fl.FLC_STATUS_worst < sev then d.fset Fl.FLC_STATUS_worst sev else d
  let d := d.noteUnit (code / 256) inst sev code fence
  let d := if alert then d.alert sev else d
  let (kind, time) := d.recordTime (d.part.blocks.getD (code / 256) 0)
  let ra : Raise := { code := code, inst := inst, sev := sev, alert := alert, keep := keep, snapList := snap, timeKind := kind,
                      time := time, atNs := d.up, timedOut := [] }
  let d := if !keep then d
    else if d.evr.queue.length < 64 then { d with evr := { d.evr with queue := d.evr.queue ++ [ra] } }
    else if sev ≤ 1 then d.count Reg.EVR_CNT_QUEUE_DROP
    else d.writeRecord ra true 0 []
  if sev = 4 then d.enterSafe code else d

/-- The code of an event on a part (R433). -/
def Part.codeOf (p : Part) (e : Event) : Nat := p.blockIndex e.blk * 256 + e.low

/-- Raise an event for an instance; 0xFFFF names none. -/
def Die.raise (d : Die) (e : Event) (inst : Nat := 0xFFFF) : Die := d.raiseCode (d.part.codeOf e) inst e.sev false

/-- Raise an event of a fault report: the unit it names is fenced at once (R440). -/
def Die.raiseFence (d : Die) (e : Event) (inst : Nat) : Die := d.raiseCode (d.part.codeOf e) inst e.sev true

/-- Whether a unit is fenced (R440). -/
def Die.fenced (d : Die) (blk inst : Nat) : Bool :=
  d.units.any fun u => u.fenced && u.block = d.part.blockIndex blk && u.inst = inst

/-- Whether a whole block is fenced (FLC_FENCED, R440). -/
def Die.blockFenced (d : Die) (blk : Nat) : Bool := bitOf (d.getN Reg.FLC_FENCED) (d.part.blockIndex blk)

/-- Whether FLC_INJECT has made the next bounded wait of a block come out TIMED_OUT, which uses it up (R444). -/
def Die.takeWait (d : Die) (blk : Nat) : Bool × Die :=
  let k := d.part.blockIndex blk
  if d.injected.any (·.1 = k) then (true, { d with injected := removeFirst (·.1 = k) d.injected }) else (false, d)

/-- At most one raise per period of ns: the time last raised, whether it may be raised now (R149, R268, R464). -/
def mayRaise (last : Option Nat) (now period : Nat) : Bool :=
  match last with
  | none => true
  | some t => period + t ≤ now

/-! ## Writes that find a block fenced or the part in its safe state -/

/-- Note an access that completes with FENCED: one event per second and block (R528). -/
def Die.noteFenced (d : Die) (blk : Nat) : Die :=
  if mayRaise (tget d.fencedNs blk) d.up 1000000000 then
    ({ d with fencedNs := tset d.fencedNs blk d.up } : Die).raise (Ev.FENCED_ACCESS blk)
  else d

/-- Whether the safe state freezes writes of a block: all but FLC, EVR, DMP and RCV (R443). -/
def Die.frozen (d : Die) (blk : Nat) : Bool := d.safe && !([Blk.FLC, Blk.EVR, Blk.DMP, Blk.RCV].contains blk)

/-! ## Class A sending (R465 to R467) -/

/-- The class A state toward a peer; both sequences start at 1. -/
def Mbx.peer (m : Mbx) (fid : Nat) : Peer :=
  (m.peers.find? fun p => p.fid = fid).getD
    { fid := fid, nextSend := 1, nextExpect := 1, unacked := [], waiting := [], ended := [], held := [], order := 0 }

/-- Store the state toward a peer. -/
def Mbx.setPeer (m : Mbx) (p : Peer) : Mbx := { m with peers := m.peers.filter (fun q => q.fid ≠ p.fid) ++ [p] }

/-- A class A message's 256 bytes (R465). -/
def MsgA.bytes (m : MsgA) : Bytes :=
  le 1 m.mtype ++ le 1 m.flags ++ le 2 m.body.length ++ le 4 m.seq ++ le 4 m.tag ++ le 4 m.floor ++ slice m.body 0 240

/-- The message of these bytes. -/
def msgOfBytes (b : Bytes) : MsgA :=
  { mtype := byteAt b 0, flags := byteAt b 1, seq := fieldAt b 4 4, tag := fieldAt b 8 4, floor := fieldAt b 12 4,
    body := slice b 16 (min 240 (fieldAt b 2 2)) }

/-- The MBX_A worm that carries a message. -/
def Die.mbxWorm (d : Die) (fid : Nat) (m : MsgA) (privilege : Nat) : FwdMsg :=
  { dst := fid, op := 0x81, mcast := 0, root := 0, bond := 0xFF, operand := [], payload := m.bytes,
    block := d.part.blockIndex Blk.MBX, privilege := privilege }

/-- The floor of a sender toward a peer: the lowest seq it still retransmits (R467). -/
def Peer.floor (p : Peer) : Nat := minL p.nextSend (p.unacked.map (·.msg.seq))

/-- Give a message its seq and send it. -/
def Die.postA (d : Die) (p : Peer) (m : MsgA) : Die :=
  let m : MsgA := { m with seq := p.nextSend }
  let p := { p with nextSend := (p.nextSend + 1) % 2 ^ 32, unacked := p.unacked ++ [{ msg := m, sends := 1, sentNs := d.up }] }
  let m : MsgA := { m with floor := p.floor }
  let d : Die := { d with mbx := d.mbx.setPeer p }
  d.sendFwd (d.mbxWorm p.fid m (if d.part.pelron then 2 else 1))

/-- Send a class A message to a peer: frozen in the safe state (R443); a send beyond the window waits, and its firmware is told
BUSY (R466). -/
def Die.sendA (d : Die) (fid mtype flags : Nat) (body : Bytes) (tag : Nat := 0) : Die :=
  if d.safe then d.emit (.irq "mbx_a_frozen" mtype)
  else
    let p := d.mbx.peer fid
    let m : MsgA := { mtype := mtype, flags := flags, seq := 0, tag := tag, floor := 0, body := body }
    if p.unacked.length ≥ d.bget Reg.MBX_A_CFG 24 20 ∨ !p.waiting.isEmpty then
      ({ d with mbx := d.mbx.setPeer { p with waiting := p.waiting ++ [m] } } : Die).emit (.irq "mbx_a_busy" mtype)
    else d.postA p m

/-- Send a class A message to the controller (R465). -/
def Die.toController (d : Die) (mtype : Nat) (body : Bytes) : Die := d.sendA d.controllerFid mtype 0 body

end Sys2Proof.Machine
end

