-- ==== Sys2Proof/Machine/Route.lean ====
section
/-! DEFINITION. The head flit (R105 to R107), the tables (R110 to R114), stamping at injection (R108, R109), the lookup
(R115, R181) and the choice of an output (R122, R126), for one agent. -/

namespace Sys2Proof.Machine

/-! ## The head flit -/

/-- The 512 bits of a head flit (R105). -/
def headBits (w : Worm) : Nat :=
  w.version % 2 ^ 4 + w.cls % 4 * 2 ^ 4 + w.epoch % 2 * 2 ^ 6 + w.scheduled % 2 * 2 ^ 7 + w.partition % 2 ^ 12 * 2 ^ 8
  + w.dstFid % 2 ^ 18 * 2 ^ 20 + w.srcFid % 2 ^ 18 * 2 ^ 38 + w.hopLimit % 2 ^ 6 * 2 ^ 56 + w.mcast % 4 * 2 ^ 62
  + w.irack % 2 ^ 11 * 2 ^ 64 + w.phase % 2 * 2 ^ 75 + w.age % 2 ^ 10 * 2 ^ 76 + w.length % 2 ^ 6 * 2 ^ 86
  + w.op % 2 ^ 8 * 2 ^ 92 + w.keySlot % 2 ^ 8 * 2 ^ 100 + w.cg % 2 ^ 20 * 2 ^ 108 + w.offset % 2 ^ 46 * 2 ^ 128
  + w.headerCheck % 2 ^ 16 * 2 ^ 174 + w.enc % 2 * 2 ^ 190 + w.reserved % 2 * 2 ^ 191 + w.flowSeq % 2 ^ 32 * 2 ^ 192
  + w.reserved / 2 % 2 ^ 32 * 2 ^ 224 + leNat (slice w.operand 0 32) * 2 ^ 256

/-- The 64 bytes of a head flit. -/
def headBytes (w : Worm) : Bytes := le 64 (headBits w)

/-- The worm whose head these 512 bits are, with no payload and no tag (R105). -/
def wormOfHead (v : Nat) : Worm :=
  { version := bitsOf v 3 0, cls := bitsOf v 5 4, epoch := bitsOf v 6 6, scheduled := bitsOf v 7 7,
    partition := bitsOf v 19 8, dstFid := bitsOf v 37 20, srcFid := bitsOf v 55 38, hopLimit := bitsOf v 61 56,
    mcast := bitsOf v 63 62, irack := bitsOf v 74 64, phase := bitsOf v 75 75, age := bitsOf v 85 76,
    length := bitsOf v 91 86, op := bitsOf v 99 92, keySlot := bitsOf v 107 100, cg := bitsOf v 127 108,
    offset := bitsOf v 173 128, headerCheck := bitsOf v 189 174, enc := bitsOf v 190 190,
    flowSeq := bitsOf v 223 192, reserved := bitsOf v 191 191 + 2 * bitsOf v 255 224, operand := le 32 (v / 2 ^ 256),
    payload := [], tag := [] }

/-- A CRC-16 register after one bit, most significant first (R107). -/
def crc16Bit (r : Nat) : Nat := if r ≥ 2 ^ 15 then Nat.xor (r * 2 % 2 ^ 16) 0x1021 else r * 2

/-- A CRC-16 register after n bits. -/
def crc16Bits : Nat → Nat → Nat
  | 0, r => r
  | n + 1, r => crc16Bits n (crc16Bit r)

/-- CRC-16 over bytes from an initial value (R107). -/
def crc16From (init : Nat) (bs : Bytes) : Nat := bs.foldl (fun r b => crc16Bits 8 (Nat.xor r (b.toNat * 256))) init

/-- The header check of a head (R107). -/
def headCheck (w : Worm) : Nat := crc16From 0xFFFF (headBytes { w with headerCheck := 0 })

/-- The syndrome of a received head (R107). -/
def syndromeOf (w : Worm) : Nat := Nat.xor (headCheck w) (w.headerCheck % 2 ^ 16)

/-- The head with its check made to fit. -/
def sealHead (w : Worm) : Worm := { w with headerCheck := headCheck w }

/-- The check of a changed head, from the carried check and the fields changed (R118). -/
def recheck (old new_ : Worm) : Nat :=
  Nat.xor (old.headerCheck % 2 ^ 16) (Nat.xor (headCheck { old with headerCheck := 0 }) (headCheck { new_ with headerCheck := 0 }))

/-- Whether a head fails the checks of R107. -/
def headerFault (w : Worm) (syndrome : Nat) : Bool :=
  syndrome ≠ 0 || w.version ≠ 1 || w.op / 64 % 4 ≠ w.cls || w.length > 32

/-- Flits of a worm (R102). -/
def Worm.flits (w : Worm) : Nat := 1 + w.length + w.enc

/-- The little-endian field of n bytes of the operand. -/
def Worm.opnd (w : Worm) (off n : Nat) : Nat := fieldAt w.operand off n

/-- Put bytes into an operand at an offset. -/
def putOperand (op : Bytes) (off : Nat) (bs : Bytes) : Bytes := slice op 0 off ++ bs ++ slice op (off + bs.length) (32 - off - bs.length)

/-! ## The agent's identity and modes -/

/-- The agent's FID (R33). -/
def Agt.fid (a : Agt) : Nat := a.die.fget Fl.AGT_IDENT_fid

/-- The agent's mode: 0 endpoint, 1 switch, 2 embedded (R4). -/
def Agt.mode (a : Agt) : Nat := a.die.fget Fl.AGT_IDENT_mode

/-- Switch mode. -/
def Agt.isSwitch (a : Agt) : Bool := a.mode = 1

/-- The agent's rack (R35). -/
def Agt.rack (a : Agt) : Nat := a.die.fget Fl.AGT_IDENT_rack

/-- The state of R302. -/
def Agt.castState (a : Agt) : Nat := a.die.fget Fl.AGT_CST_STATUS_state

/-- H (R145). -/
def Agt.hopInit (a : Agt) : Nat := a.die.fget Fl.LKP_HOP_INIT_hop_init

/-- The drain bound D of an H, ns (R132). -/
def drainBound (h : Nat) : Nat := h * 1250 + 10000

/-- The effective timeout of R144, ns. -/
def Agt.effTimeout (a : Agt) : Nat := max (a.die.fget Fl.LKP_REQ_TIMEOUT_timeout_ns) (2 * drainBound a.hopInit)

/-- chain_locked (R174). -/
def Agt.chainLocked (a : Agt) : Bool := a.die.fget Fl.PLB_STATUS_chain_locked = 1

/-- The tenant partition an endpoint is a member of (R38): the first active entry with the member bit. -/
def Agt.tenant (a : Agt) : Option (Nat × PartEnt) := a.fwd.parts.find? fun p => bitOf p.2.flags 0

/-- The active epoch. -/
def Agt.epoch (a : Agt) : Nat := a.die.getN Reg.PAT_ACTIVE_EPOCH

/-- The epoch bit the agent stamps: the active epoch's, or its sponsor's in the cast-on regime (R91, R307). -/
def Agt.stampEpoch (a : Agt) : Nat :=
  if a.die.fget Fl.AGT_CST_STATUS_cast_on_regime = 1 then a.die.fget Fl.AGT_CST_STATUS_sponsor_epoch_bit else a.epoch % 2

/-- Change the die of an agent. -/
def Agt.onDie (a : Agt) (f : Die → Die) : Agt := { a with die := f a.die }

/-- Count one at an agent. -/
def Agt.count (a : Agt) (key : Nat) : Agt := a.onDie (·.count key)

/-- Emit at an agent. -/
def Agt.emit (a : Agt) (o : Out) : Agt := a.onDie (·.emit o)

/-- Raise at an agent. -/
def Agt.raise (a : Agt) (e : Event) (inst : Nat := 0xFFFF) : Agt := a.onDie (·.raise e inst)

/-! ## Units of the host interface (R265 to R267) -/

/-- A unit's 64-bit tag (R267): kind, bond, class, first, last, status, request tag. The agent sends no retry bit. -/
def unitTag (kind bond cls first last status reqTag : Nat) : Nat :=
  kind % 16 + bond % 256 * 2 ^ 4 + cls % 4 * 2 ^ 12 + first % 2 * 2 ^ 14 + last % 2 * 2 ^ 15 + status % 256 * 2 ^ 16
  + reqTag % 2 ^ 32 * 2 ^ 32

/-- The tags of a worm of n units: the first and the last bit mark its ends. -/
def unitTags (kind bond cls status reqTag n : Nat) : List Nat :=
  (List.range n).map fun i => unitTag kind bond cls (b2n (i = 0)) (b2n (i + 1 = n)) status reqTag

/-- Fields of a tag that arrives. -/
def tagKind (t : Nat) : Nat := bitsOf t 3 0
def tagBond (t : Nat) : Nat := bitsOf t 11 4

/-- Whether the units of a worm keep the first and last order (R268). -/
def tagsInOrder (tags : List Nat) : Bool :=
  !tags.isEmpty && (List.range tags.length).all fun i =>
    bitOf (tags.getD i 0) 14 = decide (i = 0) && bitOf (tags.getD i 0) 15 = decide (i + 1 = tags.length)

/-- The modules of a function that are not FENCED, ascending: 2 data, M of R265; 3 control; 1 lookup channels (R264 to R266). -/
def Agt.modulesOf (a : Agt) (fn : Nat) : List Nat :=
  (List.range 8).filter fun k => a.die.resource.ucie.getD k 0 = fn && a.cast.modules.getD k 0 ≠ 3

/-- The module that a bond's traffic crosses, M[b mod m] (R265); none while no module carries data. -/
def Agt.bondModule (a : Agt) (b : Nat) : Option Nat := let m := a.modulesOf 2
  if m.isEmpty then none else m[b % m.length]?

/-- The control module, none once it is FENCED (R266). -/
def Agt.control (a : Agt) : Option Nat := (a.modulesOf 3).head?

/-- Send a worm to the host for a bond: on its data module, for the agent input on the control module (R265, R267, R273; log entry
69). Without the module nothing crosses (R266). -/
def Agt.emitTx (a : Agt) (b : Nat) (w : Worm) : Agt :=
  match if b = 0xFE then a.control else a.bondModule b with
  | some k => a.emit (.tx b k (unitTags 1 b w.cls 0 0 (Worm.flits w)) w)
  | none => a

/-- Return n credits of a class with a tag-only CREDIT unit on a module (R267, R271). -/
def Agt.emitCredit (a : Agt) (modl : Option Nat) (cls n : Nat) : Agt :=
  match modl with
  | some k => a.emit (.credit k (unitTag 6 0xFF cls 0 0 n 0))
  | none => a

/-- Send a control message to the host (R275): none crosses once the control module is FENCED (R266). -/
def Agt.msg (a : Agt) (mtype status tag : Nat) (body : Bytes) : Agt :=
  match a.control with
  | some k => a.emit (.msg k mtype status tag body)
  | none => a

/-- A host message is taken, its credit returned on the control module, and acted on (R275); none arrives once that module is FENCED
(R266). A message credit has no class: its class field is 0 (log entry 69). -/
def Agt.hears (a : Agt) (f : Agt → Agt) : Agt := if a.control.isNone then a else f (a.emitCredit a.control 0 1)

/-! ## Tables -/

/-- A route entry (R112). -/
structure RouteEnt where
  primary : Nat
  secondary : Nat
  alternate : Nat
  mask : Nat
  valid : Bool
  isLocal : Bool
  dstRack : Nat
  deriving DecidableEq, Repr

/-- The route entry these bits are. -/
def routeEnt (v : Nat) : RouteEnt :=
  { primary := bitsOf v 7 0, secondary := bitsOf v 15 8, alternate := bitsOf v 23 16, mask := bitsOf v 28 24,
    valid := bitOf v 29, isLocal := bitOf v 30, dstRack := bitsOf v 42 32 }

/-- The epoch slot of a worm's epoch bit (R110). -/
def Agt.slot (a : Agt) (e : Nat) : TabSlot := if e % 2 = 0 then a.fwd.slot0 else a.fwd.slot1

/-- Whether an epoch slot is valid (LKP_STATUS). -/
def Agt.slotValid (a : Agt) (e : Nat) : Bool :=
  a.die.fget (if e % 2 = 0 then Fl.LKP_STATUS_slot0_valid else Fl.LKP_STATUS_slot1_valid) = 1

/-- Set an epoch slot. -/
def Agt.setSlot (a : Agt) (e : Nat) (s : TabSlot) : Agt :=
  if e % 2 = 0 then { a with fwd := { a.fwd with slot0 := s } } else { a with fwd := { a.fwd with slot1 := s } }

/-- Set an epoch slot's valid bit. -/
def Agt.setSlotValid (a : Agt) (e : Nat) (v : Bool) : Agt :=
  a.onDie (·.fset (if e % 2 = 0 then Fl.LKP_STATUS_slot0_valid else Fl.LKP_STATUS_slot1_valid) (b2n v))

/-- The FID entry of a destination. -/
def TabSlot.fidEnt (s : TabSlot) (fid : Nat) : RouteEnt := routeEnt (tgetD s.fid fid 0)

/-- The rack-route entry of a rack (R113). -/
def TabSlot.rackEnt (s : TabSlot) (rack : Nat) : RouteEnt := routeEnt (tgetD s.iset rack 0)

/-- A set descriptor: member_base and count (R113). -/
def TabSlot.setDesc (s : TabSlot) (i : Nat) : Nat × Nat :=
  let v := tgetD s.iset (2048 + i) 0
  (bitsOf v 17 0, bitsOf v 43 32)

/-- Member m of the member array (R113). -/
def TabSlot.member (s : TabSlot) (m : Nat) : Nat :=
  let v := tgetD s.iset (6144 + m / 4) 0
  bitsOf v (16 * (m % 4) + 10) (16 * (m % 4))

/-- The tree entry of a mode and root (R114). -/
def TabSlot.tree (s : TabSlot) (mcast root : Nat) : Nat := tgetD s.mcast ((mcast - 1) * 2048 + root) 0

/-- The bonds of deflection mask k (R114). -/
def TabSlot.mask (s : TabSlot) (k : Nat) : List Nat :=
  bitList (tgetD s.mcast (6144 + 3 * k) 0) 64
  ++ (bitList (tgetD s.mcast (6145 + 3 * k) 0) 64).map (64 + ·)
  ++ (bitList (tgetD s.mcast (6146 + 3 * k) 0) 48).map (128 + ·)

/-! ## Lanes and bonds -/

/-- Lanes of a host chip (R18, R25): an endpoint has 16, a switch 176. -/
def agentLanes (mode : Nat) : Nat := if mode = 0 then 16 else 176

/-- Lanes of an agent; the embedded agent has its controller's fabric lanes (R19). -/
def Agt.laneCount (a : Agt) : Nat := if a.mode = 2 then a.fabLanes else agentLanes a.mode

/-- A bond of the agent: before its first BOND row each trained lane is a one-lane bond of the lane's number (R303). -/
def Agt.bondActive (a : Agt) (b : Nat) : Bool :=
  match tget a.fwd.bonds b with
  | some x => !x.active.isEmpty && !x.down && !x.reachFail
  | none => a.fwd.bonds.isEmpty && (match tget a.fwd.lanes b with
      | some l => l.state = 2
      | none => false)

/-- Whether a bond is out of service: DOWN (R320), or never brought into service because its reach was exceeded (R31). -/
def Agt.bondDown (a : Agt) (b : Nat) : Bool := match tget a.fwd.bonds b with
  | some x => x.down || x.reachFail
  | none => false

/-- Whether a bond runs over a quarantined lane (R301). -/
def Agt.quarantined (a : Agt) (b : Nat) : Bool :=
  a.fwd.lanes.any fun p => p.2.bond = b && p.2.state = 4

/-- The bonds an agent has, ascending. -/
def Agt.bondNums (a : Agt) : List Nat :=
  if a.fwd.bonds.isEmpty then (a.fwd.lanes.filter fun p => p.2.state = 2).map (·.1) else a.fwd.bonds.map (·.1)

/-! ## Stamping (R108, R109) -/

/-- The age stamp of now (R105). -/
def Agt.ageStamp (a : Agt) : Nat := a.die.ns / 256 % 1024

/-- irack and phase (R109). -/
def Agt.chooseIrack (a : Agt) (cls src seq : Nat) (part : Option PartEnt) (epoch dst : Nat) : Nat × Nat :=
  let s := a.slot epoch
  let dstRack := (s.fidEnt dst).dstRack
  match part with
  | none => (a.rack, 1)
  | some p =>
    let (base, count) := s.setDesc p.iset
    if cls ≥ 2 ∨ count = 0 ∨ dstRack = a.rack then (a.rack, 1)
    else
      let h := mix64 (Nat.xor (Nat.xor p.routeSeed (src * 2 ^ 32 % 2 ^ 64)) seq) / 2 ^ 32
      let ir := s.member (base + h % count)
      if ir = a.rack then (ir, 1) else (ir, 0)

/-- The fields the source agent stamps on any worm of its own (R108), the header check last. -/
def Agt.stamp (a : Agt) (w : Worm) (partition : Nat) (part : Option PartEnt) (seq keySlot enc : Nat) : Worm :=
  let e := a.stampEpoch
  let cls := w.op / 64 % 4
  let (ir, ph) :=
    if w.mcast ≠ 0 then (w.irack, if w.irack = a.rack then 1 else 0)
    else if w.scheduled = 1 then (a.rack, 1)
    else a.chooseIrack cls a.fid seq part e w.dstFid
  sealHead { w with version := 1, cls := cls, epoch := e, partition := partition, srcFid := a.fid, hopLimit := a.hopInit,
                    irack := ir, phase := ph, age := a.ageStamp, keySlot := keySlot, enc := enc, flowSeq := seq,
                    reserved := 0, tag := [] }

/-! ## Courses (R82, R178, R181) -/

/-- Slot length, slot count and course length of a geometry, ns (R82). -/
def Geom.slotNs (g : Geom) : Nat := 16 * 2 ^ g.slotCode
def Geom.slots (g : Geom) : Nat := 64 * 2 ^ g.countCode
def Geom.courseNs (g : Geom) : Nat := g.slotNs * g.slots

def geomOf (p : Bytes) : Geom := { slotCode := byteAt p 0, countCode := byteAt p 1, guard := byteAt p 2 }

/-- The course geometry of the BASE Pattern in force (R82). -/
def Ctl.geom (c : Ctl) : Option Geom :=
  (c.base.bind fun p => p.rows.find? fun r => r.rtype = 7).map fun r => geomOf r.payload

/-- The course of now on the controller; 0 without a geometry. -/
def Ctl.courseNow (c : Ctl) : Nat := match c.geom with
  | some g => c.die.ns / g.courseNs
  | none => 0

/-- Whether two entries belong to one owned run, their slots apart (R178). -/
def sameRun (x y : CourseEnt) : Bool :=
  x.partition = y.partition && x.collective = y.collective && x.action = y.action && x.inBond = y.inBond
  && x.outBond = y.outBond && x.course = y.course

/-- The first slot of the run an entry belongs to: walk down consecutive slots. -/
def runStart (es : List CourseEnt) (x : CourseEnt) : Nat → Nat
  | 0 => x.slot
  | n + 1 =>
    match es.find? fun y => sameRun x y && y.slot + 1 = x.slot with
    | some y => runStart es y n
    | none => x.slot

/-- The period of a partition's courses at this agent. -/
def Agt.period (a : Agt) (part : Nat) : Nat := max 1 (tgetD a.fwd.periods part 1)

/-- The course entry that a scheduled head from a bond matches now (R181), with the course number. -/
def Agt.courseMatch (a : Agt) (part inBond lambda : Nat) : Option (CourseEnt × Nat) := do
  let g ← a.fwd.geom
  let t := a.die.ns + lambda
  let n := t / g.courseNs
  let k := t % g.courseNs / g.slotNs
  let x ← a.fwd.course.find? fun x =>
    x.partition = part && x.inBond = inBond && (x.action = 2 || x.action = 3 || x.action = 4)
    && n % a.period part = x.course && x.slot = k
  some (x, n)

/-! ## The lookup (R115) -/

/-- What a lookup decides. -/
inductive Verdict where
  /-- dropped silently under R107 -/
  | silent
  /-- dropped with a status of R130 -/
  | drop (status : Nat)
  /-- dropped and counted in a counter of R181 -/
  | dropCounted (key : Nat)
  | eject
  | toAgent
  /-- an ACCUMULATE entry: to the Purl engine, with the entry and the course number -/
  | toPurl (x : CourseEnt) (course : Nat)
  | scheduled (bond : Nat)
  | multicast (dims : Nat) (down own : Bool)
  | forward (primary secondary alternate mask age : Nat)
  deriving DecidableEq, Repr

/-- The age of a head now, in units of 256 ns (R115). -/
def Agt.ageOf (a : Agt) (w : Worm) : Nat := (a.die.ns / 256 + 1024 * 1024 - w.age) % 1024

/-- The lookup of an unscheduled unicast or multicast head past the common checks (R115): the head as changed, and the
verdict. `dec` tells whether hop_limit is checked and decremented. -/
def Agt.routeLookup (a : Agt) (w : Worm) (dec : Bool) : Worm × Verdict :=
  if dec ∧ w.hopLimit = 0 then (w, .drop 0x02)
  else
    let w := if dec then { w with hopLimit := w.hopLimit - 1 } else w
    let w := if w.phase = 0 ∧ w.irack = a.rack then { w with phase := 1 } else w
    let s := a.slot w.epoch
    if w.phase = 1 ∧ w.mcast ≠ 0 then
      let t := s.tree w.mcast w.irack
      if bitOf t 13 then (w, .multicast (bitsOf t 10 0) (bitOf t 11) (bitOf t 12)) else (w, .drop 0x04)
    else
      let e := if w.phase = 0 then s.rackEnt w.irack else s.fidEnt w.dstFid
      if !e.valid then (w, .drop 0x04)
      else if e.isLocal then (w, .toAgent)
      else (w, .forward e.primary e.secondary e.alternate e.mask (a.ageOf w))

/-- The common checks of R115: header, expiry, epoch slot; none when the head passes. -/
def Agt.commonFault (a : Agt) (w : Worm) (syndrome : Nat) : Option Verdict :=
  if headerFault w syndrome then some .silent
  else if a.ageOf w * 256 > a.hopInit * 1250 then some (.drop 0x03)
  else if !a.slotValid w.epoch then some (.drop 0x03)
  else none

/-- course_forward (R181). -/
def Agt.courseForward (a : Agt) (w : Worm) (inBond : Nat) : Verdict :=
  if !a.chainLocked then .dropCounted Reg.PLB_CNT_SCHED_SUPPRESSED
  else match a.courseMatch w.partition inBond (if a.isSwitch then 20 else 0) with
    | none => .dropCounted Reg.LKP_CNT_SCHED_MISS
    | some (x, n) =>
      if x.action = 2 then (if a.bondDown x.outBond then .dropCounted Reg.LKP_CNT_NO_OUTPUT else .scheduled x.outBond)
      else if x.action = 3 then .eject
      else .toPurl x n

/-- The lookup of a head that arrives over a bond (R115), or at the agent input (0xFE). -/
def Agt.lookupArrive (a : Agt) (w : Worm) (inBond syndrome : Nat) : Worm × Verdict :=
  match a.commonFault w syndrome with
  | some v => (w, v)
  | none =>
    if a.quarantined inBond ∧ ¬ (w.cls = 2 ∧ w.partition = 0) then (w, .drop 0x04)
    else if !a.isSwitch ∧ (w.dstFid = a.fid ∨ (w.mcast ≠ 0 ∧ w.phase = 1)) then (w, .eject)
    else if w.scheduled = 1 then (w, a.courseForward w inBond)
    else a.routeLookup w true

/-- What an UNNAMED agent does with an arriving head (R303): LOCAL for cast-on worms, else a drop without reply. -/
def Agt.lookupUnnamed (a : Agt) (w : Worm) (lane syndrome : Nat) : Verdict :=
  let farOk : Bool := match tget a.fwd.lanes lane with
    | some l => (match l.far with
      | some f => decide (4 ≤ f.state ∧ f.state ≤ 6)
      | none => false)
    | none => false
  if headerFault w syndrome then .silent
  else if w.cls = 2 ∧ w.partition = 0 ∧ w.mcast = 0 ∧ farOk then .toAgent
  else .dropCounted Reg.LKP_CNT_NO_ROUTE

/-! ## Choosing an output (R122, R126) -/

/-- Whether a bond can take a worm now: it has active lanes, is not DOWN, and is not among the busy ones. -/
def Agt.free (a : Agt) (busy : List Nat) (b : Nat) : Bool := b ≠ 0xFF && a.bondActive b && !busy.contains b

/-- The first free bond at or after a start, ascending with wrap-around (R126). -/
def rotateFrom (start : Nat) (l : List Nat) : List Nat := l.filter (start ≤ ·) ++ l.filter (· < start)

/-- The output an endpoint agent takes (R122, R126): the bond and whether step 4 or 5 chose it. -/
def Agt.chooseOutput (a : Agt) (epoch primary secondary alternate mask : Nat) (busy : List Nat) : Option (Nat × Bool) :=
  match [primary, secondary, alternate].find? (a.free busy) with
  | some b => some (b, false)
  | none =>
    let nums := a.bondNums
    match (rotateFrom a.fwd.deflect (((a.slot epoch).mask mask).filter nums.contains)).find? (a.free busy) with
    | some b => some (b, true)
    | none => ((rotateFrom a.fwd.deflect nums).find? (a.free busy)).map fun b => (b, true)

/-- The starting point of R126 one bond further: the agent's next bond in ascending order, with wrap-around. -/
def Agt.nextStart (a : Agt) : Nat := match rotateFrom a.fwd.deflect a.bondNums with
  | _ :: y :: _ => y
  | [x] => x
  | [] => a.fwd.deflect

/-- Send a worm on a bond the rules chose, advancing the rotation of R126 after a step 4 or 5 choice. -/
def Agt.sendOn (a : Agt) (w : Worm) (b : Nat) (deflected : Bool) : Agt :=
  let a := if deflected then { a with fwd := { a.fwd with deflect := a.nextStart } } else a
  a.emitTx b w

/-! ## Outputs that an endpoint or embedded agent owns -/

/-- The length of the plumb slot, ns: slot 0 of the geometry in force, 16 ns while there is none (R167). -/
def Agt.plumbSlot (a : Agt) : Nat := match a.fwd.geom with
  | some g => Geom.slotNs g
  | none => 16

/-- The bonds on which the agent sends probes (R165, R167): those with a far end and an active lane; none without a FID. -/
def Agt.probeBonds (a : Agt) : List (Nat × Bond) :=
  if a.fid = 0x3FFFF then [] else a.fwd.bonds.filter fun p => p.2.farFid ≠ 0x3FFFF && !p.2.active.isEmpty && !p.2.down

/-- Bonds that an INJECT run of the endpoint, or the plumb slot, owns now or within the 96 ns hold window (R119, R153, R167). -/
def Agt.owned (a : Agt) : List Nat :=
  let times := (List.range 7).map fun j => a.die.ns + 16 * j
  let runs := match a.fwd.geom with
    | none => []
    | some g =>
      (a.fwd.course.filter fun x => x.action = 1 && times.any fun t =>
        t / Geom.courseNs g % a.period x.partition = x.course && t % Geom.courseNs g / Geom.slotNs g = x.slot).map (·.outBond)
  runs ++ (if times.any fun t => t % 65536 < a.plumbSlot then a.probeBonds.map (·.1) else [])

/-- Choose an output for an unscheduled worm of the endpoint: a bond that is neither busy nor owned. -/
def Agt.pick (a : Agt) (epoch p s t m : Nat) (busy : List Nat) : Option (Nat × Bool) := a.chooseOutput epoch p s t m (busy ++ a.owned)

/-! ## The lookup channel's 16-byte messages (R117, R118) -/

/-- The lookup request that a host forms of a head, its input bond and the syndrome it computed (R117). -/
def requestBits (w : Worm) (inBond syndrome : Nat) : Nat :=
  w.dstFid % 2 ^ 18 + w.irack % 2 ^ 11 * 2 ^ 18 + w.phase % 2 * 2 ^ 29 + w.epoch % 2 * 2 ^ 30 + w.scheduled % 2 * 2 ^ 31
  + w.cls % 4 * 2 ^ 32 + w.mcast % 4 * 2 ^ 34 + w.hopLimit % 2 ^ 6 * 2 ^ 36 + w.age % 2 ^ 10 * 2 ^ 42 + inBond % 2 ^ 8 * 2 ^ 52
  + syndrome % 2 ^ 16 * 2 ^ 64 + w.headerCheck % 2 ^ 16 * 2 ^ 80 + w.partition % 2 ^ 12 * 2 ^ 96 + w.length % 2 ^ 6 * 2 ^ 108
  + w.version % 2 ^ 4 * 2 ^ 114 + w.op / 64 % 4 * 2 ^ 118

/-- What the agent knows of a head from its lookup request (R117): the fields that the request carries, every other field zero. -/
def requestHead (v : Nat) : Worm :=
  { version := bitsOf v 117 114, cls := bitsOf v 33 32, epoch := bitsOf v 30 30, scheduled := bitsOf v 31 31,
    partition := bitsOf v 107 96, dstFid := bitsOf v 17 0, srcFid := 0, hopLimit := bitsOf v 41 36, mcast := bitsOf v 35 34,
    irack := bitsOf v 28 18, phase := bitsOf v 29 29, age := bitsOf v 51 42, length := bitsOf v 113 108,
    op := 64 * bitsOf v 119 118, keySlot := 0, cg := 0, offset := 0, headerCheck := bitsOf v 95 80, enc := 0, flowSeq := 0,
    reserved := 0, operand := List.replicate 32 0, payload := [], tag := [] }

/-- The input bond and the syndrome of a lookup request. -/
def requestBond (v : Nat) : Nat := bitsOf v 59 52
def requestSyndrome (v : Nat) : Nat := bitsOf v 79 64

/-- The decision on a lookup request (R115, R117): the head with the fields the lookup changes, and the verdict. -/
def Agt.lookupOf (a : Agt) (v : Nat) (w : Worm) : Worm × Verdict :=
  let (h, verdict) := a.lookupArrive (requestHead v) (requestBond v) (requestSyndrome v)
  ({ w with hopLimit := h.hopLimit, phase := h.phase }, verdict)

/-- A lookup response (R118). -/
structure Response where
  verdict : Nat := 0
  mask : Nat := 0
  primary : Nat := 0
  secondary : Nat := 0
  alternate : Nat := 0
  age : Nat := 0
  hop : Nat := 0
  phase : Nat := 0
  dims : Nat := 0
  down : Nat := 0
  check : Nat := 0
  deriving DecidableEq, Repr

/-- The 128 bits of a lookup response (R118). -/
def Response.bits (r : Response) : Nat :=
  r.verdict % 2 ^ 3 + r.mask % 2 ^ 5 * 2 ^ 3 + r.primary % 2 ^ 8 * 2 ^ 8 + r.secondary % 2 ^ 8 * 2 ^ 16 + r.alternate % 2 ^ 8 * 2 ^ 24
  + r.age % 2 ^ 10 * 2 ^ 32 + r.hop % 2 ^ 6 * 2 ^ 42 + r.phase % 2 * 2 ^ 48 + r.dims % 2 ^ 11 * 2 ^ 49 + r.down % 2 * 2 ^ 60
  + r.check % 2 ^ 16 * 2 ^ 64

/-- A HOLD message (R118, R119): the bond in primary and the lead time in bits [41:32]. -/
def holdBits (bond lead : Nat) : Nat := Response.bits { verdict := 5, primary := bond, age := lead }

end Sys2Proof.Machine
end

