-- ==== Sys2Proof/Machine/Read.lean ====
section
/-! DEFINITION. What every register reads (R10 to R14): the register file, and the registers that show something the state
keeps elsewhere (R516 to R524 and the register tables of the chapters). -/

namespace Sys2Proof.Machine

/-! ## The registers a part defines -/

/-- Whether a row exists on a part. -/
def Part.hasRow (p : Part) (r : RegRow) : Bool :=
  r.parts = 0 || (r.parts = 1 && p.pelron) || (r.parts = 2 && !p.pelron) || (r.parts = 3 && decide (p = .pln9210))

/-- Channels of class B and check-value units of a part. -/
def Part.channels (p : Part) : Nat := if p.pelron then 64 else 16
def Part.cvus (p : Part) : Nat := if p.pelron then 8 else 2

/-- The row of a defined register of a part (R10: other offsets are unmapped). -/
def Part.row (p : Part) (key : Nat) : Option RegRow :=
  let off := key % 0x10000
  let blk := key / 0x10000
  if !(p.blocks.contains blk) then none
  else if blk = Blk.CVU ∧ off / 0x100 ≥ p.cvus then none
  else if blk = Blk.MBX ∧ 0x1000 ≤ off ∧ (off - 0x1000) / 0x100 ≥ p.channels then none
  else match rowOfKey key with
    | some r => if p.hasRow r then some r else none
    | none => none

/-- Every defined register of a block in offset order (R437). -/
def Part.defined (p : Part) (blk : Nat) : List Nat :=
  let rows := ((rowsOf blk).filter p.hasRow).map (·.key)
  if blk = Blk.CVU then (List.range p.cvus).flatMap fun k => rows.map (· + 0x100 * k)
  else if blk = Blk.MBX then
    rows.filter (fun k => k % 0x10000 < 0x1000)
    ++ (List.range p.channels).flatMap fun c => (rows.filter fun k => 0x1000 ≤ k % 0x10000).map (· + 0x100 * c)
  else rows

/-- The block and the key of an offset in a part's space (R514, R515); none beyond its blocks. -/
def Part.keyAt (p : Part) (off : Nat) : Option Nat :=
  let size := if p.pelron then 0x40000 else 0x10000
  match p.blocks[off / size]? with
  | some blk => if off % size < 0x10000 then some (blk * 0x10000 + off % size) else none
  | none => none

/-- Where a register of a part's own blocks lies. -/
def Part.offOf (p : Part) (key : Nat) : Nat := p.blockIndex (key / 0x10000) * (if p.pelron then 0x40000 else 0x10000) + key % 0x10000

/-! ## Masters of class B -/

/-- The master ID an access over a path has (R525); 0xFFFF for a path that is no master. -/
def masterOf : Path → Nat
  | .core k => k
  | .unit id => id
  | _ => 0xFFFF

/-- Whether a binding names a master: 0x00FF on Pelron names any management core (R525). -/
def bindsMaster (pelron : Bool) (bound m : Nat) : Bool := bound = m || (pelron && bound = 0xFF && decide (m < 16))

/-- Whether a master is master_a (true) or master_b of a channel, none when it is neither (R471). -/
def ChanB.side (pelron : Bool) (c : ChanB) (m : Nat) : Option Bool :=
  if bindsMaster pelron c.masterA m then some true else if bindsMaster pelron c.masterB m then some false else none

/-- The channel's state, if it is bound. -/
def Die.chan (d : Die) (c : Nat) : Option ChanB := d.mbx.chans.find? fun x => x.channel = c

/-- A master's view of a channel. -/
def Die.viewB (d : Die) (c m : Nat) : ViewB :=
  (d.mbx.views.find? fun v => v.channel = c && v.master = m).getD
    { channel := c, master := m, staging := List.replicate 8 0, result := 0, lost := false }

/-- Store a master's view. -/
def Die.setViewB (d : Die) (v : ViewB) : Die :=
  { d with mbx := { d.mbx with views := d.mbx.views.filter (fun x => !(x.channel = v.channel && x.master = v.master)) ++ [v] } }

/-- The incoming and outgoing queues of a master. -/
def ChanB.inQ (c : ChanB) (isA : Bool) : List (Nat × List Word) := if isA then c.toA else c.toB
def ChanB.outQ (c : ChanB) (isA : Bool) : List (Nat × List Word) := if isA then c.toB else c.toA

/-- MBX_B_STATUS as a master sees it (R474). -/
def Die.statusB (d : Die) (c m : Nat) : Nat :=
  let v := d.viewB c m
  match d.chan c with
  | none => v.result * 256
  | some ch =>
    match ch.side d.part.pelron m with
    | none => v.result * 256
    | some isA => (ch.inQ isA).length + ((ch.outQ isA).filter fun x => x.1 = m).length * 16 + v.result * 256 + 2048
        + b2n v.lost * 4096

/-! ## Values both parts compute -/

/-- The record an area and index select (R449, R450). -/
def Die.recordAt (d : Die) (area idx : Nat) : Bytes :=
  let e := d.evr
  if d.part.pelron then
    match area with
    | 0 => mread d.mem (circBase + 512 * (idx % circCap true)) 512
    | 1 => ((e.retained[idx]?).map (·.bytes)).getD (List.replicate 512 0)
    | 2 => mread d.mem (fabricRingBase + 512 * (idx % 16777216)) 512
    | _ => (e.lastGasp[idx]?).getD (List.replicate 512 0)
  else
    match area with
    | 0 => ((tget e.circ (idx % circCap false)).map (·.bytes)).getD (List.replicate 512 0)
    | 1 => ((e.retained[idx]?).map (·.bytes)).getD (List.replicate 512 0)
    | 2 => List.replicate 512 0
    | _ => ((e.fallback[idx]?).map (·.bytes)).getD (List.replicate 512 0)

/-- FLC_UNIT of the selected unit (R451). -/
def Die.unitWord (d : Die) : Nat :=
  let blk := d.bget Reg.FLC_UNIT_SEL 7 0
  let inst := d.bget Reg.FLC_UNIT_SEL 23 8
  match d.units.find? fun u => u.block = blk && u.inst = inst with
  | some u => b2n u.fenced + u.sev * 2 + u.code % 2 ^ 16 * 2 ^ 16 + u.at_ % 2 ^ 32 * 2 ^ 32
  | none => 0

/-- Word i of a wide register over a list of words. -/
def wordAt (ws : List Word) (i : Nat) : Nat := ((ws[i]?).map (·.toNat)).getD 0

/-- What registers that both parts have, and that show other state, read now. -/
def Die.common (d : Die) (path : Path) (key : Nat) : Option Nat :=
  let off := key % 0x10000
  let sel := d.getN Reg.EVR_RD_SEL
  if Reg.PLB_TIME_LO = key then some (d.time80 % 2 ^ 64)
  else if Reg.PLB_TIME_HI = key then some (d.time80 / 2 ^ 64)
  else if Reg.PLB_TRIG_LO = key then some (d.trig.headD 0 % 2 ^ 64)
  else if Reg.PLB_TRIG_HI = key then
    some (d.trig.headD 0 / 2 ^ 64 % 2 ^ 16 + b2n (!d.trig.isEmpty) * 2 ^ 16 + d.bget Reg.PLB_TRIG_HI 47 32 * 2 ^ 32)
  else if Reg.EVR_RD_DATA0 ≤ key ∧ key < Reg.EVR_RD_DATA0 + 512 then
    some (fieldAt (d.recordAt (sel % 4) (sel / 256)) (key - Reg.EVR_RD_DATA0) 8)
  else if Reg.EVR_OPSEC = key then some d.opsecTime
  else if Reg.FLC_UNIT = key then some d.unitWord
  else if Reg.FLC_INJECT = key ∧ !d.testEn then some 0
  else if Reg.MBX_A_STATUS = key then
    some (satU 24 (sumL (d.mbx.peers.map fun p => p.unacked.length)) + b2n d.safe * 2 ^ 24)
  else if Reg.MBX_A_PEER = key then
    let p := d.mbx.peer (d.bget Reg.MBX_A_PEER_SEL 17 0)
    some (p.nextSend % 2 ^ 32 + p.nextExpect % 2 ^ 32 * 2 ^ 32)
  else if key / 0x10000 = Blk.MBX ∧ 0x1000 ≤ off then
    let c := (off - 0x1000) / 0x100
    let r := off % 0x100
    let m := masterOf path
    if r < 0x40 then some (wordAt (d.viewB c m).staging (r / 8))
    else if r = 0x48 then some (d.statusB c m)
    else if 0x80 ≤ r ∧ r < 0xC0 then
      match d.chan c with
      | none => some 0
      | some ch => match ch.side d.part.pelron m with
        | none => some 0
        | some isA => some (match ch.inQ isA with
          | [] => 0
          | x :: _ => wordAt x.2 ((r - 0x80) / 8))
    else none
  else none

/-! ## Twidel -/

/-- The part code of AGT_ID and CTL_ID (R516, R517). -/
def Part.idCode : Part → Nat
  | .pln9400 => 0x9400 | .pln9320 => 0x9320 | .pln9210 => 0x9210
  | .twd210 => 0x0210 | .twd200 => 0x0200 | .embedded => 0x00E0

/-- CTL_ID and AGT_ID. -/
def Part.id (p : Part) : Nat := p.idCode + Config.stepping % 256 * 2 ^ 16 + 0x59 * 2 ^ 24 + 0x0100 * 2 ^ 32

/-- AGT_CAP (R517). -/
def Part.agtCap (p : Part) : Nat :=
  let full := decide (p = .twd210)
  b2n full + (if full then 512 * 2 + 544 * 2 ^ 11 else 0) + (if full then 32 else 16) * 2 ^ 21 + 0x100 * 2 ^ 27 + 8 * 2 ^ 36
  + 2 * 2 ^ 40 + 16 * 2 ^ 43 + 16 * 2 ^ 48 + (if full then 30 else if p = .twd200 then 20 else 0) * 2 ^ 53

/-- AGT_CAP2 (R517). -/
def agtCap2 : Nat := 800 + 8 * 2 ^ 12 + 4 * 2 ^ 20 + 16 * 2 ^ 24

/-- A 16-byte completion-group context (R140, R280). -/
def cgBytes (c : CgCtx) : Bytes :=
  le 8 c.bytes ++ le 4 c.worms ++ le 2 c.errors ++ le 1 c.armSlot ++ le 1 (b2n c.armed + 2 * b2n c.fired)

/-- An identity block's 64 bytes (R300). -/
def idBytes (b : IdBlock) : Bytes :=
  le 4 b.fid ++ le 1 b.mode ++ le 1 b.lane ++ le 1 b.bond ++ le 1 b.state ++ le 4 b.fwVersion ++ le 2 b.linkLevel
  ++ le 1 b.epochBit ++ le 1 b.cls ++ le 8 b.dieId ++ le 16 b.patternDigest ++ le 4 b.skew ++ le 1 b.patCode
  ++ le 1 b.patDetail ++ le 2 0 ++ le 8 b.fabricId ++ le 4 b.patStream ++ le 4 b.patNext

/-- A lane of the agent. -/
def Agt.lane (a : Agt) (l : Nat) : Lane :=
  (tget a.fwd.lanes l).getD
    { state := 0, cls := 0, source := 0, bond := 0xFF, trainings := 0, detail := 0, eyeH := 0, eyeW := 0, savedH := 0, savedW := 0,
      settings := [], far := none, ready := false, retryNs := 0, training := none }

/-- A region's gauge ratio, UQ2.14 (R355). -/
def Region.ratio (r : Region) : Nat := gaugeRatio r.dMeas r.ref

/-- LNK_LANE_STATE and LNK_LANE_EYE of a lane (R318). -/
def Agt.laneState (a : Agt) (l : Nat) : Nat :=
  let x := a.lane l
  x.state + x.cls * 8 + x.source * 32 + x.bond * 256 + satU 16 x.trainings * 2 ^ 16 + x.detail % 256 * 2 ^ 32
  + (if x.state = 5 then satU 8 (ceilDiv (x.retryNs - a.die.up) 1000000000) else 0) * 2 ^ 40
def Agt.laneEye (a : Agt) (l : Nat) : Nat :=
  let x := a.lane l
  satU 16 x.eyeH + satU 16 x.eyeW * 2 ^ 16 + satU 16 x.savedH * 2 ^ 32 + satU 16 x.savedW * 2 ^ 48

/-- How many lanes are in a state. -/
def Agt.lanesIn (a : Agt) (st : Nat) : Nat := (a.fwd.lanes.filter fun p => p.2.state = st).length

/-- A slot of the tap (R411). -/
def Tap.slot (t : Tap) (i : Nat) : TapSlot := if i = 0 then t.slot0 else t.slot1

/-- Bytes of the dump-staging share held (R338). -/
def Rec.held (r : Rec) : Nat := sumL (r.records.map fun x => x.bytes.length)

/-- Units in use of a bulk-buffer share (R523): share 2 holds the FWD worms that wait for an output. -/
def Agt.shareUse (a : Agt) (i : Nat) : Nat :=
  match i with
  | 0 => if a.fwrx.chunks.isEmpty then 0 else ceilDiv (2048 * a.fwrx.count) 4096
  | 1 => ceilDiv a.rcv.held 4096
  | 2 => ceilDiv (sumL (a.fwd.waiting.map fun p => 64 * Worm.flits p.1)) 4096
  | _ => ceilDiv (512 * (a.die.evr.retained.length + a.die.evr.circ.length)) 4096

/-- A key slot (R391). -/
def Agt.keySlot (a : Agt) (i : Nat) : Option KeySlot := tget a.gcm.slots i

/-- GCM slots in a state. -/
def Agt.slotsIn (a : Agt) (st : Nat) : Nat := (a.gcm.slots.filter fun p => p.2.state = st).length

/-- WCH_TIMER of the selected timer (R350). -/
def Agt.timerWord (a : Agt) : Nat :=
  let k := a.die.bget Reg.WCH_TIMER_SEL 3 0
  let owner := a.die.resource.timers.getD k 0
  match tget a.rcv.timers k with
  | none => owner
  | some t =>
    let remain := match t.startNs with
      | some s => (s + t.timeoutUs * 1000 - a.die.up) / 1000
      | none => 0
    owner + b2n t.startNs.isSome * 256 + b2n t.expired * 512 + t.firstLevel * 4096 + satU 32 remain * 2 ^ 32

/-- AGT_MAP of a kind and logical index (R521). -/
def Agt.mapWord (a : Agt) : Nat :=
  let kind := a.die.bget Reg.AGT_MAP_SEL 3 0
  let i := a.die.bget Reg.AGT_MAP_SEL 24 16
  match kind with
  | 0 => match a.purl.map[i]? with
    | some p => p + b2n (a.purl.fencedLanes.contains i) * 2 ^ 16 + 2 ^ 17
    | none => 0
  | 1 => match a.cast.banks[i]? with
    | some p => p + 2 ^ 17
    | none => 0
  | 2 =>
    if i < 512 ∧ a.castState ≥ 2 ∧ a.castState ≠ 0xF then
      (tgetD a.cast.ucieMap i (i % 64)) % 2 ^ 10 + b2n (a.cast.modules.getD (i / 64) 0 = 3) * 2 ^ 16 + 2 ^ 17
    else 0
  | _ => 0

/-- Registers of LKP that read zero in switch mode: R144's tracker and R159's table but two (R159). -/
def switchZero (key : Nat) : Bool :=
  key = Reg.LKP_TRACKER || key = Reg.LKP_WINDOWS
  || (Reg.LKP_RSP_SPACE ≤ key && key ≤ Reg.LKP_CNT_EJECT_DISCARD)

/-- Registers of PRL that endpoint mode leaves readable (R263). -/
def endpointPrl (key : Nat) : Bool :=
  key = Reg.PRL_LANE_SEL || key = Reg.PRL_LANES || key = Reg.PRL_LANE_MAP || key = Reg.PRL_STATUS

/-- Whether the Purl engine is absent (R3, R524). -/
def Part.noPurl (p : Part) : Bool := p = .twd200 || p = .embedded

/-- What an agent's register shows of state kept elsewhere; none for a register whose value is in the register file. -/
def Agt.view (a : Agt) (path : Path) (key : Nat) : Option Nat :=
  let d := a.die
  let blk := key / 0x10000
  let b := d.bget Reg.PLB_LINK_SEL 7 0
  let link := (tget a.fwd.bonds b).map (·.link)
  let lane := d.bget Reg.LNK_LANE_SEL 7 0
  let desc := tget a.purl.descs (d.bget Reg.PRL_DESC_SEL 5 0)
  let slot := a.keySlot (d.bget Reg.GCM_SLOT_SEL 7 0)
  let tap := a.tap.slot (d.bget Reg.MTP_KEY_SEL 0 0)
  let msr := tget a.msr (d.bget Reg.MSR_SEL 3 0)
  let cg := tget a.flow.cg (d.bget Reg.AGT_CG_SEL 19 0)
  if blk = Blk.PRL ∧ (d.part.noPurl ∨ (!a.isSwitch ∧ !endpointPrl key)) then some 0
  else if blk = Blk.LKP ∧ a.isSwitch ∧ switchZero key then some 0
  else match blk with
  | 23 =>
    if key = Reg.AGT_ID then some d.part.id
    else if key = Reg.AGT_DIE_ID then some (a.dieId % 2 ^ 64)
    else if key = Reg.AGT_CAP then some d.part.agtCap
    else if key = Reg.AGT_CAP2 then some agtCap2
    else if key = Reg.AGT_LOCK then some (putBits (d.getN key) 0 0 (d.fget Fl.LKP_STATUS_locked))
    else if key = Reg.AGT_BOOT then some (putBits (d.getN key) 31 16 d.fw.linkLevel)
    else if key = Reg.AGT_MAP then some a.mapWord
    else if key = Reg.AGT_CG_CTX0 ∨ key = Reg.AGT_CG_CTX1 then
      if a.isSwitch then some 0
      else some ((cg.map fun c => fieldAt (cgBytes c) (key - Reg.AGT_CG_CTX0) 8).getD 0)
    else if key = Reg.AGT_CG_SEL ∧ a.isSwitch then some 0
    else if key = Reg.AGT_UCIE_STATUS then
      some (sumL ((List.range 8).map fun k => (a.cast.modules.getD k 0 + d.resource.ucie.getD k 0 * 4) * 16 ^ k))
    else if key = Reg.AGT_CG_ARMS then some (putBits (d.getN key) 8 0 a.flow.arms.length)
    else if key = Reg.AGT_FW_VERSION then
      some (d.fw.version % 2 ^ 32 + (if d.fget Fl.AGT_FW_STATUS_state = 4 then a.fwrx.version % 2 ^ 32 else 0) * 2 ^ 32)
    else if key = Reg.AGT_FW_ROLLBACK then some (a.fwrx.rollback % 256)
    else none
  | 24 =>
    if key = Reg.LKP_DRAIN then some (drainBound a.hopInit)
    else if key = Reg.LKP_SLOT_FREE_AT then some (if d.getN key ≤ d.ns then 0 else d.getN key)
    else if key = Reg.LKP_TRACKER then
      some (putBits (a.flow.tracker.length + ((a.flow.tracker.filter fun t => t.heldStatus.isSome).length) * 2 ^ 16) 46 32
        (d.bget key 46 32))
    else if key = Reg.LKP_WINDOWS then some (putBits (d.getN key) 13 0 a.flow.windows.length)
    else none
  | 5 =>
    if key = Reg.PLB_LINK_DELAY then some ((link.map fun l => l.d % 2 ^ 48 + satU 16 l.valid * 2 ^ 48).getD 0)
    else if key = Reg.PLB_LINK_THETA then some ((link.map fun l => toTwos 64 l.theta).getD 0)
    else if key = Reg.PLB_LINK_ASYM then some ((link.map fun l => toTwos 32 l.w + l.uw % 2 ^ 16 * 2 ^ 32).getD 0)
    else if key = Reg.PLB_LINK_STATE then
      some ((link.map fun l => l.state + l.farState % 16 * 256 + toTwos 32 l.farSkew * 2 ^ 32).getD 0)
    else d.common path key
  | 25 =>
    if key = Reg.PRL_STATUS then
      some (if !a.isSwitch then 3
        else (if d.blockFenced Blk.PRL then 2 else if a.purl.descs.isEmpty then 0 else 1) + a.purl.descs.length * 2 ^ 8
          + b2n d.testEn * 2 ^ 16)
    else if key = Reg.PRL_LANES then
      some (a.purl.map.length + a.purl.fencedLanes.length * 2 ^ 16 + a.purl.spares * 2 ^ 32
        + sumL (a.purl.descs.map fun p => p.2.ent.laneCount) * 2 ^ 48)
    else if key = Reg.PRL_LANE_MAP then
      let l := d.bget Reg.PRL_LANE_SEL 8 0
      some (match a.purl.map[l]? with
        | some p => p + b2n (a.purl.fencedLanes.contains l) * 2 ^ 16
        | none => 0)
    else if key = Reg.PRL_DESC then
      some ((desc.map fun x => x.ent.collective + x.ent.partition * 2 ^ 32 + (if x.ended then 2 else 1) * 2 ^ 44
        + x.slots * 2 ^ 48).getD 0)
    else if key = Reg.PRL_DESC_FLAGS then some ((desc.map fun x => x.flags + satU 32 x.rounded * 2 ^ 32).getD 0)
    else if key = Reg.PRL_STORE_USE then
      some (sumL (a.purl.descs.map fun p => p.2.ent.storeBytes / 48) % 2 ^ 20
        + sumL (a.purl.descs.map fun p => p.2.chunks.length) * 2 ^ 32)
    else if key = Reg.PRL_STO_DATA ∨ key = Reg.PRL_STO_ADDR then
      if !d.testEn then some 0
      else if key = Reg.PRL_STO_DATA then some (leNat (mread a.purl.store (d.getN Reg.PRL_STO_ADDR) 8)) else none
    else none
  | 26 =>
    if key = Reg.GCM_STATUS then
      some (a.slotsIn 1 + a.slotsIn 2 * 2 ^ 16 + a.slotsIn 3 * 2 ^ 32 + b2n a.gcm.keys.isSome * 2 ^ 48)
    else if key = Reg.GCM_SLOT then
      some ((slot.map fun s => s.state + s.use * 4 + s.partition * 256
        + (match s.activeNs with
          | some t => satU 32 ((d.ns - t) / 1000000)
          | none => 0) * 2 ^ 32).getD 0)
    else if key = Reg.GCM_SLOT_KEY_ID0 then some ((slot.map fun s => s.keyId % 2 ^ 64).getD 0)
    else if key = Reg.GCM_SLOT_KEY_ID0 + 8 then some ((slot.map fun s => s.keyId / 2 ^ 64).getD 0)
    else if key = Reg.GCM_SLOT_INSTANCE then some ((slot.map fun s => s.inst % 2 ^ 32 + s.gen % 2 ^ 32 * 2 ^ 32).getD 0)
    else none
  | 27 =>
    if key = Reg.MTP_STATUS then
      some (b2n a.tap.slot0.held + b2n a.tap.slot1.held * 2 + b2n a.tap.slot0.sending * 4 + b2n a.tap.slot1.sending * 8
        + b2n (a.tap.cfg.any fun e => bitOf e.flags 0) * 16 + (a.tap.entries.filter fun e => e.open_).length * 2 ^ 16)
    else if key = Reg.MTP_KEY_ID then some (if tap.held then tap.keyId else 0)
    else if key = Reg.MTP_KEY_FID then some (if tap.held then tap.fid else 0)
    else if key = Reg.MTP_KEY_SEQ then some (if tap.held then tap.seq else 0)
    else if key = Reg.MTP_ENERGY then some (a.tap.energy % 2 ^ 64)
    else if key = Reg.MTP_INTERVAL then some ((a.tap.cfg.head?.map (·.intervalUs)).getD 0)
    else none
  | 28 =>
    if Reg.MSR_VALUE0 ≤ key ∧ key < Reg.MSR_VALUE0 + 64 then
      some ((msr.map fun m => fieldAt (digestBytes m.value) (key - Reg.MSR_VALUE0) 8).getD 0)
    else if key = Reg.MSR_LAST_SEQ then some ((msr.map (·.lastSeq)).getD 0)
    else if key = Reg.MSR_COUNT then some ((msr.map fun m => satU 32 m.count).getD 0)
    else none
  | 29 =>
    if key = Reg.BLK_SHARE then
      let i := d.bget Reg.BLK_SHARE_SEL 1 0
      let sh := d.resource.shares.getD i (0, 0)
      some (sh.1 + sh.2 * 2 ^ 16 + a.shareUse i * 2 ^ 32 + max (a.shareUse i) (a.shareHigh.getD i 0) * 2 ^ 48)
    else none
  | 30 =>
    if key = Reg.LNK_LANE_STATE then some (a.laneState lane)
    else if key = Reg.LNK_LANE_EYE then some (a.laneEye lane)
    else if Reg.LNK_FAR_ID0 ≤ key ∧ key < Reg.LNK_FAR_ID0 + 64 then
      some (((a.lane lane).far.map fun f => fieldAt (idBytes f) (key - Reg.LNK_FAR_ID0) 8).getD 0)
    else if key = Reg.LNK_SUMMARY then
      some (satU 8 (a.lanesIn 2) + satU 8 (a.lanesIn 3) * 2 ^ 8 + satU 8 (a.lanesIn 4) * 2 ^ 16 + satU 8 (a.lanesIn 5) * 2 ^ 24)
    else none
  | 31 =>
    if key = Reg.WCH_TIMER then some a.timerWord
    else if key = Reg.WCH_SHARE then some (satU 20 a.rcv.held)
    else none
  | 32 =>
    if key = Reg.TRY_STATUS then
      let st := d.fget Fl.WCH_STATUS_state
      some (b2n (!a.pins.trayReqN) + b2n (!a.pins.trayAckN) * 2 + b2n a.pins.pwrgd * 4
        + b2n (d.fget Fl.WCH_STATUS_level = 5 && (st = 4 || st = 5)) * 8)
    else none
  | 19 => if key = Reg.PAT_SRC_ADDR ∨ key = Reg.PAT_SRC_LEN then some 0 else none
  | _ => d.common path key

/-- What an agent's register reads now. -/
def Agt.regNow (a : Agt) (path : Path) (key : Nat) : Word :=
  match a.view path key with
  | some v => BitVec.ofNat 64 v
  | none => a.die.get key

end Sys2Proof.Machine
end

