-- ==== Sys2Proof/Machine/Send.lean ====
section
/-! DEFINITION. Worms of class FWD that an agent originates (R108, R463, R468), and the frame every agent command runs in:
what it raised, sent and changed is settled before the next command. -/

namespace Sys2Proof.Machine

/-- The mason's mark an agent stamps (R463). -/
def Agt.mark (a : Agt) (block privilege : Nat) : Nat :=
  a.fid + 2 ^ 18 * (block % 256) + 2 ^ 26 * (privilege % 4) + 2 ^ 28 * (((a.tenant.map (·.1)).getD 0) % 2 ^ 12)

/-- Fields of a mark (R463). -/
def markFid (m : Nat) : Nat := bitsOf m 17 0
def markPriv (m : Nat) : Nat := bitsOf m 27 26
def markPart (m : Nat) : Nat := bitsOf m 39 28
/-- The mark of a relayed worm: relayed set and the relayer's FID (R468). -/
def relayMark (m relayer : Nat) : Nat := putBits (putBits m 40 40 1) 58 41 relayer

/-- The mark of a FWD worm: operand bytes 0 to 7. -/
def wormMark (w : Worm) : Nat := Worm.opnd w 0 8

/-- The bare worm of a queued FWD message: nothing stamped yet but the mark. -/
def Agt.fwdWorm (a : Agt) (m : FwdMsg) : Worm :=
  { version := 1, cls := 2, epoch := 0, scheduled := 0, partition := 0, dstFid := m.dst, srcFid := 0, hopLimit := 0,
    mcast := m.mcast, irack := m.root, phase := 0, age := 0, length := ceilDiv m.payload.length 64, op := m.op, keySlot := 0,
    cg := 0, offset := 0, headerCheck := 0, enc := 0, flowSeq := 0, reserved := 0,
    operand := le 8 (m.mark.getD (a.mark m.block m.privilege)) ++ slice m.operand 0 24,
    payload := slice m.payload 0 (64 * ceilDiv m.payload.length 64), tag := [] }

/-- The lookup of a worm that an endpoint or embedded agent injects (R115, R141): the common checks without a hop, a multicast
worm under the rack-route entry toward its root, a scheduled worm of an INJECT run on that run's bond. -/
def Agt.injectLookup (a : Agt) (w : Worm) : Worm × Verdict :=
  match a.commonFault w 0 with
  | some v => (w, v)
  | none =>
    if w.mcast ≠ 0 then
      let e := (a.slot w.epoch).rackEnt w.irack
      (w, if e.valid then .forward e.primary e.secondary e.alternate e.mask (a.ageOf w) else .drop 0x04)
    else a.routeLookup w false

/-- The counter of a drop status (R144). -/
def Agt.countDrop (a : Agt) (status : Nat) : Agt :=
  a.count (match status with
    | 2 => Reg.LKP_CNT_HOP_LIMIT
    | 3 => Reg.LKP_CNT_EXPIRED
    | 4 => Reg.LKP_CNT_NO_ROUTE
    | _ => Reg.LKP_CNT_NO_OUTPUT)

/-- Bytes of the FWD relay share that the waiting worms hold (R147). -/
def Fwd.waitBytes (f : Fwd) : Nat := sumL (f.waiting.map fun p => 64 * Worm.flits p.1)

/-- A FWD worm waits in the agent's own FWD space, its relay share, or is dropped for want of room (R146, R156; log entry 64). -/
def Agt.park (a : Agt) (w : Worm) (bond : Nat) : Agt :=
  if a.fwd.waitBytes + 64 * Worm.flits w ≤ 4096 * (a.die.resource.shares.getD 2 (0, 0)).2 then
    { a with fwd := { a.fwd with waiting := a.fwd.waiting ++ [(w, bond)] } }
  else a.count Reg.LKP_CNT_FWD_DROP

/-- An endpoint or embedded agent injects a stamped FWD worm (R115, R141, R153): on the bond its originator names after the common
checks, else as its injection lookup routes it; none while its output is not free. A worm that the tables call local stays on the
die. -/
def Agt.tryForward (a : Agt) (w : Worm) (bond : Nat) (busy : List Nat) : Option Agt :=
  let c := a.count Reg.LKP_CNT_LOOKUPS
  let (w', v) := if bond = 0xFF then a.injectLookup w else (w, (a.commonFault w 0).getD (.scheduled bond))
  match v with
  | .forward p s t m _ => (a.pick w'.epoch p s t m busy).map fun b => c.sendOn { w' with headerCheck := recheck w w' } b.1 b.2
  | .scheduled b =>
    if !(a.bondActive b) then some (c.countDrop 5)
    else if a.free (busy ++ a.owned) b then some (c.emitTx b w') else none
  | .toAgent => some (c.emit (.own w'))
  | .drop st => some (c.countDrop st)
  | _ => some (c.countDrop 4)

/-- Send a stamped FWD worm: in switch mode over the agent input, or held and sent on a named bond (R269, R273); in endpoint and
embedded mode it is injected, or waits for an output. -/
def Agt.sendStamped (a : Agt) (w : Worm) (bond : Nat) (busy : List Nat := []) : Agt :=
  if a.isSwitch then
    if bond = 0xFF then a.emitTx 0xFE w else (a.emit (.hold bond 96)).emitTx bond w
  else (a.tryForward w bond busy).getD (a.park w bond)

/-- A worm that waited, its head stamped anew as at injection (R108, R468). -/
def Agt.restamp (a : Agt) (w : Worm) : Worm :=
  sealHead { w with hopLimit := a.hopInit, age := a.ageStamp, epoch := a.stampEpoch }

/-- Try the waiting FWD worms again, oldest first. -/
def Agt.retryForward (a : Agt) (busy : List Nat) : Agt :=
  a.fwd.waiting.foldl (fun a p => (a.tryForward (a.restamp p.1) p.2 busy).getD { a with fwd := { a.fwd with waiting := a.fwd.waiting ++ [p] } })
    { a with fwd := { a.fwd with waiting := [] } }

/-- Originate a FWD worm: an agent without a FID originates none (R33, R303). Bond 0xFD hands the controller's worm to its own
embedded agent, named or not (log entry 18). -/
def Agt.originate (a : Agt) (m : FwdMsg) (busy : List Nat := []) : Agt :=
  if m.bond = 0xFD then a.emit (.own (a.stamp (a.fwdWorm m) 0 none 0 0 0))
  else if a.fid = 0x3FFFF then a
  else a.sendStamped (a.stamp (a.fwdWorm m) 0 none 0 0 0) m.bond busy

/-- Send the FWD worms that wait, then every one that the die has queued. -/
def Agt.flush (a : Agt) (busy : List Nat := []) : Agt :=
  let a := a.retryForward busy
  a.die.fwdq.foldl (fun a m => a.originate m busy) { a with die := { a.die with fwdq := [] } }

/-- What an agent's entry into the safe state does beside the collector's own part (R443): watch timers stop. -/
def Agt.safeEntry (a : Agt) : Agt :=
  { a with rcv := { a.rcv with timers := a.rcv.timers.map fun p => (p.1, { p.2 with startNs := none }) } }

/-! ## Identity blocks (R300) -/

/-- The host's skew for a reach class, SQ15.16 ns (R169). -/
def Agt.skew (a : Agt) (reach : Nat) : Int :=
  let reg := if reach < 2 then Reg.PLB_HOST_SKEW0 else Reg.PLB_HOST_SKEW1
  ofTwos 32 (if reach % 2 = 0 then a.die.bget reg 31 0 else a.die.bget reg 63 32)

/-- Whether a lane is trained: UP, HELD or in QUARANTINE. -/
def Lane.trained (l : Lane) : Bool := l.state = 2 || l.state = 3 || l.state = 4

/-- The identity block the agent sends over a lane (R300). -/
def Agt.idBlock (a : Agt) (lane : Nat) : IdBlock :=
  let l := a.lane lane
  let d := a.die
  { fid := a.fid, mode := a.mode, lane := lane, bond := l.bond, state := a.castState, fwVersion := d.fw.version,
    linkLevel := d.fw.linkLevel, epochBit := a.epoch % 2, cls := l.cls, dieId := a.dieId,
    patternDigest := d.getN Reg.PAT_ACTIVE_DIGEST0 + 2 ^ 64 * d.getN (Reg.PAT_ACTIVE_DIGEST0 + 8),
    skew := toTwos 32 (a.skew l.cls), patCode := d.fget Fl.PAT_STATUS_code, patDetail := d.fget Fl.PAT_STATUS_detail,
    fabricId := d.getN Reg.AGT_FABRIC_ID, patStream := d.pat.idStream, patNext := d.pat.idNext }

/-- Send the identity block over every lane that has trained now, or over which a field has changed (R300). -/
def Agt.sendIdentity (before a : Agt) : Agt :=
  if !a.pins.rstN then a
  else
    a.fwd.lanes.foldl (fun a p =>
      if p.2.trained ∧ (!(before.lane p.1).trained ∨ before.idBlock p.1 ≠ a.idBlock p.1) then a.emit (.identity p.1 (a.idBlock p.1)) else a) a

/-- A timer of owner mailbox response that has expired restarts at the next message sent (R324). -/
def Agt.mailTimers (before a : Agt) : Agt :=
  let sent (x : Agt) : Nat := sumL (x.die.mbx.peers.map (·.nextSend))
  if sent a ≤ sent before then a
  else
    let again (p : Nat × Timer) : Nat × Timer :=
      if a.die.resource.timers.getD p.1 0 = 5 ∧ p.2.expired then (p.1, { p.2 with startNs := some a.die.up, expired := false }) else p
    { a with rcv := { a.rcv with timers := a.rcv.timers.map again } }

/-- What follows every command at an agent: the effects of a safe-state entry, the high-water marks, PARTIAL after a change of FID (R356), identity blocks
that changed, the worms sent. -/
def Agt.settle (before a : Agt) (busy : List Nat := []) : Agt :=
  let a := if a.die.safe && !before.die.safe then a.safeEntry else a
  let a := Agt.mailTimers before a
  let held := sumL (a.purl.descs.map fun p => p.2.chunks.length)
  let a : Agt := { a with tel := { a.tel with chunkHigh := max a.tel.chunkHigh held, partialFlag := a.tel.partialFlag || decide (a.fid ≠ before.fid) } }
  let a := { a with shareHigh := (List.range 4).map fun i => max (a.shareHigh.getD i 0) (a.shareUse i) }
  (Agt.sendIdentity before a).flush busy

/-- The agent a command reaches. -/
def State.agt (s : State) : Who → Agt
  | .twd => s.twd
  | .emb => s.emb

/-- FAB_AGENT shows the embedded agent's FID and state (R522). -/
def Ctl.showAgent (c : Ctl) (a : Agt) : Ctl := { c with die := c.die.setN Reg.FAB_AGENT (a.fid + 2 ^ 20 * a.castState) }

/-- Store an agent. Pelron's FAB_AGENT shows the embedded agent's FID and state (R522). -/
def State.setAgt (s : State) (w : Who) (a : Agt) : State :=
  match w with
  | .twd => { s with twd := a }
  | .emb => { s with emb := a, ctl := s.ctl.showAgent a }

/-- Run an agent's effect and settle it; `busy` lists the outputs that carry a worm. -/
def State.onAgt (s : State) (w : Who) (f : Agt → Agt) (busy : List Nat := []) : State :=
  let a := s.agt w
  s.setAgt w (Agt.settle a (f a) busy)

end Sys2Proof.Machine
end

