-- ==== Sys2Proof/Machine/CtlRead.lean ====
section
/-! DEFINITION. What the controller's registers read (R516, R521, R522 and the register tables of the chapters), and the
figures that depend on the variant (R1). -/

namespace Sys2Proof.Machine

/-- Change the controller's die. -/
def Ctl.onDie (c : Ctl) (f : Die → Die) : Ctl := { c with die := f c.die }

/-- Raise at the controller. -/
def Ctl.raise (c : Ctl) (e : Event) (inst : Nat := 0xFFFF) : Ctl := c.onDie (·.raise e inst)

/-! ## Variants (R1, R189, R476) -/

def Part.tiles : Part → Nat
  | .pln9320 => 192 | .pln9210 => 128 | _ => 256
def Part.skeinPorts (p : Part) : Nat := if p = .pln9400 then 2 else 1
def Part.packages (p : Part) : Nat := if p = .pln9210 then 12 else 24
def Part.dataRate (p : Part) : Nat := if p = .pln9400 then 12800 else 10667
def Part.power : Part → Nat
  | .pln9400 => 320 | .pln9320 => 240 | .pln9210 => 170 | .twd210 => 30 | .twd200 => 20 | .embedded => 0
def Part.vcore : Part → Nat
  | .pln9400 => 800 | .pln9320 => 720 | .pln9210 => 680 | _ => 800
def Part.memChannels (p : Part) : Nat := if p = .pln9210 then 48 else 96
/-- Usable bytes of a channel: 3.75 GiB, 7.5 GiB on PLN-9210. -/
def Part.chanBytes (p : Part) : Nat := if p = .pln9210 then 15 * 2 ^ 29 else 15 * 2 ^ 28
/-- The Sealed Meter is present (R407). -/
def Part.hasMeter (p : Part) : Bool := p = .pln9400 || p = .pln9320

/-- CTL_CAP and CTL_CAP2 (R516). -/
def Part.ctlCap (p : Part) : Nat :=
  p.tiles + b2n p.hasMeter * 2 ^ 9 + p.skeinPorts * 2 ^ 10 + p.fabLanes * 2 ^ 12 + p.packages * 2 ^ 18 + p.dataRate * 2 ^ 24
  + p.power * 2 ^ 40 + p.vcore * 2 ^ 50
def Part.ctlCap2 (p : Part) : Nat := p.memChannels + 8 * 2 ^ 8 + 0x40 * 2 ^ 16 + 0x10 * 2 ^ 24 + 0x110 * 2 ^ 32

/-- The capacity of controller memory in bytes (R478). -/
def Ctl.capacity (c : Ctl) : Nat := min (c.memu.usable.length * c.die.part.chanBytes) (360 * 2 ^ 30)

/-- Whether a cast-on step is DONE. -/
def Ctl.stepState (c : Ctl) (k : Nat) : Nat := c.die.bget (Reg.CST_STEP1 + 8 * (k - 1)) 1 0
def Ctl.stepDone (c : Ctl) (k : Nat) : Bool := c.stepState k = 2

/-- KST_MGMT_AUTH selects KEYSTONE (R382). -/
def Ctl.keystone (c : Ctl) : Bool := c.die.fget Fl.KST_MGMT_AUTH_auth = 1

/-- The threshold and direction of a wear monitor (R367). -/
def wearY (m : WearMon) : Int :=
  match m.kind with
  | 1 => 72090
  | 2 => 30
  | 3 => 3 * m.first / 2
  | _ => 1048576
def wearDir (m : WearMon) : Int := if m.kind = 2 then -1 else 1
def wearHours (m : WearMon) : Nat := wearRemaining m.samples (wearY m) (wearDir m)

/-- The monitor of an agent with the smallest remaining hours, of equals the one with the larger confidence (R70, R369). -/
def worstWear (ms : List WearMon) : Option WearMon :=
  ms.foldl (fun b m => match b with
    | none => some m
    | some x =>
      if wearHours m < wearHours x ∨ (wearHours m = wearHours x ∧ wearConfidence x.samples < wearConfidence m.samples) then some m
      else b) none

/-- WER_RESULT of the selected monitor or agent (R372). -/
def Ctl.wearWord (c : Ctl) : Nat :=
  let fid := c.die.bget Reg.WER_SEL 17 0
  let mon := c.die.bget Reg.WER_SEL 31 24
  let mine := c.tel.wear.filter fun m => m.fid = fid
  let pick := if mon = 0xFF then worstWear mine else mine.find? fun m => m.monitor = mon
  match pick with
  | some m => wearHours m + wearConfidence m.samples * 2 ^ 32 + m.kind * 2 ^ 40 + m.monitor % 256 * 2 ^ 48
      + m.samples.length * 2 ^ 56
  | none => 0

/-- A Skein port. -/
def Ctl.port (c : Ctl) (p : Nat) : Port :=
  (tget c.ports p).getD { link := 0, lanes := 0, credits := 0, grant := 0, rxSeq := none, txSeq := 0, session := none, waiting := [] }

/-- A queue pair. -/
def Ctl.qp (c : Ctl) (q : Nat) : Qp :=
  (tget c.qps q).getD { enable := false, port := 0, kind := 0, work := [], sent := 0, linkDown := none }

/-- Whether a plaintext REG_REQ is admitted on a port (R455). -/
def Ctl.prelude (c : Ctl) (p : Nat) : Bool := p = 0 && (c.port p).session.isNone && !c.stepDone 4

/-- The SPDM session state of a port: 0 none, 1 handshake, 2 established (R472). -/
def Ctl.portSession (c : Ctl) (p : Nat) : Nat :=
  if (c.port p).session.isSome then 2
  else if c.kst.conns.any fun x => x.port = p && !x.relayed && decide (1 ≤ x.phase) then 1 else 0

/-- A memory channel. -/
def Ctl.chan (c : Ctl) (n : Nat) : Chan :=
  (tget c.memu.chans n).getD { state := 0, fully := false, corrected := 0, lastEvent := none, exhausted := false }

/-- Repair entries of a channel. -/
def Ctl.repairs (c : Ctl) (n : Nat) : List Repair := c.flash.repairs.filter fun r => r.channel = n

/-- A code word's key: channel × 2^40 + its channel-local index. -/
def wordKey (channel index : Nat) : Nat := channel * 2 ^ 40 + index

/-- The controller-memory address of a code word of a usable channel. -/
def Ctl.addrOf (c : Ctl) (key : Nat) : Nat :=
  let u := max 1 c.memu.usable.length
  let i := key % 2 ^ 40
  (i / 32 * u + indexIn c.memu.usable (key / 2 ^ 40)) * 4096 + i % 32 * 128

/-- Lowest address of the congestion history and the address of a slot of a level (R359, R480). -/
def histAddr (level slot : Nat) : Nat := 0x0E50000000 + (944 * level + slot) * 2 ^ 25

/-- Agents of a distribution in one of some states. -/
def Ctl.fdsIn (c : Ctl) (l : List Nat) : Nat := (c.fds.agents.filter fun p => l.contains p.2.state).length

/-- Usable tiles (R215). -/
def Ctl.usableTiles (c : Ctl) : Nat := c.sol.map.length - c.sol.fencedTiles.length

/-- The kinds of task that wait, in the order of R195: a FAILURE task, or a FULL task where more than 64 failures wait (R196);
no ADMISSION, COMPILE or RELEASE task while the backlog holds 4,096 records (R228). -/
def Ctl.waitingTasks (c : Ctl) : List Nat :=
  let full : Bool := c.sol.others.contains 1 || decide (64 < c.sol.failures.length)
  let open_ : Bool := decide (c.adm.backlog.length < 4096)
  (if !c.sol.failures.isEmpty && decide (c.sol.failures.length ≤ 64) then [2] else [])
  ++ (if full then [1] else [])
  ++ (if open_ && !c.adm.releases.isEmpty then [5] else [])
  ++ (if open_ && c.adm.serving && !c.adm.queue.isEmpty then [3] else [])
  ++ (if open_ && c.adm.parts.any (·.phase = 0) then [4] else [])
  ++ (if c.sol.others.contains 6 then [6] else []) ++ (if c.sol.others.contains 7 then [7] else [])

/-- The kind of the task that runs: the first that waits, while the array takes tasks (R215): not in the safe state (R443), not
while it is fenced, nor a task of fenced admission (R440), nor a preempted one before the failure's rows are installed (R196); with
tile_en 0 only the task that was running when it was cleared. 0 for none. -/
def Ctl.taskNow (c : Ctl) : Nat :=
  let held (k : Nat) : Bool := c.sol.preempted = some k && decide (c.die.ns < c.sol.lastInstall)
  let open_ := c.waitingTasks.filter fun k => !(c.die.blockFenced Blk.ADM && [3, 4, 5].contains k) && !held k
  if c.die.safe ∨ c.die.blockFenced Blk.SOL then 0
  else if c.die.fget Fl.SOL_CTL_tile_en = 1 then open_.headD 0
  else match c.sol.finishing with
    | some k => if open_.contains k then k else 0
    | none => 0

/-- The absent unit that a block is: the Sealed Meter, Purl, or the selected Skein port, as the instance its event names; 0xFFFF where
the block is the unit (R3, R524). -/
def Die.absentBlock (d : Die) (blk : Nat) : Option Nat :=
  if !d.part.pelron then (if d.part.noPurl ∧ blk = Blk.PRL then some 0xFFFF else none)
  else if blk = Blk.MTR ∧ !d.part.hasMeter then some 0xFFFF
  else if blk = Blk.SKN ∧ d.part.skeinPorts ≤ d.bget Reg.SKN_PORT_SEL 0 0 then some (d.bget Reg.SKN_PORT_SEL 0 0)
  else none

/-- A number that names a unit beyond those the part has, of those its family has. -/
def beyond (have_ family i : Nat) : Option Nat := if have_ ≤ i ∧ i < family then some i else none

/-- The absent unit a register belongs to (R3, R524), as the instance its event names: a port, tile, lane or channel, 0xFFFF for a
whole block. SKN_PORT_SEL itself selects no port (log entry 33). -/
def Die.absentUnit (d : Die) (key : Nat) : Option Nat :=
  if key = Reg.SKN_PORT_SEL then none
  else if !d.part.pelron then d.absentBlock (key / 0x10000)
  else if key = Reg.SOL_MAP then beyond d.part.tiles 256 (d.bget Reg.SOL_MAP_SEL 7 0)
  else if key = Reg.CTL_MAP ∧ d.bget Reg.CTL_MAP_SEL 3 0 = 0 then beyond d.part.tiles 256 (d.bget Reg.CTL_MAP_SEL 24 16)
  else if key = Reg.FAB_LANE_STATE ∨ key = Reg.FAB_LANE_EYE then beyond d.part.fabLanes 32 (d.bget Reg.FAB_LANE_SEL 4 0)
  else if key = Reg.MEM_CHAN then beyond d.part.memChannels 96 (d.bget Reg.MEM_CHAN_SEL 6 0)
  else d.absentBlock (key / 0x10000)

/-- What a controller register shows of state kept elsewhere. -/
def Ctl.view (c : Ctl) (e : Agt) (path : Path) (key : Nat) : Option Nat :=
  let d := c.die
  let blk := key / 0x10000
  if blk = Blk.MTR ∧ !d.part.hasMeter then some 0
  else match blk with
  | 0 =>
    if key = Reg.CTL_ID then some d.part.id
    else if key = Reg.CTL_DIE_ID then some (c.dieId % 2 ^ 64)
    else if key = Reg.CTL_CAP then some d.part.ctlCap
    else if key = Reg.CTL_CAP2 then some d.part.ctlCap2
    else if key = Reg.CTL_FW then some (d.fw.version % 2 ^ 32 + d.fw.linkLevel % 2 ^ 16 * 2 ^ 32)
    else if key = Reg.CTL_LOCK then some (if d.part.hasMeter then d.getN key else putBits (d.getN key) 4 4 0)
    else if key = Reg.CTL_MAP then
      let i := d.bget Reg.CTL_MAP_SEL 24 16
      match d.bget Reg.CTL_MAP_SEL 3 0 with
      | 0 => some (match c.sol.map[i]? with
        | some p => p + b2n (c.sol.fencedTiles.contains i) * 2 ^ 16 + 2 ^ 17
        | none => 0)
      | 1 => some (match c.memu.usable[i]? with
        | some p => p + b2n ((c.chan p).state = 3) * 2 ^ 16 + 2 ^ 17
        | none => 0)
      | _ => some 0
    else none
  | 2 =>
    let sel := d.bget Reg.KST_MEAS_SEL 2 0
    let m := tget c.kst.meas sel
    if key = Reg.KST_DIE_ID then some (c.dieId % 2 ^ 64)
    else if key = Reg.KST_ROLLBACK then
      some (c.flash.fuses.getD 0 0 % 256 + c.flash.fuses.getD 1 0 % 256 * 2 ^ 8 + c.flash.fuses.getD 2 0 % 256 * 2 ^ 16
        + c.flash.fuses.getD 3 0 % 128 * 2 ^ 24)
    else if Reg.KST_MEAS0 ≤ key ∧ key < Reg.KST_MEAS0 + 64 then
      some ((m.map fun x => fieldAt (digestBytes x.value) (key - Reg.KST_MEAS0) 8).getD 0)
    else if key = Reg.KST_MEAS_SEQ then some ((m.map (·.lastSeq)).getD 0)
    else if key = Reg.KST_KEYS then
      some (c.kst.tenant.length % 2 ^ 14 + c.flash.consumed.length % 2 ^ 21 * 2 ^ 16 + c.flash.operators.length % 32 * 2 ^ 37
        + (c.kst.conns.filter fun x => x.phase = 5).length % 256 * 2 ^ 48)
    else none
  | 3 =>
    if key = Reg.SOL_TILES then
      some (d.part.tiles + c.usableTiles * 2 ^ 16 + c.sol.fencedTiles.length * 2 ^ 32 + c.sol.spares * 2 ^ 48)
    else if key = Reg.SOL_MAP then
      let i := d.bget Reg.SOL_MAP_SEL 7 0
      some (match c.sol.map[i]? with
        | some p => p + b2n (c.sol.fencedTiles.contains i) * 2 ^ 16
        | none => 0)
    else if key = Reg.SOL_STATUS then
      some (if c.taskNow ≠ 0 then 1 + c.taskNow * 4
        else if d.fget Fl.SOL_CTL_tile_en = 0 then 3
        else if c.cst.taking.isEmpty then 0 else 2)
    else if key = Reg.SOL_QUEUE then some (satU 16 c.sol.failures.length
        + satU 16 (c.sol.others.length + c.sol.restored.length + c.adm.releases.length + c.adm.queue.length
            + (c.adm.parts.filter fun p => p.phase = 0).length) * 2 ^ 16)
    else none
  | 4 =>
    if key = Reg.TEL_STATUS then
      some (c.tel.k + c.tel.m * 16 + (match c.tel.change with
        | some (_, _, _, at_) => 2 ^ 8 + at_ % 2 ^ 48 * 2 ^ 16
        | none => 0))
    else if key = Reg.TEL_LAST then some ((c.tel.lastClosed.map (·.1)).getD 0 % 2 ^ 64)
    else if key = Reg.TEL_HIST_ADDR then
      let l := d.bget Reg.TEL_HIST_SEL 1 0
      let s := d.bget Reg.TEL_HIST_SEL 25 16
      some (if (tget c.tel.hist (l * 1024 + s)).isSome then histAddr l s else 0)
    else none
  | 6 =>
    if key = Reg.MTR_SEAL then
      some (c.meter.seals % 256 + (128 - c.meter.seals) * 2 ^ 8 + c.meter.rollback % 256 * 2 ^ 16)
    else if key = Reg.MTR_CFG then some (c.meter.pattern.intervalUs % 2 ^ 32 + c.meter.pattern.periodMs % 2 ^ 32 * 2 ^ 32)
    else if key = Reg.MTR_LAST then some (c.meter.interval % 2 ^ 64)
    else if key = Reg.MTR_KEY_ID0 ∨ key = Reg.MTR_KEY_ID0 + 8 then
      some (fieldAt (digestBytes (Config.shake256 (Config.publicKey 2))) (key - Reg.MTR_KEY_ID0) 8)
    else if key = Reg.MTR_STATUS then
      some (putBits (putBits (d.getN key) 25 25 (b2n c.meter.gap)) 26 26 (b2n (!c.meter.held.isEmpty)))
    else none
  | 11 =>
    let n := d.bget Reg.MEM_CHAN_SEL 6 0
    if key = Reg.MEM_STATUS then
      some (c.memu.usable.length + (c.memu.chans.filter fun p => p.2.state = 3).length * 2 ^ 8 + c.capacity / 2 ^ 20 * 2 ^ 16)
    else if key = Reg.MEM_CHAN then
      if n ≥ d.part.memChannels then some 0
      else
        let ch := c.chan n
        let i := indexIn c.memu.usable n
        some (ch.state + b2n ch.fully * 4 + (if i < c.memu.usable.length then i else 0x7F) * 2 ^ 8
          + (64 - (c.repairs n).length) * 2 ^ 16 + satU 32 ch.corrected * 2 ^ 32)
    else if key = Reg.MEM_SPARES then
      some (satU 12 c.flash.repairs.length + ((c.repairs n).filter (·.fused)).length * 2 ^ 16
        + ((c.repairs n).filter fun r => !r.fused).length * 2 ^ 24)
    else if key = Reg.MEM_MERGE then some (putBits (d.getN key) 8 0 c.memu.merge.length)
    else none
  | 12 =>
    let p := d.bget Reg.SKN_PORT_SEL 0 0
    let q := c.qp (d.bget Reg.SKN_QP_SEL 9 0)
    let pt := c.port p
    if key = Reg.SKN_PORT_STATUS then
      some (if p ≥ d.part.skeinPorts then 0
        else pt.link + c.portSession p * 4 + b2n (c.prelude p) * 16 + pt.lanes * 2 ^ 8 + satU 16 pt.credits * 2 ^ 16)
    else if key = Reg.SKN_QP_CFG then some (b2n q.enable + q.port * 2 + q.kind * 4)
    else if key = Reg.SKN_QP_STATUS then some (q.work.length + q.sent % 2 ^ 32 * 2 ^ 32)
    else if key = Reg.SKN_SESSION then
      some (match pt.session with
        | some i => i % 2 ^ 32 + 2 ^ 32
        | none => 0)
    else none
  | 13 =>
    if key = Reg.MNP_STATUS then some (putBits (d.getN key) 11 8 (c.mortar.filter fun m => m.phase = 2).length) else none
  | 14 =>
    let l := d.bget Reg.FAB_LANE_SEL 4 0
    if key = Reg.FAB_LANE_STATE then some (if l < d.part.fabLanes then e.laneState l else 0)
    else if key = Reg.FAB_LANE_EYE then some (if l < d.part.fabLanes then e.laneEye l else 0)
    else none
  | 15 =>
    if key = Reg.RCV_MIRROR then
      some (putBits (d.getN key) 63 32 (if d.getN key = 0 ∧ c.rcv.mirrorNs = 0 then 0 else satU 32 ((d.up - c.rcv.mirrorNs) / 1000000)))
    else none
  | 16 =>
    let s := d.bget Reg.DMP_SEL 12 0
    if key = Reg.DMP_REC then some (if (tget c.rcv.slots s).isSome then dumpRingBase + s * 2 ^ 22 else 0)
    else if key = Reg.DMP_REC_INFO then
      some (match tget c.rcv.slots s with
        | some (fid, src, trig, seq, _) => fid + src % 4 * 2 ^ 24 + trig % 256 * 2 ^ 32 + seq % 2 ^ 24 * 2 ^ 40
        | none => 0)
    else none
  | 17 =>
    if key = Reg.GAU_REGION then
      let k := d.bget Reg.GAU_SEL 17 0 * 256 + d.bget Reg.GAU_SEL 31 24
      some (match tget c.tel.regions k with
        | some r => r.delay % 2 ^ 32 + r.ratio * 2 ^ 32 + b2n r.exceed * 2 ^ 48
        | none => 0)
    else if key = Reg.GAU_EXCEEDING then some (satU 24 (c.tel.regions.filter fun p => p.2.exceed).length)
    else none
  | 18 =>
    if key = Reg.WER_RESULT then some c.wearWord
    else if key = Reg.WER_FLEET then
      some (match worstWear c.tel.wear with
        | some m => wearHours m + m.fid * 2 ^ 32
        | none => 0)
    else if key = Reg.WER_COUNT then
      some (satU 23 c.tel.wear.length
        + satU 23 (c.tel.wear.filter fun m => wearHours m < d.bget Reg.WER_CFG 31 0).length * 2 ^ 32)
    else none
  | 20 =>
    if key = Reg.FDS_AGENTS then
      some (c.fdsIn [2, 3, 4, 7] + c.fdsIn [3, 4, 7] * 2 ^ 18 + c.fdsIn [4] * 2 ^ 36)
    else if key = Reg.FDS_AGENTS2 then some (c.fdsIn [5] + c.fdsIn [6] * 2 ^ 18 + c.fdsIn [7] * 2 ^ 36)
    else if key = Reg.FDS_COURSE then some (c.fds.course.getD 0 % 2 ^ 64)
    else none
  | 21 =>
    if key = Reg.SHD_COUNT then
      some ((c.shards.filter fun p => p.2.state ≠ 0).length % 2 ^ 23
        + (c.shards.filter fun p => p.2.state = 2 || p.2.state = 3).length % 2 ^ 22 * 2 ^ 24 + d.bget key 63 48 * 2 ^ 48)
    else none
  | 22 =>
    if key = Reg.ADM_PARTS then
      let active := (c.adm.parts.filter fun p => p.phase ≠ 0 && decide (p.activateCourse * (c.geom.map Geom.courseNs).getD 4096 ≤ d.ns)).map (·.tag)
      some (active.eraseDups.length % 2 ^ 12 + satU 7 c.adm.queue.length * 2 ^ 16 + satU 17 c.adm.backlog.length * 2 ^ 32)
    else if key = Reg.ADM_STATUS then
      let st := match c.taskNow with
        | 3 => 1
        | 4 => 2
        | 5 => 3
        | _ => 0
      some (putBits (putBits (putBits (d.getN key) 1 0 st) 15 8 c.adm.queue.length) 16 16 (b2n (!c.adm.backlog.isEmpty)))
    else none
  | _ => d.common path key

/-- What a controller register reads now; `e` is the embedded agent. -/
def Ctl.regNow (c : Ctl) (e : Agt) (path : Path) (key : Nat) : Word :=
  match c.view e path key with
  | some v => BitVec.ofNat 64 v
  | none => c.die.get key

end Sys2Proof.Machine
end

