-- ==== Sys2Proof/Machine/Mem.lean ====
section
/-! DEFINITION. Controller memory (R476 to R492): the map of channels, the symbol-correcting code, the merge buffer, spare
rows, the scrubber. The bytes of memory are what it reads when no symbol error stands; the errors that a code word shows
are kept beside it, and the decoder is run on them: the code is linear, so what a read gives depends on the errors alone. -/

namespace Sys2Proof.Machine

/-! ## The field GF(2^8) of R482 -/

/-- Twice an element. -/
def gfDouble (x : Nat) : Nat := if x ≥ 128 then Nat.xor (2 * x) 0x11D else 2 * x

/-- A product, over the low n bits of y. -/
def gfMulN : Nat → Nat → Nat → Nat
  | 0, _, _ => 0
  | n + 1, x, y => Nat.xor (if y % 2 = 1 then x else 0) (gfMulN n (gfDouble x) (y / 2))

/-- A product. -/
def gfMul (x y : Nat) : Nat := gfMulN 8 x y

/-- A power. -/
def gfPow (x : Nat) : Nat → Nat
  | 0 => 1
  | n + 1 => gfMul x (gfPow x n)

/-- A power of α. -/
def gfAlpha : Nat → Nat
  | 0 => 1
  | n + 1 => gfDouble (gfAlpha n)

/-- The inverse of an element other than 0. -/
def gfInv (x : Nat) : Nat := gfPow x 254

/-! ## Encoding and decoding (R482, R483) -/

/-- One message symbol into the remainder; the divisor's lower coefficients come highest first. -/
def rsStep (gen rem : List Nat) (m : Nat) : List Nat :=
  let f := Nat.xor m (rem.headD 0)
  ((rem.drop 1 ++ [0]).zip gen).map fun (p : Nat × Nat) => Nat.xor p.1 (gfMul f p.2)

/-- Coefficients of (x − α^0) … (x − α^(n−1)), highest power first, its leading 1 included. -/
def rsProduct : Nat → List Nat
  | 0 => [1]
  | n + 1 =>
    let p := rsProduct n
    ((p ++ [0]).zip (0 :: p)).map fun (q : Nat × Nat) => Nat.xor q.1 (gfMul (gfAlpha n) q.2)

/-- The generator's lower coefficients, that of x^7 first. -/
def rsGen : List Nat := (rsProduct 8).drop 1

/-- The check bytes of a 136-symbol message: check byte 0 is the coefficient of x^7. -/
def rsCheck (msg : List Nat) : List Nat :=
  let g := rsGen
  msg.foldl (rsStep g) (List.replicate 8 0)

/-- The address symbols of a code word (R482). -/
def addrSymbols (index channel : Nat) : List Nat := ((le 6 index ++ le 1 channel ++ le 1 0).map (·.toNat))

/-- The syndromes of an error pattern: symbol k of a code word is the coefficient of x^(143 − k). -/
def syndromes (es : List (Nat × Nat)) : List Nat :=
  (List.range 8).map fun j => es.foldl (fun s e => Nat.xor s (gfMul e.2 (gfAlpha (j * (143 - e.1) % 255)))) 0

/-- The discrepancy of a connection polynomial at step n. -/
def discrepancy (syn c : List Nat) (n len : Nat) : Nat :=
  (List.range (len + 1)).foldl (fun s i => if i ≤ n then Nat.xor s (gfMul (c.getD i 0) (syn.getD (n - i) 0)) else s) 0

/-- Sum of polynomials, lowest power first. -/
def gfAdd (a b : List Nat) : List Nat := (List.range (max a.length b.length)).map fun i => Nat.xor (a.getD i 0) (b.getD i 0)

/-- Berlekamp and Massey's search: connection polynomial C and its length, with the last one B, its discrepancy and gap. -/
def massey (syn : List Nat) : Nat → Nat → List Nat → List Nat → Nat → Nat → Nat → List Nat × Nat
  | 0, _, c, _, len, _, _ => (c, len)
  | k + 1, n, c, b, len, m, bd =>
    let d := discrepancy syn c n len
    if d = 0 then massey syn k (n + 1) c b len (m + 1) bd
    else
      let f := gfMul d (gfInv bd)
      let c' := gfAdd c (List.replicate m 0 ++ b.map (gfMul f))
      if 2 * len ≤ n then massey syn k (n + 1) c' c (n + 1 - len) 1 d
      else massey syn k (n + 1) c' b len (m + 1) bd

/-- A polynomial at a point, lowest power first. -/
def gfEval (p : List Nat) (x : Nat) : Nat := p.foldr (fun c v => Nat.xor c (gfMul v x)) 0

/-- The terms of odd power of a polynomial at a point, divided by it: its derivative there. -/
def gfDeriv (p : List Nat) (x : Nat) : Nat :=
  (List.range p.length).foldl (fun s i => if i % 2 = 1 then Nat.xor s (gfMul (p.getD i 0) (gfPow x (i - 1))) else s) 0

/-- What a decode finds. -/
inductive Decode where
  | clean
  /-- the errors located, by symbol, and their values -/
  | corrected (es : List (Nat × Nat))
  | address
  | bad
  deriving DecidableEq, Repr

/-- Decode a code word that shows these errors (R483). -/
def rsDecode (es : List (Nat × Nat)) : Decode :=
  let syn := syndromes es
  if syn.all (· = 0) then .clean
  else
    let (c, len) := massey syn 8 0 [1] [1] 0 1 1
    let roots := (List.range 255).filter fun p => gfEval c (gfAlpha ((255 - p) % 255)) = 0
    if len > 4 ∨ roots.length ≠ len ∨ roots.any (· ≥ 144) then .bad
    else
      let omega := (List.range 8).map fun n =>
        (List.range (n + 1)).foldl (fun s i => Nat.xor s (gfMul (syn.getD i 0) (c.getD (n - i) 0))) 0
      let found := roots.map fun p =>
        let xi := gfAlpha ((255 - p) % 255)
        (143 - p, gfMul (gfAlpha p) (gfMul (gfEval omega xi) (gfInv (gfDeriv c xi))))
      if syndromes found ≠ syn then .bad
      else if found.any (·.1 < 8) then .address
      else .corrected found

/-! ## Where an address lies (R477) -/

/-- The key of the code word that holds a controller-memory address. -/
def Ctl.wordOf (c : Ctl) (a : Nat) : Nat :=
  let u := max 1 c.memu.usable.length
  let g := a / 4096
  wordKey (c.memu.usable.getD (g % u) 0) ((g / u * 4096 + a % 4096) / 128)

/-- The errors that a code word shows. -/
def Ctl.errsOf (c : Ctl) (key : Nat) : List (Nat × Nat) := tgetD c.memu.errors key []

/-- Set the errors of a code word. -/
def Ctl.setErrs (c : Ctl) (key : Nat) (es : List (Nat × Nat)) : Ctl :=
  { c with memu := { c.memu with errors := if es.isEmpty then tdel c.memu.errors key else tset c.memu.errors key es } }

/-- The row of a code word, by the same key form. -/
def rowKey (key : Nat) : Nat := wordKey (key / 2 ^ 40) (Config.rowOfWord (key % 2 ^ 40))

/-- The merge-buffer entry of a code word. -/
def Ctl.entryOf (c : Ctl) (key : Nat) : Option Merge := c.memu.merge.find? fun m => m.addr = c.addrOf key

/-- What a read of a code word gives: its entry's content, or what the decoder finds; a fenced channel gives nothing. -/
def Ctl.decodeAt (c : Ctl) (key : Nat) : Decode :=
  if (c.entryOf key).isSome then .clean
  else if (c.chan (key / 2 ^ 40)).state = 3 then .bad
  else rsDecode (c.errsOf key)

/-- Count a CORRECTED outcome (R483): its event at most once per second and channel. -/
def Ctl.noteCorrected (c : Ctl) (key : Nat) : Ctl :=
  let n := key / 2 ^ 40
  let ch := c.chan n
  let raise_ := mayRaise ch.lastEvent c.die.up 1000000000
  let ch : Chan := { ch with corrected := ch.corrected + 1, lastEvent := if raise_ then some c.die.up else ch.lastEvent }
  let c : Ctl := { c with memu := { c.memu with chans := tset c.memu.chans n ch } }
  let c := c.onDie (·.count Reg.MEM_CNT_CORRECTED)
  if raise_ then c.raise Ev.MEM_CORRECTED n else c

/-- Count an UNCORRECTABLE or ADDRESS_FAULT outcome (R483, R492): each event at most once per hour and code word. -/
def Ctl.noteBad (c : Ctl) (key : Nat) (address : Bool) : Ctl :=
  let n := key / 2 ^ 40
  let raise_ := mayRaise (tget c.memu.lastBad (2 * key + b2n address)) c.die.up 3600000000000
  let c := c.onDie fun d => ((d.count Reg.MEM_CNT_UNCORRECTABLE).setN Reg.MEM_ERR_ADDR (c.addrOf key)).setN Reg.MEM_ERR_INFO
    (n % 128 + b2n address * 2 ^ 8 + key % 2 ^ 40 * 2 ^ 16)
  if raise_ then
    ({ c with memu := { c.memu with lastBad := tset c.memu.lastBad (2 * key + b2n address) c.die.up } } : Ctl).raise
      (if address then Ev.MEM_ADDRESS_FAULT else Ev.MEM_UNCORRECTABLE) n
  else c

/-- Note what a read of a code word found. -/
def Ctl.noteDecode (c : Ctl) (key : Nat) : Decode → Ctl
  | .clean => c
  | .corrected _ => c.noteCorrected key
  | .address => c.noteBad key true
  | .bad => c.noteBad key false

/-- The code words that a range of addresses touches and that can read otherwise than clean, in address order. -/
def Ctl.suspects (c : Ctl) (a n : Nat) : List Nat :=
  let lo := a / 128 * 128
  let fenced := c.memu.usable.any fun p => (c.chan p).state = 3
  if fenced then
    ((List.range (ceilDiv (a + n - lo) 128)).map fun i => c.wordOf (lo + 128 * i)).filter fun k =>
      (c.chan (k / 2 ^ 40)).state = 3 || (tget c.memu.errors k).isSome
  else
    ((c.memu.errors.map (·.1)).filter fun k => lo ≤ c.addrOf k && c.addrOf k < a + n).mergeSort fun x y =>
      c.addrOf x ≤ c.addrOf y

/-- What the bytes read where a decode left some of the errors in place: the located values come off, the rest stay. -/
def residual (es found : List (Nat × Nat)) : List (Nat × Nat) :=
  let at_ (l : List (Nat × Nat)) (k : Nat) := (l.filter (·.1 = k)).foldl (fun s e => Nat.xor s e.2) 0
  ((List.range 128).map fun i => (i, Nat.xor (at_ es (8 + i)) (at_ found (8 + i)))).filter fun p => p.2 ≠ 0

/-- Change some bytes of a byte string by exclusive or. -/
def flipBytes (bs : Bytes) (at_ : Nat → Nat) : Bytes :=
  (List.range bs.length).map fun i => BitVec.ofNat 8 (Nat.xor (bs.getD i 0).toNat (at_ i))

/-- The read of n bytes from an address (R483): the bytes up to the first code word that gives none, and whether there is one. -/
def Ctl.memRead (c : Ctl) (a n : Nat) : Ctl × Bytes × Bool :=
  let go := (c.suspects a n).foldl (fun (st : Ctl × List (Nat × Nat) × Option Nat) k =>
    match st.2.2 with
    | some _ => st
    | none =>
      let d := st.1.decodeAt k
      let c' := st.1.noteDecode k d
      match d with
      | .clean => if (c.entryOf k).isSome then (c', st.2.1, none)
        else (c', st.2.1 ++ (residual (c.errsOf k) []).map (fun p => (c.addrOf k + p.1, p.2)), none)
      | .corrected f => (c', st.2.1 ++ (residual (c.errsOf k) f).map (fun p => (c.addrOf k + p.1, p.2)), none)
      | _ => (c', st.2.1, some (c.addrOf k))) (c, [], none)
  let len := match go.2.2 with
    | some w => w - a
    | none => n
  let bs := mread c.die.mem a len
  (go.1, if go.2.1.isEmpty then bs else flipBytes bs fun i => ((go.2.1.find? fun p => p.1 = a + i).map (·.2)).getD 0,
    go.2.2.isSome)

/-! ## Writes (R484) -/

/-- Status of a memory write: 0 OK, 1 UNCORRECTABLE, 2 FENCED. -/
def Ctl.touchHigh (c : Ctl) : Ctl :=
  c.onDie fun d => d.bset Reg.MEM_MERGE 24 16 (max (d.bget Reg.MEM_MERGE 24 16) c.memu.merge.length)

/-- A whole code word is encoded and written: the errors it showed are gone, and the row of one that had read UNCORRECTABLE
may be spared (R486). -/
def Ctl.wordWritten (c : Ctl) (key : Nat) : Ctl :=
  let wasBad := ((tget c.memu.lastBad (2 * key)).isSome || (tget c.memu.lastBad (2 * key + 1)).isSome) && (match rsDecode (c.errsOf key) with
    | .bad | .address => true
    | _ => false)
  let c := c.setErrs key []
  if wasBad && !c.memu.rowsBad.contains (rowKey key) then
    { c with memu := { c.memu with rowsBad := c.memu.rowsBad ++ [rowKey key] } }
  else c

/-- The write-back of an entry. -/
def Ctl.writeback (c : Ctl) (addr : Nat) : Ctl :=
  if c.memu.merge.any (·.addr = addr) then
    let c : Ctl := { c with memu := { c.memu with merge := c.memu.merge.filter (·.addr ≠ addr) } }
    if (c.chan (c.wordOf addr / 2 ^ 40)).state = 3 then c else c.wordWritten (c.wordOf addr)
  else c

/-- Write within one code word: directly when whole, into its entry, or as a narrow write. -/
def Ctl.writeWord (c : Ctl) (a : Nat) (data : Bytes) : Ctl × Nat :=
  let base := a / 128 * 128
  let key := c.wordOf a
  let put (c : Ctl) : Ctl := c.onDie fun d => { d with mem := mwrite d.mem a data }
  if (c.chan (key / 2 ^ 40)).state = 3 then (c.noteBad key false, 2)
  else if c.memu.merge.any (·.addr = base) then
    let c := put c
    ({ c with memu := { c.memu with merge := c.memu.merge.map fun m => if m.addr = base then { m with data := mread c.die.mem base 128 } else m } }, 0)
  else if data.length = 128 then ((put c).wordWritten key, 0)
  else
    let c := if c.memu.merge.length < 256 then c
      else match c.memu.merge with
        | m :: _ => (c.onDie (·.count Reg.MEM_CNT_MERGE_WAIT)).writeback m.addr
        | [] => c
    let (c, old, bad) := c.memRead base 128
    if bad then (c, 1)
    else
      let c := c.onDie fun d => { d with mem := mwrite d.mem base old }
      let c := put c
      let m : Merge := { addr := base, data := mread c.die.mem base 128, startNs := c.die.up }
      (({ c with memu := { c.memu with merge := c.memu.merge ++ [m] } } : Ctl).touchHigh, 0)

/-- The pieces of a write, one to a code word: address and bytes. -/
def wordPieces : Nat → Nat → Bytes → List (Nat × Bytes)
  | 0, _, _ => []
  | n + 1, a, bs =>
    if bs.isEmpty then []
    else
      let k := 128 - a % 128
      (a, bs.take k) :: wordPieces n (a + k) (bs.drop k)

/-- A write of bytes at an address; the status is that of the first code word that did not take it. -/
def Ctl.memWrite (c : Ctl) (a : Nat) (bs : Bytes) : Ctl × Nat :=
  (wordPieces (bs.length / 128 + 2) a bs).foldl (fun (st : Ctl × Nat) p =>
    let (c, r) := st.1.writeWord p.1 p.2
    (c, if st.2 = 0 then r else st.2)) (c, 0)

/-! ## Scrubbing and sparing (R486, R487) -/

/-- Code words of a channel. -/
def Ctl.channelWords (c : Ctl) : Nat := c.die.part.chanBytes / 128

/-- Write a code word back as the decoder corrected it (R486, R487): the errors it showed are gone, and so is what it read like. -/
def Ctl.correctWord (c : Ctl) (key : Nat) (found : List (Nat × Nat)) : Ctl :=
  let left := residual (c.errsOf key) found
  let c := if left.isEmpty then c
    else c.onDie fun d => { d with mem := mwrite d.mem (c.addrOf key) (flipBytes (mread d.mem (c.addrOf key) 128) fun i =>
      ((left.find? fun p => p.1 = i).map (·.2)).getD 0) }
  c.setErrs key []

/-- When the read of a position is due (R487): the reads of a pass are spread evenly over its period. -/
def Ctl.scrubDue (c : Ctl) (pos total : Nat) : Nat :=
  c.memu.passNs + 3600000000000 * c.die.fget Fl.MEM_CFG_scrub_hours * pos / max 1 total

/-- The scrubber's next read, when it is due: channel after channel, in channel-local order, none of a channel fenced since (log entry
15). `errs` are symbol errors that the stored word has taken. At the end of a pass the rows it found over the limit stay due (R486). -/
def Ctl.scrub (c : Ctl) (errs : List (Nat × Nat)) : Ctl :=
  let total := c.memu.usable.length * c.channelWords
  if total = 0 ∨ c.die.blockFenced Blk.MEM ∨ c.die.up < c.scrubDue (c.die.bget Reg.MEM_SCRUB 47 0 % total) total then c
  else
    let pos := c.die.bget Reg.MEM_SCRUB 47 0 % total
    let key := wordKey (c.memu.usable.getD (pos / c.channelWords) 0) (pos % c.channelWords)
    let c := if errs.isEmpty then c else c.setErrs key (c.errsOf key ++ errs.filter fun e => e.1 < 144 ∧ e.2 % 256 ≠ 0)
    let c := if (c.entryOf key).isSome ∨ (c.chan (key / 2 ^ 40)).state = 3 then c
      else
        let d := c.decodeAt key
        let c := c.noteDecode key d
        match d with
        | .corrected f =>
          let hits := tgetD c.memu.rowHits (rowKey key) 0 + 1
          let c : Ctl := { c with memu := { c.memu with rowHits := tset c.memu.rowHits (rowKey key) hits } }
          (c.correctWord key f).onDie (·.count Reg.MEM_CNT_SCRUB_WB)
        | _ => c
    if pos + 1 < total then c.onDie (·.bset Reg.MEM_SCRUB 47 0 (pos + 1))
    else
      let due := ((c.memu.rowHits.filter fun p => p.2 > c.die.fget Fl.MEM_CFG_row_limit).map (·.1)).filter fun k => !c.memu.rowsBad.contains k
      let c : Ctl := { c with memu := { c.memu with rowHits := [], rowsBad := c.memu.rowsBad ++ due, passNs := c.scrubDue total total } }
      c.onDie fun d => (d.bset Reg.MEM_SCRUB 47 0 0).bsat Reg.MEM_SCRUB 63 48 1

/-- The lowest spare row of a channel that no repair entry uses. -/
def Ctl.freeSpare (c : Ctl) (channel : Nat) : Option Nat :=
  (List.range 64).find? fun r => !((c.repairs channel).any fun x => x.spare = r)

/-- ROW_SPARE (R486): the row is copied word by word, corrected as it goes, unless a word of it cannot be. -/
def Ctl.spareRow (c : Ctl) (channel row : Nat) : Ctl :=
  let key := wordKey channel row
  let due := tgetD c.memu.rowHits key 0 > c.die.fget Fl.MEM_CFG_row_limit || c.memu.rowsBad.contains key
  if c.die.fget Fl.MEM_CFG_spare_en = 0 ∨ !due ∨ !c.memu.usable.contains channel ∨ (c.chan channel).state = 3 then c
  else
    match c.freeSpare channel, decide (c.flash.repairs.length < 4096) with
    | some spare, true =>
      let words := (c.memu.errors.map (·.1)).filter fun k => rowKey k = key
      let found := words.map fun k => (k, c.decodeAt k)
      let c := found.foldl (fun c p => c.noteDecode p.1 p.2) c
      if found.any fun p => p.2 = .bad || p.2 = .address then c
      else
        let c := found.foldl (fun c p => match p.2 with
          | .corrected f => c.correctWord p.1 f
          | _ => if (c.entryOf p.1).isSome then c else c.correctWord p.1 []) c
        let c : Ctl := { c with flash := { c.flash with repairs := c.flash.repairs ++ [{ channel := channel, row := row, spare := spare, fused := false }] },
                                memu := { c.memu with rowHits := tdel c.memu.rowHits key, rowsBad := c.memu.rowsBad.filter (· ≠ key) } }
        (c.onDie (·.count Reg.MEM_CNT_SPARED)).raise Ev.MEM_ROW_SPARED channel
    | _, _ =>
      let ch := c.chan channel
      if ch.exhausted then c
      else
        ({ c with memu := { c.memu with chans := tset c.memu.chans channel { ch with exhausted := true } } } : Ctl).raise
          Ev.MEM_SPARES_EXHAUSTED channel

/-- A channel is fenced in service (R440, R441, R480): its place in the map stays; the circulating event area lies over every
channel, so its records go to the fall-back (R447); when no channel is left the part enters its safe state. -/
def Ctl.fenceChannel (c : Ctl) (n : Nat) : Ctl :=
  if (c.chan n).state = 3 ∨ n ≥ c.die.part.memChannels then c
  else
    let c : Ctl := { c with memu := { c.memu with chans := tset c.memu.chans n { c.chan n with state := 3 } } }
    let used := c.memu.usable.contains n
    let c := if used then c.onDie (·.fset Fl.EVR_STATUS_mode 1) else c
    let all := !c.memu.usable.isEmpty && c.memu.usable.all fun p => (c.chan p).state = 3
    c.onDie fun d => d.raiseCode (d.part.codeOf Ev.MEM_CHANNEL_FENCED) n (if all then 4 else 2) true

end Sys2Proof.Machine
end

