-- ==== Sys2Proof/Machine/Dump.lean ====
section
/-! DEFINITION. Dumps (R334 to R340): what an agent and the controller read, and the record that comes of it. -/

namespace Sys2Proof.Machine

/-- The n lowest bytes of v, most significant first. -/
def be (n v : Nat) : Bytes := (le n v).reverse

/-- The GCM nonce of a dump's sample entry (R337). -/
def dumpNonce (fid entry startNs : Nat) : Bytes := be 12 (fid % 2 ^ 18 * 2 ^ 78 + entry % 2 ^ 6 * 2 ^ 72 + startNs % 2 ^ 64 * 2 ^ 8)

/-- The first n bytes of an agent's register window: defined registers at their offsets, zero elsewhere (R334). -/
def Agt.window (a : Agt) (blk n : Nat) : Bytes :=
  (List.range (n / 8)).flatMap fun i =>
    let key := blk * 0x10000 + 8 * i
    if (a.die.part.row key).isSome then le 8 (a.regNow .jtag key).toNat else List.replicate 8 0

/-- The first 16 KiB of a controller register window, from byte `off` on, 4,096 bytes (R340). -/
def Ctl.window (c : Ctl) (e : Agt) (blk off : Nat) : Bytes :=
  (List.range 512).flatMap fun i =>
    let key := blk * 0x10000 + off + 8 * i
    if (c.die.part.row key).isSome then le 8 (c.regNow e .jtag key).toNat else List.replicate 8 0

/-- How long a block read is waited for, ns (R335). -/
def blockWaitNs : Nat := 2000

/-- The two-bit reason of a block (R336). -/
def blockReason : BlockResult → Nat
  | .valid _ => 0 | .noAnswer => 1 | .hostRefused => 2 | .notRead => 3

/-- What a block holds: what was read, or zeros. -/
def blockData : BlockResult → Bytes
  | .valid d => slice d 0 4096
  | _ => List.replicate 4096 0

/-- Whether a block counts as invalid in WCH_LAST_DUMP and the counters: not answered or refused (R350). -/
def blockInvalid (r : BlockResult) : Bool := blockReason r = 1 || blockReason r = 2

/-- The result found for a data block, if the dump has one. -/
def Dump.result (d : Dump) (i : Nat) : Option BlockResult := (d.blocks.find? fun b => b.num = i).map (·.result)

/-- Record a result for a block unless it has one: a wait has one outcome (R343). -/
def Dump.put (d : Dump) (i : Nat) (r : BlockResult) : Dump :=
  if (d.result i).isSome then d else { d with blocks := d.blocks ++ [{ num := i, result := r }] }

/-- The 4,096-byte header block (R336), tags zero. -/
def dumpHeader (source trigger level status count fid seq startNs endNs part slot samples digest keyId : Nat)
    (rs : List BlockResult) : Bytes :=
  let validity := packBits (rs.map fun r => blockReason r = 0)
  let reason := rs.foldr (fun r v => blockReason r + 4 * v) 0
  le 4 0x504D5544 ++ le 2 0x0100 ++ le 1 source ++ le 1 trigger ++ le 1 level
  ++ le 1 status ++ le 2 count ++ le 4 fid ++ le 8 seq ++ le 8 startNs ++ le 8 endNs ++ le 2 part ++ le 1 slot ++ le 1 samples
  ++ le 4 0 ++ le 16 digest ++ le 16 keyId ++ List.replicate 48 0 ++ le 256 validity ++ le 512 reason
  ++ List.replicate 3200 0

/-! ## The agent's dump -/

/-- The blocks a sample entry takes (R334). -/
def Sample.blocks (s : Sample) : Nat := ceilDiv s.length 4096

/-- Data blocks of a dump with these samples. -/
def dumpBlocks (ss : List Sample) : Nat := 17 + sumL (ss.map Sample.blocks)

/-- Sample blocks in order with the address each is read from: block 17 is the first. -/
def sampleReads (ss : List Sample) : List (Nat × Nat) :=
  let addrs := ss.flatMap fun s => (List.range (Sample.blocks s)).map fun k => s.offset + 4096 * k
  (List.range addrs.length).map fun i => (17 + i, addrs.getD i 0)

/-- Bytes of the dump-staging share (R83). -/
def Agt.dumpShare (a : Agt) : Nat := (a.die.resource.shares.getD 1 (0, 0)).2 * 4096

/-- The dump key slot of the endpoint's partition; none without one (R219, R337). -/
def Agt.dumpSlot (a : Agt) : Option Nat :=
  match a.tenant with
  | some (_, p) => if p.dumpSlot < 256 ∧ ((a.keySlot p.dumpSlot).map (·.use)) = some 1 then some p.dumpSlot else none
  | none => none

/-- Issue the next sample block's two MEM_READs (R278, R334). -/
def Agt.issueSample (a : Agt) : Agt :=
  match a.rcv.dump with
  | none => a
  | some d =>
    match d.reads, d.todo with
    | [], (blk, addr) :: rest =>
      let t := a.rcv.readTag
      let d := { d with todo := rest, reads := [(t, blk, 0), (t + 1, blk, 1)], issuedNs := a.die.up }
      let a := { a with rcv := { a.rcv with dump := some d, readTag := (t + 2) % 2 ^ 32 } }
      (a.msg 0x8A 0 t (le 8 addr ++ le 4 2048)).msg 0x8A 0 (t + 1) (le 8 (addr + 2048) ++ le 4 2048)
    | _, _ => a

/-- Start a dump (R334, R337, R338): `trigger` as R336 codes it. A dump whose record does not fit the free part of the share
is not taken. -/
def Agt.startDump (a : Agt) (trigger level : Nat) : Agt :=
  let ss := a.rcv.samples
  let total := dumpBlocks ss
  let shareBlocks := a.dumpShare / 4096 - 1
  let size := 4096 * (1 + min total shareBlocks)
  if a.rcv.dump.isSome ∨ a.rcv.held + size > a.dumpShare then
    let a := if a.rcv.held + size > a.dumpShare then a.count Reg.BLK_CNT_FULL else a
    (a.count Reg.WCH_CNT_DUMP_SKIPPED).raise Ev.DUMP_SKIPPED
  else
    let noKey := !ss.isEmpty && a.dumpSlot.isNone
    let reads := sampleReads ss
    let keep := if noKey then [] else reads.filter fun r => r.1 < shareBlocks
    let skipped := (reads.filter fun r => noKey || decide (shareBlocks ≤ r.1)).map (·.1)
    let d : Dump := { trigger := trigger, level := level, startNs := a.die.ns,
                      blocks := { num := 16, result := .notRead } :: skipped.map fun i => { num := i, result := .notRead },
                      todo := keep, reads := [], begunNs := a.die.up, issuedNs := a.die.up, halves := [], shareFull := decide (shareBlocks < total), noKey := noKey }
    let a : Agt := { a with rcv := { a.rcv with dump := some d, nextSeq := a.rcv.nextSeq + 1, lastTaken := a.rcv.nextSeq + 1 } }
    let a : Agt := if a.die.fget Fl.EVR_STATUS_mode = 0 then a.onDie (fun x => x.fset Fl.EVR_STATUS_mode 2) else a
    a.issueSample

/-- The worms that stream a record or its missing chunks to the controller (R339, R499): chunks whose bit is clear. -/
def Agt.sendChunks (a : Agt) (seq : Nat) (bytes : Bytes) (have_ : Nat) (repair : Bool) : Agt :=
  let count := ceilDiv bytes.length 2048
  (List.range count).foldl (fun a i =>
    if bitOf have_ i then a
    else
      let chunk := (bytes.drop (2048 * i)).take 2048
      let flags := (if i + 1 = count then 2 else 0) + (if repair then 4 else 0)
      let op := le 4 seq ++ le 2 i ++ le 2 count ++ le 4 (crc32c chunk) ++ le 4 bytes.length ++ le 1 flags ++ le 1 0x10
      a.onDie (·.sendFwd { dst := a.die.controllerFid, op := 0x87, mcast := 0, root := 0, bond := 0xFF, operand := op,
                           payload := chunk, block := a.die.part.blockIndex Blk.WCH, privilege := 1 })) a

/-- The status byte of a record (R336). -/
def dumpStatus (rs : List BlockResult) (shareFull noKey : Bool) : Nat :=
  b2n (rs.any fun r => blockReason r = 1) + b2n (rs.any fun r => blockReason r = 2) * 2 + b2n shareFull * 4 + b2n noKey * 8

/-- Sample entries' cipher blocks and tags (R337): entries in row order over their blocks' data. -/
def sealSamples (key : Bytes) (fid startNs : Nat) (aad : Bytes) : List Sample → Nat → List Bytes → List (Bytes × Bytes)
  | [], _, _ => []
  | s :: ss, e, bs =>
    let n := Sample.blocks s
    Config.gcmSeal key (dumpNonce fid e startNs) aad ((bs.take n).flatMap id) :: sealSamples key fid startNs aad ss (e + 1) (bs.drop n)

/-- End the dump: blocks still open are settled (register blocks are read, sample blocks are NO_ANSWER), the record is kept in
the share and streamed to the controller (R335 to R339). -/
def Agt.endDump (a : Agt) : Agt :=
  match a.rcv.dump with
  | none => a
  | some d =>
    let ss := a.rcv.samples
    let rs := (List.range (dumpBlocks ss)).map fun i =>
      match d.result i with
      | some r => r
      | none => if i < 16 then .valid (a.window (a.die.part.blocks.getD i 0) 4096) else .noAnswer
    let part := (a.tenant.map (·.1)).getD 0
    let slot := a.dumpSlot
    let ks := slot.bind a.keySlot
    let status := dumpStatus rs d.shareFull d.noKey
    let hdr := dumpHeader 0 d.trigger d.level status rs.length a.fid a.rcv.nextSeq d.startNs a.die.ns part (slot.getD 0xFF)
      ss.length (leNat (((List.range 2).flatMap fun i => le 8 (a.die.getN (Reg.PAT_ACTIVE_DIGEST0 + 8 * i)))))
      ((ks.map (·.keyId)).getD 0) rs
    let plain := rs.map blockData
    let sealed := sealSamples ((ks.map (·.key)).getD []) a.fid d.startNs (hdr.take 128) ss 0 (plain.drop 17)
    let tags := sealed.flatMap fun p => slice p.2 0 16
    let hdr := hdr.take 896 ++ slice tags 0 1024 ++ hdr.drop 1920
    let body := (plain.take 17).flatMap id ++ (if d.noKey then (plain.drop 17).flatMap id else sealed.flatMap fun p => p.1)
    let bytes := (hdr ++ body).take a.dumpShare
    let bad := (rs.filter blockInvalid).length
    let a : Agt := { a with rcv := { a.rcv with dump := none, records := a.rcv.records ++ [{ sequence := a.rcv.nextSeq, bytes := bytes }] } }
    let a := a.onDie fun x => x.setN Reg.WCH_LAST_DUMP (a.rcv.nextSeq % 2 ^ 32 + status * 2 ^ 32 + satU 16 bad * 2 ^ 40)
    let a := (a.count Reg.WCH_CNT_DUMPS).onDie (·.countN Reg.WCH_CNT_BLOCK_INVALID bad)
    a.sendChunks a.rcv.nextSeq bytes 0 false

/-- Whether a record is of a collector self-fault, which stays in the fall-back (R443). -/
def Die.selfFault (d : Die) (r : Record) : Bool := r.code = d.part.codeOf Ev.FLC_SELF_FAULT

/-- Copy the fall-back into the circulating area in sequence order and empty it (R447, R448), but for the records of R443, which are in
the fall-back only. -/
def Die.drainFallback (d : Die) : Die :=
  let l := d.evr.fallback
  let kept := l.filter d.selfFault
  let d := (l.filter fun r => !(d.selfFault r)).foldl (fun d r => d.toCirc r) { d with evr := { d.evr with fallback := kept } }
  d.fset Fl.EVR_STATUS_fallback_used kept.length

/-- After the last unacknowledged record is gone the circulating area is no longer frozen (R448). -/
def Agt.thaw (a : Agt) : Agt :=
  if a.die.fget Fl.EVR_STATUS_mode = 2 ∧ a.rcv.dump.isNone ∧ a.rcv.records.isEmpty then
    a.onDie fun d => (d.fset Fl.EVR_STATUS_mode 0).drainFallback
  else a

/-! ## The controller's dump (R340) -/

/-- Begin a controller dump with a trigger, unless one is in progress. -/
def Ctl.beginDump (c : Ctl) (trigger : Nat) : Ctl :=
  if c.rcv.dump.isSome then c
  else
    let d : Dump := { trigger := trigger, level := 0, startNs := c.die.ns, blocks := [], todo := [], reads := [], begunNs := c.die.up, issuedNs := c.die.up, halves := [],
                      shareFull := false, noKey := false }
    { c with rcv := { c.rcv with dump := some d, nextSeq := c.rcv.nextSeq + 1 }, die := c.die.bset Reg.DMP_STATUS 1 0 1 }

/-- Start a controller dump where the dump engine is not fenced. -/
def Ctl.startDump (c : Ctl) (trigger : Nat) : Ctl := if c.die.blockFenced Blk.DMP then c else c.beginDump trigger

/-- A slot of the dump ring takes a record (R339): the oldest slot is overwritten first. -/
def Ctl.storeDump (c : Ctl) (fid source trigger seq : Nat) (bytes : Bytes) : Ctl :=
  let slot := c.die.bget Reg.DMP_RING 12 0
  let stored := c.die.bget Reg.DMP_RING 63 32
  let c := (c.memWrite (dumpRingBase + slot * 2 ^ 22) bytes).1
  let d := (c.die.setN Reg.DMP_RING ((slot + 1) % 8192 + (stored + 1) % 2 ^ 32 * 2 ^ 32)).count Reg.DMP_CNT_RECORDS
  { c with die := d, rcv := { c.rcv with slots := tset c.rcv.slots slot (fid, source, trigger, seq, bytes.length) } }

/-- The state of a management core as the dump engine reads it: a free value (log entry 3). -/
def Die.coreStates : Nat → Die → List Bytes × Die
  | 0, d => ([], d)
  | n + 1, d =>
    let (b, d) := Die.freeBytes 512 d
    let (bs, d) := Die.coreStates n d
    (b :: bs, d)

/-- A block read that FLC_INJECT has made time out: the first block without a result (R340, R444). -/
def Ctl.dumpForced (c : Ctl) (d : Dump) : Ctl × Dump :=
  match (List.range 108).find? fun i => (d.result i).isNone with
  | none => (c, d)
  | some i =>
    let (forced, die) := c.die.takeWait Blk.DMP
    if forced then ({ c with die := die.count Reg.DMP_CNT_LATE_ARRIVAL }, d.put i .noAnswer) else ({ c with die := die }, d)

/-- DUMP_BLOCK_TIMEOUT at the controller (R340): whether the block's data arrives afterwards, to be discarded and counted, is open. -/
def Ctl.dumpTimeout (c : Ctl) (block : Nat) : Ctl :=
  match c.rcv.dump with
  | none => c
  | some d =>
    if (d.result block).isSome ∨ 108 ≤ block ∨ c.die.up < d.begunNs + blockWaitNs then c
    else
      let (v, die) := c.die.freeVal
      { c with die := die.countN Reg.DMP_CNT_LATE_ARRIVAL (v.toNat % 2), rcv := { c.rcv with dump := some (d.put block .noAnswer) } }

/-- End the controller's dump and store it; one for a commanded reset goes to the dump slot in module flash instead (R340). -/
def Ctl.endDump (c : Ctl) (e : Agt) : Ctl :=
  match c.rcv.dump with
  | none => c
  | some d =>
    let (c, d) := c.dumpForced d
    let (cores, die) := Die.coreStates 16 c.die
    let c := { c with die := die }
    let rs := (List.range 108).map fun i =>
      match d.result i with
      | some r => r
      | none => .valid (if i < 92 then c.window e (i / 4) (4096 * (i % 4)) else cores.getD (i - 92) [])
    let status := dumpStatus rs false false
    let bad := (rs.filter blockInvalid).length
    let hdr := dumpHeader 1 d.trigger 0 status 108 c.die.fid c.rcv.nextSeq d.startNs c.die.ns 0 0xFF 0
      (leNat ((List.range 2).flatMap fun i => le 8 (c.die.getN (Reg.PAT_ACTIVE_DIGEST0 + 8 * i)))) 0 rs
    let bytes := hdr ++ (rs.map blockData).flatMap id
    let c := { c with rcv := { c.rcv with dump := none },
                      die := (c.die.setN Reg.DMP_STATUS (status * 2 ^ 8 + satU 16 bad * 2 ^ 16)).countN Reg.DMP_CNT_BLOCK_INVALID bad }
    if d.trigger = 5 then { c with flash := { c.flash with dumpSlot := bytes } }
    else c.storeDump c.die.fid 1 d.trigger c.rcv.nextSeq bytes

end Sys2Proof.Machine
end

