-- ==== Sys2Proof/Machine/Selud.lean ====
section
/-! DEFINITION. Selud files (R74 to R79): the header, the rows, the entries of each row type, and the checks of R96 that a
loader makes before a Pattern is staged. -/

namespace Sys2Proof.Machine

/-! ## The file -/

/-- Cut a byte string into k pieces of n bytes. -/
def chunksOf (n : Nat) : Nat → Bytes → List Bytes
  | 0, _ => []
  | k + 1, bs => bs.take n :: chunksOf n k (bs.drop n)

/-- The header of a file's first 256 bytes (R74); the magic is stored most significant byte first. -/
def parseHeader (b : Bytes) : Header :=
  { magic := leNat (b.take 4).reverse, version := fieldAt b 4 2, kind := byteAt b 6, authKind := byteAt b 7,
    scopeKind := byteAt b 8, scopeValue := fieldAt b 12 4, epoch := fieldAt b 16 8, sequence := fieldAt b 24 8,
    length := fieldAt b 32 8, rowCount := fieldAt b 40 4, authLength := fieldAt b 44 4, rowsDigest := slice b 48 64,
    signerKey := fieldAt b 112 16, fwMin := fieldAt b 128 4, fwMax := fieldAt b 132 4, baseDigest := slice b 136 64,
    reservedZero := fieldAt b 9 3 = 0 && fieldAt b 200 56 = 0 }

/-- One row and what follows it; none while its bytes are not all there (R77). -/
def parseRow (b : Bytes) : Option (Row × Bytes) :=
  let len := fieldAt b 8 4
  if b.length < 20 + len then none
  else
    let tgt := fieldAt b 2 3
    some ({ rtype := byteAt b 0, flags := byteAt b 1, reserved := fieldAt b 5 3, targetKind := bitsOf tgt 23 18, target := bitsOf tgt 17 0,
            seq := fieldAt b 12 4, payload := (b.drop 16).take len, crc := fieldAt b (16 + len) 4 }, b.drop (20 + len))

/-- The whole rows of a byte string, and what is left. -/
def parseRows : Nat → Bytes → List Row × Bytes
  | 0, b => ([], b)
  | n + 1, b =>
    match parseRow b with
    | none => ([], b)
    | some (r, rest) =>
      let (rs, left) := parseRows n rest
      (r :: rs, left)

/-- A row as bytes (R77). -/
def rowBytes (rtype targetKind target seq : Nat) (payload : Bytes) : Bytes :=
  le 1 rtype ++ le 1 0 ++ le 3 (target + targetKind * 2 ^ 18) ++ le 3 0 ++ le 4 payload.length ++ le 4 seq ++ payload
  ++ le 4 (crc32c payload)

/-- Row types (R79). -/
def Rt.IDENT : Nat := 0x01
def Rt.BOND : Nat := 0x02
def Rt.LANEMAP : Nat := 0x03
def Rt.PARTITION : Nat := 0x04
def Rt.TABLE : Nat := 0x05
def Rt.TABLE_DELTA : Nat := 0x06
def Rt.COURSE : Nat := 0x07
def Rt.PURL : Nat := 0x08
def Rt.RESOURCE : Nat := 0x09
def Rt.GAUGE : Nat := 0x0A
def Rt.TRAIN : Nat := 0x0B
def Rt.METER : Nat := 0x0C
def Rt.KEYREF : Nat := 0x0D
def Rt.WATCH : Nat := 0x0E
def Rt.EVR : Nat := 0x0F
def Rt.MBXBIND : Nat := 0x10
def Rt.EPOCH : Nat := 0x11
def Rt.END : Nat := 0x7F

/-- Fixed part and entry size of a row type (R79 to R84); the entry size of TABLE rows is in the row. -/
def rowShape (r : Row) (base : Bool) : Nat × Nat :=
  match r.rtype with
  | 0x01 => (if base && r.targetKind = 0 then 272 else 16, 0)
  | 0x02 => (0, 32) | 0x03 => (0, 4) | 0x04 => (0, 32)
  | 0x05 => (16, fieldAt r.payload 12 2)
  | 0x06 => (8, 4 + fieldAt r.payload 2 2)
  | 0x07 => (16, 16) | 0x08 => (0, 48) | 0x09 => (48, 0) | 0x0A => (0, 296) | 0x0B => (0, 32) | 0x0C => (0, 24)
  | 0x0D => (0, 24) | 0x0E => (0, 24) | 0x0F => (0, 8) | 0x10 => (0, 8) | 0x11 => (16, 0)
  | _ => (0, 0)

/-- The entries of a row, each as its bytes. -/
def rowEntries (r : Row) : List Bytes :=
  let (fix, size) := rowShape r false
  if size = 0 then [] else chunksOf size ((r.payload.length - fix) / size) (r.payload.drop fix)

/-- Whether the payload is the fixed part and the declared whole entries (R96 step 6). -/
def rowLengthOk (r : Row) (base : Bool) : Bool :=
  let (fix, size) := rowShape r base
  let n := r.payload.length
  if n < fix then false
  else if size = 0 then n = fix
  else
    let k := (n - fix) / size
    decide (n = fix + k * size)
    && (match r.rtype with
        | 0x05 => decide (k = fieldAt r.payload 8 4 ∧ size ≠ 0)
        | 0x06 => decide (k = fieldAt r.payload 4 4)
        | 0x07 => decide (k = fieldAt r.payload 8 4)
        | _ => true)

/-! ## Entries -/

/-- An IDENT row's agent form. -/
structure Ident where
  fid : Nat
  hop : Nat
  rack : Nat
  slot : Nat
  mode : Nat
  fabricId : Nat
  deriving DecidableEq, Repr

def identOf (p : Bytes) : Ident :=
  let f := fieldAt p 0 4
  { fid := bitsOf f 17 0, hop := bitsOf f 29 24, rack := fieldAt p 4 2, slot := byteAt p 6, mode := byteAt p 7, fabricId := fieldAt p 8 8 }

/-- A BOND entry: the bond number and the bond as it is before any lane is up. -/
def bondOf (e : Bytes) : Nat × Nat × Nat × Nat × List Nat :=
  (byteAt e 0, byteAt e 1, byteAt e 2, fieldAt e 4 4, bitList (fieldAt e 8 22) 176)

def partOf (e : Bytes) : Nat × PartEnt :=
  (fieldAt e 0 2, { flags := fieldAt e 2 2, trafficSlot := byteAt e 4, dumpSlot := byteAt e 5, cgBase := fieldAt e 8 4,
                    cgCount := fieldAt e 12 4, routeSeed := fieldAt e 16 8, iset := fieldAt e 24 4 })

def courseOf (e : Bytes) : CourseEnt :=
  { course := fieldAt e 0 4, slot := fieldAt e 4 2, outBond := byteAt e 6, action := byteAt e 7, collective := fieldAt e 8 4,
    partition := fieldAt e 12 2, inBond := byteAt e 14 }

def purlOf (e : Bytes) : PurlEnt :=
  { collective := fieldAt e 0 4, partition := fieldAt e 4 2, op := byteAt e 6, inFmt := byteAt e 7, outFmt := byteAt e 8,
    rounding := byteAt e 9, overflow := byteAt e 10, divisor := fieldAt e 12 4, seed := fieldAt e 16 8, elements := fieldAt e 24 4,
    fanIn := fieldAt e 28 4, laneBase := fieldAt e 32 2, laneCount := fieldAt e 34 2, storeOffset := fieldAt e 36 4,
    storeBytes := fieldAt e 40 4 }

def gaugeOf (e : Bytes) : Nat × GaugeEnt :=
  (fieldAt e 0 2,
    { droop := fieldAt e 2 2, volts := (List.range 8).map fun i => fieldAt e (4 + 2 * i) 2,
      temps := (List.range 8).map fun i => ofTwos 16 (fieldAt e (20 + 2 * i) 2),
      delays := (List.range 64).map fun i => fieldAt e (40 + 4 * i) 4 })

def trainOf (e : Bytes) : TrainEnt :=
  { lane := byteAt e 0, reach := byteAt e 1, preset := byteAt e 2, flags := byteAt e 3, settings := slice e 4 20,
    eyeHeight := fieldAt e 24 2, eyeWidth := fieldAt e 26 2, cycles := fieldAt e 28 4 }

/-- A TRAIN entry's 32 bytes. -/
def trainBytes (t : TrainEnt) : Bytes :=
  le 1 t.lane ++ le 1 t.reach ++ le 1 t.preset ++ le 1 t.flags ++ slice t.settings 0 20 ++ le 2 t.eyeHeight ++ le 2 t.eyeWidth
  ++ le 4 t.cycles

def meterOf (e : Bytes) : MeterEnt :=
  { intervalUs := fieldAt e 0 4, periodMs := fieldAt e 4 4, tapKeyId := fieldAt e 8 8, flags := fieldAt e 16 4 }

/-- A KEYREF entry: slot, use, partition, key_id. -/
def keyrefOf (e : Bytes) : Nat × Nat × Nat × Nat := (byteAt e 0, byteAt e 1, fieldAt e 2 2, fieldAt e 8 16)

def evrOf (e : Bytes) : EvrEnt := { code := fieldAt e 0 2, flags := byteAt e 2, snap := fieldAt e 4 2 }

/-- An MBXBIND entry: channel, master_a, master_b. -/
def bindOf (e : Bytes) : Nat × Nat × Nat := (byteAt e 0, fieldAt e 2 2, fieldAt e 4 2)

/-- A WATCH sample's length, 0 standing for 65,536. -/
def sampleLength (n : Nat) : Nat := if n = 0 then 65536 else n

def sampleOf (part : Nat) (e : Bytes) : Sample :=
  { engine := byteAt e 1, length := sampleLength (fieldAt e 4 4), offset := fieldAt e 8 8, partition := part }

/-- A WATCH timer entry: timer number and timer. -/
def timerOf (e : Bytes) : Nat × Timer :=
  (byteAt e 1, { firstLevel := byteAt e 2, timeoutUs := fieldAt e 4 4, graceUs := fieldAt e 8 4, startNs := none, expired := false })

def resourceOf (p : Bytes) : Resource :=
  { plumbIo := byteAt p 0, ucie := (List.range 8).map fun i => byteAt p (8 + i), timers := (List.range 16).map fun i => byteAt p (16 + i),
    shares := (List.range 4).map fun i => (fieldAt p (32 + 4 * i) 2, fieldAt p (34 + 4 * i) 2) }


/-! ## Refusals (R96) -/

/-- A refusal: code, detail, row sequence. -/
structure Fail where
  code : Nat
  detail : Nat
  row : Nat
  deriving DecidableEq, Repr

/-- The first of some checks that fails, its code and detail. -/
def firstFail : List (Bool × Nat × Nat) → Option (Nat × Nat)
  | [] => none
  | (bad, c, d) :: t => if bad then some (c, d) else firstFail t

/-- What a loader knows that the checks need. Unit: 0 controller, 1 agent, 2 meter. -/
structure LoadEnv where
  unit : Nat
  part : Part
  fid : Nat
  mode : Nat
  rack : Nat
  slot : Nat
  fabricId : Nat
  hop : Nat
  lkpLocked : Bool
  epoch : Nat
  fw : Nat
  patternKey : Option Bytes
  lastSeq : Tbl Nat
  floor : Nat
  aligned : Bool
  /-- partitions active at the agent -/
  parts : Tbl PartEnt
  deriving DecidableEq, Repr

/-- The record of a kind and scope in a table of last sequences (R97). -/
def seqKey (kind scope : Nat) : Nat := kind * 2 ^ 20 + scope

/-- Authenticator length of an auth_kind (R74). -/
def authLen (k : Nat) : Option Nat := match k with
  | 1 => some 29792
  | 2 => some 64
  | _ => none

/-- Length limit of a kind (R76). -/
def kindLimit (k : Nat) : Nat := match k with
  | 1 => 2 ^ 32
  | 4 => 2 ^ 20
  | _ => 2 ^ 24

/-- The bytes of an ASCII string. -/
def ascii (s : String) : Bytes := s.toList.map fun c => BitVec.ofNat 8 c.toNat

/-- One block of the counter-mode KDF of R393, in the layout of NIST SP 800-108 (log entry 73): the counter, the label, a zero byte, the
context, and L = 256. -/
def kdfBlock (key : Bytes) (i src : Nat) : Bytes :=
  slice (Config.aesCmac key ((le 4 i).reverse ++ ascii "WORM" ++ le 1 0 ++ le 3 src ++ (le 4 256).reverse)) 0 16

/-- The worm key of a slot key and a source FID (R393): two CMAC blocks, with counters 1 and 2. -/
def wormKey (key : Bytes) (src : Nat) : Bytes := kdfBlock key 1 src ++ kdfBlock key 2 src

/-- Names of the signing keys whose digests the fuses hold: Ivkile's Pattern key, and the metrology keys (R75, R409). -/
def patternKeys : List Nat := [8]
def metrologyKeys : List Nat := [9, 10, 11, 12]

/-- The first 16 bytes of SHAKE256 of a public key, as a number (R74). -/
def keyDigest16 (name : Nat) : Nat := leNat ((digestBytes (Config.shake256 (Config.publicKey name))).take 16)

/-- The fused key that signer_key_id names, for a loading unit and kind. -/
def signerOf (env : LoadEnv) (h : Header) : Option Nat :=
  (if env.unit = 2 then metrologyKeys else patternKeys).find? fun k => keyDigest16 k = h.signerKey

/-- Kinds a unit loads (R72). -/
def unitLoads (unit kind : Nat) : Bool := match unit with
  | 0 => kind = 1
  | 1 => kind = 2 || kind = 3
  | _ => kind = 4

/-- Whether the authenticator verifies over the header (R75). -/
def authOk (env : LoadEnv) (h : Header) (hb auth : Bytes) : Bool :=
  if h.authKind = 2 then
    (match env.patternKey with
      | some k => Config.kmac256 k hb 512 (ascii "SELUD PATTERN") = auth
      | none => false)
  else match signerOf env h with
    | some k => Config.slhVerify false (Config.publicKey k) hb auth
    | none => false

/-- The epoch a header must carry (R88): `tables` when the Pattern carries TABLE or TABLE_DELTA rows. -/
def epochOk (env : LoadEnv) (h : Header) (tables : Bool) : Bool :=
  if h.kind = 1 ∨ h.kind = 4 then h.epoch = 0
  else if h.kind = 3 && tables then h.epoch = env.epoch + 1
  else h.epoch = env.epoch

/-- Steps 1 to 3 of R96 on a header and authenticator, `total` the file's length as known to the loader; what step 3 asks of the rows
of a JOB Pattern is `jobMine`. -/
def headerFail (env : LoadEnv) (h : Header) (hb auth : Bytes) (total : Nat) : Option (Nat × Nat) :=
  firstFail [
    (h.magic ≠ 0x53454C44, 6, 1),
    (h.version / 256 ≠ 1 || !h.reservedZero, 6, 2),
    (h.length ≠ total || h.length < 256 + h.authLength
      || (match authLen h.authKind with
          | some n => h.authLength ≠ n
          | none => false)
      || h.length > kindLimit h.kind, 2, 0x42),
    (match h.kind with
      | 1 | 4 => h.authKind ≠ 1
      | 2 | 3 => h.authKind ≠ 2
      | _ => true, 1, 0x10),
    (!(unitLoads env.unit h.kind)
      || (if h.authKind = 1 then (signerOf env h).isNone else h.signerKey ≠ 0 || env.patternKey.isNone), 1, 0x11),
    (!(authOk env h hb auth), 1, 0x12),
    (match h.kind with
      | 1 | 4 => h.scopeKind ≠ 0
      | 2 => h.scopeKind ≠ 1
      | _ => h.scopeKind ≠ 2, 8, 0x30),
    (h.scopeKind = 2 && env.fid ≠ 0x3FFFF && h.scopeValue ≠ env.fid, 8, 0x31)]

/-- Steps 4 and 5 of R96 on a header but for the epoch. Before any Pattern of a kind and scope has activated, its last sequence counts
as 0, so that a first Pattern carries at least 1 (log entry 56). -/
def sequenceFail (env : LoadEnv) (h : Header) : Option (Nat × Nat) :=
  let scope := if h.scopeKind = 0 then 0 else h.scopeValue
  firstFail [
    (h.sequence ≤ tgetD env.lastSeq (seqKey h.kind scope) 0, 7, 0x20),
    (h.kind = 1 && h.sequence < env.floor, 7, 0x21),
    (env.fw < h.fwMin || h.fwMax < env.fw, 6, 3)]

/-! ## Row checks -/

/-- Row types a kind permits (R79). -/
def rowPermitted (kind : Nat) (r : Row) : Bool :=
  match kind with
  | 1 => [1, 2, 3, 7, 9, 0xA, 0xB, 0xE, 0xF, 0x10, 0x11, 0x7F].contains r.rtype && (r.rtype ≠ 7 || fieldAt r.payload 8 4 = 0)
  | 2 => [4, 7, 8, 0xD, 0xE, 0x11, 0x7F].contains r.rtype && (r.rtype ≠ 0xE || (rowEntries r).all fun e => byteAt e 0 = 2)
  | 3 => [1, 2, 3, 4, 5, 6, 7, 8, 9, 0xA, 0xB, 0xC, 0xD, 0xE, 0xF, 0x10, 0x11, 0x7F].contains r.rtype
  | _ => [0xC, 0x11, 0x7F].contains r.rtype

/-- Whether a row's target lies in its Pattern's scope (R78). The spec bars kinds 1 and 4 from other Patterns; that a BASE Pattern, whose
scope is the fabric, targets no FID is the model's reading (log entry 56). -/
def targetOk (h : Header) (r : Row) : Bool :=
  match r.targetKind with
  | 0 => r.target = 0
  | 1 => h.kind = 1 && r.target < 2 ^ 18
  | 2 => h.kind = 2 || (h.kind = 3 && r.target = h.scopeValue)
  | 3 => (h.kind = 1 || h.kind = 3) && r.rtype = 0xA
  | 4 => h.kind = 4
  | _ => false

/-- Partitions that a row's entries name. -/
def rowPartitions (r : Row) : List Nat :=
  match r.rtype with
  | 0x04 => (rowEntries r).map fun e => fieldAt e 0 2
  | 0x07 => (rowEntries r).map fun e => fieldAt e 12 2
  | 0x08 => (rowEntries r).map fun e => fieldAt e 4 2
  | 0x0D => (rowEntries r).map fun e => fieldAt e 2 2
  | _ => []

/-- Whether a row applies at this unit: a whole-scope row, or one that targets its own FID; every row of a BASE or METER
Pattern (R78). -/
def LoadEnv.mine (env : LoadEnv) (h : Header) (r : Row) : Bool :=
  h.kind = 1 || h.kind = 4 || r.targetKind ≠ 2
  || r.target = (if env.fid = 0x3FFFF then h.scopeValue else env.fid)

/-- Strictly rising. -/
def strictly : List Int → Bool
  | a :: b :: t => decide (a < b) && strictly (b :: t)
  | _ => true

/-- A bond field: a bond number or 0xFF. -/
def bondField (b : Nat) : Bool := b < 176 || b = 0xFF

/-- Entries of each table (R110). -/
def tableSize (t : Nat) : Nat := match t with
  | 0 => 262144
  | 1 => 57344
  | _ => 8192

/-- Whether a table entry's fields are in range (R112 to R114). Bits between the members of a member entry are reserved, and out of range
where they are not zero (log entry 56). -/
def tableEntryOk (t i v : Nat) : Bool :=
  match t with
  | 0 => v = 0 || (bondField (bitsOf v 7 0) && bondField (bitsOf v 15 8) && bondField (bitsOf v 23 16))
  | 1 =>
    if i < 2048 then v = 0 || (bondField (bitsOf v 7 0) && bondField (bitsOf v 15 8) && bondField (bitsOf v 23 16))
    else if i < 6144 then bitsOf v 43 32 ≤ 2048 && bitsOf v 17 0 + bitsOf v 43 32 ≤ 204800
    else (List.range 4).all fun k => bitsOf v (16 * k + 15) (16 * k) < 2048
  | _ => if i < 6254 then (if 6243 ≤ i then bondField (bitsOf v 7 0) else true) else v = 0

/-- Whether an event code is listed for a part, and a snapshot list is one of R437's. -/
def Part.codeListed (p : Part) (code : Nat) : Bool := (eventOf p.blocks p.events code).isSome
def Part.snapOk (p : Part) (s : Nat) : Bool :=
  s = 0 || s = 0xFFFF || ((s / 256 = 1 || s / 256 = 2) && decide (s % 256 < p.blocks.length))

/-- Actions a mode permits (R179). -/
def actionOk (mode action : Nat) : Bool :=
  if mode = 1 then action = 2 || action = 4 || action = 5 else action = 1 || action = 3

/-- Elements of a full payload of a format (R238). -/
def formatElems (code : Nat) : Nat := match code with
  | 0x01 | 0x0C => 512
  | 0x02 | 0x03 => 1024
  | 0x04 | 0x05 | 0x0B => 2048
  | 0x06 | 0x07 => 1984
  | 0x08 | 0x09 => 2592
  | _ => 3840

/-- Elements of a chunk, E_w: the smaller of what the two formats carry (R238). -/
def chunkElems (e : PurlEnt) : Nat := min (formatElems e.inFmt) (formatElems e.outFmt)

/-- Whether an ID names a master of a part (R525). -/
def masterListed (pelron : Bool) (id : Nat) : Bool := if pelron then id ≤ 0x14 || id = 0xFF else id ≤ 5

/-- Whether every field of a row lies within its range (R79 to R99), at a unit the row applies to. Rows of the multicast table are for
switch agents: an embedded agent refuses them as an endpoint does (log entry 56). -/
def rowFieldsOk (env : LoadEnv) (h : Header) (r : Row) : Bool :=
  let es := rowEntries r
  let agent := env.unit = 1
  match r.rtype with
  | 0x01 =>
    if h.kind = 1 && r.targetKind = 0 then
      byteAt r.payload 8 ≤ 1 && [1, 2, 4, 8].contains (byteAt r.payload 9) && byteAt r.payload 10 ≤ 1
      && 8 ≤ byteAt r.payload 11 && byteAt r.payload 11 ≤ 63
    else
      let i := identOf r.payload
      i.fid ≠ 0x3FFFF && 8 ≤ i.hop && i.rack < 2048 && i.slot < 80 && i.mode ≤ 2
      && (!agent || !env.lkpLocked || i.hop = env.hop)
      && (!agent || (if env.fid = 0x3FFFF then i.fid = h.scopeValue
          else i.fid = env.fid && i.rack = env.rack && i.slot = env.slot && i.fabricId = env.fabricId))
  | 0x02 => es.all fun e =>
      let (b, reach, far, fid, lanes) := bondOf e
      b < 176 && reach ≤ 3 && far < 176 && fid < 2 ^ 18 && 1 ≤ lanes.length && lanes.length ≤ 16
  | 0x03 => es.all fun e => byteAt e 0 < 176 && byteAt e 1 < 176
  | 0x04 => es.all fun e =>
      let (tag, p) := partOf e
      1 ≤ tag && tag ≤ 4095
      && !(agent && env.mode ≠ 0 && bitOf p.flags 0) && !(agent && env.mode ≠ 1 && bitOf p.flags 2)
      && p.cgBase + p.cgCount ≤ 1048576 && p.iset < 4096
  | 0x05 =>
      let t := byteAt r.payload 0
      (!agent || env.mode = 1 || t ≠ 2) &&
      let first := fieldAt r.payload 4 4
      t ≤ 2 && fieldAt r.payload 12 2 = 8 && first + es.length ≤ tableSize t
      && (List.range es.length).all fun k => tableEntryOk t (first + k) (leNat (es.getD k []))
  | 0x06 =>
      let t := byteAt r.payload 0
      (!agent || env.mode = 1 || t ≠ 2) && t ≤ 2 && fieldAt r.payload 2 2 = 8 && strictly (es.map fun e => (fieldAt e 0 4 : Int))
      && es.all fun e => fieldAt e 0 4 < tableSize t && tableEntryOk t (fieldAt e 0 4) (fieldAt e 4 8)
  | 0x07 =>
      let g := geomOf r.payload
      let per := fieldAt r.payload 4 4
      g.slotCode ≤ 2 && g.countCode ≤ 2 && 6 ≤ g.guard && 2 * g.guard ≤ g.slotNs && 1 ≤ per && per ≤ 65536
      && es.all fun e =>
          let x := courseOf e
          x.course < per && 1 ≤ x.slot && x.slot < g.slots && (!agent || actionOk env.mode x.action) && bondField x.outBond && 1 ≤ x.action && x.action ≤ 5 && bondField x.inBond
          && x.partition = fieldAt (es.getD 0 []) 12 2
  | 0x08 => (!agent || env.mode = 1) && es.all fun e =>
      let x := purlOf e
      x.op ≤ 3 && (fmtOfCode x.inFmt).isSome && (fmtOfCode x.outFmt).isSome && x.rounding ≤ 2 && x.overflow ≤ 1
      && (x.op ≠ 3 || (1 ≤ x.divisor && x.divisor ≤ 2 ^ 20)) && 1 ≤ x.fanIn && x.fanIn ≤ 2 ^ 20 && 1 ≤ x.elements
      && 1 ≤ x.laneCount && x.laneBase + x.laneCount ≤ 512 && x.storeOffset + x.storeBytes ≤ 30 * 2 ^ 20 && x.storeBytes % 48 = 0
      && (!agent || 2 * 48 * chunkElems x ≤ x.storeBytes)
  | 0x09 =>
      let x := resourceOf r.payload
      x.plumbIo ≤ 2 && fieldAt r.payload 1 7 = 0 && x.ucie.all (· ≤ 3) && x.timers.all (· ≤ 6)
      && (x.ucie.filter (· = 3)).length = 1 && x.ucie.contains 2
      && (!agent || (if env.mode = 1 then x.ucie.contains 1 else !x.ucie.contains 1))
  | 0x0A => es.all fun e =>
      let (_, g) := gaugeOf e
      strictly (g.volts.map Int.ofNat) && strictly g.temps
  | 0x0B => es.all fun e => byteAt e 0 < 176 && byteAt e 1 ≤ 3 && byteAt e 10 ≤ 12
  | 0x0C =>
      es.all (fun e => 100 ≤ fieldAt e 0 4 && fieldAt e 0 4 ≤ 60000000)
      && (h.kind ≠ 4 || (es.length = 1 && es.all fun e =>
            let m := meterOf e
            m.tapKeyId = 0 && 100 ≤ m.periodMs && m.periodMs ≤ 3600000 && m.periodMs * 1000 % m.intervalUs = 0))
  | 0x0D => es.all fun e => byteAt e 1 ≤ 2 && fieldAt e 2 2 ≤ 4095
  | 0x0E =>
      (es.filter fun e => byteAt e 0 = 2).length ≤ 64 && es.all fun e =>
      if byteAt e 0 = 1 then byteAt e 1 < 16 && 1 ≤ byteAt e 2 && byteAt e 2 ≤ 5 && (!agent || env.mode ≠ 1 || 4 ≤ byteAt e 2)
      else byteAt e 0 = 2 && fieldAt e 4 4 % 4096 = 0
  | 0x0F => h.kind = 1 || es.all fun e => env.part.codeListed (fieldAt e 0 2) && env.part.snapOk (fieldAt e 4 2)
  | 0x10 =>
      let pelron := !agent && r.targetKind = 1 && decide (72 ≤ r.target % 128)
      es.all fun e =>
        let (chan, ma, mb) := bindOf e
        chan < (if pelron then 64 else 16) && masterListed pelron ma && masterListed pelron mb
  | 0x11 =>
      !(bitOf (fieldAt r.payload 8 4) 0)
      || (fieldAt r.payload 0 8 = 0 && (h.kind = 1 || (h.kind = 3 && !env.aligned)))
  | _ => true

/-- Step 6 of R96 for one row in its place. -/
def rowFail (env : LoadEnv) (h : Header) (index shadow : Nat) (r : Row) : Option (Nat × Nat) :=
  let mine := env.mine h r
  firstFail [
    (!((List.range 0x11).map (· + 1)).contains r.rtype && r.rtype ≠ 0x7F, 6, 5),
    (r.flags ≠ 0, 6, 2),
    (r.crc ≠ crc32c r.payload, 2, 0x40),
    (r.seq ≠ index, 2, 0x41),
    (!(rowLengthOk r (h.kind = 1)) || r.payload.length > 2 ^ 22 || (env.unit = 1 && shadow > 512 * 1024), 2, 0x42),
    (!(rowPermitted h.kind r), 8, 0x32),
    (!(targetOk h r) || (h.kind = 2 && (rowPartitions r).any fun t => t ≠ h.scopeValue), 8, 0x33),
    (r.rtype = 1 && env.unit = 1 && mine && byteAt r.payload 7 ≠ env.mode, 8, 0x34),
    (r.reserved ≠ 0 || (mine && !(rowFieldsOk env h r)), 2, 0x43)]

/-- Bytes that a row takes in the loader's shadow (R76, R87). -/
def shadowBytes (r : Row) : Nat := if r.rtype = 5 ∨ r.rtype = 6 then 0 else r.payload.length

/-- Step 6 over rows in file order, with what must hold across rows: two COURSE rows of one partition, and the partitions of
descriptors (R82, R243). -/
def rowsFail (env : LoadEnv) (h : Header) : Nat → Nat → List Row → List Row → Option Fail
  | _, _, _, [] => none
  | i, shadow, seen, r :: rs =>
    let shadow := shadow + shadowBytes r
    match rowFail env h i shadow r with
    | some (c, d) => some ⟨c, d, i⟩
    | none =>
      let mine := env.mine h r
      let part0 := (rowPartitions r).head?
      let twice := r.rtype = 7 && mine && part0.isSome
        && seen.any fun q => q.rtype = 7 && env.mine h q && (rowPartitions q).head? = part0
      let purlBad := r.rtype = 8 && mine && env.unit = 1 && (rowPartitions r).any fun t =>
        let newer := ((seen.filter fun q => q.rtype = 4 && env.mine h q).flatMap rowEntries).map partOf
        !(((newer ++ env.parts).find? fun p => p.1 = t).any fun p => bitOf p.2.flags 1 && bitOf p.2.flags 2)
      if twice || purlBad then some ⟨2, 0x43, i⟩
      else rowsFail env h (i + 1) shadow (seen ++ [r]) rs

/-- What a check finds while rows are still to come. -/
inductive Sofar where
  | good | bad | open_
  deriving DecidableEq, Repr

/-- Whether a JOB Pattern's rows name this unit (step 3), by the rows so far. -/
def jobMine (env : LoadEnv) (h : Header) (rows : List Row) (whole : Bool) : Sofar :=
  if h.kind ≠ 2 || rows.any fun r => r.rtype ≠ 0x11 && r.rtype ≠ 0x7F && r.targetKind = 2 && r.target = env.fid then .good
  else if whole then .bad else .open_

/-- Whether the epoch is as R88 requires (step 5), by the rows so far: that of an AGENT Pattern depends on its table rows. -/
def epochSofar (env : LoadEnv) (h : Header) (rows : List Row) (whole : Bool) : Sofar :=
  let tables := rows.any fun r => r.rtype = 5 || r.rtype = 6
  if tables || whole then (if epochOk env h tables then .good else .bad)
  else if epochOk env h true && epochOk env h false then .good
  else if epochOk env h true || epochOk env h false then .open_
  else .bad

/-- The checks of steps 1 to 6 that the bytes received so far allow, the whole file being `total` bytes: none when nothing
has failed. The order of R96 holds: while a check of steps 3 or 5 waits for rows, no later one is judged. -/
def prefixFail (env : LoadEnv) (total : Nat) (bs : Bytes) : Option Fail :=
  if bs.length < 256 then none
  else
    let h := parseHeader bs
    let start := 256 + h.authLength
    -- the authenticator is judged once it is whole; a length the header gets wrong is judged at once
    if bs.length < start ∧ start ≤ total then
      (if h.magic ≠ 0x53454C44 then some ⟨6, 1, 0xFFFFFFFF⟩
       else if h.version / 256 ≠ 1 || !h.reservedZero then some ⟨6, 2, 0xFFFFFFFF⟩ else none)
    else match headerFail env h (bs.take 256) ((bs.drop 256).take h.authLength) total with
      | some (c, d) => some ⟨c, d, 0xFFFFFFFF⟩
      | none =>
        let (rows, left) := parseRows (bs.length / 20 + 1) (bs.drop start)
        let whole := decide (total ≤ bs.length)
        match jobMine env h rows whole with
        | .bad => some ⟨8, 0x31, 0xFFFFFFFF⟩
        | .open_ => none
        | .good =>
          match sequenceFail env h, epochSofar env h rows whole with
          | some (c, d), _ => some ⟨c, d, 0xFFFFFFFF⟩
          | none, .bad => some ⟨6, 4, 0xFFFFFFFF⟩
          | none, .open_ => none
          | none, .good =>
            match rowsFail env h 0 0 [] rows with
            | some f => some f
            | none => if whole && !left.isEmpty then some ⟨2, 0x42, rows.length⟩ else none

/-! ## File-wide checks (step 7) -/

/-- Rows of a type that apply at a unit. -/
def LoadEnv.rowsOf (env : LoadEnv) (h : Header) (rows : List Row) (t : Nat) : List Row :=
  rows.filter fun r => r.rtype = t && env.mine h r

/-- Entries of a row type that apply at a unit. -/
def LoadEnv.entries (env : LoadEnv) (h : Header) (rows : List Row) (t : Nat) : List Bytes := (env.rowsOf h rows t).flatMap rowEntries

/-- Whether row_count holds and IDENT, EPOCH and END stand where R79 puts them. -/
def orderOk (h : Header) (rows : List Row) : Bool :=
  let n := rows.length
  let at' (i : Nat) : Nat := ((rows[i]?).map (·.rtype)).getD 0
  n = h.rowCount && 2 ≤ n && at' (n - 1) = 0x7F && at' (n - 2) = 0x11
  && (rows.filter fun r => r.rtype = 0x7F).length = 1 && (rows.filter fun r => r.rtype = 0x11).length = 1
  && (h.kind ≠ 3 || (at' 0 = 1 && (rows.filter fun r => r.rtype = 1).length = 1))

/-- Step 7. -/
def fileFail (h : Header) (rows : List Row) (rowsPart : Bytes) : Option (Nat × Nat) :=
  firstFail [
    (!(orderOk h rows), 2, 0x44),
    (digestBytes (Config.shake256 rowsPart) ≠ h.rowsDigest, 1, 0x13)]

/-- The Pattern of a whole file, with its EPOCH row's course and IMMEDIATE flag. -/
def patternOf (bs : Bytes) : Pattern :=
  let h := parseHeader bs
  let rows := (parseRows (bs.length / 20 + 1) (bs.drop (256 + h.authLength))).1
  let ep := ((rows.find? fun r => r.rtype = 0x11).map (·.payload)).getD []
  { header := h, headerBytes := bs.take 256, rows := rows, activateCourse := fieldAt ep 0 8, immediate := bitOf (fieldAt ep 8 4) 0 }

/-- The rows part of a file. -/
def rowsPart (bs : Bytes) : Bytes := bs.drop (256 + (parseHeader bs).authLength)

/-- The digest of a header (R93, R100). -/
def headerDigest (p : Pattern) : Digest := Config.shake256 p.headerBytes

end Sys2Proof.Machine
end

