-- ==== Sys2Proof/Machine/Meter.lean ====
section
/-! DEFINITION. The Sealed Meter (R407 to R430), and the meter firmware of PLN-9210 (R429): keys, intake, intervals, batches,
the export ring, its firmware and its Patterns. -/

namespace Sys2Proof.Machine

/-! ## Keystone's measurements, which the meter start extends -/

/-- The extend of R283. -/
def extendValue (old : Digest) (reg kind part : Nat) (digest : Digest) : Digest :=
  Config.shake256 (digestBytes old ++ le 1 reg ++ le 4 kind ++ le 2 part ++ digestBytes digest)

/-- Keystone extends one of its registers (R377). -/
def Ctl.extend (c : Ctl) (reg kind : Nat) (digest : Digest) : Ctl :=
  let seq := c.die.getN Reg.KST_SEQ + 1
  let old := (tget c.kst.meas reg).getD { value := 0, lastSeq := 0, count := 0 }
  let m : Msr := { value := extendValue old.value reg kind 0 digest, lastSeq := seq, count := old.count + 1 }
  { c with die := c.die.setN Reg.KST_SEQ seq, kst := { c.kst with meas := tset c.kst.meas reg m } }

/-- Send a class A message from the controller (R465). -/
def Ctl.sendA (c : Ctl) (fid mtype : Nat) (body : Bytes) : Ctl := c.onDie (·.sendA fid mtype 0 body)

/-! ## Meter sequence and events -/

/-- Whether the meter is the Sealed Meter; else the firmware of PLN-9210. -/
def Ctl.sealed (c : Ctl) : Bool := c.die.part.hasMeter

/-- The next meter sequence (R422): it goes to module flash at every multiple of 2^20. -/
def Ctl.nextMeterSeq (c : Ctl) : Ctl :=
  let s := c.die.getN Reg.MTR_SEQ + 1
  let c := c.onDie (·.setN Reg.MTR_SEQ s)
  if s % 2 ^ 20 = 0 then { c with meter := { c.meter with checkpoint := s } } else c

/-- A meter event takes a meter sequence (R422, R432). Without the meter there are no meter events. -/
def Ctl.meterRaise (c : Ctl) (e : Event) (inst : Nat := 0xFFFF) : Ctl := if c.sealed then c.nextMeterSeq.raise e inst else c

/-- Count in a register of the MTR block. -/
def Ctl.mcount (c : Ctl) (key : Nat) : Ctl := c.onDie (·.count key)

/-! ## Keys (R411, R412) -/

/-- The name of the identity key of an agent's die (R380). -/
def agentKeyName (dieId : Nat) : Nat := 16 + dieId

/-- The tap key of R411. -/
def tapKey (secret : Bytes) (agentDie fid meterDie : Nat) : Bytes :=
  Config.kmac256 secret (le 8 agentDie ++ le 4 fid ++ le 8 meterDie) 256 (ascii "YARULAIS TAP KEY")

/-- The tap_key_id of a ciphertext. -/
def tapKeyId (c : Bytes) : Nat := leNat ((digestBytes (Config.shake256 c)).take 8)

/-- The meter's encapsulation to an agent under a key number: ciphertext and tap key (R411). -/
def meterEncapsulate (ek : Bytes) (meterDie agentDie fid num : Nat) : Bytes × Bytes :=
  let m := Config.kmac256 Config.meterSecret (le 8 agentDie ++ le 4 fid ++ le 8 num) 256 (ascii "MTR SEED")
  let (ct, s) := Config.kemEncaps ek (leNat m)
  (slice ct 0 1568, tapKey s agentDie fid meterDie)

/-- The die_id the meter signs and keys with: its own, or the controller's on PLN-9210 (R429). -/
def Ctl.meterDie (c : Ctl) : Nat := if c.sealed then c.meter.dieId else c.dieId

/-- Send METER_ENCAPS to an agent, establishing a key of the next number, or sending the one it has again (R411, R412). A
die without a certificate gets none. Where there is no Sealed Meter the sealed origin is Keystone, since agents take the worm from
a sealed one only (R429, R464; log entry 27). -/
def Ctl.meterEncaps (c : Ctl) (fid dieId : Nat) (renew : Bool) : Ctl :=
  match tget c.flash.certs dieId with
  | none => c
  | some cert =>
    let mine := c.meter.keys.filter fun k => k.fid = fid && k.dieId = dieId
    let num := if renew || mine.isEmpty then maxL (mine.map (·.num)) + 1 else maxL (mine.map (·.num))
    let (ct, key) := meterEncapsulate (Config.certKey cert) c.meterDie dieId fid num
    let k : MKey := { fid := fid, dieId := dieId, num := num, keyId := tapKeyId ct, key := key, fresh := true, seen := false,
                      covered := false, lastMac := none }
    let c := if renew || mine.isEmpty then { c with meter := { c.meter with keys := c.meter.keys ++ [k] } } else c
    c.onDie (·.sendFwd { dst := fid, op := 0x8B, mcast := 0, root := 0, bond := 0xFF, operand := [],
                         payload := ct ++ le 8 c.meterDie, block := c.die.part.blockIndex (if c.sealed then Blk.MTR else Blk.KST), privilege := 3 })

/-! ## Intake (R417, R420) -/

/-- Whether an instance is open at a course (R419). -/
def MInst.openAt (i : MInst) (course : Nat) : Bool :=
  i.openCourse ≤ course && (match i.closeCourse with
    | some x => decide (course < x)
    | none => true)

/-- The instance an entry of a tag is assigned to now (R420): the open one, else the last closed, else none known. -/
def Ctl.instanceOf (c : Ctl) (tag : Nat) : Nat :=
  if tag = 0 then 0
  else
    let mine := c.meter.insts.filter fun i => i.tag = tag && i.inst ≠ 0xFFFFFFFF
    match mine.find? fun i => i.openAt c.courseNow with
    | some i => i.inst
    | none => match (mine.filter fun i => i.openCourse ≤ c.courseNow).getLast? with
      | some i => i.inst
      | none => 0xFFFFFFFF

/-- The item of a key and of an entry (none: energy). -/
def Meter.item (m : Meter) (fid keyId : Nat) (tag : Option (Nat × Nat)) : Option Item :=
  m.items.find? fun i => i.fid = fid && i.keyId = keyId && i.tag = tag

/-- Take a value for an item, or count it stale (R417). The first value of an item under a key from before the meter's start is its base
(R418). -/
def Ctl.takeValue (c : Ctl) (k : MKey) (tag : Option (Nat × Nat)) (seq flags : Nat) (vals : List Nat) : Ctl :=
  match c.meter.item k.fid k.keyId tag with
  | some i =>
    if seq > i.seq then
      { c with meter := { c.meter with items := c.meter.items.map fun x =>
          if x.fid = k.fid && x.keyId = k.keyId && x.tag = tag then { x with seq := seq, latest := vals, flags := flags } else x } }
    else c.mcount Reg.MTR_CNT_STALE
  | none =>
    let t := (tag.map (·.1)).getD 0
    let i : Item := { fid := k.fid, keyId := k.keyId, tag := tag, seq := seq, latest := vals, base := if k.fresh then vals.map fun _ => 0 else vals,
                      based := k.fresh, flags := flags, assigned := (t, c.instanceOf t) }
    { c with meter := { c.meter with items := c.meter.items ++ [i] } }

/-- The five counters of an entry at an offset of a tap payload. -/
def tapCounts (p : Bytes) (off : Nat) : List Nat := (List.range 5).map fun k => fieldAt p (off + 8 + 8 * k) 8

/-- The intake of one tap worm (R417). -/
def Ctl.takeTap (c : Ctl) (w : Worm) : Ctl :=
  let p := w.payload
  let st := c.die.fget Fl.MTR_STATUS_state
  let sec := c.die.ns / 1000000000
  let c : Ctl := if c.meter.intakeSec = sec then c else { c with meter := { c.meter with intakeSec := sec, intakeCount := 0 } }
  if !c.meter.powered ∨ (c.sealed ∧ st = 0) then c
  else if c.meter.intakeCount ≥ 4000000 then
    let c := c.mcount Reg.MTR_CNT_INTAKE_DROP
    if !(mayRaise c.meter.dropNs c.die.up 1000000000) then c
    else ({ c with meter := { c.meter with dropNs := some c.die.up } } : Ctl).meterRaise Ev.METER_INTAKE_DROP
  else
    let c : Ctl := { c with meter := { c.meter with intakeCount := c.meter.intakeCount + 1 } }
    let refuse (c : Ctl) (key : Nat) : Ctl := ({ c with meter := { c.meter with refused := c.meter.refused + 1 } } : Ctl).mcount key
    let fid := fieldAt p 4 4
    let keyId := fieldAt p 8 8
    if w.op ≠ 0x8C ∨ w.partition ≠ 0 ∨ w.length ≠ 32 ∨ w.enc ≠ 0 then refuse c Reg.MTR_CNT_MALFORMED
    else match c.meter.keys.find? fun k => k.fid = fid && k.keyId = keyId with
      | none => refuse c Reg.MTR_CNT_KEY_UNKNOWN
      | some k =>
        if Config.kmac256 k.key (p.take 1984) 512 (ascii "YARULAIS TAP") ≠ slice p 1984 64 then
          let c := refuse c Reg.MTR_CNT_BAD_MAC
          if !(mayRaise k.lastMac c.die.up 1000000000) then c
          else
            let c : Ctl := { c with meter := { c.meter with keys := c.meter.keys.map fun x =>
                if x.fid = k.fid then { x with lastMac := some c.die.up } else x } }
            c.meterRaise Ev.TAP_BAD_MAC
        else
          let c : Ctl := { c with meter := { c.meter with taken := c.meter.taken + 1, keys := c.meter.keys.map fun x =>
              if x.fid = k.fid && x.keyId = k.keyId then { x with seen := true, covered := true } else x } }
          let c := c.mcount Reg.MTR_CNT_TAKEN
          let seq := fieldAt p 16 8
          let c := if bitOf (byteAt p 1) 0 then c.takeValue k none seq 0 [fieldAt p 32 8] else c
          (List.range (min 40 (byteAt p 3))).foldl (fun c n =>
            let o := 64 + 48 * n
            c.takeValue k (some (fieldAt p o 2, byteAt p (o + 2))) seq (byteAt p (o + 3)) (tapCounts p o)) c

/-! ## Intervals (R418, R421) -/

/-- The key of an instance in an energy division: tag, then instance. -/
def instKey (tag inst : Nat) : Nat := tag * 2 ^ 32 + inst

/-- Component-wise difference modulo 2^64. -/
def deltas (latest base : List Nat) : List Nat :=
  (List.range latest.length).map fun i => (latest.getD i 0 + 2 ^ 64 - base.getD i 0) % 2 ^ 64

/-- Add to an instance's totals; the instance is made when it is not there. -/
def Meter.addTotals (m : Meter) (tag inst : Nat) (add : List Nat) : Meter :=
  let up (i : MInst) : MInst :=
    { i with active := true, silent := 0, totals := (List.range 5).map fun k => satU 128 (i.totals.getD k 0 + add.getD k 0) }
  if m.insts.any fun i => i.tag = tag && i.inst = inst then
    { m with insts := m.insts.map fun i => if i.tag = tag && i.inst = inst then up i else i }
  else
    { m with insts := m.insts ++ [up { tag := tag, inst := inst, openCourse := 0, closeCourse := none, totals := [0, 0, 0, 0, 0],
                                       active := true, silent := 0, retired := false }] }

/-- Close the interval `interval` with the module's input energy over it (R418, R420, R421). -/
def Ctl.closeInterval (c : Ctl) (interval energy : Nat) : Ctl :=
  -- entries that carry FWD_ONLY are assigned afresh
  let items := c.meter.items.map fun i =>
    match i.tag with
    | some (t, _) => if bitOf i.flags 1 then { i with assigned := (t, c.instanceOf t) } else i
    | none => i
  let delta (i : Item) : List Nat := deltas i.latest i.base
  let entries := items.filter fun i => i.tag.isSome
  let moved := entries.filter fun i => sumL (delta i) > 0
  let owners := moved.foldl (fun (l : List (Nat × Nat)) i => if l.contains i.assigned then l else l ++ [i.assigned]) []
  let part (o : Nat × Nat) (k : Nat) : Nat := sumL ((moved.filter fun i => i.assigned = o).map fun i => (delta i).getD k 0)
  let e := energy + sumL ((items.filter fun i => i.tag.isNone).map fun i => (delta i).getD 0 0)
  let shares := energyShares e (owners.map fun o => (instKey o.1 o.2, part o 0 + part o 1 + part o 2))
  let energyOf (o : Nat × Nat) : Nat := ((shares.find? fun s => s.1 = instKey o.1 o.2).map (·.2)).getD 0
  let owners := if owners.contains (0, 0) ∨ energyOf (0, 0) = 0 then owners else owners ++ [(0, 0)]
  let m := owners.foldl (fun (m : Meter) o => m.addTotals o.1 o.2 [part o 0, part o 1, part o 3, part o 4, energyOf o]) c.meter
  let gap := items.any fun i => !i.based
  { c with meter := { m with items := items.map fun i => { i with base := i.latest, based := true }, gap := m.gap || gap,
                             closedNs := max (if c.die.ns < m.closedNs then 0 else m.closedNs) (min c.die.ns ((interval + 1) * m.pattern.intervalUs * 1000)), interval := interval, firstOpen := some (m.firstOpen.getD interval), eSum := satU 128 (m.eSum + e) } }

/-- Close the open interval at once (R409, R425, R426): its energy reading is a free value. -/
def Ctl.closeOpen (c : Ctl) : Ctl :=
  let (v, d) := c.die.freeVal
  ({ c with die := d } : Ctl).closeInterval (c.die.ns / (1000 * max 1 c.meter.pattern.intervalUs)) v.toNat

/-! ## Batches (R422 to R424) -/

/-- One batch entry. -/
def batchEntry (i : MInst) (closed : Bool) : Bytes :=
  le 2 i.tag ++ le 2 (b2n closed + 2 * b2n (i.inst = 0xFFFFFFFF)) ++ le 4 i.inst ++ le 8 i.openCourse
  ++ (List.range 5).flatMap fun k => le 16 (i.totals.getD k 0)

/-- A batch's header. -/
def Ctl.batchHeader (c : Ctl) (kind : Nat) (b : Batch) : Bytes :=
  let m := c.meter
  ascii "MBAT" ++ le 2 0x0100 ++ le 1 kind ++ le 1 b.flags ++ le 8 b.seq ++ le 4 (if c.sealed then m.seals else 0) ++ le 4 m.version
  ++ le 8 b.first ++ le 8 b.last ++ le 8 b.closeNs ++ le 8 c.meterDie ++ le 4 b.entries.length ++ le 4 b.silent ++ le 16 b.eSum
  ++ le 8 b.taken ++ le 8 b.refused ++ (digestBytes m.patternDigest).take 16 ++ (digestBytes m.prevDigest).take 32
  ++ List.replicate 112 0

/-- Registers of the export ring: base, producer, consumer (R429, R430). -/
def Ctl.ringRegs (c : Ctl) : Nat × Nat × Nat :=
  if c.sealed then (Reg.MTR_RING_BASE, Reg.MTR_RING_PROD, Reg.MTR_RING_CONS)
  else (Reg.TEL_METER_RING, Reg.TEL_METER_PROD, Reg.TEL_METER_CONS)

/-- Whether the export ring has no free slot: one of its 256 slots stays empty, so that full and empty differ. -/
def Ctl.ringFull (c : Ctl) : Bool :=
  let (_, prod, cons) := c.ringRegs
  (c.die.bget prod 7 0 + 1) % 256 = c.die.bget cons 7 0

/-- Write a record into the ring's next slot (R423); MTR_RING_BASE locks at the first batch. -/
def Ctl.ringWrite (c : Ctl) (bytes : Bytes) : Ctl :=
  let (base, prod, _) := c.ringRegs
  let slot := c.die.bget prod 7 0
  (c.memWrite (c.die.getN base + slot * 2 ^ 20) bytes).1.onDie fun d =>
    let d := d.bset prod 7 0 (slot + 1)
    if c.sealed then (d.bset prod 63 32 (d.bget prod 63 32 + 1)).fset Fl.CTL_LOCK_meter_ring 1 else d

/-- Whether an instance was open between two fabric times (R419). -/
def Ctl.openWithin (c : Ctl) (i : MInst) (lo hi : Nat) : Bool :=
  match c.geom with
  | none => i.closeCourse.isNone
  | some g => decide (i.openCourse * g.courseNs < hi) && (match i.closeCourse with
    | none => true
    | some x => decide (lo < x * g.courseNs))

/-- Instances with an entry in the next batch, each with its CLOSED flag (R422): those open in its intervals or with a delta, and once
more an instance whose CLOSE was reported and whose entries have all arrived CLOSED or stayed silent for two batches. -/
def Ctl.batchEntries (c : Ctl) : List (MInst × Bool) :=
  let m := c.meter
  let ends (i : MInst) : Bool :=
    i.closeCourse.isSome && (decide (i.silent ≥ 2)
      || ((m.items.filter fun x => x.tag.isSome && x.assigned = (i.tag, i.inst)).all fun x => bitOf x.flags 0))
  let all : List MInst := if m.insts.any fun i => i.tag = 0 && i.inst = 0 then m.insts
    else { tag := 0, inst := 0, openCourse := 0, closeCourse := none, totals := [0, 0, 0, 0, 0], active := false, silent := 0, retired := false } :: m.insts
  let us := m.pattern.intervalUs * 1000
  let pick := (all.filter fun i => !i.retired && (i.active || ends i
    || c.openWithin i (m.firstOpen.getD m.interval * us) ((m.interval + 1) * us))).map fun i => (i, ends i)
  pick.mergeSort fun a b => instKey a.1.tag a.1.inst ≤ instKey b.1.tag b.1.inst

/-- The signed bytes of a batch: nothing is signed on PLN-9210 (R422, R429). -/
def Ctl.signedBytes (c : Ctl) (b : Batch) : Bytes :=
  b.bytes ++ (if c.sealed then slice (Config.slhSign true 2 (digestBytes (Config.shake256 b.bytes))) 0 49856 else [])

/-- The agents whose key the meter holds and from which it took a value in the open batch, or did not (R422). -/
def Meter.heardFrom (m : Meter) (heard : Bool) : List Nat :=
  let fids := m.keys.foldl (fun (l : List Nat) k => if l.contains k.fid then l else l ++ [k.fid]) []
  fids.filter fun f => (m.keys.any fun k => k.fid = f && k.covered) = heard

/-- The instances after a batch: those whose last entry went out retire, and the one retired before them goes (R420, R422). -/
def Meter.retire (m : Meter) (gone : List MInst) : List MInst :=
  let last (i : MInst) : Bool := gone.any fun g => g.tag = i.tag && g.inst = i.inst
  (m.insts.filter fun i => !(i.retired && gone.any fun g => g.tag = i.tag)).map fun i =>
    { i with active := false, silent := if i.active || i.closeCourse.isNone then 0 else i.silent + 1, retired := i.retired || last i }

/-- Close a batch with flags beyond those the meter's state sets (R422, R423). The meter sequence rises; AGENT_SILENT
carries the count of silent agents. On a full ring with four batches held, the newest held batch is replaced: the new one covers its
intervals too, so it keeps its GAP, and the batch before it is the previous one kept. -/
def Ctl.closeBatch (c : Ctl) (extra : Nat) : Ctl :=
  let m := c.meter
  let replaced := if c.ringFull && decide (m.held.length ≥ 4) then m.held.getLast? else none
  let before : List Nat := (replaced.map (·.heard)).getD []
  let silent := ((m.heardFrom false).filter fun f => !before.contains f).length
  let c := if silent > 0 then c.meterRaise Ev.AGENT_SILENT (min silent 0xFFFF) else c
  let c := if c.sealed then c.nextMeterSeq else c
  let mine := c.batchEntries
  let entries := match replaced with
    | none => mine
    | some r =>
      let kept := r.entries.filter fun x => !(mine.any fun y => y.1.tag = x.1.tag && y.1.inst = x.1.inst)
      (mine ++ kept).mergeSort fun a b => instKey a.1.tag a.1.inst ≤ instKey b.1.tag b.1.inst
  let first := match replaced with
    | some r => r.first
    | none => m.firstOpen.getD m.interval
  let gap : Bool := m.gap || (replaced.any fun r => bitOf r.flags 1)
  let b : Batch :=
    { flags := extra + (if c.sealed then 0 else 1) + (if gap then 2 else 0) + (if c.die.testEn then 64 else 0),
      seq := c.die.getN Reg.MTR_SEQ, first := first, last := m.interval, closeNs := c.die.ns, silent := silent,
      eSum := satU 128 (m.eSum + (replaced.map (·.eSum)).getD 0), taken := m.taken + (replaced.map (·.taken)).getD 0,
      refused := m.refused + (replaced.map (·.refused)).getD 0, entries := entries, heard := m.heardFrom true ++ before, bytes := [] }
  let held := if replaced.isSome then m.held.dropLast else m.held
  let c : Ctl := match replaced, held.getLast? with
    | some _, some x => { c with meter := { c.meter with prevDigest := Config.shake256 (c.signedBytes x) } }
    | _, _ => c
  let b := { b with bytes := c.batchHeader 1 b ++ b.entries.flatMap fun x => batchEntry x.1 x.2 }
  { c with meter := { c.meter with held := held, signing := some b, gap := false, firstOpen := none, eSum := 0, taken := 0, refused := 0,
                                   insts := c.meter.retire ((mine.filter (·.2)).map (·.1)),
                                   keys := c.meter.keys.map fun k => { k with covered := false } } }

/-- Move held batches into the ring while it has room. -/
def Ctl.drainHeld : Nat → Ctl → Ctl
  | 0, c => c
  | n + 1, c =>
    match c.meter.held with
    | [] => c
    | b :: rest =>
      if c.ringFull then c
      else Ctl.drainHeld n (({ c with meter := { c.meter with held := rest } } : Ctl).ringWrite (c.signedBytes b))

/-- The batch being signed is done: into the ring, or held in SRAM with METER_RING_FULL (R423). -/
def Ctl.batchSigned (c : Ctl) : Ctl :=
  match c.meter.signing with
  | none => c
  | some b =>
    let bytes := c.signedBytes b
    let c : Ctl := { c with meter := { c.meter with signing := none, prevDigest := Config.shake256 bytes } }
    let c := c.mcount Reg.MTR_CNT_BATCHES
    if c.ringFull ∨ !c.meter.held.isEmpty then
      ({ c with meter := { c.meter with held := c.meter.held ++ [b] } } : Ctl).meterRaise Ev.METER_RING_FULL
    else c.ringWrite bytes

/-- A batch boundary (R410, R422, R424): a staged METER entry whose course has come takes effect, the open interval closing
early; with the signer busy the batch waits. On PLN-9210 nothing is signed and the batch is written at once. -/
def Ctl.batchBoundary (c : Ctl) (extra : Nat) : Ctl :=
  if c.meter.signing.isSome then { c with meter := { c.meter with lateDue := some (c.meter.lateDue.getD 0 ||| extra) } }
  else
    let due := match c.meter.staged with
      | some (_, _, course) => decide (course ≤ c.courseNow)
      | none => false
    let c := if due then c.closeOpen else c
    let c := c.closeBatch extra
    let c : Ctl := match due, c.meter.staged with
      | true, some (e, d, _) => { c with meter := { c.meter with pattern := e, patternDigest := d, staged := none } }
      | _, _ => c
    if c.sealed then c else c.batchSigned

/-- METER_BATCH_SIGNED (R424): a boundary that waited for the signer closes its batch now, flagged LATE. -/
def Ctl.signerDone (c : Ctl) : Ctl :=
  if c.meter.signing.isNone then c
  else
    let late := c.meter.lateDue
    let c : Ctl := { c.batchSigned with meter := { c.batchSigned.meter with lateDue := none } }
    match late with
    | some flags => ((c.batchBoundary (flags + 4)).mcount Reg.MTR_CNT_LATE).meterRaise Ev.BATCH_LATE
    | none => c

/-- The SAFE_STATE batch (R426). -/
def Ctl.meterSafe (c : Ctl) : Ctl :=
  if !c.sealed ∨ !c.meter.powered then c
  else
    let c := (c.closeOpen).batchBoundary 16
    c.onDie (·.fset Fl.MTR_STATUS_state 3)

/-! ## Power, start, firmware and Patterns -/

/-- The snapshot of R425: the open interval closes, tap worms are no longer taken. -/
def Ctl.meterSnapshot (c : Ctl) : Ctl :=
  if !c.sealed ∨ !c.meter.powered then c
  else
    let c := c.closeOpen
    let m := c.meter
    let s : MSnap := { insts := m.insts, interval := m.interval, firstOpen := m.firstOpen, eSum := m.eSum,
                       seq := c.die.getN Reg.MTR_SEQ, prevDigest := m.prevDigest }
    { c with meter := { m with powered := false, signing := none, held := [], snapshot := some s, loading := none },
             die := c.die.fset Fl.MTR_STATUS_state 0 }

/-- What every start of the meter does (R377, R408, R410, R418, R430): the interval and period are those of no METER Pattern, register 3 extends with the firmware digest and the
seal-break count, keys are no longer fresh, the ring base unlocks and takes the certificate. -/
def Ctl.meterUp (c : Ctl) : Ctl :=
  let c : Ctl := { c with meter := { c.meter with powered := true, items := [], pattern := MeterEnt.initial, patternDigest := 0, staged := none, keys := c.meter.keys.map fun k => { k with fresh := false } } }
  let c := c.extend 3 0x30 (digestOf ((digestBytes c.meter.fwDigest).take 60 ++ le 4 c.meter.seals))
  let c := c.onDie fun d => (d.fset Fl.CTL_LOCK_meter_ring 0).fset Fl.MTR_STATUS_state 1
  let b : Batch := { flags := 0, seq := c.die.getN Reg.MTR_SEQ, first := 0, last := 0, closeNs := c.die.ns, silent := 0, eSum := 0,
                     taken := 0, refused := 0, entries := [], heard := [], bytes := [] }
  let locked := c.die.fget Fl.CTL_LOCK_meter_ring
  if c.ringFull then c
  else (c.ringWrite (c.batchHeader 2 b ++ Config.meterCert)).onDie (·.fset Fl.CTL_LOCK_meter_ring locked)

/-- METER_START (R425): the snapshot verifies and its intervals beyond the last batch go out flagged POWER_FAIL; without
one, after an earlier run, the totals restart and SNAPSHOT_INVALID is raised. -/
def Ctl.meterStart (c : Ctl) : Ctl :=
  if !c.sealed ∨ c.die.fget Fl.MTR_STATUS_state ≠ 0 then c
  else
    let m := c.meter
    match m.snapshot with
    | some s =>
      let c : Ctl := { c with meter := { m with insts := s.insts, interval := s.interval, firstOpen := s.firstOpen, eSum := s.eSum,
                                                prevDigest := s.prevDigest, snapshot := none },
                              die := (c.die.setN Reg.MTR_SEQ s.seq).fset Fl.MTR_STATUS_snapshot_valid 1 }
      (c.meterUp).batchBoundary 8
    | none =>
      if m.powered then c.meterUp
      else
        let c : Ctl := { c with meter := { m with insts := [], eSum := 0, firstOpen := none, gap := true },
                                die := (c.die.setN Reg.MTR_SEQ (m.checkpoint + 2 ^ 20)).fset Fl.MTR_STATUS_snapshot_valid 0 }
        c.meterUp.meterRaise Ev.SNAPSHOT_INVALID

/-- The fields of a firmware image's header (R495). -/
structure ImageHdr where
  kind : Nat
  version : Nat
  rollback : Nat
  linkLevel : Nat
  variants : Nat
  bodyLength : Nat
  bodyDigest : Bytes
  signer : Nat
  /-- magic, format and reserved bytes as R495 states -/
  formOk : Bool
  deriving DecidableEq, Repr

def imageHdr (b : Bytes) : ImageHdr :=
  { kind := byteAt b 6, version := fieldAt b 8 4, rollback := fieldAt b 12 4, linkLevel := fieldAt b 16 2, variants := fieldAt b 18 2,
    bodyLength := fieldAt b 24 8, bodyDigest := slice b 32 64, signer := fieldAt b 96 16,
    formOk := b.take 4 = ascii "YFWI" && fieldAt b 4 2 = 0x0100 && byteAt b 7 = 0 && fieldAt b 20 4 = 0 && fieldAt b 112 144 = 0 }

/-- Whether an image's signature by one of some keys and its body digest verify (R375, R378, R409). -/
def imageOk (keys : List Nat) (b : Bytes) : Bool :=
  let h := imageHdr b
  (keys.any fun k => keyDigest16 k = h.signer && Config.slhVerify false (Config.publicKey k) (b.take 256) (slice b 256 29792))
  && digestBytes (Config.shake256 (b.drop 30048)) = h.bodyDigest && b.length = 30048 + h.bodyLength

/-- How a load ended (R430). -/
def Ctl.loadResult (c : Ctl) (r : Nat) : Ctl := c.onDie (·.fset Fl.MTR_STATUS_load_result r)

/-- Steps 4 to 6 of R409: the batch of the old firmware, the seal break, the start of the new image. -/
def Ctl.meterStartImage (c : Ctl) (img : Bytes) : Ctl :=
  let h := imageHdr img
  let c := (((c.closeOpen).batchBoundary 32).signerDone).signerDone
  let c : Ctl := { c with meter := { c.meter with seals := c.meter.seals + 1 } }
  let c := c.meterRaise Ev.SEAL_BROKEN
  let m : Meter := { c.meter with version := h.version, fwDigest := digestOf h.bodyDigest,
                                  rollback := max c.meter.rollback (min 64 h.rollback), loading := none }
  ({ c with meter := m } : Ctl).meterUp.loadResult 1

/-- METER_LOAD_FW (R409): the write of MTR_CTL with load_fw. While Keystone works on a report, what follows the checks waits (R402). -/
def Ctl.meterLoadFw (c : Ctl) (val : Nat) : Ctl :=
  if !c.sealed ∨ !(bitOf val 0) ∨ bitsOf val 15 8 ≠ 0x3C ∨ c.die.fget Fl.MTR_STATUS_state = 0 then c
  else if c.meter.loading.isSome then c.loadResult 5
  else
    let (c, img, _) := c.memRead (c.die.getN Reg.MTR_SRC_ADDR) (c.die.bget Reg.MTR_SRC_LEN 23 0)
    let h := imageHdr img
    if !h.formOk ∨ h.kind ≠ 4 ∨ !(imageOk metrologyKeys img) then c.loadResult 2
    else if h.rollback < c.meter.rollback then c.loadResult 3
    else if c.meter.seals ≥ 128 then c.loadResult 4
    else if c.kst.jobs.isEmpty then c.meterStartImage img
    else ({ c with meter := { c.meter with loading := some img } } : Ctl).onDie (·.fset Fl.MTR_STATUS_state 2)

/-- A load that waited for a report goes on (R402). -/
def Ctl.meterResume (c : Ctl) : Ctl :=
  match c.meter.loading with
  | some img => if c.kst.jobs.isEmpty then c.meterStartImage img else c
  | none => c

/-- METER_LOAD_PATTERN (R410): the checks of R96 on a METER Pattern; its entry waits for its course and a batch boundary. -/
def Ctl.meterLoadPattern (c : Ctl) : Ctl :=
  let refuse (c : Ctl) (code detail : Nat) : Ctl :=
    c.onDie fun d => ((d.fset Fl.MTR_STATUS_load_result 6).fset Fl.MTR_STATUS_pattern_code code).fset Fl.MTR_STATUS_pattern_detail detail
  if !c.sealed then refuse c 3 0x50
  else if c.meter.loading.isSome then c.loadResult 5
  else
    let len := c.die.bget Reg.MTR_SRC_LEN 23 0
    let (c, f, _) := c.memRead (c.die.getN Reg.MTR_SRC_ADDR) len
    let env : LoadEnv :=
      { unit := 2, part := c.die.part, fid := 0x3FFFF, mode := 0, rack := 0, slot := 0, fabricId := 0, hop := 0, lkpLocked := false,
        epoch := 0, fw := c.meter.version, patternKey := none, lastSeq := [(seqKey 4 0, c.meter.patSeq)], floor := 0,
        aligned := true, parts := [] }
    let p := patternOf f
    let ents := env.entries p.header p.rows Rt.METER
    match prefixFail env len f with
    | some x => refuse c x.code x.detail
    | none =>
      if f.length < 256 then refuse c 6 1
      else match fileFail p.header p.rows (rowsPart f) with
        | some (a, b) => refuse c a b
        | none =>
          if p.activateCourse ≤ c.courseNow then refuse c 5 0x72
          else if c.die.safe then refuse c 5 0x73
          else
            match ents with
            | [e] =>
              let c : Ctl := { c with meter := { c.meter with patSeq := p.header.sequence,
                                                              staged := some (meterOf e, headerDigest p, p.activateCourse) } }
              c.onDie fun d => ((d.fset Fl.MTR_STATUS_load_result 1).fset Fl.MTR_STATUS_pattern_code 0).fset Fl.MTR_STATUS_pattern_detail 0
            | _ => refuse c 2 0x43

/-- METER_OPEN (R419): an instance of a tag is open from a course. -/
def Ctl.meterOpen (c : Ctl) (tag inst course : Nat) : Ctl :=
  if c.die.safe ∨ c.meter.insts.any (fun i => i.tag = tag && i.inst = inst) then c
  else
    let i : MInst := { tag := tag, inst := inst, openCourse := course, closeCourse := none, totals := [0, 0, 0, 0, 0],
                       active := false, silent := 0, retired := false }
    { c with meter := { c.meter with insts := c.meter.insts ++ [i] } }

/-- METER_CLOSE (R419). -/
def Ctl.meterClose (c : Ctl) (tag inst course : Nat) : Ctl :=
  if c.die.safe then c
  else
    { c with meter := { c.meter with insts := c.meter.insts.map fun i =>
        if i.tag = tag && i.inst = inst then { i with closeCourse := some course } else i } }

/-- METER_INTERVAL_CLOSE (R418): interval k closes at (k + 2) × interval_us µs, once; where fabric time has stepped back behind the last
close, as after a controller reset, the intervals are counted from the new time. -/
def Ctl.intervalClose (c : Ctl) (interval energy : Nat) : Ctl :=
  let due := (interval + 2) * c.meter.pattern.intervalUs * 1000
  if !c.meter.powered ∨ (c.sealed ∧ c.die.fget Fl.MTR_STATUS_state = 0) ∨ c.die.ns < due
    ∨ ((interval + 1) * c.meter.pattern.intervalUs * 1000 ≤ c.meter.closedNs ∧ c.meter.closedNs ≤ c.die.ns) then c
  else c.closeInterval interval energy

/-- METER_BATCH_CLOSE (R422): fabric time has passed a multiple of the record period since the last one. -/
def Ctl.batchClose (c : Ctl) : Ctl :=
  let period := 1000000 * c.meter.pattern.periodMs
  let at_ := c.die.ns / period * period
  if !c.meter.powered ∨ (c.sealed ∧ c.die.fget Fl.MTR_STATUS_state = 0) ∨ (at_ ≤ c.meter.batchNs ∧ c.meter.batchNs ≤ c.die.ns) then c
  else ({ c with meter := { c.meter with batchNs := at_ } } : Ctl).batchBoundary 0

/-- METER_ENCAPS_RETRY (R412): every 10 s to each named agent that the key table holds no key for, or whose records do not
carry the key yet. -/
def Ctl.meterRetry (c : Ctl) : Ctl :=
  if c.meter.retryNs.any fun t => decide (t ≤ c.die.up ∧ c.die.up < 10000000000 + t) then c else
  let c : Ctl := { c with meter := { c.meter with retryNs := some c.die.up } }
  c.cst.agents.foldl (fun c p =>
    let a := p.2
    let mine := c.meter.keys.filter fun k => k.fid = a.fid && k.dieId = a.dieId
    if !a.named || a.lost || mine.any (·.seen) then c else c.meterEncaps a.fid a.dieId false) c

/-- MTR_RING_CONS is written (R423): held batches move into the slots freed. -/
def Ctl.ringCons (c : Ctl) (val : Nat) : Ctl :=
  let (_, _, cons) := c.ringRegs
  Ctl.drainHeld 4 (c.onDie (·.bset cons 7 0 val))

end Sys2Proof.Machine
end

