-- ==== Sys2Proof/Machine/Wrap.lean ====
section
/-! DEFINITION. The frame every command at the controller runs in: the effects of entering the safe state (R443), and the FWD
worms that the controller's units originate, which leave through the embedded agent (R19, R463). -/

namespace Sys2Proof.Machine

/-- What the controller's entry into the safe state does beside the collector's own part (R443, steps 4 and 5). -/
def Ctl.safeEntry (c : Ctl) : Ctl := (c.meterSafe).startDump 6

/-- Whether a worm of the controller may leave: with RCV_ROLE.active 0 no CONTROLLER worm but MBX_ACK is sent (R463). -/
def Ctl.maySend (c : Ctl) (m : FwdMsg) : Bool := m.privilege ≠ 2 || m.op = 0x82 || c.die.bget Reg.RCV_ROLE 0 0 = 1

/-- Code words that a unit of the die wrote show their errors no more: every such write is of whole code words (R484). -/
def Ctl.settleMem (before c : Ctl) : Ctl :=
  if c.memu.errors.isEmpty || before.die.mem = c.die.mem then c
  else
    let es := c.memu.errors.filter fun p => mread before.die.mem (c.addrOf p.1) 128 = mread c.die.mem (c.addrOf p.1) 128
    { c with memu := { c.memu with errors := es } }

/-- A record sent in an open Mortar session (R460, R461). -/
def Ctl.mortarSend (c : Ctl) (m : Mortar) (rtype : Nat) (payload : Bytes) : Ctl :=
  let ms := c.mortar.map fun x => if x.id = m.id then { x with txSeq := x.txSeq + 1 } else x
  let c : Ctl := { c with mortar := ms, die := c.die.emit (.record m.id rtype m.txSeq payload) }
  if m.txSeq + 1 < 2 ^ 32 then c
  else { c with mortar := c.mortar.filter (fun x => x.id ≠ m.id), die := c.die.emit (.conn "closed" m.id) }

/-- Send what Mortar sessions are to be notified of: a NOTIFY record in each open session (R461). -/
def Ctl.sendNotes (c : Ctl) : Ctl :=
  let notes := c.die.notes
  let c : Ctl := { c with die := { c.die with notes := [] } }
  notes.foldl (fun (c : Ctl) n => (c.mortar.filter (·.phase = 2)).foldl (fun (c : Ctl) m =>
    match c.mortar.find? (·.id = m.id) with
    | some m => c.mortarSend m 0x14 n
    | none => c) c) c

/-- What follows every command at the controller, its worms left queued. -/
def Ctl.settle (before c : Ctl) : Ctl :=
  let c := if c.die.safe && !before.die.safe then c.safeEntry else c
  (Ctl.settleMem before c).sendNotes

/-- Send the controller's queued FWD worms through the embedded agent. -/
def State.sendCtl (s : State) : State :=
  let msgs := s.ctl.die.fwdq.filter s.ctl.maySend
  let c : Ctl := { s.ctl with die := { s.ctl.die with fwdq := [] } }
  let s : State := { s with ctl := c }
  if msgs.isEmpty then s else s.onAgt .emb fun a => msgs.foldl (fun a m => a.originate m) a

/-- Run an effect at the controller and settle it. -/
def State.onCtl (s : State) (f : Ctl → Ctl) : State :=
  let c := Ctl.settle s.ctl (f s.ctl)
  State.sendCtl { s with ctl := c }

/-- Run an effect at the units both dies have. -/
def State.onDie (s : State) (p : Place) (f : Die → Die) : State :=
  match p with
  | .ctl => s.onCtl fun c => c.onDie f
  | .agt w => s.onAgt w fun a => a.onDie f

/-- A die. -/
def State.die (s : State) : Place → Die
  | .ctl => s.ctl.die
  | .agt w => (s.agt w).die

/-- What a command answers. -/
abbrev Res := Host.Outcome State Fault Refusal

/-- Whether the controller has power, has left reset and has not begun its power-down, which stops its work (R532 to R536). -/
def Ctl.running (c : Ctl) : Bool := c.pwr.phase = 2

/-- The next state after an effect at an agent; an agent held in reset does nothing (R302). -/
def State.agtNext (s : State) (w : Who) (f : Agt → Agt) (busy : List Nat := []) : Res :=
  .next (if (s.agt w).pins.rstN then s.onAgt w f busy else s)

/-- The next state after an effect at the controller; without power, or before it has left reset, it does nothing. -/
def State.ctlNext (s : State) (f : Ctl → Ctl) : Res := .next (if s.ctl.running then s.onCtl f else s)

/-- The next state after an effect at the units both dies have. -/
def State.dieNext (s : State) (p : Place) (f : Die → Die) : Res :=
  match p with
  | .ctl => s.ctlNext fun c => c.onDie f
  | .agt w => s.agtNext w fun a => a.onDie f

/-! ## Fenced units -/

/-- What a unit of an agent's block does; a fenced unit takes no new work (R440). -/
def Agt.works (a : Agt) (blk : Nat) (f : Agt → Agt) : Agt := if a.die.blockFenced blk then a else f a

/-- What a unit of a controller's block does; a fenced unit takes no new work, and a function that is reinitialised is fenced until then
(R345, R440). -/
def Ctl.works (c : Ctl) (blk : Nat) (f : Ctl → Ctl) : Ctl := if c.die.blockFenced blk then c else f c

/-- What a unit that both dies have does. -/
def Die.works (d : Die) (blk : Nat) (f : Die → Die) : Die := if d.blockFenced blk then d else f d

/-! ## Commands that are writes of a register: a fenced block and the safe state turn them away (R440, R443) -/

/-- What a register write does that finds its block absent (R3), fenced or frozen, if it does. -/
def Die.turnsAway (d : Die) (blk : Nat) : Option Die :=
  match d.absentBlock blk with
  | some inst => some (d.raise (Ev.ABSENT_ACCESS blk) inst)
  | none =>
  if d.blockFenced blk then some (d.noteFenced blk) else if d.frozen blk then some d else none

/-- A write of an agent register with its effect. -/
def Agt.written (a : Agt) (blk : Nat) (f : Agt → Agt) : Agt :=
  match a.die.turnsAway blk with
  | some d => { a with die := d }
  | none => f a

/-- A write of a controller register with its effect. -/
def Ctl.written (c : Ctl) (blk : Nat) (f : Ctl → Ctl) : Ctl :=
  match c.die.turnsAway blk with
  | some d => { c with die := d }
  | none => f c

/-- A write of a register of a unit that both dies have. -/
def Die.written (d : Die) (blk : Nat) (f : Die → Die) : Die :=
  match d.turnsAway blk with
  | some d => d
  | none => f d

end Sys2Proof.Machine
end

