-- ==== Sys2Proof/Machine/Plumb.lean ====
section
/-! DEFINITION. Plumb time and courses (R161 to R188): probes, exchanges, the follower's states, the master, and the timing
pins. -/

namespace Sys2Proof.Machine

/-! ## Links -/

/-- u_w by reach class, ps (R172). -/
def defaultUw (reach : Nat) : Nat := match reach with
  | 0 => 4
  | 1 => 10
  | 2 => 40
  | _ => 2000

/-- A bond's Plumb record when its BOND row applies (R172). -/
def Link.new (reach : Nat) : Link :=
  { state := 0, d := 0, theta := 0, valid := 0, w := 0, uw := defaultUw reach, farState := 0, farSkew := 0, sentCur := 0, sentPrev := 0,
    rxLast := 0, rxEcho := 0, rxAge := 3, settle := 0, captured := none, drift := false, seen := false, missed := 0 }

/-- The asymmetry a of a bond, SQ15.16 ns, saturating (R42, R171). -/
def Agt.asym (a : Agt) (b : Bond) : Int := satS 32 (a.skew b.reach - b.link.farSkew + b.link.w)

/-- A stamp at the resolution of 2^-8 ns, in units of 2^-16 ns (R169): the nearest, ties to even (R41, log entry 65). -/
def stampOf (t : Nat) : Nat := (roundDivNE t 256).toNat * 256 % 2 ^ 80

/-- D_out and D_in of a bond in units of 2^-17 ns (R171): (d + a) and (d − a) read at half their unit. -/
def Agt.delays (a : Agt) (b : Bond) : Int × Int := ((b.link.d : Int) + a.asym b, (b.link.d : Int) - a.asym b)

/-- The one-way delay limit of a class, ns (R31). -/
def reachLimit (reach : Nat) : Int := match reach with
  | 0 => 30
  | 1 => 60
  | 2 => 120
  | _ => 1000

/-- Change a bond. -/
def Agt.modBond (a : Agt) (b : Nat) (f : Bond → Bond) : Agt := { a with fwd := { a.fwd with bonds := tmod a.fwd.bonds b f } }

/-- Change a bond's Plumb record. -/
def Agt.modLink (a : Agt) (b : Nat) (f : Link → Link) : Agt := a.modBond b fun x => { x with link := f x.link }

/-- A bond whose set of active lanes changed: its measurements are discarded for two probe periods (R170). -/
def Link.settling (l : Link) : Link := { l with state := 1, settle := 2 }

/-- Whether a bond is named by a COURSE entry. -/
def Agt.bondScheduled (a : Agt) (b : Nat) : Bool := a.fwd.course.any fun x => x.outBond = b || x.inBond = b

/-- 0.25 ns in units of 2^-17 ns. -/
def driftLimit : Int := 32768

/-- Check a bond's delays against their captured values (R185): raise once, and again only after both have returned. -/
def Agt.checkDrift (a : Agt) (n : Nat) : Agt :=
  match tget a.fwd.bonds n with
  | none => a
  | some b =>
    match b.link.captured with
    | none => a
    | some (o, i) =>
      let (o', i') := a.delays b
      let moved := decide ((o' - o).natAbs > driftLimit.natAbs) || decide ((i' - i).natAbs > driftLimit.natAbs)
      if moved && !b.link.drift && a.bondScheduled n then (a.modLink n fun l => { l with drift := true }).raise Ev.PLUMB_DELAY_DRIFT n
      else if !moved then a.modLink n fun l => { l with drift := false }
      else a

/-- Capture the delays of every bond (R185). -/
def Agt.captureDelays (a : Agt) : Agt :=
  a.fwd.bonds.foldl (fun a p => a.modLink p.1 fun l => { l with captured := some (a.delays p.2), drift := false }) a

/-! ## The follower -/

/-- PLB_STATUS.state: 0 INVALID, 1 ACQUIRING, 2 LOCKED, 3 HOLDOVER, 4 UNALIGNED. -/
def Agt.plbState (a : Agt) : Nat := a.die.fget Fl.PLB_STATUS_state
def Agt.parentInUse (a : Agt) : Nat := a.die.fget Fl.PLB_STATUS_parent_in_use

/-- Whether the last probe on a bond showed its sender chain_locked (R165). -/
def Agt.farChain (a : Agt) (b : Nat) : Bool := match tget a.fwd.bonds b with
  | some x => bitOf x.link.farState 3
  | none => false

/-- Whether the conditions of chain_locked hold (R174). -/
def Agt.chainNow (a : Agt) : Bool :=
  (a.plbState = 2 || a.plbState = 3) && (a.parentInUse = 0xFE || a.farChain a.parentInUse)
  && decide (a.die.bget Reg.PLB_BOUND 15 0 + 4 * a.die.bget Reg.PLB_WINDOW 15 8 ≤ 1250)

/-- Bring chain_locked up to date; PLUMB_UNALIGNED when it stops (R174). -/
def Agt.updateChain (a : Agt) : Agt :=
  let now := a.chainNow
  let was := a.chainLocked
  let a := a.onDie fun d => d.fset Fl.PLB_STATUS_chain_locked (b2n now)
  if was && !now then a.raise Ev.PLUMB_UNALIGNED else a

/-- Set the follower's state. -/
def Agt.setPlb (a : Agt) (st : Nat) : Agt :=
  a.onDie fun d => ((d.fset Fl.PLB_STATUS_state st).fset Fl.PLB_STATUS_in_window 0).fset Fl.PLB_STATUS_holdover_periods 0

/-- f and c of PLB_RATE. -/
def Agt.rateF (a : Agt) : Int := ofTwos 32 (a.die.bget Reg.PLB_RATE 63 32)

/-- Write f and c; the rate word takes effect from the next tick (R47). -/
def Agt.setRate (a : Agt) (f c : Int) : Agt :=
  a.onDie fun d => { (d.setN Reg.PLB_RATE (toTwos 32 c + toTwos 32 f * 2 ^ 32)) with clk := { d.clk with rate := c } }

/-- PLUMB_RATE_CLAMP where a value was clamped (R42, R175). -/
def Agt.noteClamp (a : Agt) (v : Int) : Agt := if satS 32 v = v then a else a.raise Ev.PLUMB_RATE_CLAMP

/-- The rate update of R175; each value that is clamped raises PLUMB_RATE_CLAMP (R42). -/
def Agt.rateUpdate (a : Agt) (theta : Int) : Agt :=
  let f0 := a.rateF - theta
  let f := satS 32 f0
  let c0 := f - 16 * theta
  ((a.setRate f (satS 32 c0)).noteClamp f0).noteClamp c0

/-- c of PLB_RATE. -/
def Agt.rateC (a : Agt) : Int := ofTwos 32 (a.die.bget Reg.PLB_RATE 31 0)

/-- Load time at the first exchange (R174): θ is in units of 2^-17 ns, the count in 2^-56 ns; f becomes 0, the rate word stays. -/
def Agt.loadTime (a : Agt) (theta : Int) : Agt :=
  let a := a.onDie fun d => { d with clk := { d.clk with count := (((d.clk.count : Int) - theta * 2 ^ 39) % 2 ^ 120).toNat } }
  a.setRate 0 a.rateC

/-- 2^20 ns in units of 2^-17 ns. -/
def farLimit : Nat := 2 ^ 37

/-- Whether an exchange lies in the window: 1,000 × |θ| ≤ window_ps × 2^17 (R174). -/
def Agt.inWindow (a : Agt) (theta : Int) : Bool := 1000 * theta.natAbs ≤ 2 ^ 17 * a.die.bget Reg.PLB_WINDOW 7 0

/-- The follower's reaction to a VALID exchange on the parent bond (R174, R175). -/
def Agt.follow (a : Agt) (b : Nat) (theta : Int) : Agt :=
  let chain := a.farChain b
  match a.plbState with
  | 0 => (a.loadTime theta).setPlb 1
  | 3 => if chain then a.setPlb 1 else a
  | st =>
    let a := a.rateUpdate theta
    if theta.natAbs > farLimit then
      let a := if st = 4 then a else a.setPlb 4
      a.raise Ev.PLUMB_FAR
    else if st = 4 then (if chain then a.setPlb 1 else a)
    else if st = 1 then
      if a.inWindow theta && chain then
        let n := a.die.fget Fl.PLB_STATUS_in_window + 1
        if n ≥ 8 then a.onDie fun d => (d.fset Fl.PLB_STATUS_state 2).fset Fl.PLB_STATUS_in_window 8
        else a.onDie fun d => d.fset Fl.PLB_STATUS_in_window n
      else a.onDie fun d => d.fset Fl.PLB_STATUS_in_window 0
    else if a.inWindow theta then a
    else ((a.setPlb 1).count Reg.PLB_CNT_SLIP).raise Ev.PLUMB_SLIP

/-- The parent and the alternates of PLB_PARENT. -/
def Agt.parentReg (a : Agt) : Nat := a.die.bget Reg.PLB_PARENT 7 0
def Agt.alternates (a : Agt) : List Nat :=
  [a.die.bget Reg.PLB_PARENT 15 8, a.die.bget Reg.PLB_PARENT 23 16].filter (· ≠ 0xFF)

/-- The parent bond: the parent in use; PLB_PARENT's before any is in use and once it is newly written, since a new parent takes effect
from the next exchange (R163). -/
def Agt.parentBond (a : Agt) : Nat := if a.parentInUse = 0xFF ∨ a.parentPending then a.parentReg else a.parentInUse

/-- Whether an exchange of offset θ on a bond steers the follower (R163, R174): one on the parent bond; in HOLDOVER also one on the
parent or an alternate of PLB_PARENT whose sender is chain_locked, in UNALIGNED if its |θ| is at most 2^20 ns besides. -/
def Agt.isParent (a : Agt) (b : Nat) (theta : Int) : Bool :=
  let named := a.parentReg = b || a.alternates.contains b
  b = a.parentBond
  || ((a.plbState = 3 || (a.plbState = 4 && decide (theta.natAbs ≤ farLimit))) && named && a.farChain b)

/-- Take a bond as the parent in use; a newly written parent waits for its own exchange (R163). -/
def Agt.useParent (a : Agt) (b : Nat) : Agt :=
  ({ a with parentPending := a.parentPending && b ≠ a.parentReg } : Agt).onDie fun d => d.fset Fl.PLB_STATUS_parent_in_use b

/-! ## Probes (R165 to R171) -/

/-- The first instant j × 65,536 + G/2 ns at or after a count, both in units of 2^-56 ns (R167). -/
def nextProbe (guard count : Nat) : Nat :=
  let offset := 2 ^ 55 * guard
  offset + 65536 * 2 ^ 56 * ceilDiv (count - offset) (65536 * 2 ^ 56)

/-- The guard of the geometry in force, 8 ns while none is (R167). -/
def Agt.guard (a : Agt) : Nat := match a.fwd.geom with
  | some g => g.guard
  | none => 8

/-- The probe instant of the agent's own fabric time that lies in its current reference tick, UQ64.16 (R45, R167). -/
def Agt.probeInstant (a : Agt) : Option Nat :=
  let k := a.die.clk
  let t := nextProbe a.guard k.count
  if t < tickCount k.count k.tick k.rate then some (t / 2 ^ 40) else none

/-- The 32 operand bytes of a probe on a bond, sent at `t`. -/
def Agt.probeOperand (a : Agt) (n : Nat) (l : Link) (t : Nat) : Bytes :=
  le 10 t ++ le 1 (a.plbState + b2n a.chainLocked * 8) ++ le 1 n ++ le 10 (if l.rxAge ≤ 1 then l.rxLast else 0)
  ++ le 10 (if l.rxAge ≤ 1 then l.rxEcho else 0)

/-- Send a probe on a bond at its instant: the output is held for it, by SLOT_HOLD's HOLD in switch mode and as an owned output in
endpoint mode (R153, R167). -/
def Agt.sendProbe (a : Agt) (n : Nat) (b : Bond) (t : Nat) : Agt :=
  let w := Agt.fwdWorm a { dst := b.farFid, op := 0xC1, mcast := 0, root := 0, bond := n, operand := [], payload := [],
                           block := 0, privilege := 0 }
  let w := a.stamp { w with operand := a.probeOperand n b.link t } 0 none 0 0 0
  let a := a.emitTx n w
  a.modLink n fun l => { l with sentPrev := l.sentCur, sentCur := t, rxAge := l.rxAge + 1, settle := l.settle - 1 }

/-- PROBE_SEND (R167, R174): at a probe instant, once, one probe on each bond with a far end and an active lane; a parent bond without
a VALID exchange counts a miss; HOLDOVER counts a period. An agent without a FID sends none. At a moment that is no probe instant
the command does nothing. -/
def Agt.probeSend (a : Agt) : Agt := match a.probeInstant with
  | none => a
  | some t =>
  if a.fid = 0x3FFFF ∨ a.lastProbe = some t then a
  else
    let a : Agt := { a with lastProbe := some t }
    let p := a.parentBond
    let missed := match tget a.fwd.bonds p with
      | some b => !b.link.seen
      | none => false
    let a := if missed then a.count Reg.PLB_CNT_PROBE_MISS else a
    let a : Agt := { a with fwd := { a.fwd with bonds := a.fwd.bonds.map fun x =>
        (x.1, { x.2 with link := { x.2.link with missed := if x.2.link.seen then 0 else x.2.link.missed + 1, seen := false } }) } }
    let a := if a.plbState = 3 then
        a.onDie fun d => d.fset Fl.PLB_STATUS_holdover_periods (satU 7 (d.fget Fl.PLB_STATUS_holdover_periods + 1))
      else a
    a.probeBonds.foldl (fun a x => a.sendProbe x.1 x.2 t) a

/-- Whether a probe's echo completes an exchange (R171). -/
def Link.echoes (l : Link) (echo : Nat) : Bool := echo ≠ 0 && (echo = l.sentCur || echo = l.sentPrev) && l.state ≠ 1

/-- The exchange's results: d and θ (R171). -/
def exchange (t1 t2 t3 t4 : Nat) (asym : Int) : Nat × Int :=
  let d21 : Int := (t2 : Int) - t1
  let d43 : Int := (t4 : Int) - t3
  (satU 48 (d21 + d43).toNat, d21 - d43 + asym)

/-- Take the results of an exchange on a bond: the record, the reach check of R31, the drift check of R185. -/
def Agt.tookExchange (a : Agt) (n d : Nat) (theta : Int) : Agt :=
  let a := a.modLink n fun l => { l with state := 2, d := d, theta := theta, valid := satU 16 (l.valid + 1), seen := true, missed := 0 }
  let a := match tget a.fwd.bonds n with
    | none => a
    | some b =>
      let (o, i) := a.delays b
      if max o i > 2 ^ 17 * reachLimit b.reach ∧ !b.reachFail then
        (a.modBond n fun b => { b with reachFail := true }).raise Ev.LINK_REACH_EXCEEDED n
      else a
  a.checkDrift n

/-- PROBE_RECEIVE (R166, R171): a probe on bond `n`, stamped t2. -/
def Agt.probeReceive (a : Agt) (n : Nat) (w : Worm) (t2 : Nat) : Agt :=
  if headerFault w (syndromeOf w) then a.count Reg.LKP_CNT_HDR_FAIL
  else if a.fid = 0x3FFFF then a
  else if w.dstFid ≠ a.fid then a.count Reg.PLB_CNT_PROBE_MISROUTE
  else match tget a.fwd.bonds n with
    | none => a
    | some b =>
      let t2 := stampOf t2
      let t1 := Worm.opnd w 0 10
      let rx := Worm.opnd w 12 10
      let echo := Worm.opnd w 22 10
      let far := Worm.opnd w 10 1 % 16
      let stopped := !(bitOf far 3) && (b.link.stopped || bitOf b.link.farState 3)
      let a := a.modLink n fun l => { l with farState := far, stopped := stopped, rxLast := t2, rxEcho := t1, rxAge := 0 }
      if b.link.echoes echo then
        let (d, theta) := exchange t1 t2 echo rx (a.asym b)
        let a := a.tookExchange n d theta
        let a := if a.isParent n theta then (a.useParent n).follow n theta else a
        a.updateChain
      else a.updateChain

/-- LINK_SETTLED (R170): the two probe periods are over. -/
def Agt.linkSettled (a : Agt) (n : Nat) : Agt :=
  a.modLink n fun l => if l.state = 1 ∧ l.settle = 0 then { l with state := 0 } else l

/-- PARENT_LOSS (R174): no VALID exchange in two periods, or the parent's probes stopped showing chain_locked. -/
def Agt.parentLoss (a : Agt) : Agt :=
  let p := a.parentBond
  let lost := match tget a.fwd.bonds p with
    | some b => decide (2 ≤ b.link.missed) || b.link.stopped
    | none => true
  if p ≥ 0xFE ∨ !lost ∨ ¬ (a.plbState = 1 ∨ a.plbState = 2) then a
  else
    let ok (n : Nat) : Bool := match tget a.fwd.bonds n with
      | some b => b.link.state = 2 && bitOf b.link.farState 3
      | none => false
    match (a.alternates.filter (· ≠ p)).find? ok with
    | some n => (((({ a with parentPending := false } : Agt).useParent n).count Reg.PLB_CNT_PARENT_SWITCH).raise Ev.PLUMB_PARENT_SWITCH n).updateChain
    | none => (((a.setPlb 3).setRate a.rateF a.rateF).raise Ev.PLUMB_HOLDOVER).updateChain

/-- HOLDOVER_EXPIRE (R174): hold_limit probe periods passed in HOLDOVER. -/
def Agt.holdoverExpire (a : Agt) : Agt :=
  if a.plbState = 3 ∧ a.die.fget Fl.PLB_STATUS_holdover_periods ≥ a.die.bget Reg.PLB_WINDOW 15 8 then (a.setPlb 4).updateChain else a

/-- PLB_CTL.reload (R175): not while the agent holds a tenant partition membership or COURSE entries. -/
def Agt.plbReload (a : Agt) : Agt :=
  if a.tenant.isSome ∨ !a.fwd.course.isEmpty then a.raise (Ev.LOCKED_WRITE Blk.PLB) else (a.setPlb 0).updateChain

/-- A write of PLB_PARENT (R163, R188): 0xFE names a parent only in embedded mode. -/
def Agt.writeParent (a : Agt) (val : Nat) : Agt :=
  let p := bitsOf val 7 0
  let keep := decide (p = 0xFE) && decide (a.mode ≠ 2)
  let a := a.onDie fun d => d.setN Reg.PLB_PARENT ((if keep then d.bget Reg.PLB_PARENT 7 0 else p) + bitsOf val 23 8 * 2 ^ 8)
  let a : Agt := { a with parentPending := a.parentPending || !keep }
  if keep then a.raise (Ev.WRITE_IGNORED Blk.PLB) else a.updateChain

/-- A write of PLB_BOUND. -/
def Agt.writeBound (a : Agt) (val : Nat) : Agt := (a.onDie fun d => d.setN Reg.PLB_BOUND (bitsOf val 15 0)).updateChain

/-- A write of PLB_WINDOW: a field outside its range is ignored (R188). -/
def Agt.writeWindow (a : Agt) (val : Nat) : Agt :=
  let win := bitsOf val 7 0
  let hold := bitsOf val 15 8
  let a := a.onDie fun d => if 8 ≤ win then d.bset Reg.PLB_WINDOW 7 0 win else d
  (a.onDie fun d => if 1 ≤ hold ∧ hold ≤ 64 then d.bset Reg.PLB_WINDOW 15 8 hold else d).updateChain

/-! ## The master (R161, R162) -/

/-- Whether the master follows the embedded agent. -/
def Ctl.follows (c : Ctl) : Bool := c.die.bget Reg.PLB_MASTER_CTL 0 0 = 1

/-- PLB_MASTER_CTL.lock (R162). -/
def Ctl.masterLock (c : Ctl) : Ctl := c.onDie fun d => (d.bset Reg.PLB_MASTER_CTL 8 8 1).fset Fl.CTL_LOCK_plumb 1

/-- A write of PLB_MASTER_CTL.mode (R161): the count and the rate word are kept. Leaving FOLLOW, PLB_MASTER_RATE takes the
copied rate word; the plumb tree is then rebuilt with the own embedded agent at its root (R164). -/
def Ctl.masterMode (c : Ctl) (val : Nat) : Ctl :=
  let c : Ctl := if c.follows && val % 2 = 0 then { c with sol := { c.sol with others := c.sol.others.filter (· ≠ 6) ++ [6] } } else c
  c.onDie fun d =>
    let d := if d.bget Reg.PLB_MASTER_CTL 0 0 = 1 ∧ val % 2 = 0 then d.setN Reg.PLB_MASTER_RATE (toTwos 32 d.clk.rate) else d
    d.bset Reg.PLB_MASTER_CTL 0 0 (val % 2)

/-- A write of the load value's high word (R162, R188): the load takes effect at the next tick. -/
def Ctl.masterLoad (c : Ctl) (lo hi : Nat) : Ctl :=
  if c.die.fget Fl.CTL_LOCK_plumb = 1 then c.raise (Ev.LOCKED_WRITE Blk.PLB)
  else
    let d := (c.die.setN Reg.PLB_MASTER_LOAD_LO lo).setN Reg.PLB_MASTER_LOAD_HI (bitsOf hi 15 0)
    { c with die := { d with clk := { d.clk with load := some (lo % 2 ^ 64 + bitsOf hi 15 0 * 2 ^ 64) } } }

/-- A write of PLB_MASTER_RATE: ignored in FOLLOW (R188); in force from the next tick (R47). -/
def Ctl.masterRate (c : Ctl) (val : Nat) : Ctl :=
  if c.follows then c
  else c.onDie fun d => { (d.setN Reg.PLB_MASTER_RATE (bitsOf val 31 0)) with clk := { d.clk with rate := ofTwos 32 (bitsOf val 31 0) } }

/-! ## Ticks (R45, R46) -/

/-- A counter after one reference tick: a pending load takes effect at it. -/
def Clk.step (k : Clk) : Clk :=
  match k.load with
  | some v => { k with count := v * 2 ^ 40 % 2 ^ 120, tick := k.tick + 1, load := none }
  | none => { k with count := tickCount k.count k.tick k.rate, tick := k.tick + 1 }

/-- A die after one reference tick. -/
def Die.tick (d : Die) : Die := { d with clk := d.clk.step }

/-! ## Tap counts (R414) -/

/-- Whether an agent holds structure of a tag (R415). -/
def Agt.holdsTag (a : Agt) (tag : Nat) : Bool :=
  (tget a.fwd.parts tag).isSome || a.fwd.course.any (fun x => x.partition = tag) || a.purl.descs.any (fun p => p.2.ent.partition = tag)
  || a.fwd.keyrefs.any (fun k => k.2.2.1 = tag)

/-- The tags whose structure an agent holds (R415). -/
def Agt.tagsHeld (a : Agt) : List Nat :=
  a.fwd.parts.map (·.1) ++ a.fwd.course.map (·.partition) ++ a.purl.descs.map (·.2.ent.partition) ++ a.fwd.keyrefs.map fun k => k.2.2.1

/-- Open an entry of a tag (R414, R415). -/
def Agt.openEntry (a : Agt) (tag : Nat) : Agt :=
  if a.tap.entries.any fun e => e.tag = tag && e.open_ then a
  else
    let n := tgetD a.tap.opens tag 0
    let e : TapEnt := { tag := tag, opn := n % 256, counts := [0, 0, 0, 0, 0], open_ := true, fwdOnly := !(a.holdsTag tag || a.tap.heldTags.contains tag), repeats := 0,
                        dirty0 := true, dirty1 := true }
    { a with tap := { a.tap with entries := a.tap.entries ++ [e], opens := tset a.tap.opens tag (n + 1) } }

/-- Count at the tap: field 0 injected, 1 delivered, 2 forwarded, 3 slot_ns, 4 purl_ops. -/
def Agt.tapCount (a : Agt) (tag field amount : Nat) : Agt :=
  let a := a.openEntry tag
  let up (e : TapEnt) : TapEnt :=
    { e with counts := (List.range 5).map fun k => if k = field then (e.counts.getD k 0 + amount) % 2 ^ 64 else e.counts.getD k 0,
             dirty0 := true, dirty1 := true }
  { a with tap := { a.tap with entries := a.tap.entries.map fun e => if e.tag = tag && e.open_ then up e else e } }

/-- slot_ns of the slots that ended between two times (R414): one S for each COURSE entry that acted in them. -/
def Agt.tapSlots (a : Agt) (t0 t1 : Nat) : Agt :=
  match a.fwd.geom with
  | none => a
  | some g =>
    let s := Geom.slotNs g
    if t0 / s = t1 / s then a
    else
      let ix := t1 / s - 1
      let n := ix / Geom.slots g
      let k := ix % Geom.slots g
      (a.fwd.course.filter fun x => x.slot = k && n % a.period x.partition = x.course).foldl
        (fun a x => a.tapCount x.partition 3 s) a

/-- An agent after one reference tick. -/
def Agt.tick (a : Agt) : Agt :=
  let t0 := a.die.ns
  let a := a.onDie Die.tick
  a.tapSlots t0 a.die.ns

/-- The embedded agent with parent 0xFE takes the master's time and rate and is LOCKED with a bound of 0 (R163). -/
def Agt.rootTick (a : Agt) (k : Clk) : Agt :=
  if a.parentReg ≠ 0xFE ∨ a.mode ≠ 2 then a
  else
    let a : Agt := { a with die := { a.die with clk := { a.die.clk with count := k.count, rate := k.rate } } }
    let a := a.useParent 0xFE
    let a := if a.plbState = 2 then a else a.setPlb 2
    a.updateChain

/-- The master after one reference tick: in FOLLOW it copies the embedded agent's time and rate word (R161), but at the tick after a
write of PLB_MASTER_LOAD_HI the load takes effect (R188); without REFCLK nothing counts (R541). -/
def Ctl.tick (c : Ctl) (e : Agt) : Ctl :=
  if !c.pwr.refclk then c
  else if c.follows && c.die.clk.load.isNone then
    let k : Clk := { c.die.clk with count := e.die.clk.count, tick := c.die.clk.tick + 1, rate := e.die.clk.rate }
    c.onDie fun d => { d with clk := k }
  else c.onDie Die.tick

/-! ## Pins (R186, R187) -/

/-- An edge on a trigger input, stamped at the resolution of R169: a queue of 16; an edge that finds it full is counted and lost. -/
def Die.trigger (d : Die) (stamp : Nat) : Die :=
  if d.trig.length < 16 then { d with trig := d.trig ++ [stampOf stamp] } else d.bsat Reg.PLB_TRIG_HI 47 32 1

/-- The course mark: high for 32 ns at each course boundary whose number is a multiple of 2^div_log2. -/
def Die.courseMark (d : Die) (name : String) (course : Nat) : Die :=
  if course % 2 ^ (min 16 (d.bget Reg.PLB_IO_CFG 4 0)) = 0 then (d.emit (.pin name true)).emit (.pin name false) else d

/-! ## The commands -/

/-- PROBE_SEND (R167). -/
def execProbeSend (w : Who) (s : State) : Res := s.agtNext w fun a => a.works Blk.PLB Agt.probeSend

/-- PROBE_RECEIVE (R171). -/
def execProbeReceive (w : Who) (bond : Nat) (wm : Worm) (t2 : Nat) (s : State) : Res := s.agtNext w fun a => a.works Blk.PLB fun a => a.probeReceive bond wm t2

/-- LINK_SETTLED (R170). -/
def execLinkSettled (w : Who) (bond : Nat) (s : State) : Res := s.agtNext w fun a => a.linkSettled bond

/-- PARENT_LOSS (R174). -/
def execParentLoss (w : Who) (s : State) : Res := s.agtNext w Agt.parentLoss

/-- HOLDOVER_EXPIRE (R174). -/
def execHoldoverExpire (w : Who) (s : State) : Res := s.agtNext w Agt.holdoverExpire

/-- PLB_RELOAD (R175). -/
def execPlbReload (w : Who) (s : State) : Res := s.agtNext w fun a => a.written Blk.PLB Agt.plbReload

/-- PLB_CLEAR_COUNTERS (R188). -/
def execPlbClearCounters (pl : Place) (s : State) : Res := s.dieNext pl fun d => d.written Blk.PLB (·.clearCounters Blk.PLB)

/-- PLB_PARENT_WRITE (R163). -/
def execPlbParentWrite (w : Who) (val : Word) (s : State) : Res := 
  s.agtNext w fun a => a.written Blk.PLB (·.writeParent val.toNat)

/-- MASTER_MODE_WRITE (R161). -/
def execMasterModeWrite (val : Word) (s : State) : Res := s.ctlNext fun c => c.written Blk.PLB (·.masterMode val.toNat)

/-- MASTER_LOCK (R162, R188). -/
def execMasterLock (s : State) : Res := s.ctlNext fun c => c.written Blk.PLB Ctl.masterLock

/-- The low word that a write of PLB_MASTER_LOAD_HI makes effective (R13): the one held of its path, or the last one held where the
path is not given. -/
def Die.heldLoad (d : Die) (path : Option Path) : Option HeldWrite :=
  d.held.reverse.find? fun h => decide (h.key = Reg.PLB_MASTER_LOAD_LO) && (path.isNone || path = some h.path)

/-- A write of PLB_MASTER_LOAD_HI (R13, R162): the low word held takes effect with it, and is held no more. -/
def Ctl.masterLoadOver (c : Ctl) (path : Option Path) (val : Nat) : Ctl :=
  match c.die.heldLoad path with
  | some h => (c.masterLoad h.val.toNat val).onDie fun d => { d with held := d.held.filter (· ≠ h) }
  | none => c.masterLoad (c.die.getN Reg.PLB_MASTER_LOAD_LO) val

/-- MASTER_LOAD (R162): the write of PLB_MASTER_LOAD_HI; the low word is the one last written. -/
def execMasterLoad (val : Word) (s : State) : Res := s.ctlNext fun c => c.written Blk.PLB (·.masterLoadOver none val.toNat)

/-- MASTER_RATE_WRITE (R47). -/
def execMasterRateWrite (val : Word) (s : State) : Res := s.ctlNext fun c => c.written Blk.PLB (·.masterRate val.toNat)

/-- TRIGGER_EDGE (R186, R187): at an agent only while PLUMB_IO is a trigger input. -/
def execTriggerEdge (pl : Place) (stamp : Nat) (s : State) : Res :=
  match pl with
  | .ctl => s.ctlNext fun c => c.onDie (·.trigger stamp)
  | .agt w => s.agtNext w fun a => if a.die.resource.plumbIo = 2 then a.onDie (·.trigger stamp) else a

/-- COURSE_MARK (R186, R187): at an agent only while PLUMB_IO is a course-mark output. -/
def execCourseMark (pl : Place) (course : Nat) (s : State) : Res :=
  match pl with
  | .ctl => s.ctlNext fun c => c.onDie (·.courseMark "PLUMB_REF_OUT" course)
  | .agt w => s.agtNext w fun a => if a.die.resource.plumbIo = 1 then a.onDie (·.courseMark "PLUMB_IO" course) else a

end Sys2Proof.Machine
end

