-- ==== Sys2Proof/Machine/Flow.lean ====
section
/-! DEFINITION. Flows at an endpoint agent (R134 to R141, R147 to R156, R265 to R272, R280 to R284, R393): sequences, windows,
the request tracker, completion groups, encryption, injection and ejection. -/

namespace Sys2Proof.Machine

/-! ## Worms the agent forms -/

/-- A worm with every field zero. -/
def emptyWorm : Worm :=
  { version := 0, cls := 0, epoch := 0, scheduled := 0, partition := 0, dstFid := 0, srcFid := 0, hopLimit := 0, mcast := 0,
    irack := 0, phase := 0, age := 0, length := 0, op := 0, keySlot := 0, cg := 0, offset := 0, headerCheck := 0, enc := 0,
    flowSeq := 0, reserved := 0, operand := List.replicate 32 0, payload := [], tag := [] }

/-- The RSP of an op that answers a REQ with a status (R106, R129), not yet stamped. -/
def replyTo (w : Worm) (op status reporter : Nat) : Worm :=
  { emptyWorm with op := op, dstFid := w.srcFid, cg := w.cg, partition := w.partition, flowSeq := w.flowSeq,
                   operand := le 1 status ++ (if op = 0x7F then le 1 w.op ++ le 2 0 ++ le 4 reporter ++ le 4 w.dstFid ++ List.replicate 20 0
                     else List.replicate 31 0) }

/-- The ERROR reply of this agent to a REQ (R129), stamped. -/
def Agt.errorReply (a : Agt) (w : Worm) (status : Nat) : Worm :=
  a.stamp (replyTo w 0x7F status a.fid) w.partition (tget a.fwd.parts w.partition) w.flowSeq 0 0

/-! ## Encryption of worms (R104, R393, R394) -/

/-- A head with the fields zeroed that change in flight (R104). -/
def stillHead (w : Worm) : Worm := { w with hopLimit := 0, phase := 0, headerCheck := 0, age := 0, epoch := 0 }

/-- The additional data of an encrypted worm (R104). -/
def wormAad (w : Worm) : Bytes := headBytes (stillHead w)

/-- The time field of a nonce (R393). -/
def nonceTime (ns : Nat) : Nat := ns / 64 % 2 ^ 44

/-- The nonce of a REQ or RSP (R393). -/
def flowNonce (w : Worm) (ns : Nat) : Bytes :=
  be 12 (w.cls * 2 ^ 94 + w.dstFid % 2 ^ 18 * 2 ^ 76 + w.flowSeq % 2 ^ 32 * 2 ^ 44 + nonceTime ns)

/-- The nonce of a COL worm of a run (R393). -/
def runNonce (bond slot course : Nat) : Bytes := be 12 (3 * 2 ^ 94 + bond % 256 * 2 ^ 86 + slot % 256 * 2 ^ 78 + course % 2 ^ 40)

/-- The engine takes the worm key of a slot and source: a miss is counted and the key cached; which cached key a full cache
gives up is not stated (R393, log entry 3). -/
def Agt.useKey (a : Agt) (slot src : Nat) : Agt :=
  if a.gcm.cache.contains (slot, src) then a
  else
    let a := a.count Reg.GCM_CNT_KEY_MISS
    if a.gcm.cache.length < 512 then { a with gcm := { a.gcm with cache := a.gcm.cache ++ [(slot, src)] } }
    else
      let (v, d) := a.die.freeVal
      { a with die := d, gcm := { a.gcm with cache := a.gcm.cache.eraseIdx (v.toNat % 512) ++ [(slot, src)] } }

/-- The key of a slot. -/
def Agt.slotKey (a : Agt) (slot : Nat) : Bytes := ((a.keySlot slot).map (·.key)).getD []

/-- Whether a traffic slot may no longer encrypt (R392). -/
def Agt.keyExpired (a : Agt) (slot : Nat) : Bool := match (a.keySlot slot).bind (·.activeNs) with
  | some t => a.die.ns ≥ t + (2 ^ 50 - 2 ^ 30)
  | none => false

/-- Whether a slot can encrypt: it is ACTIVE or RETIRING. -/
def Agt.keyUsable (a : Agt) (slot : Nat) : Bool := match a.keySlot slot with
  | some k => k.state ≥ 2
  | none => false

/-- Note a refusal under R392: counted, and the event once. -/
def Agt.noteExpired (a : Agt) : Agt :=
  let a := a.count Reg.GCM_CNT_KEY_EXPIRED
  if a.gcm.expired then a else ({ a with gcm := { a.gcm with expired := true } } : Agt).raise Ev.KEY_EXPIRED

/-- Encrypt a stamped worm under a nonce: its payload becomes the ciphertext and it carries the tag. -/
def Agt.encrypt (a : Agt) (w : Worm) (nonce : Bytes) : Worm :=
  let (c, t) := Config.gcmSeal (wormKey (a.slotKey w.keySlot) a.fid) nonce (wormAad w) (slice w.payload 0 (64 * w.length))
  { w with payload := c, tag := slice t 0 16 }

/-- Whether the tag of an arriving worm verifies under the slot it names. -/
def Agt.tagOk (a : Agt) (w : Worm) : Bool := a.keyUsable w.keySlot && Config.wormOk (a.slotKey w.keySlot) w.srcFid (wormAad w) w.payload w.tag

/-- An arriving worm decrypted: the trailer removed (R269). -/
def Agt.opened (a : Agt) (w : Worm) : Worm :=
  if w.enc = 1 then { w with payload := Config.wormPlain (a.slotKey w.keySlot) w.srcFid (wormAad w) w.payload, tag := [] } else w

/-- Whether an arriving worm is encrypted as its partition asks, under the partition's slot or one RETIRING for it (R135 step 2,
R391). -/
def Agt.sealedRight (a : Agt) (w : Worm) (p : PartEnt) : Bool :=
  if p.trafficSlot = 0xFF then w.enc = 0
  else
    w.enc = 1
    && (w.keySlot = p.trafficSlot || (match a.keySlot w.keySlot with
      | some k => k.state = 3 && k.partition = w.partition
      | none => false))
    && a.tagOk w

/-- Count what the engine did with an arriving encrypted worm. -/
def Agt.countDec (a : Agt) (w : Worm) (ok : Bool) : Agt :=
  if w.enc = 0 then a
  else if ok then (a.useKey w.keySlot w.srcFid).count Reg.GCM_CNT_DEC else a.count Reg.GCM_CNT_TAG_FAIL

/-! ## Watch timers that counts restart (R284) -/

/-- Restart every running timer of an owner. -/
def Agt.restartOwner (a : Agt) (owner : Nat) : Agt :=
  let now := a.die.up
  let again (p : Nat × Timer) : Nat × Timer :=
    if a.die.resource.timers.getD p.1 0 = owner ∧ p.2.startNs.isSome ∧ !p.2.expired then (p.1, { p.2 with startNs := some now }) else p
  { a with rcv := { a.rcv with timers := a.rcv.timers.map again } }

/-! ## Completion groups (R140, R280, R281) -/

/-- An n-bit count with a sticky saturation bit n (R140). -/
def stickyAdd (n v k : Nat) : Nat :=
  let c := v % 2 ^ n + k
  if c > 2 ^ n - 1 ∨ v ≥ 2 ^ n then 2 ^ n + min c (2 ^ n - 1) else c

/-- A group that nothing counted. -/
def CgCtx.zero : CgCtx := { bytes := 0, worms := 0, errors := 0, armSlot := 0, armed := false, fired := false }

/-- A group's context. -/
def Agt.cgCtx (a : Agt) (g : Nat) : CgCtx := (tget a.flow.cg g).getD CgCtx.zero

/-- Store a group's context. -/
def Agt.setCg (a : Agt) (g : Nat) (c : CgCtx) : Agt :=
  { a with flow := { a.flow with cg := if c = CgCtx.zero then tdel a.flow.cg g else tset a.flow.cg g c } }

/-- Whether a count has reached a target: none asked, reached, or saturated (R281). -/
def reached (n v target : Nat) : Bool := target = 0 || v ≥ 2 ^ n || v % 2 ^ n ≥ target

/-- Whether an arm fires (R281). -/
def Arm.fires (m : Arm) (c : CgCtx) : Bool := (reached 31 c.worms m.worms && reached 63 c.bytes m.bytes) || decide (c.errors > m.errors)

/-- The body of CG_VALUE and CG_EVENT (R275). -/
def cgBody (g : Nat) (c : CgCtx) : Bytes := le 4 g ++ le 4 0 ++ cgBytes c

/-- Fire a group's arm when its condition holds (R281). -/
def Agt.tryFire (a : Agt) (g : Nat) : Agt :=
  let c := a.cgCtx g
  match a.flow.arms.find? (fun p => p.2.group = g) with
  | none => a
  | some (k, m) =>
    if !(m.fires c) then a
    else
      let c : CgCtx := { c with armed := false, fired := true, armSlot := 0 }
      let a := a.setCg g c
      let a : Agt := { a with flow := { a.flow with arms := tdel a.flow.arms k } }
      (a.count Reg.AGT_CNT_CG_EVENTS).msg 0x82 0 0 (cgBody g c)

/-- Update a group's counts (R140): its arm may fire, and the timers of completion-group progress restart (R284). -/
def Agt.cgUpdate (a : Agt) (g bytes worms errors : Nat) : Agt :=
  if g ≥ 2 ^ 20 then a
  else
    let c := a.cgCtx g
    let c : CgCtx := { c with bytes := stickyAdd 63 c.bytes bytes, worms := stickyAdd 31 c.worms worms,
                              errors := min 0xFFFF (c.errors + errors) }
    let a := (a.setCg g c).tryFire g
    match a.tenant with
    | some (_, p) => if p.cgBase ≤ g ∧ g < p.cgBase + p.cgCount then a.restartOwner 3 else a
    | none => a

/-! ## Windows (R136, R137) -/

/-- What the window says of a sequence. -/
inductive Seen where
  | accept | duplicate | stale
  deriving DecidableEq, Repr

/-- The window after a sequence (R136). -/
def Window.take (w : Window) (s : Nat) : Window × Seen :=
  let up := (s + 2 ^ 32 - w.hs) % 2 ^ 32
  let back := (w.hs + 2 ^ 32 - s) % 2 ^ 32
  if 0 < up ∧ up < 2 ^ 31 then
    ({ w with hs := s, map := (true :: List.replicate (min (up - 1) 1023) false ++ w.map).take 1024 }, .accept)
  else if back < 1024 then
    if w.map.getD back false then (w, .duplicate) else ({ w with map := w.map.set back true }, .accept)
  else (w, .stale)

/-- The window of a source, a new one from its floor with every position marked (R137); the least recently used is evicted
into its floor when all 10,240 are in use. The window used becomes the most recently used. -/
def Agt.flowWindow (a : Agt) (src seq : Nat) : Agt × Seen :=
  match a.flow.windows.find? (fun w => w.src = src) with
  | some w =>
    let (w', v) := w.take seq
    ({ a with flow := { a.flow with windows := a.flow.windows.filter (fun x => x.src ≠ src) ++ [w'] } }, v)
  | none =>
    let a : Agt := match a.flow.windows with
      | old :: rest =>
        if a.flow.windows.length < 10240 then a
        else
          let f : Flow := { a.flow with windows := rest, floors := tset a.flow.floors old.src old.hs }
          ({ a with flow := f } : Agt).onDie (·.bsat Reg.LKP_WINDOWS 63 32 1)
      | [] => a
    let (w', v) := Window.take { src := src, hs := tgetD a.flow.floors src 0xFFFFFFFF, map := List.replicate 1024 true } seq
    ({ a with flow := { a.flow with windows := a.flow.windows ++ [w'] } }, v)

/-- Clear a sequence from the window of a source: the host answered ADDRESS (R135 step 6). -/
def Agt.unmark (a : Agt) (src seq : Nat) : Agt :=
  let f (w : Window) : Window :=
    if w.src = src ∧ (w.hs + 2 ^ 32 - seq) % 2 ^ 32 < 1024 then { w with map := w.map.set ((w.hs + 2 ^ 32 - seq) % 2 ^ 32) false } else w
  { a with flow := { a.flow with windows := a.flow.windows.map f } }

/-! ## The request tracker and reply space (R138, R150, R151) -/

/-- Flits reserved for replies now. -/
def Agt.reserved (a : Agt) : Nat := a.die.fget Fl.LKP_RSP_RESERVED_reserved_flits

/-- Set reserved_flits, keeping its high-water mark. -/
def Agt.setReserved (a : Agt) (n : Nat) : Agt :=
  a.onDie fun d =>
    let d := d.fset Fl.LKP_RSP_RESERVED_reserved_flits n
    if d.fget Fl.LKP_RSP_RESERVED_high_water < n then d.fset Fl.LKP_RSP_RESERVED_high_water n else d

/-- The reservation of a REQ (R150). -/
def replyFlits (w : Worm) : Nat := if w.op = 0x01 then 1 + ceilDiv (Worm.opnd w 0 4) 64 + w.enc else 1 + w.enc

/-- The fingerprint of a request (R138). -/
def fingerprint (w : Worm) : Bytes :=
  if w.enc = 1 then slice w.tag 0 16
  else le 8 (crc64xz ((headBytes (stillHead w)).take 32 ++ slice w.operand 0 32 ++ slice w.payload 0 (64 * w.length))) ++ le 8 0

/-- TRACKER_DONE (R276). -/
def Agt.trackerDone (a : Agt) (status tag reqTag result : Nat) : Agt := a.msg 0x84 status tag (le 4 reqTag ++ le 1 result)

/-- Complete an outstanding entry with a status other than a reply's: it becomes HELD, its group counts an error (R138 to
R140). -/
def Agt.completeEntry (a : Agt) (t : Track) (status : Nat) : Agt :=
  let a : Agt := { a with flow := { a.flow with tracker := replaceFirst (fun x => x = t) (fun x => { x with heldStatus := some status }) a.flow.tracker } }
  (a.cgUpdate t.cg 0 0 1).trackerDone 0 0 t.reqTag status

/-- TIMED_OUT for an entry: TIMEOUT for a read, TIMEOUT_UNKNOWN for a write or an atomic; its reservation is released (R138,
R151). -/
def Agt.timeOut (a : Agt) (t : Track) : Agt :=
  let a := (a.count Reg.LKP_CNT_TIMEOUT).setReserved (a.reserved - t.flits)
  a.completeEntry t (if t.op = 0x01 then 0x20 else 0x21)

/-- Whether a reply's op answers an entry's op (R138). -/
def answers (w : Worm) (op : Nat) : Bool :=
  match w.op with
  | 0x41 => op = 0x01
  | 0x42 => op = 0x02
  | 0x43 => op = 0x03 || op = 0x04
  | 0x7F => byteAt w.operand 1 = op
  | _ => false

/-- The outstanding entry a reply reaches (R138). -/
def Agt.entryFor (a : Agt) (w : Worm) : Option Track :=
  let dst := if w.op = 0x7F then Worm.opnd w 8 4 % 2 ^ 18 else w.srcFid
  a.flow.tracker.find? fun t =>
    t.heldStatus.isNone && t.partition = w.partition && t.seq = w.flowSeq && t.dst = dst && t.cg = w.cg && answers w t.op

/-! ## Ejection and the agent's own replies -/

/-- At most one EJECT_BACKPRESSURE per class per millisecond (R149). -/
def Agt.backpressure (a : Agt) (cls : Nat) : Agt :=
  if mayRaise (tget a.fwd.lastEject cls) a.die.up 1000000 then
    ({ a with fwd := { a.fwd with lastEject := tset a.fwd.lastEject cls a.die.up } } : Agt).raise Ev.EJECT_BACKPRESSURE cls
  else a

/-- Queue a reply in the error queue of a switch agent (R155). -/
def Agt.queueReply (a : Agt) (w : Worm) : Agt := { a with fwd := { a.fwd with errQ := a.fwd.errQ ++ [w] } }

/-- A reply enters the RSP holding register: its entry completes ARRIVED (R138 to R140, R151). -/
def Agt.takeReply (a : Agt) (w : Worm) (t : Track) : Agt :=
  let status := byteAt w.operand 0
  let good := decide (status ≤ 1)
  let keep := min t.flits (Worm.flits w)
  let a := a.setReserved (a.reserved - (t.flits - keep))
  let upd (x : Track) : Track := { x with heldStatus := some status }
  let tr := if good then removeFirst (fun x => x = t) a.flow.tracker else replaceFirst (fun x => x = t) upd a.flow.tracker
  let h : Holding := { wm := a.opened w, reqTag := t.reqTag, status := status }
  let a : Agt := { a with flow := { a.flow with tracker := tr, holding := tset a.flow.holding 1 h } }
  if !good then a.cgUpdate t.cg 0 0 1
  else if w.op = 0x41 then a.cgUpdate t.cg (Worm.opnd w 4 4) 1 0
  else a.cgUpdate t.cg 0 1 0

/-- An RSP whose output the host's answer does not free: bounced over steps 4 and 5 (R149); the second part tells a drop. -/
def Agt.ejectBounce (a : Agt) (w : Worm) (busy : List Nat) : Agt × Option Nat :=
  let a := (a.count Reg.LKP_CNT_EJECT_BOUNCE).backpressure w.cls
  if w.hopLimit = 0 then (a.countDrop 2, some 2)
  else
    let w' : Worm := { w with hopLimit := w.hopLimit - 1 }
    let a := (a.count Reg.LKP_CNT_BOUNCED).tapCount w.partition 2 (64 * (1 + w.length))
    match a.pick w.epoch 0xFF 0xFF 0xFF 0 busy with
    | some (b, d) => (a.sendOn { w' with headerCheck := recheck w w' } b d, none)
    | none => (a.countDrop 5, some 5)

/-- An RSP for this endpoint (R138, R149, R151). No entry holds partition 0. While the holding register is taken a reply is bounced
before its entry is looked for: the spec gives no order (log entry 61). -/
def Agt.ejectRsp (a : Agt) (w : Worm) (busy : List Nat) : Agt :=
  if w.partition = 0 then a.count Reg.LKP_CNT_LATE_ARRIVAL
  else
    let ok := w.enc = 0 || a.tagOk w
    let a := a.countDec w ok
    if !ok then a
    else if (tget a.flow.holding 1).isSome then (a.ejectBounce w busy).1
    else match a.entryFor w with
      | none => a.count Reg.LKP_CNT_LATE_ARRIVAL
      | some t =>
        let (forced, d) := a.die.takeWait Blk.LKP
        let a : Agt := { a with die := d }
        if forced ∨ t.deadline < a.die.up then (a.timeOut t).count Reg.LKP_CNT_LATE_ARRIVAL else a.takeReply w t

/-- Send a reply the agent formed and stamped (R153). R147 gives an endpoint no buffer for it: one that finds no free output is dropped
with NO_OUTPUT (log entry 63). -/
def Agt.sendReply (a : Agt) (w : Worm) (busy : List Nat) : Agt :=
  let a := a.count Reg.LKP_CNT_LOOKUPS
  match a.injectLookup w with
  | (w', .forward p s t m _) =>
    match a.pick w'.epoch p s t m busy with
    | some (b, d) =>
      let a := if w.op = 0x7F then a.count Reg.LKP_CNT_ERR_SENT else a
      a.sendOn { w' with headerCheck := recheck w w' } b d
    | none => a.countDrop 5
  | (w', .toAgent) => a.ejectRsp w' busy
  | (_, .drop st) => a.countDrop st
  | _ => a

/-- What a drop of a worm does beyond its count: a REQ is answered with an ERROR (R129). -/
def Agt.answerDrop (a : Agt) (w : Worm) (status : Nat) (busy : List Nat) : Agt :=
  if w.cls ≠ 0 then a
  else if a.isSwitch then
    if a.fwd.errQ.length < 64 then a.queueReply (a.errorReply w status) else a.count Reg.LKP_CNT_ERR_LOST
  else a.sendReply (a.errorReply w status) busy

/-- Drop a worm with a status of R130. -/
def Agt.dropWorm (a : Agt) (w : Worm) (status : Nat) (busy : List Nat) : Agt := (a.countDrop status).answerDrop w status busy

/-! ## Requests at their destination (R135) -/

/-- The reply op of a write or an atomic (R106). -/
def replyOp (op : Nat) : Nat := if op = 0x02 then 0x42 else 0x43

/-- Refuse a REQ at its destination: DUPLICATE in the request's own reply, any other status in an ERROR (log entry 10). -/
def Agt.refuseReq (a : Agt) (w : Worm) (status : Nat) (busy : List Nat) : Agt :=
  if status = 1 then
    let r := a.stamp (replyTo w (replyOp w.op) 1 a.fid) w.partition (tget a.fwd.parts w.partition) w.flowSeq w.keySlot w.enc
    if w.enc = 1 then
      let r := a.encrypt r (flowNonce r a.die.ns)
      (((a.useKey w.keySlot a.fid).count Reg.GCM_CNT_ENC)).sendReply r busy
    else a.sendReply r busy
  else a.sendReply (a.errorReply w status) busy

/-- The first of R135's steps 1 to 4 that a REQ fails: its status; the partition's entry when it passes. -/
def Agt.checkReq (a : Agt) (w : Worm) : Nat × Option PartEnt :=
  match a.tenant with
  | none => (6, none)
  | some (tag, p) =>
    if w.partition ≠ tag then (6, none)
    else if !(a.sealedRight w p) then (7, none)
    else if w.cg < p.cgBase ∨ p.cgBase + p.cgCount ≤ w.cg then (8, none)
    else if a.die.fget Fl.WCH_STATUS_bind_off = 1 then (9, none)
    else (0, some p)

/-- A REQ for this endpoint (R135, R149). The bounce of R149 stands after steps 1 to 4 and before the window: the spec gives it no
place among them (log entry 61). -/
def Agt.ejectReq (a : Agt) (w : Worm) (busy : List Nat) : Agt :=
  let (st, p) := a.checkReq w
  let a := if st = 6 then a else a.countDec w (st ≠ 7)
  if p.isNone then a.refuseReq w st busy
  else if (tget a.flow.holding 0).isSome then
    let (a, lost) := a.ejectBounce w busy
    match lost with
    | some s => a.answerDrop w s busy
    | none => a
  else
    let (a, v) := if w.op = 0x01 then (a, Seen.accept) else a.flowWindow w.srcFid w.flowSeq
    match v with
    | .duplicate => (a.count Reg.LKP_CNT_DUPLICATE).refuseReq w 1 busy
    | .stale => (a.count Reg.LKP_CNT_STALE).refuseReq w 0x0B busy
    | .accept =>
      let h : Holding := { wm := a.opened w, reqTag := 0, status := 0 }
      let f : Flow := { a.flow with holding := tset a.flow.holding 0 h, delivered := a.flow.delivered ++ [w],
                                    peers := if a.flow.peers.contains w.srcFid then a.flow.peers else a.flow.peers ++ [w.srcFid] }
      { a with flow := f }

/-- A COL worm for this endpoint (R149, R242, R384). -/
def Agt.ejectCol (a : Agt) (w : Worm) : Agt :=
  match a.tenant with
  | none => a
  | some (tag, p) =>
    if w.partition ≠ tag then a
    else
      let ok := a.sealedRight w p
      let a := a.countDec w ok
      if !ok then a
      else if (tget a.flow.holding 3).isSome then (a.count Reg.LKP_CNT_EJECT_DISCARD).backpressure 3
      else { a with flow := { a.flow with holding := tset a.flow.holding 3 { wm := a.opened w, reqTag := 0, status := 0 } } }

/-- Sink a worm addressed to this agent (R126, R269): FWD worms end in the agent's own units (`own`). -/
def Agt.eject (a : Agt) (w : Worm) (busy : List Nat) : Agt :=
  match w.cls with
  | 0 => a.ejectReq w busy
  | 1 => a.ejectRsp w busy
  | 2 => a.emit (.own w)
  | _ => a.ejectCol w

/-! ## Injection (R108, R139, R150, R271, R272) -/

/-- Return a credit of a class (R271), on the first module in use: the spec leaves the module open (log entry 69). -/
def Agt.giveCredit (a : Agt) (cls : Nat) : Agt :=
  let f := a.flow
  let f : Flow := match cls with
    | 0 => { f with credReq := f.credReq + 1 }
    | 1 => { f with credRsp := f.credRsp + 1 }
    | _ => { f with credCol := f.credCol + 1 }
  ({ a with flow := f } : Agt).emitCredit (a.modulesOf 2 ++ a.modulesOf 3).head? cls 1

/-- Refuse an injected worm (R272). -/
def Agt.refuseInject (a : Agt) (cls reqTag reason : Nat) : Agt :=
  ((a.count Reg.AGT_CNT_INJ_REFUSED).msg 0x85 0 0 (le 4 reqTag ++ le 1 cls ++ le 1 reason)).giveCredit cls

/-- The staged worms of REQ or RSP without their first. -/
def Agt.unstage (a : Agt) (cls : Nat) : Agt :=
  if cls = 0 then { a with flow := { a.flow with stReq := a.flow.stReq.drop 1 } }
  else { a with flow := { a.flow with stRsp := a.flow.stRsp.drop 1 } }

/-- The HELD entry a retry names (R139). -/
def Agt.heldEntry (a : Agt) (reqTag : Nat) : Option Track := a.flow.tracker.find? fun t => t.heldStatus.isSome && t.reqTag = reqTag

/-- A request-tracker entry for a REQ that is injected now (R138). -/
def Agt.track (a : Agt) (w : Worm) (reqTag injNs r : Nat) : Track :=
  { dst := w.dstFid, partition := w.partition, seq := w.flowSeq, op := w.op, cg := w.cg, reqTag := reqTag, injNs := injNs,
    deadline := a.die.up + a.effTimeout, fingerprint := fingerprint w, flits := r, heldStatus := none }

/-- Open an entry, or open again the HELD one that a retry names, and reserve its reply space (R138, R139, R150). -/
def Agt.openTrack (a : Agt) (t : Track) (old : Option Track) : Agt :=
  let f : Flow := match old with
    | some h => { a.flow with tracker := replaceFirst (fun x => x = h) (fun _ => t) a.flow.tracker }
    | none => { a.flow with tracker := a.flow.tracker ++ [t], seqs := tset a.flow.seqs t.dst ((t.seq + 1) % 2 ^ 32) }
  let a := ({ a with flow := f } : Agt).setReserved (a.reserved + t.flits)
  a.onDie fun d => if d.bget Reg.LKP_TRACKER 46 32 < f.tracker.length then d.bset Reg.LKP_TRACKER 46 32 f.tracker.length else d

/-- Send a formed REQ when it finds an entry, reply space and an output. -/
def Agt.launchReq (a : Agt) (w : Worm) (st : Staged) (old : Option Track) (injNs tag : Nat) (busy : List Nat) : Option Agt :=
  let r := replyFlits w
  if old.isNone ∧ a.flow.tracker.length ≥ 16384 then none
  else if a.reserved + r > a.die.fget Fl.LKP_RSP_SPACE_space_flits then none
  else
    let sent (a : Agt) : Agt :=
      let a := (a.unstage 0).openTrack (a.track w st.reqTag injNs r) old
      let a := if w.enc = 1 then a.count Reg.GCM_CNT_ENC else a
      ((a.tapCount tag 0 (64 * Worm.flits w)).giveCredit 0).count Reg.LKP_CNT_LOOKUPS
    match a.injectLookup w with
    | (w', .forward p s t m _) =>
      match a.pick w'.epoch p s t m busy with
      | some (b, d) => some ((sent a).sendOn { w' with headerCheck := recheck w w' } b d)
      | none => none
    | (w', .toAgent) => some ((sent a).ejectReq w' busy)
    | (w', .drop s) => some ((sent a).dropWorm w' s busy)
    | (w', _) => some ((sent a).dropWorm w' 4 busy)

/-- Try to inject the staged REQ (R150): none while it must wait for an output, an entry or reply space. -/
def Agt.tryReq (a : Agt) (st : Staged) (busy : List Nat) : Option Agt :=
  match a.tenant with
  | none => some ((a.unstage 0).refuseInject 0 st.reqTag 2)
  | some (tag, p) =>
    let enc := b2n (p.trafficSlot ≠ 0xFF)
    let old := if st.retry then a.heldEntry st.reqTag else none
    if a.die.fget Fl.WCH_STATUS_bind_off = 1 then some ((a.unstage 0).refuseInject 0 st.reqTag 3)
    else if st.retry ∧ old.isNone then some ((a.unstage 0).refuseInject 0 st.reqTag 5)
    else if enc = 1 ∧ a.keyExpired p.trafficSlot then some ((a.noteExpired.unstage 0).refuseInject 0 st.reqTag 7)
    else
      let seq := match old with
        | some t => t.seq
        | none => tgetD a.flow.seqs st.wm.dstFid 0
      let injNs := (old.map (·.injNs)).getD a.die.ns
      let w := a.stamp { st.wm with scheduled := 0 } tag (some p) seq (if enc = 1 then p.trafficSlot else 0) enc
      let w := if enc = 1 then a.encrypt w (flowNonce w injNs) else w
      let a := if enc = 1 then (a.useKey p.trafficSlot a.fid) else a
      match old with
      | some t =>
        if fingerprint w ≠ t.fingerprint then some ((((a.unstage 0).cgUpdate t.cg 0 0 1).trackerDone 0 0 t.reqTag 0x22).giveCredit 0)
        else a.launchReq w st old injNs tag busy
      | none => a.launchReq w st old injNs tag busy

/-- Try to inject the staged RSP: none while it waits for an output, or for its nonce's time field to move on (R394). -/
def Agt.tryRsp (a : Agt) (st : Staged) (busy : List Nat) : Option Agt :=
  match a.tenant with
  | none => some ((a.unstage 1).refuseInject 1 st.reqTag 2)
  | some (tag, p) =>
    let slot := st.wm.keySlot
    let enc := st.wm.enc
    if enc = 1 ∧ a.keyExpired slot then some ((a.noteExpired.unstage 1).giveCredit 1)
    else
      let w := a.stamp { st.wm with scheduled := 0 } tag (some p) st.wm.flowSeq slot enc
      let triple := (w.dstFid, w.flowSeq, nonceTime a.die.ns)
      if enc = 1 ∧ a.gcm.rsps.contains triple then none
      else
        let w := if enc = 1 then a.encrypt w (flowNonce w a.die.ns) else w
        let sent (a : Agt) : Agt :=
          let a := a.unstage 1
          let a := if enc = 1 then
              let g : Gcm := { a.gcm with rsps := (triple :: a.gcm.rsps).take 256 }
              (({ a with gcm := g } : Agt).useKey slot a.fid).count Reg.GCM_CNT_ENC
            else a
          ((a.tapCount tag 0 (64 * Worm.flits w)).giveCredit 1).count Reg.LKP_CNT_LOOKUPS
        match a.injectLookup w with
        | (w', .forward p s t m _) =>
          match a.pick w'.epoch p s t m busy with
          | some (b, d) =>
            let a := if w.op = 0x7F then a.count Reg.LKP_CNT_ERR_SENT else a
            some ((sent a).sendOn { w' with headerCheck := recheck w w' } b d)
          | none => none
        | (w', .toAgent) => some ((sent a).ejectRsp w' busy)
        | (_, .drop s) => some ((sent a).countDrop s)
        | _ => some ((sent a).countDrop 4)

/-- Note the first time a staged REQ waits for reply space (R150). -/
def Agt.noteWait (a : Agt) : Agt :=
  match a.flow.stReq with
  | [] => a
  | st :: rest =>
    let enc := b2n (((a.tenant.map (·.2.trafficSlot)).getD 0xFF) ≠ 0xFF)
    if st.waited ∨ a.reserved + replyFlits { st.wm with enc := enc } ≤ a.die.fget Fl.LKP_RSP_SPACE_space_flits then a
    else
      let f : Flow := { a.flow with stReq := { st with waited := true } :: rest }
      ({ a with flow := f } : Agt).count Reg.LKP_CNT_RSP_SPACE_WAIT

/-- Send what waits at injection and can be sent now: RSP, then FWD, then REQ (R153). -/
def Agt.pump (a : Agt) (busy : List Nat) : Agt :=
  let a := match a.flow.stRsp with
    | [] => a
    | st :: _ => (a.tryRsp st busy).getD a
  let a := a.flush busy
  match a.flow.stReq with
  | [] => a
  | st :: _ => (a.tryReq st busy).getD a.noteWait

/-- Whether length, operand and payload agree with the op (R106, R241). An op that no table lists agrees with none, so it is refused
with LENGTH: the spec names no reason for it (log entry 62). -/
def lengthOk (w : Worm) : Bool :=
  let n := Worm.opnd w 0 4
  let m := Worm.opnd w 4 4
  (match w.op with
  | 0x01 => w.length = 0 && 1 ≤ n && n ≤ 2048
  | 0x02 => w.length = ceilDiv n 64 && 1 ≤ n && n ≤ 2048
  | 0x03 | 0x04 => w.length = 0
  | 0x41 => w.length = ceilDiv m 64 && 1 ≤ m && m ≤ 2048
  | 0x42 | 0x43 | 0x7F => w.length = 0
  | 0xC2 => byteAt w.operand 12 = 0 || byteAt w.operand 12 = 3
  | _ => false) && ceilDiv w.payload.length 64 = w.length

/-- Whether the agent holds a FID a member of its partition: one that sent it a REQ under the partition is; what it knows of the others
the spec does not say, so that is open (R272, log entry 68). -/
def Agt.isMember (a : Agt) (fid : Nat) : Bool :=
  a.flow.peers.contains fid || Config.partitionMember ((a.tenant.map (·.1)).getD 0) fid

/-- The reason R272 refuses an injected worm for, tested in the order of its table; 0 for none. -/
def Agt.injectFault (a : Agt) (w : Worm) (cls reqTag : Nat) (retry : Bool) : Nat :=
  if cls ≤ 1 ∧ w.mcast ≠ 0 then 1
  else if a.tenant.isNone ∨ (cls = 1 ∧ !(a.isMember w.dstFid)) then 2
  else if cls = 0 ∧ a.die.fget Fl.WCH_STATUS_bind_off = 1 then 3
  else if cls = 3 ∧ !(a.fwd.course.any fun x => x.action = 1 && x.collective = Worm.opnd w 0 4) then 4
  else if cls = 0 ∧ retry ∧ (a.heldEntry reqTag).isNone then 5
  else if !(lengthOk w) then 6
  else 0

/-- What the host's answer to a delivered REQ does (R135 step 6, R140): the REQ it answers is taken off the list, first
application counts in its group, ADDRESS clears its window. -/
def Agt.hostAnswers (a : Agt) (w : Worm) : Agt × Option Worm :=
  match a.flow.delivered.find? (fun r => r.srcFid = w.dstFid && r.flowSeq = w.flowSeq && r.cg = w.cg) with
  | none => (a, none)
  | some r =>
    let a : Agt := { a with flow := { a.flow with delivered := removeFirst (fun x => x = r) a.flow.delivered } }
    let st := byteAt w.operand 0
    let a := if st = 0x0A then a.unmark r.srcFid r.flowSeq
      else if st = 0 ∧ r.op = 0x02 then a.cgUpdate r.cg (Worm.opnd r 0 4) 1 0
      else if st = 0 ∧ (r.op = 0x03 ∨ r.op = 0x04) then a.cgUpdate r.cg 0 1 0
      else a
    (a, some r)

/-- A unit discarded under R268, the event at most once a millisecond. -/
def Agt.unitError (a : Agt) : Agt :=
  let a := a.count Reg.AGT_CNT_UNIT_ERR
  if mayRaise a.fwd.lastUnitErr a.die.up 1000000 then
    ({ a with fwd := { a.fwd with lastUnitErr := some a.die.up } } : Agt).raise Ev.HIF_UNIT_ERROR
  else a

/-- Take a credit of a class; none when the host holds none (R271). -/
def Agt.takeCredit (a : Agt) (cls : Nat) : Option Agt :=
  let f := a.flow
  match cls with
  | 0 => if f.credReq = 0 then none else some { a with flow := { f with credReq := f.credReq - 1 } }
  | 1 => if f.credRsp = 0 then none else some { a with flow := { f with credRsp := f.credRsp - 1 } }
  | 3 => if f.credCol = 0 then none else some { a with flow := { f with credCol := f.credCol - 1 } }
  | _ => none

/-- Stage an injected worm that no rule refuses (R271); the agent fixes what it overwrites. -/
def Agt.stage (a : Agt) (w : Worm) (cls reqTag : Nat) (retry : Bool) : Agt :=
  let w : Worm := { w with cls := cls, mcast := 0, enc := 0, keySlot := 0, tag := [], payload := slice w.payload 0 (64 * w.length) }
  match cls with
  | 0 => { a with flow := { a.flow with stReq := a.flow.stReq ++ [{ wm := w, reqTag := reqTag, retry := retry, waited := false, since := a.die.time80 }] } }
  | 1 =>
    let (a, r) := a.hostAnswers w
    let pslot := (a.tenant.map (·.2.trafficSlot)).getD 0xFF
    let (enc, slot) := match r with
      | some r => (r.enc, if r.enc = 1 then r.keySlot else 0)
      | none => if pslot = 0xFF then (0, 0) else (1, pslot)
    let st : Staged := { wm := { w with enc := enc, keySlot := slot }, reqTag := reqTag, retry := false, waited := false }
    { a with flow := { a.flow with stRsp := a.flow.stRsp ++ [st] } }
  | _ =>
    let op := putOperand (slice w.operand 0 32) 13 (le 3 0 ++ le 3 1 ++ le 1 0)
    let st : Staged := { wm := { w with operand := op }, reqTag := reqTag, retry := false, waited := false, since := a.die.time80 }
    { a with flow := { a.flow with stCol := a.flow.stCol ++ [st] } }

/-- Whether the units of a worm may come as they came (R268): of one kind, on a module that carries it, in order, the worm no longer than
R102 permits. RX of a switch's LOCAL worm that is not scheduled crosses the control module (R273). -/
def Agt.unitsOk (a : Agt) (kind : Nat) (u : Units) (w : Worm) : Bool :=
  let fn := if kind = 2 && a.isSwitch && w.scheduled = 0 then 3 else 2
  u.tags.all (fun t => tagKind t = kind) && (a.modulesOf fn).contains u.modl && tagsInOrder u.tags && decide (w.length ≤ 32)

/-- INJECT (R268, R271, R272). -/
def Agt.inject (a : Agt) (w : Worm) (reqTag : Nat) (retry : Bool) (u : Units) (busy : List Nat) : Agt :=
  let cls := w.op / 64 % 4
  if !(a.unitsOk 5 u w) ∨ a.mode ≠ 0 then a.unitError
  else match a.takeCredit cls with
    | none => a.unitError
    | some a =>
      let a := a.count Reg.AGT_CNT_INJECTED
      let fault := a.injectFault w cls reqTag retry
      if fault ≠ 0 then a.refuseInject cls reqTag fault else (a.stage w cls reqTag retry).pump busy

end Sys2Proof.Machine
end

