-- ==== Sys2Proof/Machine/Endpoint.lean ====
section
/-! DEFINITION. The commands of the lookup, of an endpoint's data path and of its host interface (04, 05, 10). -/

namespace Sys2Proof.Machine

/-! ## The lookup channel (R115 to R118) -/

/-- A bond as a response names it: one that is DOWN reads 0xFF (R118, R320). -/
def Agt.outName (a : Agt) (b : Nat) : Nat := if a.bondDown b then 0xFF else b

/-- Send a lookup response (R118). -/
def Agt.respond (a : Agt) (inBond : Nat) (r : Response) : Agt :=
  let a : Agt := { a with tel := { a.tel with verdicts := match a.tel.verdicts, r.verdict with
    | [x, y, z], 1 => [x + 1, y, z]
    | [x, y, z], 2 => [x, y + 1, z]
    | [x, y, z], 3 => [x, y, z + 1]
    | l, _ => l } }
  a.emit (.verdict inBond r.bits)

/-- A response that lets a head pass (R118): its age, and the new hop_limit, phase and header_check. Fields to which the verdict gives
no meaning are zero (log entry 11). -/
def Agt.passing (a : Agt) (old w : Worm) : Response :=
  { age := a.ageOf w, hop := w.hopLimit, phase := w.phase, check := recheck old w }

/-- A DROP response: no field but the verdict has a meaning. -/
def Agt.respondDrop (a : Agt) (inBond : Nat) : Agt := a.respond inBond { verdict := 4 }

/-- Serve a lookup with its verdict (R115 to R118, R125, R129, R143, R181, R303, R414). -/
def Agt.serve (a : Agt) (inBond : Nat) (w w' : Worm) (v : Verdict) (noOutput : Bool) (mcastLost : Nat) : Agt :=
  let passed (a : Agt) : Agt := a.tapCount w.partition 2 (64 * (1 + w.length))
  let lost (a : Agt) : Agt := if noOutput then a.dropWorm w 5 [] else a
  match v with
  | .silent => (a.count Reg.LKP_CNT_HDR_FAIL).respondDrop inBond
  | .drop st => (a.respondDrop inBond).dropWorm w st []
  | .dropCounted k => (a.count k).respondDrop inBond
  | .eject | .toAgent | .toPurl _ _ => (a.respond inBond { verdict := 3 }).emit (.own w')
  | .scheduled b => lost (passed (a.respond inBond { a.passing w w' with verdict := 1, primary := b }))
  | .multicast dims down own =>
    let a := passed (a.respond inBond { a.passing w w' with verdict := 2, dims := dims, down := b2n down })
    let a := a.onDie fun d => d.countN Reg.LKP_CNT_MCAST_DROP mcastLost
    if own then a.emit (.own { w' with headerCheck := recheck w w' }) else a
  | .forward p s t m _ => 
    lost (passed (a.respond inBond { a.passing w w' with verdict := 0, mask := m, primary := a.outName p, secondary := a.outName s,
                                                         alternate := a.outName t }))

/-- LOOKUP_REQUEST (R115, R117): the agent decides by the 16 bytes of the request alone. -/
def Agt.lookupRequest (a : Agt) (inBond : Nat) (w : Worm) (syndrome : Nat) (noOutput : Bool) (mcastLost : Nat) : Agt :=
  if !a.pins.rstN ∨ !a.isSwitch then a
  else
    let a := a.count Reg.LKP_CNT_LOOKUPS
    if a.fid = 0x3FFFF then a.serve inBond w w (a.lookupUnnamed w inBond syndrome) noOutput mcastLost
    else
      let (w', v) := a.lookupOf (requestBits w inBond syndrome) w
      a.serve inBond w w' v noOutput mcastLost

/-- LOOKUP_REQUEST. -/
def execLookupRequest (w : Who) (inBond : Nat) (wm : Worm) (syndrome : Nat) (noOutput : Bool) (mcastLost : Nat) (s : State) : Res :=
  s.agtNext w fun a => a.lookupRequest inBond wm syndrome noOutput mcastLost

/-- ERROR_QUEUE_SEND (R155, R274): the oldest reply leaves on an output, or the host discards it for want of one. -/
def Agt.errorQueueSend (a : Agt) (taken : Bool) : Agt :=
  match a.fwd.errQ with
  | [] => a
  | w :: rest =>
    let a : Agt := { a with fwd := { a.fwd with errQ := rest } }
    if !taken then a.count Reg.LKP_CNT_NO_OUTPUT
    else (a.count Reg.LKP_CNT_ERR_SENT).emitTx 0xFE w

/-- ERROR_QUEUE_SEND. -/
def execErrorQueueSend (w : Who) (taken : Bool) (s : State) : Res := s.agtNext w fun a => a.errorQueueSend taken

/-! ## Arrivals at an endpoint (R126, R269) -/

/-- What an endpoint does with an arriving worm once it is looked up. -/
def Agt.act (a : Agt) (w w' : Worm) (v : Verdict) (busy : List Nat) : Agt :=
  match v with
  | .silent => a.count Reg.LKP_CNT_HDR_FAIL
  | .drop st => a.dropWorm w st busy
  | .dropCounted k => a.count k
  | .eject => a.eject w' busy
  | .toAgent => a.eject w' busy
  | .toPurl _ _ | .scheduled _ | .multicast _ _ _ => a.dropWorm w 4 busy
  | .forward p s t m _ =>
    let a := (a.count Reg.LKP_CNT_BOUNCED).tapCount w.partition 2 (64 * (1 + w.length))
    match a.pick w'.epoch p s t m busy with
    | some (b, d) => a.sendOn { w' with headerCheck := recheck w w' } b d
    | none => a.dropWorm w 5 busy

/-- RX_WORM (R115, R126, R268, R269, R303): a worm from the bond its units name. A probe goes to the Plumb unit in place of the lookup
(R166), a worm that a switch agent receives was already looked up and goes to its unit (R273). -/
def Agt.rxWorm (a : Agt) (u : Units) (w : Worm) (busy : List Nat) : Agt :=
  if !a.pins.rstN then a
  else if !(a.unitsOk 2 u w) then a.unitError
  else if w.op = 0xC1 ∨ a.isSwitch then a.emit (.own w)
  else
    let inBond := tagBond (u.tags.getD 0 0)
    let a := a.count Reg.LKP_CNT_LOOKUPS
    if a.fid = 0x3FFFF then a.act w w (match a.lookupUnnamed w inBond (syndromeOf w) with
      | .toAgent => .eject
      | v => v) busy
    else
      let (w', v) := a.lookupArrive w inBond (syndromeOf w)
      a.act w w' v busy

/-- RX_WORM. -/
def execRxWorm (w : Who) (units : Units) (wm : Worm) (busy : List Nat) (s : State) : Res :=
  s.agtNext w (fun a => a.rxWorm units wm busy) busy

/-- INJECT. -/
def execInject (w : Who) (wm : Worm) (reqTag : Nat) (retry : Bool) (units : Units) (busy : List Nat) (s : State) : Res :=
  s.agtNext w (fun a => a.inject wm reqTag retry units busy) busy

/-- REQ_INJECT_DEFERRED (R150): what waits in the stagings is tried again. -/
def execReqInjectDeferred (w : Who) (busy : List Nat) (s : State) : Res := s.agtNext w (fun a => a.pump busy) busy

/-- REQUEST_TIMEOUT (R138, R343): the outstanding entry of a request tag whose deadline has passed, or whose wait FLC_INJECT
made come out TIMED_OUT (R444). -/
def Agt.requestTimeout (a : Agt) (reqTag : Nat) : Agt :=
  match a.flow.tracker.find? (fun t => t.heldStatus.isNone && t.reqTag = reqTag) with
  | none => a
  | some t =>
    if t.deadline ≤ a.die.up then a.timeOut t
    else
      let (forced, d) := a.die.takeWait Blk.LKP
      if forced then ({ a with die := d } : Agt).timeOut t else a

/-- REQUEST_TIMEOUT. -/
def execRequestTimeout (w : Who) (reqTag : Nat) (s : State) : Res := s.agtNext w fun a => a.requestTimeout reqTag

/-- Whether a worm of a class waits at injection, and the class's stall counter (R158). -/
def Agt.stalled (a : Agt) (cls : Nat) : Option Nat :=
  match cls with
  | 0 => if a.flow.stReq.isEmpty then none else some Reg.LKP_CNT_INJ_STALL_REQ
  | 1 => if a.flow.stRsp.isEmpty then none else some Reg.LKP_CNT_INJ_STALL_RSP
  | 2 => if a.fwd.waiting.isEmpty then none else some Reg.LKP_CNT_INJ_STALL_FWD
  | _ => none

/-- INJ_STALL_INTERVAL (R158): 256 ns in which a worm of the class was ready at injection and not sent. -/
def execInjStallInterval (w : Who) (cls : Nat) (s : State) : Res :=
  s.agtNext w fun a => match a.stalled cls with
    | some k => a.count k
    | none => a

/-! ## Presentation (R148, R270) -/

/-- The bit of AGT_HIF_STATUS.open_presentations of a class: REQ, RSP, COL. -/
def presentBit (cls : Nat) : Nat := if cls = 3 then 2 else cls

/-- Whether a presentation of a class is open. -/
def Agt.presentOpen (a : Agt) (cls : Nat) : Bool := bitOf (a.die.fget Fl.AGT_HIF_STATUS_open_presentations) (presentBit cls)

/-- Open or close a class's presentation. -/
def Agt.setPresent (a : Agt) (cls : Nat) (v : Bool) : Agt :=
  a.onDie fun d => d.fset Fl.AGT_HIF_STATUS_open_presentations
    (putBits (d.fget Fl.AGT_HIF_STATUS_open_presentations) (presentBit cls) (presentBit cls) (b2n v))

/-- Open a presentation of a class on a module, the rotation moving on, or close it (R270). -/
def Agt.openPresent (a : Agt) (cls modl : Nat) : Agt :=
  let f : Flow := { a.flow with presenting := tset a.flow.presenting cls (modl, false), presentNext := a.flow.presentNext + 1 }
  ({ a with flow := f } : Agt).setPresent cls true
def Agt.closePresent (a : Agt) (cls : Nat) : Agt :=
  ({ a with flow := { a.flow with presenting := tdel a.flow.presenting cls } } : Agt).setPresent cls false

/-- Tags of the units of a presented worm: an RSP's carry its tracker status and request tag (R267, R276). -/
def Holding.tags (h : Holding) (cls : Nat) : List Nat :=
  unitTags 3 0xFF cls (if cls = 1 then h.status else 0) (if cls = 1 then h.reqTag else 0) (1 + ceilDiv h.wm.payload.length 64)

/-- PRESENT_START (R270, R285): the head unit of the worm in a class's holding register, while the host is ready and no
presentation of the class is open, on the next data module of the rotation. -/
def Agt.presentStart (a : Agt) (cls : Nat) : Agt :=
  match tget a.flow.holding cls with
  | none => a
  | some h =>
    if a.presentOpen cls ∨ a.die.fget Fl.AGT_HIF_STATUS_host_ready = 0 then a
    else match a.bondModule a.flow.presentNext with
      | some k => ((a.openPresent cls k).count Reg.AGT_CNT_PRESENTED).emit (.present k ((h.tags cls).headD 0) { h.wm with payload := [] })
      | none => a

/-- PRESENT_START. -/
def execPresentStart (w : Who) (cls : Nat) (s : State) : Res := s.agtNext w fun a => a.presentStart cls

/-- ACCEPT on the module of the presented head (R270, R414): the remaining units follow and the holding register is free. -/
def Agt.accept (a : Agt) (cls : Nat) : Agt :=
  match tget a.flow.holding cls with
  | none => a
  | some h =>
    if !(a.presentOpen cls) then a
    else
      let k := (tgetD a.flow.presenting cls (0, false)).1
      let a := (a.closePresent cls).emit (.presentRest k ((h.tags cls).drop 1) h.wm.payload)
      let a : Agt := { a with flow := { a.flow with holding := tdel a.flow.holding cls } }
      a.tapCount h.wm.partition 1 (64 * Worm.flits h.wm)

/-- ACCEPT. -/
def execAccept (w : Who) (cls : Nat) (s : State) : Res := s.agtNext w fun a => a.accept cls

/-- ACCEPT_LATE (R270): the head stays presented and counts once. -/
def Agt.acceptLate (a : Agt) (cls : Nat) : Agt :=
  match tget a.flow.presenting cls with
  | some (k, false) =>
    ({ a with flow := { a.flow with presenting := tset a.flow.presenting cls (k, true) } } : Agt).count Reg.AGT_CNT_ACCEPT_LATE
  | _ => a

/-- ACCEPT_LATE. -/
def execAcceptLate (w : Who) (cls : Nat) (s : State) : Res := s.agtNext w fun a => a.acceptLate cls

/-! ## Holds and the mask mirror (R119, R120, R277) -/

/-- Whether a slot is the plumb slot (R167, R168): slot 0 of a course that begins at a multiple of 65,536 ns; while no geometry is in
force, slot 0 of every probe period. -/
def Agt.isPlumbSlot (a : Agt) (course slot : Nat) : Bool := slot = 0 && (match a.fwd.geom with
  | some g => course * Geom.courseNs g % 65536 = 0
  | none => true)

/-- SLOT_HOLD (R119, R167, R178, R321): a HOLD for every output that a FORWARD or EMIT slot of the course owns, none for a bond that is
DOWN; in the plumb slot one for every bond that a probe leaves on. -/
def Agt.slotHold (a : Agt) (course slot lead : Nat) : Agt :=
  if !a.isSwitch ∨ lead < 96 ∨ 1000 < lead then a
  else
    let own := a.fwd.course.filter fun x =>
      (x.action = 2 || x.action = 5) && x.slot = slot && course % a.period x.partition = x.course && !(a.bondDown x.outBond)
    let probes := if a.isPlumbSlot course slot then a.probeBonds.map (·.1) else []
    (own.map (·.outBond) ++ probes).foldl (fun a b => a.emit (.hold b lead)) a

/-- SLOT_HOLD. -/
def execSlotHold (w : Who) (course slot lead : Nat) (s : State) : Res := s.agtNext w fun a => a.slotHold course slot lead

/-- MIRROR_ACK (R277): the write it names is no longer awaited. -/
def execMirrorAck (w : Who) (copy first count : Nat) (s : State) : Res :=
  s.agtNext w (·.hears fun a =>
    { a with fwd := { a.fwd with mirrorWait := removeFirst (fun x => x = (copy, first, count)) a.fwd.mirrorWait } })

/-- LKP_LOCK (R144). -/
def execLkpLock (w : Who) (s : State) : Res := 
  s.agtNext w fun a => a.written Blk.LKP (·.onDie (·.fset Fl.LKP_STATUS_locked 1))

/-- Clear the LKP counters; the high-water mark of the reply space starts again (R144, R159). -/
def Agt.lkpClear (a : Agt) : Agt :=
  (a.onDie (·.clearCounters Blk.LKP)).onDie fun d => d.fset Fl.LKP_RSP_RESERVED_high_water (d.fget Fl.LKP_RSP_RESERVED_reserved_flits)

/-- LKP_CLEAR_COUNTERS. -/
def execLkpClearCounters (w : Who) (s : State) : Res := s.agtNext w fun a => a.written Blk.LKP Agt.lkpClear

/-! ## Host messages (R152, R275 to R283) -/

/-- RSP_SPACE_RETURN (R152). -/
def Agt.rspSpaceReturn (a : Agt) (flits : Nat) : Agt :=
  if flits > a.reserved then (a.setReserved 0).raise Ev.RSP_SPACE_UNDERFLOW else a.setReserved (a.reserved - flits)

/-- RSP_SPACE_RETURN. -/
def execRspSpaceReturn (w : Who) (flits : Nat) (s : State) : Res := s.agtNext w (·.hears (·.rspSpaceReturn flits))

/-- CG_READ (R275). -/
def Agt.cgRead (a : Agt) (msgTag g : Nat) : Agt :=
  if g ≥ 2 ^ 20 then a.msg 0x81 1 msgTag (cgBody g CgCtx.zero) else a.msg 0x81 0 msgTag (cgBody g (a.cgCtx g))

/-- CG_READ. -/
def execCgRead (w : Who) (msgTag group : Nat) (s : State) : Res := s.agtNext w (·.hears (·.cgRead msgTag group))

/-- ARM_RESULT. -/
def Agt.armResult (a : Agt) (status tag g slot : Nat) : Agt := a.msg 0x83 status tag (le 4 g ++ le 1 slot)

/-- CG_ARM (R280, R281). -/
def Agt.cgArm (a : Agt) (msgTag g tw tb : Nat) : Agt :=
  let free := (List.range 256).find? fun k => (tget a.flow.arms k).isNone
  let c := a.cgCtx g
  if g ≥ 2 ^ 20 then a.armResult 1 msgTag g 0
  else if c.armed then a.armResult 3 msgTag g c.armSlot
  else match free with
    | none => a.armResult 3 msgTag g 0
    | some k =>
      let m : Arm := { group := g, worms := tw, bytes := tb, errors := c.errors }
      let a := a.setCg g { c with armed := true, fired := false, armSlot := k }
      let a : Agt := { a with flow := { a.flow with arms := tset a.flow.arms k m } }
      let a := a.onDie fun d =>
        if d.bget Reg.AGT_CG_ARMS 24 16 < a.flow.arms.length then d.bset Reg.AGT_CG_ARMS 24 16 a.flow.arms.length else d
      (a.armResult 0 msgTag g k).tryFire g

/-- CG_ARM. -/
def execCgArm (w : Who) (msgTag group targetWorms targetBytes : Nat) (s : State) : Res :=
  s.agtNext w (·.hears (·.cgArm msgTag group targetWorms targetBytes))

/-- Zero a group's counts and free its arm without an event (R281). -/
def Agt.clearCg (a : Agt) (g : Nat) : Agt :=
  let a : Agt := { a with flow := { a.flow with arms := a.flow.arms.filter fun p => p.2.group ≠ g } }
  a.setCg g CgCtx.zero

/-- CG_CLEAR (R281). -/
def Agt.cgClear (a : Agt) (msgTag g : Nat) : Agt :=
  if g ≥ 2 ^ 20 then a.armResult 1 msgTag g 0 else (a.clearCg g).armResult 0 msgTag g 0

/-- CG_CLEAR. -/
def execCgClear (w : Who) (msgTag group : Nat) (s : State) : Res := s.agtNext w (·.hears (·.cgClear msgTag group))

/-- REQ_RELEASE (R276). -/
def Agt.reqRelease (a : Agt) (msgTag reqTag : Nat) : Agt :=
  match a.heldEntry reqTag with
  | none => a.trackerDone 3 msgTag reqTag 0
  | some t =>
    let f : Flow := { a.flow with tracker := removeFirst (fun x => x = t) a.flow.tracker }
    ({ a with flow := f } : Agt).trackerDone 0 msgTag reqTag 0

/-- REQ_RELEASE. -/
def execReqRelease (w : Who) (msgTag reqTag : Nat) (s : State) : Res := s.agtNext w (·.hears (·.reqRelease msgTag reqTag))

/-! ## Measurement registers (R282, R283) -/

/-- Extend a measurement register (R283). -/
def Agt.extendMsr (a : Agt) (i kind partition : Nat) (digest : Bytes) : Agt :=
  let old := (tget a.msr i).getD { value := 0, lastSeq := 0, count := 0 }
  let seq := a.die.getN Reg.MSR_SEQ + 1
  let m : Msr := { value := Config.shake256 (digestBytes old.value ++ le 1 i ++ le 4 kind ++ le 2 partition ++ slice digest 0 64),
                   lastSeq := seq, count := old.count + 1 }
  ({ a with msr := tset a.msr i m } : Agt).onDie (·.setN Reg.MSR_SEQ seq)

/-- Whether the host's extend of a register is refused (R283). -/
def Agt.extendDenied (a : Agt) (i partition : Nat) : Bool :=
  if i < 4 then true
  else if i < 8 then a.msr.any fun p => decide (8 ≤ p.1)
  else match a.tenant with
    | none => true
    | some (tag, _) => tag ≠ partition

/-- EXTEND_RESULT. -/
def Agt.extendResult (a : Agt) (status tag i seq : Nat) : Agt := a.msg 0x8C status tag (le 1 i ++ List.replicate 7 0 ++ le 8 seq)

/-- MSR_EXTEND (R283). -/
def Agt.msrExtend (a : Agt) (msgTag i partition kind : Nat) (digest : Digest) : Agt :=
  if i ≥ 16 then a.extendResult 1 msgTag i 0
  else if a.extendDenied i partition then (a.count Reg.AGT_CNT_MSG_DENIED).extendResult 2 msgTag i (((tget a.msr i).map (·.lastSeq)).getD 0)
  else
    let a := a.extendMsr i kind partition (digestBytes digest)
    a.extendResult 0 msgTag i (a.die.getN Reg.MSR_SEQ)

/-- MSR_EXTEND. -/
def execMsrExtend (w : Who) (msgTag register partition kind : Nat) (digest : Digest) (s : State) : Res :=
  s.agtNext w (·.hears (·.msrExtend msgTag register partition kind digest))

/-! ## Other host messages -/

/-- PHY_RESULT (R278): the value goes to the firmware that asked. -/
def execPhyResult (w : Who) (val : Word) (s : State) : Res := s.agtNext w (·.hears (·.emit (.irq "phy_result" val.toNat)))

/-- UNKNOWN_MESSAGE (R275): answered by REG_VALUE with UNKNOWN_TYPE. -/
def execUnknownMessage (w : Who) (_mtype msgTag : Nat) (s : State) : Res :=
  s.agtNext w (·.hears fun a => (a.count Reg.AGT_CNT_MSG_DENIED).msg 0x89 5 msgTag (le 4 0 ++ le 4 0 ++ le 8 0))

/-- AGT_HIF_CLEAR_COUNTERS (R288). -/
def execAgtHifClearCounters (w : Who) (s : State) : Res := s.agtNext w fun a => a.written Blk.AGT (·.onDie (·.clearCounters Blk.AGT))

end Sys2Proof.Machine
end

