-- ==== Sys2Proof/Machine/Tap.lean ====
section
/-! DEFINITION. The meter tap's records (R413 to R417). -/

namespace Sys2Proof.Machine

/-- A tap entry's 48 bytes (R416). -/
def TapEnt.bytes (e : TapEnt) : Bytes :=
  le 2 e.tag ++ le 1 e.opn ++ le 1 (b2n (!e.open_) + 2 * b2n e.fwdOnly) ++ le 4 0 ++ (List.range 5).flatMap fun k => le 8 (e.counts.getD k 0)

/-- Store a slot of the tap. -/
def Tap.setSlot (t : Tap) (i : Nat) (s : TapSlot) : Tap := if i = 0 then { t with slot0 := s } else { t with slot1 := s }

/-- Whether an entry changed since the last record of a slot. -/
def TapEnt.dirty (e : TapEnt) (i : Nat) : Bool := if i = 0 then e.dirty0 else e.dirty1

/-- Whether energy is measured (R414). -/
def Tap.energyOn (t : Tap) : Bool := t.cfg.any fun e => bitOf e.flags 0

/-- Send a record of some entries under a slot (R416). -/
def Agt.tapRecord (a : Agt) (i kind interval : Nat) (es : List TapEnt) : Agt :=
  let sl := a.tap.slot i
  if !(sl.held && sl.sending) then a
  else
    let n := max 1 (ceilDiv es.length 40)
    let seq := sl.seq + 1
    let a := ({ a with tap := a.tap.setSlot i { sl with seq := seq } } : Agt).count Reg.MTP_CNT_RECORDS
    (List.range n).foldl (fun a k =>
      let part := (es.drop (40 * k)).take 40
      let head := le 1 kind ++ le 1 (b2n a.tap.energyOn + 2 * b2n (k + 1 = n)) ++ le 1 k ++ le 1 part.length ++ le 4 a.fid ++ le 8 sl.keyId
        ++ le 8 seq ++ le 8 interval ++ le 8 a.tap.energy ++ le 8 a.dieId ++ List.replicate 16 0
      let body := slice (head ++ part.flatMap TapEnt.bytes) 0 1984
      let tag := Config.kmac256 sl.key body 512 (ascii "YARULAIS TAP")
      (a.count Reg.MTP_CNT_WORMS).onDie (·.sendFwd
        { dst := sl.fid, op := 0x8C, mcast := 0, root := 0, bond := 0xFF, operand := [], payload := body ++ slice tag 0 64,
          block := a.die.part.blockIndex Blk.MTP, privilege := 1 })) a

/-- Entries an INTERVAL record of a slot carries (R416). -/
def Tap.due (t : Tap) (i : Nat) : List TapEnt := t.entries.filter fun e => e.dirty i || (!e.open_ && decide (0 < e.repeats)) || e.tag = 0

/-- When the record of an interval of some µs is sent, ns (R416). -/
def tapDueNs (fid us interval : Nat) : Nat := 8000 + (interval + 1) * us * 1000 + fid % 1024 * us * 1000 / 2048

/-- The end of an interval (R416), once and when its record is due: a record under each sending slot; repeats run down, and a closed entry all of whose repeats
are sent is kept no longer. -/
def Agt.tapInterval (a : Agt) (interval energy : Nat) : Agt :=
  let us := max 1 ((a.tap.cfg.head?.map (·.intervalUs)).getD MeterEnt.initial.intervalUs)
  if a.die.ns < tapDueNs a.fid us interval ∨ ((interval + 1) * us * 1000 ≤ a.tap.sentNs ∧ a.tap.sentNs ≤ a.die.ns) then a else
  let a : Agt := { a with tap := { a.tap with sentNs := (interval + 1) * us * 1000 } }
  let a : Agt := if a.tap.energyOn then { a with tap := { a.tap with energy := (a.tap.energy + energy) % 2 ^ 64 } } else a
  let a := a.openEntry 0
  let a := a.tapRecord 0 1 interval (a.tap.due 0)
  let a := a.tapRecord 1 1 interval (a.tap.due 1)
  let sent0 := a.tap.slot0.held && a.tap.slot0.sending
  let sent1 := a.tap.slot1.held && a.tap.slot1.sending
  let upd (e : TapEnt) : TapEnt :=
    { e with dirty0 := e.dirty0 && !sent0, dirty1 := e.dirty1 && !sent1,
             repeats := if e.open_ || !(sent0 || sent1) then e.repeats else e.repeats - 1 }
  { a with tap := { a.tap with entries := (a.tap.entries.map upd).filter fun e => e.open_ || decide (0 < e.repeats) } }

/-- TAP_INTERVAL_RECORD (R416). -/
def execTapIntervalRecord (w : Who) (interval : Nat) (energy : Energy) (s : State) : Res := s.agtNext w fun a => a.works Blk.MTP fun a => a.tapInterval interval energy

/-- MTP_CLEAR_COUNTERS (R431). -/
def execMtpClearCounters (w : Who) (s : State) : Res := s.agtNext w fun a => a.written Blk.MTP (·.onDie (·.clearCounters Blk.MTP))

/-- An activation left the agent: entries of tags for which it no longer holds structure close, their RELEASE record is sent
(R415); entries of tags it now holds structure of are no longer FWD_ONLY. -/
def Agt.tapAfter (a : Agt) : Agt :=
  let us := max 1 ((a.tap.cfg.head?.map (·.intervalUs)).getD MeterEnt.initial.intervalUs)
  let interval := a.die.ns / (1000 * us)
  let upd (e : TapEnt) : TapEnt := if e.open_ ∧ e.fwdOnly ∧ a.holdsTag e.tag then { e with fwdOnly := false, dirty0 := true, dirty1 := true } else e
  let a : Agt := { a with tap := { a.tap with entries := a.tap.entries.map upd,
                                              heldTags := a.tagsHeld.foldl (fun l t => if l.contains t then l else l ++ [t]) a.tap.heldTags } }
  let gone (e : TapEnt) : Bool := e.open_ && !e.fwdOnly && e.tag ≠ 0 && !(a.holdsTag e.tag)
  let closed := (a.tap.entries.filter gone).map fun e => { e with open_ := false, repeats := 4 }
  let a : Agt := { a with tap := { a.tap with entries := a.tap.entries.map fun e => if gone e then { e with open_ := false, repeats := 4 } else e } }
  closed.foldl (fun a e => (a.tapRecord 0 2 interval [e]).tapRecord 1 2 interval [e]) a

end Sys2Proof.Machine
end

