-- ==== Sys2Proof/Machine/AgentPat.lean ====
section
/-! DEFINITION. The agent's Pattern loader (R86 to R101, R133, R469): receiving a stream, the checks against the structure in
force, activation, refusal. -/

namespace Sys2Proof.Machine

/-! ## What the checks see -/

/-- What the agent's loader knows (R96). -/
def Agt.loadEnv (a : Agt) : LoadEnv :=
  { unit := 1, part := a.die.part, fid := a.fid, mode := a.mode, rack := a.rack, slot := a.die.fget Fl.AGT_IDENT_slot,
    fabricId := a.die.getN Reg.AGT_FABRIC_ID, hop := a.hopInit, lkpLocked := a.die.fget Fl.LKP_STATUS_locked = 1, epoch := a.epoch,
    fw := a.die.fw.version, patternKey := a.gcm.keys.map (·.patternKey), lastSeq := a.die.pat.lastSeq, floor := 0,
    aligned := a.chainLocked || a.die.fget Fl.AGT_CST_STATUS_cast_on_regime = 0, parts := a.fwd.parts }

/-- The structure that a Pattern changes, as entries. -/
structure Struct where
  bonds : List (Nat × Nat × Nat × Nat × List Nat)
  laneMap : List (Nat × Nat × Nat)
  parts : Tbl PartEnt
  keyrefs : List (Nat × Nat × Nat × Nat)
  geom : Option Geom
  periods : Tbl Nat
  course : List CourseEnt
  purl : List PurlEnt
  resource : Resource
  timers : List (Nat × Timer)
  samples : List Sample
  deriving DecidableEq, Repr

/-- The structure in force. -/
def Agt.struct (a : Agt) : Struct :=
  { bonds := a.fwd.bonds.map fun p => (p.1, p.2.reach, p.2.farBond, p.2.farFid, p.2.lanes),
    laneMap := a.fwd.laneMap, parts := a.fwd.parts, keyrefs := a.fwd.keyrefs, geom := a.fwd.geom, periods := a.fwd.periods,
    course := a.fwd.course, purl := a.purl.descs.map fun p => p.2.ent, resource := a.die.resource, timers := a.rcv.timers,
    samples := a.rcv.samples }

/-- A LANEMAP entry: logical, physical, polarity. -/
def laneMapOf (e : Bytes) : Nat × Nat × Nat := (byteAt e 0, byteAt e 1, byteAt e 2 % 4)

/-- Entries of a row type after a Pattern (R81): replaced whole by an AGENT Pattern that carries the type, within its scope
partition by a JOB Pattern; entries of a released partition go. -/
def mergeEnts {α : Type} (old new : List α) (carried job : Bool) (scope : Nat) (part : α → Nat) (rel : List Nat) : List α :=
  let l := if !carried then old else if job then old.filter (fun x => part x ≠ scope) ++ new else new
  l.filter fun x => !(rel.contains (part x))

/-- Partitions that a Pattern releases. -/
def releasedTags (env : LoadEnv) (h : Header) (rows : List Row) : List Nat :=
  ((env.entries h rows Rt.PARTITION).map partOf).filterMap fun p => if bitOf p.2.flags 3 then some p.1 else none

/-- The structure after some rows of a Pattern. A sample entry of an AGENT Pattern is its tenant's (log entry 18). -/
def Struct.after (s : Struct) (env : LoadEnv) (h : Header) (rows : List Row) : Struct :=
  let job := decide (h.kind = 2)
  let sc := h.scopeValue
  let has (t : Nat) : Bool := !(env.rowsOf h rows t).isEmpty
  let rel := releasedTags env h rows
  let parts := ((env.entries h rows Rt.PARTITION).map partOf).foldl (fun t p => if bitOf p.2.flags 3 then tdel t p.1 else tset t p.1 p.2) s.parts
  let courseRows := env.rowsOf h rows Rt.COURSE
  let newPeriods := courseRows.filterMap fun r =>
    let p := match rowEntries r with
      | e :: _ => some (courseOf e).partition
      | [] => if job then some sc else none
    p.map fun p => (p, fieldAt r.payload 4 4)
  let periods0 := if courseRows.isEmpty then s.periods else if job then tdel s.periods sc else []
  let es := env.entries h rows Rt.WATCH
  let member := ((parts.find? fun p => bitOf p.2.flags 0).map (·.1)).getD 0
  { bonds := if has Rt.BOND then (env.entries h rows Rt.BOND).map bondOf else s.bonds,
    laneMap := if has Rt.LANEMAP then (env.entries h rows Rt.LANEMAP).map laneMapOf else s.laneMap,
    parts := parts,
    keyrefs := mergeEnts s.keyrefs ((env.entries h rows Rt.KEYREF).map keyrefOf) (has Rt.KEYREF) job sc (fun k => k.2.2.1) rel,
    geom := match courseRows.getLast? with
      | some r => some (geomOf r.payload)
      | none => s.geom,
    periods := (newPeriods.foldl (fun t p => tset t p.1 p.2) periods0).filter fun p => !(rel.contains p.1),
    course := mergeEnts s.course ((courseRows.flatMap rowEntries).map courseOf) (has Rt.COURSE) job sc (·.partition) rel,
    purl := mergeEnts s.purl ((env.entries h rows Rt.PURL).map purlOf) (has Rt.PURL) job sc (·.partition) rel,
    resource := match (env.rowsOf h rows Rt.RESOURCE).getLast? with
      | some r => resourceOf r.payload
      | none => s.resource,
    timers := if has Rt.WATCH ∧ !job then ((es.filter fun e => byteAt e 0 = 1).map timerOf).foldl (fun t p => tset t p.1 p.2) [] else s.timers,
    samples := mergeEnts s.samples ((es.filter fun e => byteAt e 0 = 2).map (sampleOf (if job then sc else member))) (has Rt.WATCH) job sc
      (·.partition) rel }

/-! ## Steps 8 to 10 of R96 -/

/-- Whether a list holds an element twice. -/
def dupNat : List Nat → Bool
  | [] => false
  | x :: xs => xs.contains x || dupNat xs

/-- Whether two elements of a list, at two places, are in a relation. -/
def anyPair {α : Type} (r : α → α → Bool) : List α → Bool
  | [] => false
  | x :: xs => xs.any (r x) || anyPair r xs

/-- Whether two ranges (base, count) meet. -/
def meets (x y : Nat × Nat) : Bool := 0 < x.2 && 0 < y.2 && x.1 < y.1 + y.2 && y.1 < x.1 + x.2

/-- Whether two COURSE entries collide (R98, R178). -/
def collide (periods : Tbl Nat) (x y : CourseEnt) : Bool :=
  let g := Nat.gcd (max 1 (tgetD periods x.partition 1)) (max 1 (tgetD periods y.partition 1))
  let owns (e : CourseEnt) : Bool := (e.action = 1 || e.action = 2 || e.action = 5) && e.outBond ≠ 0xFF
  x.slot = y.slot && x.course % g = y.course % g
  && ((owns x && owns y && x.outBond = y.outBond) || (x.inBond ≠ 0xFF && x.inBond = y.inBond))

/-- Minimum sizes of the shares, units of 4 KiB (R84). -/
def shareMin : List Nat := [256, 64, 16, 272]

/-- The physical lane that a map gives a logical lane: its own number where no entry names it (R18). -/
def physOf (m : List (Nat × Nat × Nat)) (l : Nat) : Nat := ((m.find? fun x => x.1 = l).map (·.2.1)).getD l

/-- Whether bonds share a lane or a number, or two logical lanes have one physical lane (R99). -/
def lanesOverlap (bonds : List (Nat × List Nat)) (m : List (Nat × Nat × Nat)) (lanes : Nat) : Bool :=
  dupNat (bonds.map (·.1)) || dupNat (bonds.flatMap (·.2)) || dupNat (m.map (·.1)) || dupNat ((List.range lanes).map (physOf m))

/-- Whether shares lie beyond the buffer or below their minimum, or are too small for the samples (R84). -/
def shareSizeBad (r : Resource) (samples : List Sample) : Bool :=
  ((List.range 4).any fun i =>
    let sh := r.shares.getD i (0, 0)
    1024 < sh.1 + sh.2 || sh.2 < shareMin.getD i 0)
  || decide ((r.shares.getD 1 (0, 0)).2 * 4096 < sumL (samples.map (·.length)))

/-- Whether an item is assigned twice (R99). -/
def Struct.overlaps (s : Struct) (mode lanes : Nat) : Bool :=
  let tenants := s.parts
  let keys := tenants.flatMap fun p => [p.2.trafficSlot, p.2.dumpSlot].eraseDups.filter (· ≠ 0xFF)
  let cg := tenants.map fun p => (p.2.cgBase, p.2.cgCount)
  lanesOverlap (s.bonds.map fun b => (b.1, b.2.2.2.2)) s.laneMap lanes || dupNat keys
  || anyPair (fun x y => x.1 = y.1 && x.2.2.1 ≠ y.2.2.1) s.keyrefs
  || anyPair meets cg || (mode ≠ 1 && cg.any fun c => 0 < c.2 && c.1 < 4096)
  || decide (1 < (tenants.filter fun p => bitOf p.2.flags 0).length)
  || dupNat (s.purl.map (·.collective)) || anyPair meets (s.purl.map fun x => (x.laneBase, x.laneCount))
  || anyPair meets (s.purl.map fun x => (x.storeOffset, x.storeBytes))
  || anyPair meets s.resource.shares

/-- Bindings in force, as MBXBIND entries. -/
def Die.bindings (d : Die) : List (Nat × Nat × Nat) := d.mbx.chans.map fun c => (c.channel, c.masterA, c.masterB)

/-- Whether two bindings are the same. -/
def sameBinds (x y : List (Nat × Nat × Nat)) : Bool := x.all y.contains && y.all x.contains

/-- Whether a KEYREF names a held key: a slot that is not EMPTY, of that key_id, use and partition (R391). -/
def Agt.keyHeld (a : Agt) (k : Nat × Nat × Nat × Nat) : Bool := match a.keySlot k.1 with
  | some s => s.state ≠ 0 && s.keyId = k.2.2.2 && s.partition = k.2.2.1 && s.use = k.2.1
  | none => false

/-- Field ranges that take the whole Pattern to judge (step 6 of R96): a timer whose owner is NONE or does not exist at the agent
(R325), and more descriptors than there are (R243). They are judged when the file is whole, ahead of step 7. -/
def Struct.rangeFail (s : Struct) (mode : Nat) : Option (Nat × Nat) :=
  let owner (k : Nat) : Nat := s.resource.timers.getD k 0
  firstFail [
    (s.timers.any fun t => owner t.1 = 0, 2, 0x43),
    (mode ≠ 1 && s.timers.any fun t => owner t.1 = 4, 2, 0x43),
    (decide (64 < s.purl.length), 2, 0x43)]

/-- Steps 8 and 9 of R96 that a Pattern's own rows and the structure after them decide, for a unit of that mode and lane count whose
geometry in force is given. -/
def Struct.unitFail (s : Struct) (env : LoadEnv) (h : Header) (rows : List Row) (lanes : Nat) (inForce : Option Geom) (locked : Bool) :
    Option (Nat × Nat) :=
  let mine := rows.filter (env.mine h)
  let has (t : Nat) : Bool := mine.any fun r => r.rtype = t
  let noPurl := env.part.noPurl
  let laneRows := (env.entries h rows Rt.LANEMAP).map laneMapOf
  firstFail [
    (has Rt.PURL && noPurl, 3, 0x50),
    (has Rt.RESOURCE && noPurl && s.resource.timers.contains 4, 3, 0x50),
    (has Rt.BOND && s.bonds.any fun b => b.2.2.2.2.any fun l => lanes ≤ l, 3, 0x50),
    (laneRows.any fun m => lanes ≤ m.1 || lanes ≤ m.2.1, 3, 0x50),
    (((env.entries h rows Rt.TRAIN).map trainOf).any fun t => lanes ≤ t.lane, 3, 0x50),
    (decide (1 < (mine.filter fun r => r.rtype = Rt.RESOURCE).length), 4, 0x60),
    (s.overlaps env.mode lanes, 4, 0x60),
    (dupNat ((env.entries h rows Rt.PARTITION).map fun e => (partOf e).1), 4, 0x60),
    (shareSizeBad s.resource s.samples, 4, 0x61),
    (locked, 4, 0x62),
    (anyPair (collide s.periods) s.course, 4, 0x63),
    (match inForce with
      | some g => (mine.filter fun r => r.rtype = Rt.COURSE).any fun r => geomOf r.payload ≠ g
      | none => anyPair (fun r q => geomOf r.payload ≠ geomOf q.payload) (mine.filter fun r => r.rtype = Rt.COURSE), 4, 0x66)]

/-- Whether a Pattern without IMMEDIATE has a geometry to reckon its course under (R90). -/
def Agt.geometryFor (a : Agt) (p : Pattern) : Option Geom := (a.struct.after a.loadEnv p.header p.rows).geom

/-- The course number at a time under a geometry. -/
def Geom.courseAt (g : Geom) (ns : Nat) : Nat := ns / Geom.courseNs g

/-- The geometry that activate_course is reckoned under: the one in force, else the Pattern's own. -/
def Agt.reckon (a : Agt) (p : Pattern) : Option Geom := match a.fwd.geom with
  | some g => some g
  | none => a.geometryFor p

/-- Checks of steps 8 to 10, over some rows of a Pattern. -/
def Agt.patFail (a : Agt) (p : Pattern) (rows : List Row) : Option (Nat × Nat) :=
  let env := a.loadEnv
  let s := a.struct.after env p.header rows
  let binds := (env.entries p.header rows Rt.MBXBIND).map bindOf
  let bound := !(env.rowsOf p.header rows Rt.MBXBIND).isEmpty
  let locked := bound && a.die.fget Fl.AGT_LOCK_mailboxes = 1 && !(sameBinds binds a.die.bindings)
  (s.unitFail env p.header rows a.laneCount a.fwd.geom locked).or (firstFail [
    (!p.immediate && (a.reckon p).isNone, 4, 0x66),
    (dupNat (s.keyrefs.map (·.1)) || s.keyrefs.any fun k => !(a.keyHeld k), 8, 0x35)])

/-- Field ranges of the whole Pattern at an agent, over some rows of it. -/
def Agt.patRange (a : Agt) (p : Pattern) (rows : List Row) : Option (Nat × Nat) :=
  (a.struct.after a.loadEnv p.header rows).rangeFail a.mode

/-- The failing row of a check over growing prefixes: the row after the last prefix that does not fail that way. -/
def failRow (f : List Row → Option (Nat × Nat)) (rows : List Row) (e : Nat × Nat) : Nat → Nat
  | 0 => if f [] = some e then 0xFFFFFFFF else 0
  | k + 1 => if f (rows.take (k + 1)) = some e then failRow f rows e k else k + 1

/-- Whether the course of activation has begun. -/
def Agt.courseBegun (a : Agt) (p : Pattern) : Bool := match a.reckon p with
  | some g => p.activateCourse ≤ g.courseAt a.die.ns
  | none => false

/-! ## Results (R93, R469) -/

/-- Write eight words of a digest into a register group. -/
def Die.setDigest (d : Die) (base : Nat) (v : Digest) : Die :=
  (List.range 8).foldl (fun d i => d.setN (base + 8 * i) (fieldAt (digestBytes v) (8 * i) 8)) d

/-- PATTERN_RESULT (R93, R551): sent by an agent that has a name. -/
def Agt.patternResult (a : Agt) (digest : Digest) (result : Nat) : Agt :=
  if a.fid = 0x3FFFF then a
  else
    let body := digestBytes digest ++ le 1 result ++ le 1 (a.die.fget Fl.PAT_STATUS_code) ++ le 1 (a.die.fget Fl.PAT_STATUS_detail)
      ++ le 1 0 ++ le 4 (a.die.fget Fl.PAT_STATUS_row_seq)
    a.onDie fun d => d.toController 0x20 body

/-- The loader returns to IDLE with a result; what it held is discarded. -/
def Die.patIdle (d : Die) (result code detail row : Nat) : Die :=
  let d := d.setN Reg.PAT_STATUS (result * 2 ^ 8 + code % 256 * 2 ^ 16 + detail % 256 * 2 ^ 24 + row % 2 ^ 32 * 2 ^ 32)
  let d := (d.setN Reg.PAT_STAGED_COURSE 0).setDigest Reg.PAT_STAGED_DIGEST0 0
  { d with pat := { d.pat with bytes := [], fileLen := 0, accepted := 0, pattern := none, idStream := 0, idNext := 0 } }

/-- The header digest of what the loader holds. -/
def Loader.digest (l : Loader) : Digest := if l.bytes.length < 256 then 0 else Config.shake256 (l.bytes.take 256)

/-- MIRROR_WRITEs of a discarded Pattern are no longer awaited. -/
def Agt.dropMirror (a : Agt) : Agt := { a with fwd := { a.fwd with mirrorWait := [] } }

/-- Refuse the Pattern in the loader (R93). -/
def Agt.patRefuse (a : Agt) (code detail row : Nat) : Agt :=
  let dg := a.die.pat.digest
  let a := a.dropMirror.onDie fun d => (d.patIdle 2 code detail row).bsat Reg.PAT_COUNT 63 32 1
  a.patternResult dg 2

/-- Discard the Pattern in the loader (R101, R469). -/
def Agt.patAbort (a : Agt) : Agt :=
  let dg := a.die.pat.digest
  let a := a.dropMirror.onDie fun d => d.patIdle 3 0 0 0
  a.patternResult dg 3

/-! ## Tables (R89, R110 to R114, R120) -/

/-- Put a table entry; an entry of zero is not kept. -/
def tput (t : Tbl Nat) (i v : Nat) : Tbl Nat := if v = 0 then tdel t i else tset t i v

/-- Put an entry of one of the three tables. -/
def TabSlot.put (s : TabSlot) (t i v : Nat) : TabSlot :=
  match t with
  | 0 => { s with fid := tput s.fid i (v % 2 ^ 48) }
  | 1 => { s with iset := tput s.iset i v }
  | _ => { s with mcast := tput s.mcast i v }

/-- Apply a TABLE or TABLE_DELTA row. -/
def TabSlot.applyRow (s : TabSlot) (r : Row) : TabSlot :=
  let t := byteAt r.payload 0
  if r.rtype = Rt.TABLE then
    let es := rowEntries r
    (List.range es.length).foldl (fun s k => s.put t (fieldAt r.payload 4 4 + k) (leNat (es.getD k []))) s
  else if r.rtype = Rt.TABLE_DELTA then (rowEntries r).foldl (fun s e => s.put t (fieldAt e 0 4) (fieldAt e 4 8)) s
  else s

/-- Whether a Pattern carries table rows for this agent. -/
def Agt.hasTables (a : Agt) (h : Header) (rows : List Row) : Bool :=
  rows.any fun r => (r.rtype = Rt.TABLE || r.rtype = Rt.TABLE_DELTA) && a.loadEnv.mine h r

/-- The tables that a Pattern makes of the active ones (R89). -/
def Agt.newTables (a : Agt) (p : Pattern) : TabSlot :=
  (p.rows.filter fun r => a.loadEnv.mine p.header r).foldl TabSlot.applyRow (a.slot a.epoch)

/-- Whether the agent is in the cast-on regime (R307). -/
def Agt.regime (a : Agt) : Bool := a.die.fget Fl.AGT_CST_STATUS_cast_on_regime = 1

/-- Whether the inactive slot may be written (R89). -/
def Agt.slotFree (a : Agt) : Bool := a.regime || decide (a.die.getN Reg.LKP_SLOT_FREE_AT ≤ a.die.ns)

/-- The 110 mirrored entries of a table slot (R120, R277). -/
def TabSlot.mirrorEnts (s : TabSlot) : List Nat := (List.range 110).map fun i => tgetD s.mcast (6144 + i) 0

/-- Write one copy of the host's mask mirror: nine MIRROR_WRITEs (R277). -/
def Agt.writeMirror (a : Agt) (copy : Nat) (es : List Nat) : Agt :=
  let img : Tbl Nat := (List.range es.length).map fun i => (i, es.getD i 0)
  let f : Fwd := if copy = 0 then { a.fwd with mirror0 := img } else { a.fwd with mirror1 := img }
  (List.range 9).foldl (fun (a : Agt) k =>
    let part := (es.drop (13 * k)).take 13
    let w := (copy, 13 * k, part.length)
    let a : Agt := { a with fwd := { a.fwd with mirrorWait := a.fwd.mirrorWait ++ [w] } }
    a.msg 0x87 0 0 (le 1 copy ++ le 1 0 ++ le 2 (13 * k) ++ le 1 part.length ++ le 3 0 ++ part.flatMap (le 8))) { a with fwd := f }

/-- A Pattern is whole (R87, R89): the slot its tables go to is invalid while they are written, and a switch agent writes the mask
mirror. -/
def Agt.stageTables (a : Agt) (p : Pattern) : Agt :=
  if !(a.hasTables p.header p.rows) then a
  else
    let e := p.header.epoch
    let a := if a.regime then a else a.setSlotValid e false
    if !a.isSwitch then a
    else
      let es := (a.newTables p).mirrorEnts
      let a := a.writeMirror (e % 2) es
      if a.regime then a.writeMirror (1 - e % 2) es else a

/-! ## Receiving (R86, R133, R469) -/

/-- Report progress (R469): a message, or the identity block of an agent that has no name. -/
def Agt.patProgress (a : Agt) : Agt :=
  let l := a.die.pat
  let a : Agt := { a with die := { a.die with pat := { l with accepted := 0, idStream := l.stream, idNext := l.bytes.length } } }
  if a.fid = 0x3FFFF then a else a.onDie fun d => d.toController 0x21 (le 4 l.stream ++ le 4 l.bytes.length)

/-- The rows whole so far. -/
def Loader.rows (l : Loader) : List Row := (patternOf l.bytes).rows

/-- Take the next bytes of the stream: the checks that they allow, then VERIFYING when the file is whole. -/
def Agt.patTake (a : Agt) (data : Bytes) : Agt :=
  let l := a.die.pat
  let l : Loader := { l with bytes := l.bytes ++ data, accepted := l.accepted + 1, acceptedNs := a.die.up }
  let a : Agt := { a with die := { a.die with pat := l } }
  let whole := decide (l.fileLen ≤ l.bytes.length)
  match prefixFail a.loadEnv l.fileLen l.bytes with
  | some f => a.patRefuse f.code f.detail f.row
  | none =>
    let p := patternOf l.bytes
    let env := a.loadEnv
    let early := p.rows.findIdx? fun r => (r.rtype = Rt.TABLE || r.rtype = Rt.TABLE_DELTA) && env.mine p.header r
    match (if 256 ≤ l.bytes.length ∧ !a.slotFree then early else none) with
    | some i => a.patRefuse 4 0x65 i
    | none =>
      if whole then
        let d := a.die.fset Fl.PAT_STATUS_state 2
        let a : Agt := { a with die := { d with pat := { d.pat with pattern := some p } } }
        (a.stageTables p).patProgress
      else if l.accepted ≥ 8 then a.patProgress else a

/-- PATTERN_DATA (R469). -/
def Agt.patternData (a : Agt) (inBond : Nat) (w : Worm) : Agt :=
  let stream := Worm.opnd w 8 4
  let off := Worm.opnd w 12 4
  let len := Worm.opnd w 16 4
  let l := a.die.pat
  let st := a.die.fget Fl.PAT_STATUS_state
  let data := slice w.payload 0 (min w.payload.length (min 2048 (len - off)))
  let good := crc32c data = Worm.opnd w 20 4
  if !a.pins.rstN then a
  else if st = 0 ∧ off = 0 ∧ good then
    let d := a.die.fset Fl.PAT_STATUS_state 1
    let a : Agt := { a with die := { d with pat := { l with stream := stream, fileLen := len, bytes := [], accepted := 0, pattern := none } } }
    let a : Agt := if a.fid = 0x3FFFF then
        { a with cast := { a.cast with sponsorLane := some inBond } }
      else a
    a.patTake data
  else if off = 0 ∧ st ≠ 0 ∧ stream ≠ l.stream then a.raise Ev.PATTERN_BUSY
  else if st = 1 ∧ stream = l.stream ∧ off = l.bytes.length ∧ good then a.patTake data
  else
    let a := a.count Reg.MBX_CNT_PAT_DISCARD
    if st = 1 ∧ stream = l.stream ∧ l.bytes.length < off ∧ mayRaise l.lastGapNs a.die.up 10000 then
      let a : Agt := { a with die := { a.die with pat := { a.die.pat with lastGapNs := some a.die.up } } }
      a.patProgress
    else a

/-- PATTERN_DATA. -/
def execPatternData (w : Who) (inBond : Nat) (wm : Worm) (s : State) : Res := s.agtNext w fun a => a.patternData inBond wm

/-- PATTERN_STREAM_ABANDON (R469): 20 ms without an accepted worm. -/
def execPatternStreamAbandon (w : Who) (s : State) : Res :=
  s.agtNext w fun a => if a.die.fget Fl.PAT_STATUS_state = 1 ∧ 20000000 + a.die.pat.acceptedNs ≤ a.die.up then a.patAbort else a

/-- EPOCH_SLOT_FREE (R89): the drain bound has passed, the inactive slot is marked invalid. -/
def Agt.epochSlotFree (a : Agt) : Agt :=
  if a.regime ∨ a.die.getN Reg.LKP_SLOT_FREE_AT = 0 ∨ a.die.ns < a.die.getN Reg.LKP_SLOT_FREE_AT then a
  else (a.setSlotValid (a.epoch + 1) false).onDie fun d => d.setN Reg.LKP_SLOT_FREE_AT 0

/-- EPOCH_SLOT_FREE. -/
def execEpochSlotFree (w : Who) (s : State) : Res := s.agtNext w Agt.epochSlotFree

end Sys2Proof.Machine
end

