-- ==== Sys2Proof/Machine/AgentAct.lean ====
section
/-! DEFINITION. Activation of a Pattern at an agent (R81, R91, R92, R134, R231, R282, R299, R307, R391, R413, R415). -/

namespace Sys2Proof.Machine

/-! ## Cast-on state (R302) -/

/-- Set AGT_CST_STATUS.state with the time of the change, ms of reference ticks. -/
def Agt.setCast (a : Agt) (st : Nat) : Agt :=
  if a.castState = st then a
  else a.onDie fun d => (d.fset Fl.AGT_CST_STATUS_state st).fset Fl.AGT_CST_STATUS_changed_ms (satU 32 (d.clk.tick / 156250))

/-- READY once every planned lane is trained, held, quarantined or UNTRAINED (R302). -/
def Agt.checkReady (a : Agt) : Agt :=
  if a.castState = 4 ∧ a.fwd.bonds.all (fun p => p.2.lanes.all fun l => 2 ≤ (a.lane l).state) then a.setCast 5 else a

/-- Data modules in use, m of R265. -/
def Agt.countModules (a : Agt) : Agt := a.onDie fun d => d.fset Fl.AGT_HIF_STATUS_data_modules (a.modulesOf 2).length

/-- The modules under a RESOURCE row's functions: one without a function goes to its UCIe reset state, one that gets a function trains,
a FENCED one stays so until agent reset (R264, R266). -/
def Agt.reassign (a : Agt) (was : List Nat) : Agt :=
  let m := (List.range 8).map fun k =>
    let st := a.cast.modules.getD k 0
    let fn := a.die.resource.ucie.getD k 0
    if st = 3 then 3 else if fn = 0 then 0 else if was.getD k 0 = 0 then 1 else st
  ({ a with cast := { a.cast with modules := m } } : Agt).countModules

/-! ## Lanes and bonds -/

/-- Change a lane. -/
def Agt.modLane (a : Agt) (l : Nat) (f : Lane → Lane) : Agt := { a with fwd := { a.fwd with lanes := tset a.fwd.lanes l (f (a.lane l)) } }

/-- Lanes of a bond that carry worms now. -/
def Agt.upLanes (a : Agt) (lanes : List Nat) : List Nat := lanes.filter fun l => (a.lane l).state = 2 || (a.lane l).state = 4

/-- A Plumb record with the class's default asymmetry, as a BOND row that applies loads it (R172). -/
def Link.reload (l : Link) (reach : Nat) : Link := { l with w := 0, uw := defaultUw reach }

/-- The bonds of BOND rows (R26, R170, R172): one that is as before keeps its record but for the asymmetry, one with other lanes
measures anew. -/
def Agt.setBonds (a : Agt) (bs : List (Nat × Nat × Nat × Nat × List Nat)) : Agt :=
  let make (b : Nat × Nat × Nat × Nat × List Nat) : Bond :=
    let (n, reach, far, fid, lanes) := b
    let fresh : Bond := { reach := reach, farBond := far, farFid := fid, lanes := lanes, active := a.upLanes lanes, down := false,
                          reachFail := false, link := Link.new reach }
    match tget a.fwd.bonds n with
    | some o =>
      if o.reach = reach ∧ o.farBond = far ∧ o.farFid = fid then
        if o.lanes = lanes then { o with link := o.link.reload reach } else { fresh with link := (o.link.reload reach).settling }
      else fresh
    | none => fresh
  let bonds := bs.foldl (fun t b => tset t b.1 (make b)) []
  let bondOfLane (l : Nat) : Nat := ((bs.find? fun b => b.2.2.2.2.contains l).map (·.1)).getD 0xFF
  let named := bs.flatMap (·.2.2.2.2)
  let a := named.foldl (fun a l => a.modLane l id) a
  { a with fwd := { a.fwd with bonds := bonds, lanes := a.fwd.lanes.map fun p => (p.1, { p.2 with bond := bondOfLane p.1 }) } }

/-- Withdraw a lane from its bond for a training (R29, R170, R299). -/
def Agt.withdraw (a : Agt) (l : Nat) : Agt :=
  let b := (a.lane l).bond
  a.modBond b fun x => if x.active.contains l then { x with active := x.active.filter (· ≠ l), link := x.link.settling } else x

/-- An access to a register of a lane's PHY, by its physical lane (R18): a PHY_ACCESS to the host chip, or the controller's own
lane (R278). -/
def Agt.phyAccess (a : Agt) (l reg : Nat) (write : Bool) (val : Nat) : Agt :=
  let p := physOf a.fwd.laneMap l
  if a.mode = 2 then a.emit (.phy p reg write val)
  else a.msg 0x88 0 0 (le 1 p ++ le 1 (b2n write) ++ le 2 reg ++ le 4 0 ++ le 8 val)

/-- The reach class of the bond that a lane belongs to (R31). -/
def Agt.laneReach (a : Agt) (l : Nat) : Option Nat := (tget a.fwd.bonds (a.lane l).bond).map (·.reach)

/-- The source a lane trains from (R298): boot while the agent is UNNAMED; saved with a valid TRAIN entry of the bond's class that
does not force full training; full otherwise. The controller's own lanes are trained by its firmware from the settings in module flash (R294). -/
def Agt.trainSource (a : Agt) (l : Nat) : TrainSrc :=
  if a.castState < 4 ∧ a.die.part ≠ .embedded then .boot
  else match tget a.cast.train l with
    | some t => if bitOf t.flags 0 && !bitOf t.flags 1 && a.laneReach l = some t.reach then .saved else .full
    | none => .full

/-- Write 20 bytes of settings to a lane. -/
def Agt.writeSettings (a : Agt) (l : Nat) (set : Bytes) : Agt :=
  (List.range 3).foldl (fun a i => a.phyAccess l (Config.phyRegister i) true (fieldAt set (8 * i) 8)) a

/-- A lane trains from a source: its settings are written to the lane, the presets of classes P, B, C and O in that order for a boot
training, that of the bond's class for a full one (R31, R278, R298); then the lane is monitored. -/
def Agt.trainFrom (a : Agt) (l : Nat) (src : TrainSrc) : Agt :=
  let a := a.modLane l fun x => { x with training := some src }
  let ent := tget a.cast.train l
  let sets : List Bytes := match src with
    | .boot => (List.range 4).map fun c => Config.presetSettings c 0
    | .saved => [(ent.map (·.settings)).getD []]
    | .full => [Config.presetSettings ((a.laneReach l).getD 0) ((ent.map (·.preset)).getD 0)]
  (sets.foldl (fun a s => a.writeSettings l s) a).phyAccess l Config.phyMonitor false 0

/-- Start a lane's training from a source. At most 16 lanes train at a time; one more waits for its turn, and goes on as it is (R298, log
entry 4). -/
def Agt.startTrainingFrom (a : Agt) (l : Nat) (src : TrainSrc) : Agt :=
  if a.lanesIn 1 < 16 ∨ (a.lane l).state = 1 then
    ((a.withdraw l).modLane l fun x => { x with state := 1, ready := false, wants := none, heard := false }).trainFrom l src
  else a.modLane l fun x => { x with wants := some src }

/-- Start a lane's training (R298). -/
def Agt.startTraining (a : Agt) (l : Nat) : Agt := a.startTrainingFrom l (a.trainSource l)

/-- Logical lanes move to other physical lanes (R18): a logical lane takes what was trained and seen on the physical lane that it
moves to (log entry 57), and a bond with a moved lane measures anew. -/
def Agt.remapLanes (a : Agt) (new_ : List (Nat × Nat × Nat)) : Agt :=
  let old := a.fwd.laneMap
  if old = new_ then a
  else
    let all := List.range a.laneCount
    let was (l : Nat) : Nat := (all.find? fun k => physOf old k = physOf new_ l).getD l
    let lanes := all.foldl (fun t l => match tget a.fwd.lanes (was l) with
      | some x => tset t l { x with bond := (a.lane l).bond }
      | none => t) []
    let sponsor := a.cast.sponsorLane.bind fun s => all.find? fun l => was l = s
    let b : Agt := { a with fwd := { a.fwd with laneMap := new_, lanes := lanes }, cast := { a.cast with sponsorLane := sponsor } }
    let bonds := b.fwd.bonds.map fun p =>
      if p.2.lanes.any fun l => was l ≠ l then (p.1, { p.2 with active := b.upLanes p.2.lanes, link := p.2.link.settling }) else p
    { b with fwd := { b.fwd with bonds := bonds } }

/-- Retrain what was trained from boot presets, one lane of a bond at a time, lanes of no bond each alone (R299). -/
def Agt.bootRetrain (a : Agt) : Agt :=
  if a.castState < 4 ∨ a.cast.train.isEmpty then a
  else
    let bonds := a.fwd.bonds.map fun p => p.2.lanes
    let alone := ((a.fwd.lanes.map (·.1)).filter fun l => !(bonds.any (·.contains l))).map fun l => [l]
    (bonds ++ alone).foldl (fun a ls =>
      if ls.any fun l => (a.lane l).state = 1 || (a.lane l).wants.isSome then a
      else match ls.find? fun l => (a.lane l).source = 1 && (a.lane l).state = 2 with
        | some l => a.startTraining l
        | none => a) a

/-! ## Keys (R391) -/

/-- Empty a key slot, its worm keys with it. -/
def Agt.emptySlot (a : Agt) (i : Nat) : Agt :=
  { a with gcm := { a.gcm with slots := tdel a.gcm.slots i, cache := a.gcm.cache.filter fun c => c.1 ≠ i } }

/-- The slots after an activation: those that a KEYREF names are ACTIVE, ACTIVE ones that none names are RETIRING. -/
def Agt.setKeys (a : Agt) : Agt :=
  let now := a.die.ns
  let retire := now + drainBound a.hopInit + a.effTimeout
  let f (p : Nat × KeySlot) : Nat × KeySlot :=
    if a.fwd.keyrefs.any fun k => k.1 = p.1 then
      (p.1, { p.2 with state := 2, activeNs := some (p.2.activeNs.getD now), retireNs := none })
    else if p.2.state = 2 then (p.1, { p.2 with state := 3, retireNs := some retire })
    else p
  { a with gcm := { a.gcm with slots := a.gcm.slots.map f } }

/-! ## Timers (R92, R324, R325) -/

/-- Whether the agent is in a recovery. -/
def Agt.inRecovery (a : Agt) : Bool := a.die.fget Fl.WCH_STATUS_state ≠ 0

/-- A timer started at its Pattern's activation, if its owner has it run now. -/
def Agt.startedTimer (a : Agt) (k : Nat) (t : Timer) : Timer :=
  let owner := a.die.resource.timers.getD k 0
  let run := 1 ≤ owner && owner ≤ 5 && !(a.inRecovery && owner ≤ 3)
  { t with startNs := if run then some a.die.up else none, expired := false }

/-- Timers after an activation: all that a WATCH row brings start, and those whose owner changed start again. -/
def Agt.setTimers (a : Agt) (old : Resource) (ts : List (Nat × Timer)) (carried : Bool) : Agt :=
  let f (p : Nat × Timer) : Nat × Timer :=
    if carried || old.timers.getD p.1 0 ≠ a.die.resource.timers.getD p.1 0 then (p.1, a.startedTimer p.1 p.2) else p
  { a with rcv := { a.rcv with timers := ts.map f } }

/-! ## Purl descriptors (R92, R243) -/

/-- Whether an entry's lanes include a lane. -/
def PurlEnt.hasLane (e : PurlEnt) (l : Nat) : Bool := decide (e.laneBase ≤ l) && decide (l < e.laneBase + e.laneCount)

/-- A descriptor as its PURL entry creates it; one whose range holds a fenced lane has ended from the start (R236, R246). -/
def newDesc (fenced : List Nat) (e : PurlEnt) : Desc :=
  { ent := e, ended := fenced.any e.hasLane, chunks := [], slots := e.storeBytes / (48 * max 1 (chunkElems e)), flags := 0, rounded := 0,
    incompleteSteps := [], taken := [] }

/-- The lowest free descriptor index. -/
def freeIndex (t : Tbl Desc) : Nat := ((List.range 64).find? fun k => (tget t k).isNone).getD 64

/-- Discard what was selected for launch of collectives that do not go on (R92, R236). -/
def Agt.keepEmits (a : Agt) (goes : Nat → Bool) : Agt :=
  { a with purl := { a.purl with emits := a.purl.emits.filter fun x => goes (Worm.opnd x.2.2.2 0 4) } }

/-- Descriptors after an activation: an entry that stays as it was keeps its descriptor, a removed or changed one ends its
collective, its chunks and the worms selected of it discarded. -/
def Agt.setDescs (a : Agt) (es : List PurlEnt) : Agt :=
  let kept := a.purl.descs.filter fun p => es.contains p.2.ent
  let fresh := es.filter fun e => !(a.purl.descs.any fun p => p.2.ent = e)
  let descs := fresh.foldl (fun t e => tset t (freeIndex t) (newDesc a.purl.fencedLanes e)) kept
  let a := a.keepEmits fun k => kept.any fun p => p.2.ent.collective = k
  { a with purl := { a.purl with descs := descs } }

/-! ## Release and membership (R134, R231, R282) -/

/-- Complete every outstanding request of a partition with NOT_MEMBER (R231). -/
def Agt.endRequests (a : Agt) (tag : Nat) : Agt :=
  (a.flow.tracker.filter fun t => t.partition = tag && t.heldStatus.isNone).foldl
    (fun a t => (a.setReserved (a.reserved - t.flits)).completeEntry t 6) a

/-- Zero the contexts of a range of groups. -/
def Agt.zeroGroups (a : Agt) (base count : Nat) : Agt :=
  let out (g : Nat) : Bool := g < base || base + count ≤ g
  { a with flow := { a.flow with cg := a.flow.cg.filter fun p => out p.1, arms := a.flow.arms.filter fun p => out p.2.group } }

/-- Release of a partition at this agent, its entries already gone. -/
def Agt.releasePart (a : Agt) (tag : Nat) (old : Option PartEnt) : Agt :=
  let a := ((a.gcm.slots.filter fun p => p.2.partition = tag).map (·.1)).foldl Agt.emptySlot a
  let a := a.endRequests tag
  match old with
  | some p => a.zeroGroups p.cgBase p.cgCount
  | none => a

/-- Clear measurement registers lo to hi (R282). -/
def Agt.clearMsr (a : Agt) (lo hi : Nat) : Agt := { a with msr := a.msr.filter fun p => p.1 < lo || hi < p.1 }

/-- The tenant membership changed (R134, R282, R415). -/
def Agt.memberChange (a : Agt) : Agt :=
  let f : Flow := { a.flow with seqs := [], floors := [], windows := [], delivered := [], peers := [] }
  let a := ({ a with flow := f } : Agt).clearMsr 8 15
  match a.tenant with
  | some (tag, _) => a.openEntry tag
  | none => a

/-! ## The rows of a Pattern, in the order of R91 -/

/-- IDENT (R33, R35, R145). -/
def Agt.setIdent (a : Agt) (i : Ident) : Agt :=
  a.onDie fun d =>
    let d := ((d.fset Fl.AGT_IDENT_fid i.fid).fset Fl.AGT_IDENT_rack i.rack).fset Fl.AGT_IDENT_row (i.rack / 64)
    let d := ((d.fset Fl.AGT_IDENT_column (i.rack % 64)).fset Fl.AGT_IDENT_slot i.slot).fset Fl.AGT_IDENT_named 1
    (d.setN Reg.AGT_FABRIC_ID i.fabricId).fset Fl.LKP_HOP_INIT_hop_init i.hop

/-- Structure of the rows up to KEYREF. -/
def Agt.actStruct (a : Agt) (env : LoadEnv) (p : Pattern) (s : Struct) : Agt :=
  let h := p.header
  let rows := p.rows
  let has (t : Nat) : Bool := !(env.rowsOf h rows t).isEmpty
  let a := match env.rowsOf h rows Rt.IDENT with
    | r :: _ => a.setIdent (identOf r.payload)
    | [] => a
  let oldRes := a.die.resource
  let a := (a.onDie fun d => { d with resource := s.resource }).reassign oldRes.ucie
  let a := a.remapLanes (s.laneMap.foldl (fun t m => tset t m.1 m.2) [])
  let a := if has Rt.BOND then a.setBonds s.bonds else a
  let gauges := (env.entries h rows Rt.GAUGE).map gaugeOf
  let a := if has Rt.GAUGE then a.onDie fun d => { d with gaugeTab := gauges.foldl (fun t g => tset t g.1 g.2) [] } else a
  let train := (env.entries h rows Rt.TRAIN).map trainOf
  let a : Agt := if has Rt.TRAIN then { a with cast := { a.cast with train := train.foldl (fun t x => tset t x.lane x) [] } } else a
  let a := if has Rt.TRAIN then
      train.foldl (fun a t => a.modLane t.lane fun x => { x with savedH := t.eyeHeight, savedW := t.eyeWidth }) a
    else a
  let a : Agt := { a with fwd := { a.fwd with parts := s.parts, keyrefs := s.keyrefs, geom := s.geom, periods := s.periods, course := s.course } }
  let a := (a.setDescs s.purl).setKeys
  let a : Agt := { a with rcv := { a.rcv with samples := s.samples } }
  a.setTimers oldRes s.timers (has Rt.WATCH && h.kind ≠ 2)

/-- Tables (R89, R91, R132, R307): the slot of the new epoch becomes active, both slots in the cast-on regime. The other slot becomes
writable D later, but at once while the regime lasts. -/
def Agt.actTables (a : Agt) (p : Pattern) (t : TabSlot) : Agt :=
  let e := p.header.epoch
  let a := (a.setSlot e t).setSlotValid e true
  let lasts := a.regime && (p.immediate || decide (p.header.kind ≠ 3))
  let a := if a.regime then (a.setSlot (e + 1) t).setSlotValid (e + 1) true else a
  let a := if lasts then a else a.onDie fun d => d.setN Reg.LKP_SLOT_FREE_AT (d.ns + drainBound a.hopInit)
  a.onDie fun d => (d.setN Reg.PAT_ACTIVE_EPOCH e).fset Fl.LKP_STATUS_epoch_bit (e % 2)

/-- Class B bindings of MBXBIND rows and their lock (R91, R471). -/
def Die.bind (d : Die) (bs : List (Nat × Nat × Nat)) : Die :=
  let chans := bs.map fun b =>
    (d.mbx.chans.find? fun c => c.channel = b.1 && c.masterA = b.2.1 && c.masterB = b.2.2).getD
      { channel := b.1, masterA := b.2.1, masterB := b.2.2, toB := [], toA := [] }
  { d with mbx := { d.mbx with chans := chans } }

/-- EVR, METER and MBXBIND rows (R413, R434, R471). -/
def Agt.actTail (a : Agt) (env : LoadEnv) (p : Pattern) : Agt :=
  let h := p.header
  let rows := p.rows
  let has (t : Nat) : Bool := !(env.rowsOf h rows t).isEmpty
  let a := if has Rt.EVR then a.onDie fun d => { d with evrEnts := (env.entries h rows Rt.EVR).map evrOf } else a
  let a := if has Rt.METER then
      let cfg := (env.entries h rows Rt.METER).map meterOf
      let on (sl : TapSlot) : TapSlot := { sl with sending := sl.held && cfg.any fun e => e.tapKeyId = sl.keyId }
      let missing := cfg.any fun e => !((a.tap.slot0.held && a.tap.slot0.keyId = e.tapKeyId) || (a.tap.slot1.held && a.tap.slot1.keyId = e.tapKeyId))
      let a : Agt := { a with tap := { a.tap with cfg := cfg, slot0 := on a.tap.slot0, slot1 := on a.tap.slot1 } }
      if missing then a.raise Ev.TAP_KEY_ABSENT else a
    else a
  if has Rt.MBXBIND then
    a.onDie fun d => (d.bind ((env.entries h rows Rt.MBXBIND).map bindOf)).fset Fl.AGT_LOCK_mailboxes 1
  else a

/-- What the first AGENT Pattern and the first activation at an epoch course set (R144, R302, R307, R520). -/
def Agt.actCast (a : Agt) (p : Pattern) : Agt :=
  if p.header.kind ≠ 3 then a
  else
    let a := a.onDie fun d => ((d.fset Fl.LKP_STATUS_locked 1).fset Fl.AGT_LOCK_plumb 1).fset Fl.AGT_LOCK_watch 1
    let a := if a.castState = 3 then
        let l := a.cast.sponsorLane.getD 0xFF
        let bit := ((a.lane l).far.map (·.epochBit)).getD 0
        (a.onDie fun d => (d.fset Fl.AGT_CST_STATUS_sponsor_bond (a.lane l).bond).fset Fl.AGT_CST_STATUS_sponsor_epoch_bit bit).setCast 4
      else a
    if p.immediate then a
    else (a.onDie fun d => (d.fset Fl.AGT_CST_STATUS_cast_on_regime 0).fset Fl.AGT_LOCK_time_base 1).setCast 6

/-- Registers of a loader after an activation (R97, R100). -/
def Die.patActivated (d : Die) (p : Pattern) : Die :=
  let scope := if p.header.scopeKind = 0 then 0 else p.header.scopeValue
  let d := (d.patIdle 1 0 0 0).bsat Reg.PAT_COUNT 31 0 1
  let d := (d.setN Reg.PAT_ACTIVE_SEQ p.header.sequence).setDigest Reg.PAT_ACTIVE_DIGEST0 (headerDigest p)
  { d with pat := { d.pat with lastSeq := tset d.pat.lastSeq (seqKey p.header.kind scope) p.header.sequence } }

/-- Activate a Pattern at an agent, all at once (R91). -/
def Agt.activate (a0 : Agt) (p : Pattern) : Agt :=
  let env := a0.loadEnv
  let s := a0.struct.after env p.header p.rows
  let rel := releasedTags env p.header p.rows
  let tables := a0.hasTables p.header p.rows
  let t := a0.newTables p
  let carried := !(env.rowsOf p.header p.rows Rt.COURSE).isEmpty
  let a := a0.actStruct env p s
  let a := if tables then a.actTables p t else a
  let a := if carried then a.captureDelays else a
  let a := a.actTail env p
  let a := rel.foldl (fun a tag => a.releasePart tag (tget a0.fwd.parts tag)) a
  let a := if a0.tenant.map (·.1) ≠ a.tenant.map (·.1) then a.memberChange else a
  let a := a.tapAfter
  let a := a.onDie fun d => d.patActivated p
  let dg := digestBytes (headerDigest p)
  let a := if p.header.kind = 3 then a.extendMsr 1 0x10 0 dg else a.extendMsr 2 0x11 p.header.scopeValue dg
  let a := a.actCast p
  let a := if (env.rowsOf p.header p.rows Rt.TRAIN).isEmpty then a else a.bootRetrain
  a.checkReady.patternResult (headerDigest p) 1

/-! ## STAGED, activation and abort (R86, R90, R92, R94, R101) -/

/-- Whether a RESOURCE row would change a share in use (R92). -/
def Agt.shareInUse (a : Agt) (p : Pattern) : Bool :=
  let s := a.struct.after a.loadEnv p.header p.rows
  let changed (i : Nat) : Bool := s.resource.shares.getD i (0, 0) ≠ a.die.resource.shares.getD i (0, 0)
  (changed 1 && (a.rcv.dump.isSome || !a.rcv.records.isEmpty))
  || (changed 0 && (let st := a.die.fget Fl.AGT_FW_STATUS_state; st = 1))

/-- The boundary of a staged Pattern (R91, R92, R94): it activates, or is refused. -/
def Agt.patBoundary (a : Agt) (p : Pattern) : Agt :=
  if a.die.safe then a.patRefuse 5 0x73 0xFFFFFFFF
  else if a.shareInUse p then a.patRefuse 4 0x65 (((p.rows.find? fun r => r.rtype = Rt.RESOURCE).map (·.seq)).getD 0xFFFFFFFF)
  else a.activate p

/-- PATTERN_STAGED at an agent (R86, R90, R96, R277): the file-wide checks end. -/
def Agt.patStaged (a : Agt) : Agt :=
  match a.die.pat.pattern with
  | none => a
  | some p =>
    if a.die.fget Fl.PAT_STATUS_state ≠ 2 ∨ !a.fwd.mirrorWait.isEmpty then a
    else match a.patRange p p.rows with
    | some (c, d) => a.patRefuse c d (failRow (a.patRange p) p.rows (c, d) p.rows.length)
    | none =>
      match fileFail p.header p.rows (rowsPart a.die.pat.bytes) with
      | some (c, d) => a.patRefuse c d 0xFFFFFFFF
      | none =>
        match a.patFail p p.rows with
        | some (c, d) => a.patRefuse c d (failRow (a.patFail p) p.rows (c, d) p.rows.length)
        | none =>
          if !p.immediate ∧ a.courseBegun p then a.patRefuse 5 0x72 0xFFFFFFFF
          else
            let a := a.onDie fun d => ((d.fset Fl.PAT_STATUS_state 3).setN Reg.PAT_STAGED_COURSE p.activateCourse).setDigest
              Reg.PAT_STAGED_DIGEST0 (headerDigest p)
            if p.immediate then a.patBoundary p else a

/-- PATTERN_ACTIVATE at an agent (R90): the start of the staged Pattern's course. -/
def Agt.patActivateCmd (a : Agt) : Agt :=
  match a.die.pat.pattern with
  | none => a
  | some p =>
    if a.die.fget Fl.PAT_STATUS_state ≠ 3 ∨ !(a.courseBegun p) then a
    else
      -- the wait for the boundary is one that FLC_INJECT can make come out late (R343, R444)
      let (late, d) := a.die.takeWait Blk.PAT
      let a : Agt := { a with die := d }
      if late then a.patRefuse 5 0x72 0xFFFFFFFF else a.patBoundary p

/-- PAT_ABORT at an agent (R101). -/
def Agt.patAbortCmd (a : Agt) : Agt :=
  let st := a.die.fget Fl.PAT_STATUS_state
  if 1 ≤ st ∧ st ≤ 3 then a.patAbort else a

end Sys2Proof.Machine
end

