-- ==== Sys2Proof/Machine/CastAgt.lean ====
section
/-! DEFINITION. Cast-on at an agent: reset, self test, modules, lanes, identity blocks and the keys of naming (R4, R5, R28,
R29, R264 to R266, R285, R298 to R303, R320, R322, R378, R381, R441, R521, R541, R544). -/

namespace Sys2Proof.Machine

/-! ## Reset (R4, R5, R95, R302, R378, R504, R544) -/

/-- What a firmware bank gives the ROM: 0 passes, 1 SIGNATURE, 2 ROLLBACK (R378). A bank as delivered holds no bytes here
and passes or not as its mark says (log entry 8). The key with name 4 is the one whose digest the agent is fused with. -/
def FwRx.bankCheck (f : FwRx) (bank : Nat) : Nat :=
  let bytes := if bank = 0 then f.bank0 else f.bank1
  let good := if bank = 0 then f.bankGood0 else f.bankGood1
  if bytes.isEmpty then (if good then 0 else 1)
  else if !good || !(imageOk [4] bytes) || (imageHdr bytes).kind ≠ 3 then 1
  else if (imageHdr bytes).rollback < f.rollback then 2
  else 0

/-- The firmware a bank holds: version and link level. -/
def FwRx.firmware (f : FwRx) (bank : Nat) : Firmware :=
  let bytes := if bank = 0 then f.bank0 else f.bank1
  if bytes.isEmpty then { version := if bank = 0 then f.bankVersion0 else f.bankVersion1, linkLevel := 0, index := 0 }
  else { version := (imageHdr bytes).version, linkLevel := (imageHdr bytes).linkLevel, index := (imageHdr bytes).rollback }

/-- What the agent's non-volatile storage and fuses keep through a reset: the banks and the rollback fuses. -/
def FwRx.kept (f : FwRx) : FwRx :=
  { f with chunks := [], count := 0, total := 0, imageId := 0, version := 0, digest := 0, course := none, activated := 0 }

/-- The agent after a reset with these pins: everything fresh but what storage keeps; what it emitted stays emitted. -/
def Agt.again (a : Agt) (pins : AgtPins) : Agt :=
  let f := Agt.fresh a.die.part a.dieId pins a.fwrx.kept a.fabLanes
  let d := f.die.fset Fl.AGT_FW_STATUS_active_bank (a.die.fget Fl.AGT_FW_STATUS_active_bank)
  let d : Die := { d with out := a.die.out, free := a.die.free }
  { f with die := d }

/-- The mode an agent samples: the embedded instance is strapped to 0b10 (R4, R5). -/
def Agt.sampled (a : Agt) (modeSel : Nat) : Nat := if a.die.part = .embedded then 2 else modeSel % 4

/-- Extend a measurement register of the agent's own with a digest field (R283, R378). -/
def Agt.extendOwn (a : Agt) (i kind : Nat) (bytes : Bytes) : Agt := a.extendMsr i kind 0 bytes

/-- The ROM boots (R378, R504): the active bank, else the other one, else the agent stays in SELF_TEST. -/
def Agt.boot (a : Agt) : Agt :=
  let act := a.die.fget Fl.AGT_FW_STATUS_active_bank
  let other := 1 - act
  let r := a.fwrx.bankCheck act
  let a := a.extendOwn 0 1 (digestBytes Config.romDigest)
  let run (a : Agt) (b : Nat) : Agt := a.onDie fun d => { d with fw := a.fwrx.firmware b }
  if r = 0 then run a act
  else
    let a := a.onDie fun d => d.fset Fl.AGT_BOOT_rom_result r
    if a.fwrx.bankCheck other = 0 then
      let a := run a other
      (a.onDie fun d => (d.fset Fl.AGT_FW_STATUS_active_bank other).fset Fl.AGT_FW_STATUS_bank_fallback 1).raise Ev.BANK_FALLBACK
    else a.onDie fun d => d.fset Fl.AGT_BOOT_rom_result 3

/-- AGENT_RESET_DEASSERT (R4, R5, R302, R378, R379): MODE_SEL and TEST_EN are sampled. -/
def Agt.resetDeassert (a : Agt) (modeSel : Nat) (testEn : Bool) : Agt :=
  if a.pins.rstN then a
  else
    let mode := a.sampled modeSel
    let bad := a.die.part ≠ .embedded && decide (2 ≤ mode)
    let a := a.again { a.pins with rstN := true, pwrgd := true, modeSel := mode }
    let a := a.onDie fun d => { d.fset Fl.AGT_IDENT_mode mode with testEn := testEn }
    if bad then (a.onDie fun d => (d.fset Fl.AGT_IDENT_mode_invalid 1).driveAlert false).setCast 0xF
    else
      let a := (a.setCast 1).boot
      if testEn then a.extendOwn 3 0x22 [] else a

/-- AGENT_RESET_DEASSERT. -/
def execAgentResetDeassert (w : Who) (modeSel : Nat) (testEn : Bool) (s : State) : Res :=
  .next (s.onAgt w fun a => a.resetDeassert modeSel testEn)

/-- AGENT_RESET_ASSERT (R88, R95, R302, R547): the agent returns to RESET, ALERT_N and TRAY_REQ_N are released. -/
def Agt.resetAssert (a : Agt) (pwrgd : Bool) : Agt :=
  let b := a.again { a.pins with rstN := false, pwrgd := pwrgd, trayReqN := true }
  let b := if a.die.alertN then b else b.emit (.pin "ALERT_N" true)
  if a.pins.trayReqN then b else b.emit (.pin "TRAY_REQ_N" true)

/-- AGENT_RESET_ASSERT. -/
def execAgentResetAssert (w : Who) (s : State) : Res := .next (s.onAgt w fun a => a.resetAssert a.pins.pwrgd)

/-- PWRGD_FALL (R544): PWRGD low is RST_N asserted. -/
def execPwrgdFall (w : Who) (s : State) : Res := .next (s.onAgt w fun a => a.resetAssert false)

/-! ## Self test and modules (R233, R264, R302, R521) -/

/-- The lowest n working units of some physical ones. -/
def working (physical n : Nat) (bad : List Nat) : List Nat := ((List.range physical).filter fun i => !bad.contains i).take n

/-- The accumulator-lane map (R233). -/
def Agt.mapPurl (a : Agt) (bad : List Nat) : Agt :=
  if a.die.part.noPurl then a
  else
    let good := working 544 544 bad
    let a : Agt := { a with purl := { a.purl with map := good.take 512, spares := good.length - 512 } }
    if good.length < 512 then a.raise Ev.PURL_LANES_SHORT else a

/-- SELF_TEST_DONE (R302, R448, R521): the maps apply; too few banks or UCIe lanes keep the agent in SELF_TEST. -/
def Agt.selfTestDone (a : Agt) (r : SelfTest) : Agt :=
  if a.castState ≠ 1 then a
  else
    let a := a.mapPurl r.badLanes
    let banks := working 68 64 r.badBanks
    let c : Cast := { a.cast with banks := banks, ucieMap := r.ucieMap.foldl (fun t p => tset t p.1 p.2) [] }
    let a : Agt := { a with cast := c }
    let short := decide (banks.length < 64) || !r.badUcie.isEmpty
    let a := if short then a.onDie fun d => d.fset Fl.AGT_BOOT_self_test_fail 1 else a
    if short ∨ a.die.fget Fl.AGT_BOOT_rom_result = 3 then a
    else
      let a := a.onDie fun d => (d.fset Fl.EVR_STATUS_mode 0).drainFallback
      let mods := (List.range 8).map fun k => if a.die.resource.ucie.getD k 0 = 0 then 0 else 1
      let a : Agt := { a with cast := { a.cast with modules := mods } }
      (a.setCast 2).countModules

/-- SELF_TEST_DONE. -/
def execSelfTestDone (w : Who) (r : SelfTest) (s : State) : Res := s.agtNext w fun a => a.selfTestDone r

/-- Set a module's state. -/
def Agt.setModule (a : Agt) (k st : Nat) : Agt := { a with cast := { a.cast with modules := a.cast.modules.set k st } }

/-- The credits an agent grants when its control module is up: 64 messages, and REQ, RSP and COL stagings in endpoint mode
(R271, R275). -/
def Agt.grantCredits (a : Agt) : Agt :=
  let a := (a.emitCredit a.control 0 64).onDie fun d => d.fset Fl.AGT_HIF_STATUS_msg_credits 64
  if a.mode ≠ 0 then a
  else
    let f : Flow := { a.flow with credReq := 1, credRsp := 1, credCol := 8 }
    let a : Agt := { a with flow := f }
    let k := (a.modulesOf 2 ++ a.modulesOf 3).head?
    ((a.emitCredit k 0 1).emitCredit k 1 1).emitCredit k 3 8

/-- UCIE_MODULE_TRAINED (R264, R271, R275): a module in training is UP. -/
def Agt.moduleTrained (a : Agt) (k : Nat) : Agt :=
  if a.cast.modules.getD k 0 ≠ 1 then a
  else
    let a := (a.setModule k 2).countModules
    if a.die.resource.ucie.getD k 0 = 3 then a.grantCredits else a

/-- UCIE_MODULE_TRAINED. -/
def execUcieModuleTrained (w : Who) (module : Nat) (s : State) : Res := s.agtNext w fun a => a.moduleTrained module

/-- Fence the agent (R441): every lane is withdrawn, so every bond with lanes is DOWN; a bond that loses active lanes settles anew
(R170). -/
def Agt.withdrawAll (a : Agt) : Agt :=
  let lanes := a.fwd.lanes.map fun p => (p.1, { p.2 with state := 0, ready := false, training := none, wants := none })
  let bonds := a.fwd.bonds.map fun p =>
    (p.1, { p.2 with active := [], down := !p.2.lanes.isEmpty, link := if p.2.active.isEmpty then p.2.link else p.2.link.settling })
  { a with fwd := { a.fwd with lanes := lanes, bonds := bonds } }

/-- AGENT_FENCED for an instance (R441). -/
def Agt.fence (a : Agt) (inst : Nat) : Agt := (a.onDie fun d => d.raiseFence Ev.AGENT_FENCED inst).withdrawAll

/-- Units in flight on a failed module are lost: a worm whose presentation is open on it (R28, R266; log entry 69). -/
def Agt.losePresented (a : Agt) (k : Nat) : Agt :=
  (a.flow.presenting.filter fun p => p.2.1 = k).foldl (fun a p =>
    ({ a with flow := { a.flow with holding := tdel a.flow.holding p.1 } } : Agt).closePresent p.1) a

/-- UCIE_MODULE_FAIL (R266): the module is FENCED until agent reset. -/
def Agt.moduleFail (a : Agt) (k : Nat) : Agt :=
  let fn := a.die.resource.ucie.getD k 0
  if k ≥ 8 ∨ a.cast.modules.getD k 0 = 3 ∨ fn = 0 then a
  else
    let a := ((a.setModule k 3).losePresented k).countModules
    if fn = 3 then a.onDie fun d => d.raiseFence Ev.UCIE_CONTROL_DOWN k
    else a.onDie fun d => d.raiseFence Ev.UCIE_MODULE_DOWN k

/-- UCIE_MODULE_FAIL. -/
def execUcieModuleFail (w : Who) (module : Nat) (s : State) : Res := s.agtNext w fun a => a.moduleFail module

/-! ## Lanes (R29, R298, R299) -/

/-- Whether a lane failed in service: it is DOWN and waits for its retry (R29). -/
def Lane.failed (l : Lane) : Bool := l.state = 0 && decide (0 < l.retryNs)

/-- Start the trainings that wait for a place, then those of lanes never trained, at most 16 in training at a time (R298). -/
def Agt.startWaiting (a : Agt) : Agt :=
  if a.castState < 3 ∨ a.castState = 0xF then a
  else
    let a := (a.fwd.lanes.filter fun p => p.2.wants.isSome).foldl (fun a p => a.startTrainingFrom p.1 (p.2.wants.getD .full)) a
    let busy := a.lanesIn 1
    let idle := (List.range a.laneCount).filter fun l =>
      let x := a.lane l
      x.state = 0 && x.trainings = 0 && x.retryNs = 0
    (idle.take (16 - busy)).foldl (fun a l => a.startTraining l) a

/-- Whether an eye meets what its source asks (R298). -/
def eyeOk (src : TrainSrc) (l : Lane) (h w : Nat) : Bool :=
  match src with
  | .boot => decide (30 ≤ h) && decide (256 ≤ w)
  | .saved => decide (3 * l.savedH ≤ 4 * h) && decide (3 * l.savedW ≤ 4 * w)
  | .full => decide (40 ≤ h) && decide (358 ≤ w)

/-- LNK_LANE_STATE.source of a source (R318). -/
def srcCode : TrainSrc → Nat
  | .boot => 1 | .saved => 2 | .full => 3

/-- The 30 s after which a lane's training is tried again (R29). -/
def retryNs : Nat := 30000000000

/-- A lane enters UNTRAINED (R298, R316). -/
def Agt.untrained (a : Agt) (l : Nat) : Agt :=
  (a.modLane l fun x => { x with state := 5, ready := false, retryNs := a.die.up + retryNs, training := none }).raise
    Ev.LANE_UNTRAINED l

/-- A trained lane carries worms on its bond again; a bond that was DOWN is restored (R29, R170, R322). -/
def Agt.joinBond (a : Agt) (l : Nat) : Agt :=
  let n := (a.lane l).bond
  match tget a.fwd.bonds n with
  | none => a
  | some b =>
    if b.active.contains l ∨ !b.lanes.contains l then a
    else
      let a := a.modBond n fun x => { x with active := x.active ++ [l], down := false, link := x.link.settling }
      if b.down then a.raise Ev.BOND_RESTORED n else a

/-- A lane's training succeeded. During cast-on it rejoins at once; else it waits for the course boundary (R29, R299). A boot
training finds the class; the others train with that of the bond (R31). -/
def Agt.trained (a : Agt) (l : Nat) (src : TrainSrc) (found h w : Nat) (settings : Bytes) : Agt :=
  let cls := if src = .boot then found else (a.laneReach l).getD found
  let a := a.modLane l fun x =>
    { x with state := 2, cls := cls, source := srcCode src, trainings := x.trainings + 1, eyeH := h, eyeW := w, settings := settings,
             detail := 0, retryNs := 0, ready := !a.regime, training := none }
  let a := if a.regime then a.joinBond l else a
  match src with
  | .boot => a
  | .saved => a.count Reg.LNK_CNT_TRAIN_SAVED
  | .full =>
    let a := a.count Reg.LNK_CNT_TRAIN_FULL
    if a.castState < 4 then a
    else
      let t : TrainEnt := { lane := l, reach := cls, preset := ((tget a.cast.train l).map (·.preset)).getD 0, flags := 1, settings := slice settings 0 20, eyeHeight := h,
                            eyeWidth := w, cycles := a.die.evr.cycles }
      a.onDie fun d => d.toController 0x25 (trainBytes t)

/-- LANE_TRAIN_DONE at an agent (R298, R299, R302): the training in course of a lane ends. Where saved settings fail their
verification, full training follows. A source that is not the one in course is no end of it (log entry 4). -/
def Agt.trainDone (a : Agt) (l : Nat) (src : TrainSrc) (cls h w : Nat) (settings : Bytes) : Agt :=
  if (a.lane l).state ≠ 1 ∨ (a.lane l).training ≠ some src then a
  else
    let a := if eyeOk src (a.lane l) h w then a.trained l src cls h w settings
      else
        let a := a.count Reg.LNK_CNT_TRAIN_FAIL
        if src = .saved then a.trainFrom l .full else a.untrained l
    a.bootRetrain.startWaiting.checkReady

/-- LANE_TRAIN_DONE; a lane of the embedded agent is the controller's, which counts its full trainings (R522). -/
def execLaneTrainDone (w : Who) (lane : Nat) (src : TrainSrc) (cls eyeH eyeW : Nat) (settings : Bytes) (s : State) : Res :=
  let x := (s.agt w).lane lane
  let s' := s.onAgt w fun a => a.trainDone lane src cls eyeH eyeW settings
  .next (if w = .emb ∧ x.state = 1 ∧ x.training = some src then s'.onDie .ctl fun d =>
      let d := if src = .full then d.count Reg.FAB_CNT_TRAIN_FULL else d
      if eyeOk src x eyeH eyeW then d else d.count Reg.FAB_CNT_TRAIN_FAIL
    else s')

/-- LANE_RETRAIN_TIMER (R29): the retry of a failed or untrained lane, once its 30 s have passed; an untrained lane is retried by
full training (R298). -/
def Agt.retrainTimer (a : Agt) (l : Nat) : Agt :=
  let x := a.lane l
  if a.die.up < x.retryNs then a
  else if x.state = 5 then (a.startTrainingFrom l (if a.castState < 4 then .boot else .full)).count Reg.LNK_CNT_RETRY
  else if x.failed then (a.startTraining l).count Reg.LNK_CNT_RETRY
  else a

/-- LANE_RETRAIN_TIMER. -/
def execLaneRetrainTimer (w : Who) (lane : Nat) (s : State) : Res := s.agtNext w fun a => a.retrainTimer lane

/-- LANE_REJOIN (R29, R322): the course boundary at which both ends have confirmed the lane. -/
def Agt.rejoin (a : Agt) (l : Nat) : Agt :=
  let x := a.lane l
  if !x.ready ∨ x.state ≠ 2 then a else (a.modLane l fun x => { x with ready := false }).joinBond l

/-- LANE_REJOIN. -/
def execLaneRejoin (w : Who) (lane : Nat) (s : State) : Res := s.agtNext w fun a => a.rejoin lane

/-- A NEIGHBOUR_REPORT of the lane group over which a far die is seen (R300): the near-lane bitmap and the far block, which is that of
the group's lowest lane: each lane's names its own far lane, and the spec does not say whose the report carries (log entry 70). -/
def Agt.reportGroup (a : Agt) (blk : IdBlock) : Agt :=
  if a.castState < 4 ∨ a.castState = 0xF then a
  else
    let group := a.fwd.lanes.filter fun p => p.2.trained && (p.2.far.map (·.dieId)) = some blk.dieId
    let lanes := group.map (·.1)
    let low := minL 255 lanes
    let blk := ((tget group low).bind (·.far)).getD blk
    a.onDie fun d => d.toController 0x23 (le 22 (ofBitList lanes) ++ le 2 0 ++ idBytes blk)

/-- A bond loses its last active lane (R320): DOWN, BOND_FAILED and the FAILOVER report. -/
def Agt.bondFailed (a : Agt) (n : Nat) : Agt :=
  let far := ((tget a.fwd.bonds n).map (·.farFid)).getD 0x3FFFF
  let a := (a.modBond n fun x => { x with down := true }).raise Ev.BOND_FAILED n
  a.onDie fun d => d.toController 0x22 (le 1 n ++ le 3 0 ++ le 4 far ++ le 8 d.ns)

/-- LANE_LOSS (R28, R300, R320): a trained lane falls. -/
def Agt.laneLoss (a : Agt) (l : Nat) : Agt :=
  let x := a.lane l
  if !x.trained then a
  else
    let a := a.modLane l fun x => { x with state := 0, ready := false, retryNs := a.die.up + retryNs, wants := none }
    let a := match tget a.fwd.bonds x.bond with
      | none => a
      | some b =>
        if !(b.active.contains l) then a
        else
          let a := a.withdraw l
          if b.active.length ≤ 1 then a.bondFailed x.bond else a.raise Ev.BOND_NARROWED x.bond
    match x.far with
    | some blk => a.reportGroup blk
    | none => a

/-- LANE_LOSS. -/
def execLaneLoss (w : Who) (lane : Nat) (s : State) : Res := s.agtNext w fun a => a.laneLoss lane

/-! ## Identity blocks (R300, R301) -/

/-- Whether two link levels interoperate (R301). -/
def levelsMeet (x y : Nat) : Bool := decide (x ≤ y + 1) && decide (y ≤ x + 1)

/-- The lane's state after an identity exchange (R301): QUARANTINE outside the link-level window, HELD for another fabric's
agent. -/
def Agt.laneCheck (a : Agt) (l : Nat) (blk : IdBlock) : Agt :=
  let x := a.lane l
  let near := a.die.getN Reg.AGT_FABRIC_ID
  let foreign := decide (blk.fabricId ≠ 0) && decide (near ≠ 0) && decide (blk.fabricId ≠ near)
  if foreign then (a.withdraw l).modLane l fun x => { x with state := 3, detail := 7 }
  else
    let a := if x.state = 3 then a.modLane l fun x => { x with state := 2, detail := 0 } else a
    let a := if levelsMeet a.die.fw.linkLevel blk.linkLevel then
        if x.state = 4 then a.modLane l fun x => { x with state := 2 } else a
      else if x.state = 4 then a
      else (a.modLane l fun x => { x with state := 4 }).raise Ev.LNK_LINK_QUARANTINE l
    if x.state = 3 then a.joinBond l else a

/-- IDENTITY_BLOCK (R169, R300, R301, R307). -/
def Agt.identityBlock (a : Agt) (l : Nat) (blk : IdBlock) : Agt :=
  let x := a.lane l
  if !x.trained then a
  else
    let a := (a.modLane l fun x => { x with far := some blk, heard := true }).laneCheck l blk
    let a := a.modLink x.bond fun k => { k with farSkew := ofTwos 32 blk.skew }
    let a := if a.regime && a.castState ≥ 4 && a.cast.sponsorLane = some l then
        a.onDie fun d => d.fset Fl.AGT_CST_STATUS_sponsor_epoch_bit blk.epochBit
      else a
    let a := a.checkReady
    if x.far = some blk ∧ x.heard then a else a.reportGroup blk

/-- IDENTITY_BLOCK. -/
def execIdentityBlock (w : Who) (lane : Nat) (blk : IdBlock) (s : State) : Res := s.agtNext w fun a => a.identityBlock lane blk

/-! ## Marks and the keys of naming (R381, R464) -/

/-- A worm whose mark fails is discarded and counted; MBX_MARK_DENIED at most once per second (R464). -/
def Die.markDenied (d : Die) : Die :=
  let d := d.count Reg.MBX_CNT_MARK_DENIED
  if mayRaise d.mbx.lastDenied d.up 1000000000 then
    let d := d.raise Ev.MBX_MARK_DENIED
    { d with mbx := { d.mbx with lastDenied := some d.up } }
  else d

/-- The keys of R381 from the shared secret. -/
def agentKeysOf (secret : Bytes) (agentDie fid ctlDie : Nat) : AgentKeys :=
  let k := Config.kmac256 secret (le 8 agentDie ++ le 4 fid ++ le 8 ctlDie) 768 (ascii "YARULAIS AGENT KEYS")
  { fid := fid, ctlDie := ctlDie, patternKey := slice k 0 32, wrapKey := slice k 32 32, reportKey := slice k 64 32 }

/-- KEY_ENCAPS at an agent (R381): taken only while UNNAMED. -/
def Agt.keyEncaps (a : Agt) (w : Worm) : Agt :=
  if !a.pins.rstN then a
  else if markPriv (wormMark w) ≠ 2 then a.onDie Die.markDenied
  else if a.castState ≠ 3 then a.count Reg.GCM_CNT_WRAP_REFUSED
  else
    let secret := Config.kemDecaps (agentKeyName a.dieId) (slice w.payload 0 1568)
    let keys := agentKeysOf secret a.dieId w.dstFid (fieldAt w.payload 1568 8)
    let a : Agt := { a with gcm := { a.gcm with keys := some keys } }
    a.onDie fun d => d.setN Reg.GCM_WRAP_SEQ 0

/-- KEY_ENCAPS. -/
def execKeyEncaps (w : Who) (_inBond : Nat) (wm : Worm) (s : State) : Res := s.agtNext w fun a => a.keyEncaps wm

/-! ## Register commands and pins -/

/-- LNK_RETRAIN (R299, R318): ignored for a lane in QUARANTINE or HELD. -/
def Agt.retrainLane (a : Agt) (l : Nat) : Agt :=
  let x := a.lane l
  if x.state = 3 ∨ x.state = 4 ∨ x.state = 1 ∨ a.laneCount ≤ l then a else a.startTraining l

/-- LNK_RETRAIN. -/
def execLnkRetrain (w : Who) (s : State) : Res := 
  s.agtNext w fun a => a.written Blk.LNK fun a => a.retrainLane (a.die.bget Reg.LNK_LANE_SEL 7 0)

/-- LNK_CLEAR_COUNTERS (R318). -/
def execLnkClearCounters (w : Who) (s : State) : Res := s.agtNext w fun a => a.written Blk.LNK (·.onDie (·.clearCounters Blk.LNK))

/-- FAB_RETRAIN (R522): the lane that FAB_LANE_SEL selects, which is the embedded agent's. -/
def execFabRetrain (s : State) : Res :=
  let l := s.ctl.die.bget Reg.FAB_LANE_SEL 4 0
  match s.ctl.die.turnsAway Blk.FAB with
  | some d => s.ctlNext fun c => { c with die := d }
  | none => if s.ctl.running then s.agtNext .emb fun a => a.retrainLane l else .next s

/-- FAB_CLEAR_COUNTERS (R522). -/
def execFabClearCounters (s : State) : Res := s.ctlNext fun c => c.written Blk.FAB (·.onDie (·.clearCounters Blk.FAB))

/-- The controller when REFCLK is lost (R541): the master stops. -/
def Ctl.refclkLoss (c : Ctl) : Ctl := { c with pwr := { c.pwr with refclk := false } }

/-- REFCLK_LOSS (R541): AGENT_FENCED at an agent; on Pelron the embedded agent does so and the master stops. -/
def execRefclkLoss (pl : Place) (s : State) : Res :=
  match pl with
  | .agt .twd => s.agtNext .twd fun a => a.fence 0xFFFF
  | .agt .emb | .ctl => .next ((s.onAgt .emb fun a => if a.pins.rstN then a.fence 0xFFFF else a).onCtl Ctl.refclkLoss)

end Sys2Proof.Machine
end

