-- ==== Sys2Proof/Machine/Purl.lean ====
section
/-! DEFINITION. Scheduled runs and the Purl engine (R178 to R181, R233 to R263). -/

namespace Sys2Proof.Machine

/-! ## Element states (R234, R51, R52) -/

/-- An element state: the accumulator or current extreme, the contribution count and the four flags. -/
structure Elem where
  acc : Int
  count : Nat
  nan : Bool
  posInf : Bool
  negInf : Bool
  negZero : Bool
  deriving DecidableEq, Repr

/-- The flag bits of R234, byte 43. -/
def Elem.flags (e : Elem) : Nat := b2n e.nan + 2 * b2n e.posInf + 4 * b2n e.negInf + 8 * b2n e.negZero

/-- An element state's 48 bytes (R234). -/
def Elem.bytes (e : Elem) : Bytes := le 40 (toTwos 320 e.acc) ++ le 3 (e.count % 2 ^ 21) ++ le 1 e.flags ++ le 4 0

/-- The element state of 48 bytes. -/
def elemOf (b : Bytes) : Elem :=
  let f := byteAt b 43
  { acc := ofTwos 320 (fieldAt b 0 40), count := fieldAt b 40 3 % 2 ^ 21, nan := bitOf f 0, posInf := bitOf f 1, negInf := bitOf f 2,
    negZero := bitOf f 3 }

/-- Whether an op is MAX or MIN: 1 or 2. -/
def opExt (op : Nat) : Bool := op = 1 || op = 2

/-- An element as it starts (R51, R52). -/
def Elem.start (op : Nat) : Elem :=
  { acc := 0, count := 0, nan := false, posInf := false, negInf := false, negZero := !(opExt op) }

/-- The extreme an element describes, by a key that has the order of R52. -/
def Elem.rank (e : Elem) : Int :=
  if e.posInf then 2 ^ 400 else if e.negInf then -(2 ^ 400) else if e.negZero then 0 else 2 * e.acc + (if e.acc = 0 then 1 else 0)

/-- Take another extreme, or keep one's own (R52): the other replaces it when the count was 0 or when it lies beyond. -/
def Elem.extreme (op : Nat) (e x : Elem) : Elem :=
  let beyond := if op = 1 then decide (e.rank < x.rank) else decide (x.rank < e.rank)
  if e.count = 0 ∨ beyond then { e with acc := x.acc, posInf := x.posInf, negInf := x.negInf, negZero := x.negZero } else e

/-- The extreme a contribution is. -/
def numElem : Num → Elem
  | .nan => { acc := 0, count := 0, nan := true, posInf := false, negInf := false, negZero := false }
  | .inf neg => { acc := 0, count := 0, nan := false, posInf := !neg, negInf := neg, negZero := false }
  | .fin neg mag => { acc := if neg then -(mag : Int) else mag, count := 0, nan := false, posInf := false, negInf := false,
                      negZero := neg && mag = 0 }

/-- Add one contribution (R48, R51, R52, R248). -/
def Elem.contribute (op : Nat) (e : Elem) (v : Num) : Elem :=
  let x := numElem v
  let e' := if opExt op then (match v with
      | .nan => { e with nan := true }
      | _ => Elem.extreme op e x)
    else { e with acc := e.acc + x.acc, nan := e.nan || x.nan, posInf := e.posInf || x.posInf, negInf := e.negInf || x.negInf,
                  negZero := e.negZero && x.negZero }
  { e' with count := e.count + 1 }

/-- Combine a partial element of `n` contributions: its value shifted back, its four flags (R248). -/
def Elem.combine (op : Nat) (e : Elem) (acc : Int) (flags n : Nat) : Elem :=
  if n = 0 then e
  else
    let x : Elem := { acc := acc, count := n, nan := bitOf flags 0, posInf := bitOf flags 1, negInf := bitOf flags 2,
                      negZero := bitOf flags 3 }
    let e' := if opExt op then { Elem.extreme op e x with nan := e.nan || x.nan }
      else { e with acc := e.acc + acc, nan := e.nan || x.nan, posInf := e.posInf || x.posInf, negInf := e.negInf || x.negInf,
                    negZero := e.negZero && x.negZero }
    { e' with count := e.count + n }

/-! ## The result of an element (R51 to R59) -/

/-- An element's result before rounding: NaN (with INVALID), an infinity, or sign and magnitude in units of 2^-149. -/
inductive Decided where
  | nan (invalid : Bool)
  | inf (neg : Bool)
  | val (neg : Bool) (mag : Nat)
  deriving DecidableEq, Repr

/-- The result of an element (R51, R52, R252). -/
def Elem.decided (op : Nat) (e : Elem) : Decided :=
  if e.count = 0 then .val false 0
  else if e.nan then .nan false
  else if e.posInf && e.negInf then .nan true
  else if e.posInf then .inf false
  else if e.negInf then .inf true
  else if opExt op && e.negZero then .val true 0
  else if e.acc = 0 then .val e.negZero 0
  else .val (decide (e.acc < 0)) e.acc.natAbs

/-- The rounding mode of a PURL row's code. -/
def roundMode : Nat → RoundMode
  | 0 => .rne | 1 => .rtz | _ => .sr

/-- One element's code and flags (R53 to R56, R59). -/
def encodeDecided (f : Fmt) (d : Nat) (x : Int) (sat : Bool) (mode : RoundMode) (rnd : Nat) : Decided → Nat × RoundFlags
  | .nan inv => let (c, i) := encodeNaN f; (c, { invalid := inv || i })
  | .inf neg => (encodeInf f neg, {})
  | .val neg mag => roundOut neg mag d f x sat mode rnd

/-- Whether a format is an MX format. -/
def fmtMx (f : Fmt) : Bool := (mxEmax f).isSome

/-- One MX block of results: the codes, the scale byte and the flags (R59). The finite elements of a block that goes out as scale 0xFF
set no INEXACT or OVERFLOW: the spec does not say, and nothing of their rounding is kept (log entry 60). -/
def mxBlock (f : Fmt) (d : Nat) (sat : Bool) (mode : RoundMode) (es : List (Decided × Nat)) : List Nat × Nat × RoundFlags :=
  let special := es.any fun p => match p.1 with
    | .val _ _ => false
    | _ => true
  let inv : RoundFlags := { invalid := es.any fun p => p.1 = .nan true }
  if special ∧ fmtBits f < 8 then (es.map fun _ => 0, 0xFF, inv)
  else
    let mags := es.filterMap fun p => match p.1 with
      | .val _ m => some m
      | _ => none
    let x := mxExponent f mags d
    let rs := es.map fun p => encodeDecided f d x sat mode p.2 p.1
    (rs.map (·.1), (x + 127).toNat, rs.foldl (fun g p => g.or p.2) {})

/-- Bytes of a payload of n elements in a format (R239). -/
def payloadBytes (f : Fmt) (n : Nat) : Nat :=
  if fmtMx f then ceilDiv n 32 * (32 * fmtBits f / 8) + ceilDiv n 32 else ceilDiv (n * fmtBits f) 8

/-- Codes packed at a width, bit 0 first. -/
def packCodes (bits : Nat) (codes : List Nat) : Nat := codes.foldr (fun c v => c % 2 ^ bits + v * 2 ^ bits) 0

/-- The payload of results (R239, R252, R59) and the flags of their rounding. -/
def resultPayload (f : Fmt) (d : Nat) (sat : Bool) (mode : RoundMode) (es : List (Decided × Nat)) : Bytes × RoundFlags :=
  let n := es.length
  if fmtMx f then
    let blocks := (List.range (ceilDiv n 32)).map fun i => mxBlock f d sat mode ((es.drop (32 * i)).take 32)
    let codes := blocks.flatMap fun b => b.1 ++ List.replicate (32 - b.1.length) 0
    (le (ceilDiv n 32 * (32 * fmtBits f / 8)) (packCodes (fmtBits f) codes) ++ blocks.flatMap fun b => le 1 b.2.1,
     blocks.foldl (fun g b => g.or b.2.2) {})
  else
    let rs := es.map fun p => encodeDecided f d 0 sat mode p.2 p.1
    (le (payloadBytes f n) (packCodes (fmtBits f) (rs.map (·.1))), rs.foldl (fun g p => g.or p.2) {})

/-- The contributions that a payload of n elements carries, and whether any sets INPUT_RANGE (R49, R50, R239). -/
def payloadNums (f : Fmt) (n : Nat) (p : Bytes) : List (Num × Bool) :=
  let b := fmtBits f
  let v := leNat p
  let codes := ceilDiv n 32 * (32 * b / 8)
  (List.range n).map fun i =>
    let c := v / 2 ^ (b * i) % 2 ^ b
    if fmtMx f then decodeMx f (byteAt p (codes + i / 32)) c else (decodeElem f c, false)

/-! ## Partials (R240) -/

/-- Shift, w_p and E_p of an input format. -/
def partialShape : Fmt → Nat × Nat × Nat
  | .fp32 => (0, 38, 52)
  | .bf16 => (16, 36, 56)
  | .fp16 => (125, 8, 240)
  | .e4m3 => (140, 5, 372)
  | .e5m2 => (133, 7, 272)
  | .int8 => (149, 4, 454)
  | .int32 => (149, 7, 272)
  | _ => (6, 37, 54)

/-- A segment's payload: the values shifted right, then the flags two per byte. -/
def segmentBytes (f : Fmt) (op : Nat) (es : List Elem) : Bytes :=
  let (sh, w, _) := partialShape f
  let blank (e : Elem) : Bool := opExt op && e.count = 0
  (es.flatMap fun e => le w (if blank e then 0 else toTwos (8 * w) (e.acc / 2 ^ sh)))
  ++ le (ceilDiv es.length 2) (packCodes 4 (es.map fun e => if blank e then 0 else e.flags))

/-! ## Descriptors and chunks (R238, R243, R245) -/

/-- The formats of a descriptor. -/
def Desc.fmtIn (d : Desc) : Fmt := (fmtOfCode d.ent.inFmt).getD .fp32
def Desc.fmtOut (d : Desc) : Fmt := (fmtOfCode d.ent.outFmt).getD .fp32

/-- E_w of a descriptor, its chunk count C, the elements of chunk j and its segments. -/
def Desc.width (d : Desc) : Nat := max 1 (chunkElems d.ent)
def Desc.chunkCount (d : Desc) : Nat := ceilDiv d.ent.elements d.width
def Desc.size (d : Desc) (j : Nat) : Nat := min d.width (d.ent.elements - j * d.width)
def Desc.segElems (d : Desc) : Nat := (partialShape d.fmtIn).2.2
def Desc.segments (d : Desc) (j : Nat) : Nat := ceilDiv (d.size j) d.segElems

/-- Where element e of chunk j lies in the store (R243). -/
def Desc.addr (d : Desc) (j e : Nat) : Nat := d.ent.storeOffset + 48 * (d.width * (j % max 1 d.slots) + e)

/-- The chunk record that a slot holds. -/
def Desc.chunkIn (d : Desc) (slot : Nat) : Option Chunk := d.chunks.find? fun c => c.slot = slot

/-- Store a chunk record, or free the slot. -/
def Desc.setChunk (d : Desc) (c : Chunk) : Desc := { d with chunks := d.chunks.filter (fun x => x.slot ≠ c.slot) ++ [c] }
def Desc.freeChunk (d : Desc) (c : Chunk) : Desc := { d with chunks := d.chunks.filter fun x => x.slot ≠ c.slot }

/-- Read and write the element states lo to lo + n − 1 of a chunk. -/
def readElems (store : Mem) (d : Desc) (j lo n : Nat) : List Elem :=
  (List.range n).map fun i => elemOf (mread store (d.addr j (lo + i)) 48)
def writeElems (store : Mem) (d : Desc) (j lo : Nat) (es : List Elem) : Mem :=
  mwrite store (d.addr j lo) (es.flatMap Elem.bytes)

/-- The index and descriptor of a collective at an agent. -/
def Agt.descOf (a : Agt) (cid : Nat) : Option (Nat × Desc) := a.purl.descs.find? fun p => p.2.ent.collective = cid

/-- Store a descriptor. -/
def Agt.setDesc (a : Agt) (k : Nat) (d : Desc) : Agt := { a with purl := { a.purl with descs := tset a.purl.descs k d } }

/-- Store new bytes of the store. -/
def Agt.setStore (a : Agt) (m : Mem) : Agt := { a with purl := { a.purl with store := m } }

/-- Whether a descriptor ended by a fence of the engine or of one of its lanes (R236). -/
def Agt.descEnded (a : Agt) (d : Desc) : Bool := d.ended || a.die.blockFenced Blk.PRL

/-! ## Inputs (R246 to R248) -/

/-- Discard an input: counted, nothing sent, the event at most once per millisecond for each reason (R246). -/
def Agt.purlDiscard (a : Agt) (step key : Nat) : Agt :=
  let a := a.count key
  if mayRaise (tget a.purl.lastDiscard step) a.die.up 1000000 then
    ({ a with purl := { a.purl with lastDiscard := tset a.purl.lastDiscard step a.die.up } } : Agt).raise Ev.PURL_INPUT_DISCARD step
  else a

/-- The COURSE entry of an action, slot, bond and course, and the first slot of its run (R178, R181). -/
def Agt.runEntry (a : Agt) (action course slot : Nat) (p : CourseEnt → Bool) : Option CourseEnt :=
  a.fwd.course.find? fun x => x.action = action && x.slot = slot && course % a.period x.partition = x.course && p x

/-- The Purl-transit key slot of a partition: its KEYREF of use 2 (R255). -/
def Agt.transitSlot (a : Agt) (part : Nat) : Option Nat := (a.fwd.keyrefs.find? fun k => k.2.1 = 2 && k.2.2.1 = part).map (·.1)

/-- Whether an input's encryption is as step 3 of R246 asks, a RETIRING slot of the partition included (R391). -/
def Agt.purlTagOk (a : Agt) (part : Nat) (w : Worm) : Bool :=
  match a.transitSlot part with
  | none => w.enc = 0
  | some s =>
    w.enc = 1 && (w.keySlot = s || (match a.keySlot w.keySlot with
      | some k => k.state = 3 && k.partition = part
      | none => false)) && a.tagOk w

/-- The length, in data flits, that a role requires; none where step 5 decides (R239, R240). -/
def Desc.wantLength (d : Desc) (role j seg : Nat) : Option Nat :=
  if j ≥ d.chunkCount ∨ (role = 1 ∧ seg ≥ d.segments j) then none
  else
    let n := d.size j
    match role with
    | 0 => some (ceilDiv (payloadBytes d.fmtIn n) 64)
    | 2 => some (ceilDiv (payloadBytes d.fmtOut n) 64)
    | _ =>
      let m := min d.segElems (n - seg * d.segElems)
      some (ceilDiv (m * (partialShape d.fmtIn).2.1 + ceilDiv m 2) 64)

/-- Steps 4 to 11 of R246 on a decrypted input: the step and counter of the first check that fails. -/
def Agt.purlFail (a : Agt) (d : Desc) (x : CourseEnt) (course first : Nat) (w : Worm) : Option (Nat × Nat) :=
  let role := Worm.opnd w 12 1
  let seg := Worm.opnd w 13 1
  let j := Worm.opnd w 8 4
  let p := a.period x.partition
  let rec_ := d.chunkIn (j % max 1 d.slots)
  let held := rec_.filter fun c => c.chunk = j
  let lo := if role = 1 then seg * d.segElems else 0
  let m := if role = 1 then min d.segElems (d.size j - lo) else d.size j
  let add := if role = 1 then Worm.opnd w 16 3 % 2 ^ 21 else 1
  let top := if held.isSome then maxL ((readElems a.purl.store d j lo m).map (·.count)) else 0
  if Worm.opnd w 20 8 / p ≠ course / p then some (4, Reg.PRL_CNT_STALE_COURSE)
  else if j ≥ d.chunkCount ∨ (role = 1 ∧ seg ≥ d.segments j) then some (5, Reg.PRL_CNT_MISMATCH)
  else if d.taken.contains (x.inBond, first, course) then some (6, Reg.PRL_CNT_DUPLICATE)
  else if rec_.isSome ∧ held.isNone then some (7, Reg.PRL_CNT_SLOT_BUSY)
  else if held.any fun c => c.step ≠ Worm.opnd w 4 4 then some (8, Reg.PRL_CNT_STEP_MISMATCH)
  else if role ≠ 2 ∧ held.any fun c => c.parent ≠ x.outBond then some (9, Reg.PRL_CNT_MISMATCH)
  else if role = 2 then
    match held with
    | none => some (10, Reg.PRL_CNT_LATE_INPUT)
    | some c => if c.parent = 0xFF then some (10, Reg.PRL_CNT_LATE_INPUT)
      else if c.result.isSome then some (10, Reg.PRL_CNT_DUPLICATE)
      else none
  else if held.any fun c => c.state ≠ 1 then some (10, Reg.PRL_CNT_LATE_INPUT)
  else if top + add > d.ent.fanIn then some (11, Reg.PRL_CNT_FAN_IN)
  else none

/-- Count element operations (R261, R414). -/
def Agt.elemOps (a : Agt) (tag n : Nat) : Agt := (a.onDie fun d => d.countN Reg.PRL_CNT_ELEM_OPS n).tapCount tag 4 n

/-- A chunk record as its first input opens it, its elements started (R51, R245). -/
def Agt.openChunk (a : Agt) (d : Desc) (j step parent : Nat) : Agt × Chunk :=
  (a.setStore (writeElems a.purl.store d j 0 (List.replicate (d.size j) (Elem.start d.ent.op))),
   { slot := j % max 1 d.slots, chunk := j, step := step, parent := parent, inputs := [], sent := [], nextSeg := 0,
     inputRange := false, state := 1, result := none })

/-- Insert into a set of bonds. -/
def addBond (l : List Nat) (b : Nat) : List Nat := if l.contains b then l else l ++ [b]

/-- An accepted input acts on its chunk (R248). -/
def Agt.purlTake (a : Agt) (k : Nat) (d : Desc) (x : CourseEnt) (course first : Nat) (w : Worm) : Agt :=
  let role := Worm.opnd w 12 1
  let seg := Worm.opnd w 13 1
  let j := Worm.opnd w 8 4
  let a := a.count Reg.PRL_CNT_INPUTS
  let d : Desc := { d with taken := d.taken ++ [(x.inBond, first, course)] }
  let (a, c) := match d.chunkIn (j % max 1 d.slots) with
    | some c => (a, c)
    | none => a.openChunk d j (Worm.opnd w 4 4) x.outBond
  let n := d.size j
  match role with
  | 0 =>
    let nums := payloadNums d.fmtIn n w.payload
    let es := (readElems a.purl.store d j 0 n).zip nums |>.map fun p => Elem.contribute d.ent.op p.1 p.2.1
    let a := (a.setStore (writeElems a.purl.store d j 0 es)).elemOps d.ent.partition n
    let c : Chunk := { c with inputs := addBond c.inputs x.inBond, inputRange := c.inputRange || nums.any (·.2) }
    a.setDesc k (d.setChunk c)
  | 1 =>
    let (sh, wp, ep) := partialShape d.fmtIn
    let lo := seg * ep
    let m := min ep (n - lo)
    let cnt := Worm.opnd w 16 3 % 2 ^ 21
    let part (i : Nat) : Int × Nat :=
      (ofTwos (8 * wp) (fieldAt w.payload (wp * i) wp) * 2 ^ sh, byteAt w.payload (wp * m + i / 2) / 16 ^ (i % 2) % 16)
    let es := (readElems a.purl.store d j lo m).zip ((List.range m).map part) |>.map fun p =>
      Elem.combine d.ent.op p.1 p.2.1 p.2.2 cnt
    let a := (a.setStore (writeElems a.purl.store d j lo es)).elemOps d.ent.partition m
    let c : Chunk := { c with inputs := addBond c.inputs x.inBond,
                              inputRange := c.inputRange || (decide (0 < cnt) && bitOf (Worm.opnd w 15 1) 4) }
    a.setDesc k (d.setChunk c)
  | _ =>
    let a := a.setStore (mwrite a.purl.store (d.addr j 0) (slice w.payload 0 (payloadBytes d.fmtOut n)))
    let c : Chunk := { c with result := some (Worm.opnd w 15 1, Worm.opnd w 16 3 % 2 ^ 21),
                              state := if c.state = 2 && decide (c.nextSeg < d.segments j) then 2 else 3 }
    a.setDesc k (d.setChunk c)

/-- PURL_INPUT (R246 to R248): a COL worm that the ACCUMULATE entry of this bond, course and slot delivered. -/
def Agt.purlInput (a : Agt) (inBond course slot : Nat) (w : Worm) : Agt :=
  match a.runEntry 4 course slot fun x => x.inBond = inBond && x.partition = w.partition with
  | none => a
  | some x =>
    if a.die.part.noPurl ∨ !a.isSwitch then a
    else match a.descOf x.collective with
    | none => a.purlDiscard 1 Reg.PRL_CNT_UNKNOWN
    | some (k, d) =>
      let role := Worm.opnd w 12 1
      let paired := (w.op = 0xC2 && (role = 0 || role = 1)) || (w.op = 0xC3 && role = 2)
      let long := (d.wantLength role (Worm.opnd w 8 4) (Worm.opnd w 13 1)).any fun l => l ≠ w.length
      if a.descEnded d then a.purlDiscard 1 Reg.PRL_CNT_UNKNOWN
      else if Worm.opnd w 0 4 ≠ x.collective ∨ !paired ∨ long then a.purlDiscard 2 Reg.PRL_CNT_MISMATCH
      else
        let ok := a.purlTagOk d.ent.partition w
        let a := a.countDec w ok
        if !ok then a.purlDiscard 3 Reg.PRL_CNT_TAG_FAIL
        else
          let w := a.opened w
          let first := runStart a.fwd.course x 1024
          match a.purlFail d x course first w with
          | some (step, key) => a.purlDiscard step key
          | none => a.purlTake k d x course first w

/-- PURL_INPUT. -/
def execPurlInput (w : Who) (inBond course slot : Nat) (wm : Worm) (s : State) : Res := s.agtNext w fun a => a.purlInput inBond course slot wm

/-! ## Emission (R249 to R254) -/

/-- A Purl worm of an EMIT run before it is stamped (R241). -/
def Agt.purlWorm (a : Agt) (d : Desc) (c : Chunk) (outBond course op role seg flags count : Nat) (payload : Bytes) : Worm :=
  { emptyWorm with cls := 3, op := op, scheduled := 1, partition := d.ent.partition,
                   dstFid := ((tget a.fwd.bonds outBond).map (·.farFid)).getD 0x3FFFF, length := ceilDiv payload.length 64,
                   payload := slice payload 0 (64 * ceilDiv payload.length 64),
                   operand := le 4 d.ent.collective ++ le 4 c.step ++ le 4 c.chunk ++ le 1 role ++ le 1 seg ++ le 1 0 ++ le 1 flags
                     ++ le 3 count ++ le 1 0 ++ le 8 course ++ le 4 0 }

/-- Round a root chunk once for all its elements (R252, R254). -/
def Agt.roundRoot (a : Agt) (k : Nat) (d : Desc) (c : Chunk) : Agt × Desc × Chunk :=
  let e := d.ent
  let n := d.size c.chunk
  let es := readElems a.purl.store d c.chunk 0 n
  let rnd (i : Nat) : Nat := if e.rounding = 2 then srWord e.seed e.collective c.step (c.chunk * d.width + i) else 0
  let (payload, f) := resultPayload d.fmtOut (if e.op = 3 then e.divisor else 1) (e.overflow = 1) (roundMode e.rounding)
    (((List.range n).zip es).map fun p => (Elem.decided e.op p.2, rnd p.1))
  let count := minL 0 (es.map (·.count))
  let inc := decide (count < e.fanIn)
  let flags := b2n inc + 2 * b2n f.inexact + 4 * b2n f.overflow + 8 * b2n f.invalid + 16 * b2n c.inputRange
  let a := (a.setStore (mwrite a.purl.store (d.addr c.chunk 0) payload)).elemOps e.partition n
  let cnt (a : Agt) (b : Bool) (key : Nat) : Agt := if b then a.count key else a
  let a := cnt (cnt (cnt (cnt a inc Reg.PRL_CNT_INCOMPLETE) f.inexact Reg.PRL_CNT_INEXACT) f.overflow Reg.PRL_CNT_OVERFLOW)
    f.invalid Reg.PRL_CNT_INVALID
  let first := inc && !d.incompleteSteps.contains c.step
  let a := if first then a.raise Ev.PURL_INCOMPLETE k else a
  let d : Desc := { d with flags := Nat.lor d.flags flags, rounded := d.rounded + 1,
                           incompleteSteps := if first then d.incompleteSteps ++ [c.step] else d.incompleteSteps }
  (a, d, { c with result := some (flags, count), state := 3 })

/-- The chunk an EMIT run on a bond takes (R249): the lowest-indexed that qualifies, and whether it carries a partial. -/
def Desc.pickEmit (d : Desc) (b : Nat) : Option (Chunk × Bool) :=
  let fits (c : Chunk) : Option Bool :=
    if (c.state = 1 || c.state = 2) && c.parent = b && decide (c.nextSeg < d.segments c.chunk) then some true
    else if (c.state = 3 || (c.state = 1 && c.parent = 0xFF)) && c.inputs.contains b && !c.sent.contains b then some false
    else none
  d.chunks.foldl (fun best c => match fits c, best with
    | none, _ => best
    | some p, none => some (c, p)
    | some p, some (o, q) => if c.chunk < o.chunk then some (c, p) else some (o, q)) none

/-- Keep a selected worm for its launch; a watch timer of Purl progress restarts at each worm emitted (R249, R261). -/
def Agt.emitWorm (a : Agt) (course first outBond : Nat) (w : Worm) : Agt :=
  let a := a.count Reg.PRL_CNT_EMITS
  { a with purl := { a.purl with emits := a.purl.emits.filter (fun e => !(e.1 = course && e.2.1 = first && e.2.2.1 = outBond))
                                            ++ [(course, first, outBond, w)] } }

/-- An EMIT run with nothing to carry (R180, R249). -/
def Agt.emitEmpty (a : Agt) : Agt := (a.count Reg.PRL_CNT_EMIT_EMPTY).count Reg.PLB_CNT_INJECT_EMPTY

/-- Whether an agent launches nothing for a run now: not chain_locked, the bond DOWN, or the partition's key too old (R181,
R321, R392). -/
def Agt.runSilent (a : Agt) (x : CourseEnt) (slot : Option Nat) : Bool :=
  !a.chainLocked || a.bondDown x.outBond || (slot.any fun s => a.keyExpired s)

/-- EMIT_RUN_SELECT (R249, R250, R252). -/
def Agt.emitSelect (a : Agt) (course slot outBond collective : Nat) (queued : Bool) : Agt :=
  match a.runEntry 5 course slot fun x => x.outBond = outBond && x.collective = collective with
  | none => a
  | some x =>
    if a.die.part.noPurl ∨ !a.isSwitch ∨ a.runSilent x none then a
    else if a.runSilent x (a.transitSlot x.partition) then a.noteExpired.emitEmpty
    else match a.descOf collective with
    | none => a.emitEmpty
    | some (k, d) =>
      if a.descEnded d then a.emitEmpty
      else match d.pickEmit outBond with
      | none => a.emitEmpty
      | some (c, part) =>
        if queued then
          let a := (a.count Reg.PRL_CNT_EMIT_LATE).count Reg.PLB_CNT_INJECT_EMPTY
          if mayRaise a.purl.lastLate a.die.up 1000000 then
            ({ a with purl := { a.purl with lastLate := some a.die.up } } : Agt).raise Ev.PURL_EMIT_LATE
          else a
        else
          let first := runStart a.fwd.course x 1024
          if part then
            let lo := c.nextSeg * d.segElems
            let es := readElems a.purl.store d c.chunk lo (min d.segElems (d.size c.chunk - lo))
            let w := a.purlWorm d c outBond course 0xC2 1 c.nextSeg (16 * b2n c.inputRange) (minL 0 (es.map (·.count)))
              (segmentBytes d.fmtIn d.ent.op es)
            let last := decide (d.segments c.chunk ≤ c.nextSeg + 1)
            let c : Chunk := { c with nextSeg := c.nextSeg + 1, state := if last && c.result.isSome then 3 else 2 }
            (a.setDesc k (d.setChunk c)).emitWorm course first outBond w
          else
            let (a, d, c) := if c.result.isNone then a.roundRoot k d c else (a, d, c)
            let (flags, count) := c.result.getD (0, 0)
            let payload := mread a.purl.store (d.addr c.chunk 0) (payloadBytes d.fmtOut (d.size c.chunk))
            let w := a.purlWorm d c outBond course 0xC3 2 0 flags count payload
            let c : Chunk := { c with sent := addBond c.sent outBond }
            let d := if c.inputs.all c.sent.contains then d.freeChunk c else d.setChunk c
            (a.setDesc k d).emitWorm course first outBond w

/-- EMIT_RUN_SELECT. -/
def execEmitRunSelect (w : Who) (course slot outBond collective : Nat) (queuedInput : Bool) (s : State) : Res :=
  s.agtNext w fun a => a.emitSelect course slot outBond collective queuedInput

/-- Send a scheduled worm on its run's bond (R180, R241, R255, R393): sealed where the partition has a key. An endpoint's worm passes
the injection lookup's common checks (R115), a switch's has none. -/
def Agt.launch (a : Agt) (w : Worm) (outBond first course : Nat) (slot : Option Nat) : Agt :=
  let enc := b2n slot.isSome
  let w := a.stamp { w with scheduled := 1, mcast := 0 } w.partition none 0 (slot.getD 0) enc
  let w := if slot.isSome then a.encrypt w (runNonce outBond first course) else w
  let a := match slot with
    | some s => (a.useKey s a.fid).count Reg.GCM_CNT_ENC
    | none => a
  if a.isSwitch then a.emitTx outBond w
  else
    let a := a.count Reg.LKP_CNT_LOOKUPS
    match a.commonFault w 0 with
    | some (.drop st) => a.countDrop st
    | some _ => a.count Reg.LKP_CNT_HDR_FAIL
    | none => a.emitTx outBond w

/-- EMIT_RUN_LAUNCH (R180, R255, R261, R321): the worm its run selected leaves. -/
def Agt.emitLaunch (a : Agt) (course slot outBond collective : Nat) : Agt :=
  match a.runEntry 5 course slot fun x => x.outBond = outBond && x.collective = collective with
  | none => a
  | some x =>
    let first := runStart a.fwd.course x 1024
    match a.purl.emits.find? fun e => e.1 = course && e.2.1 = first && e.2.2.1 = outBond with
    | none => a
    | some e =>
      let a : Agt := { a with purl := { a.purl with emits := removeFirst (fun y => y = e) a.purl.emits } }
      if a.runSilent x none then a
      else (a.launch e.2.2.2 outBond first course (a.transitSlot x.partition)).restartOwner 4

/-- EMIT_RUN_LAUNCH. -/
def execEmitRunLaunch (w : Who) (course slot outBond collective : Nat) (s : State) : Res :=
  s.agtNext w fun a => a.emitLaunch course slot outBond collective

/-! ## INJECT runs (R180, R242, R271) -/

/-- The first slot's start T_s of an owned run, ns (R178). -/
def Agt.runTime (a : Agt) (course first : Nat) : Nat := match a.fwd.geom with
  | some g => course * Geom.courseNs g + first * Geom.slotNs g
  | none => 0

/-- The oldest staged COL worm of a collective that the host presented by T_s − 64 ns (R180). -/
def Agt.presentedFor (a : Agt) (collective ts : Nat) : Option Staged :=
  a.flow.stCol.find? fun st => Worm.opnd st.wm 0 4 = collective && decide (st.since + 64 * 2 ^ 16 ≤ ts * 2 ^ 16)

/-- INJECT_RUN_LAUNCH, the event of the run's T_s + G/2: the worm presented in time for the run, or an empty run. -/
def Agt.injectLaunch (a : Agt) (course slot outBond collective : Nat) : Agt :=
  match a.runEntry 1 course slot fun x => x.outBond = outBond && x.collective = collective with
  | none => a
  | some x =>
    let key := match tget a.fwd.parts x.partition with
      | some p => if p.trafficSlot = 0xFF then none else some p.trafficSlot
      | none => none
    if a.isSwitch ∨ a.runSilent x none then a
    else if a.runSilent x key then a.noteExpired.count Reg.PLB_CNT_INJECT_EMPTY
    else
    let first := runStart a.fwd.course x 1024
    match a.presentedFor collective (a.runTime course first) with
    | none => a.count Reg.PLB_CNT_INJECT_EMPTY
    | some st =>
      let w : Worm := { st.wm with partition := x.partition, operand := putOperand st.wm.operand 20 (le 8 course) }
      let a : Agt := { a with flow := { a.flow with stCol := removeFirst (fun y => y = st) a.flow.stCol } }
      let a := a.launch w outBond first course key
      (a.tapCount x.partition 0 (64 * (1 + w.length + b2n key.isSome))).giveCredit 3

/-- INJECT_RUN_LAUNCH. -/
def execInjectRunLaunch (w : Who) (course slot outBond collective : Nat) (s : State) : Res :=
  s.agtNext w fun a => a.injectLaunch course slot outBond collective

/-! ## Range starts, fences, the store (R236, R237, R244, R263) -/

/-- The first course of a collective's range at the agent: the lowest course that a COURSE entry of it names (R244). -/
def Agt.firstCourse (a : Agt) (collective : Nat) : Option Nat :=
  match (a.fwd.course.filter fun x => x.collective = collective).map (·.course) with
  | [] => none
  | c :: cs => some (minL c cs)

/-- Whether fabric time stands in the first course of a collective's range (R244). -/
def Agt.inFirstCourse (a : Agt) (collective part : Nat) : Bool :=
  match a.fwd.geom, a.firstCourse collective with
  | some g, some c => a.die.ns / g.courseNs % a.period part = c
  | _, _ => false

/-- PURL_RANGE_START (R244): at the first course of the range every chunk slot of the collective returns to FREE. -/
def Agt.rangeStart (a : Agt) (collective : Nat) : Agt :=
  match a.descOf collective with
  | none => a
  | some (k, d) =>
    if !a.inFirstCourse collective d.ent.partition then a
    else (a.onDie fun x => x.countN Reg.PRL_CNT_RESET_DISCARD d.chunks.length).setDesc k { d with chunks := [], taken := [] }

/-- PURL_RANGE_START. -/
def execPurlRangeStart (w : Who) (collective : Nat) (s : State) : Res := s.agtNext w fun a => a.rangeStart collective

/-- Set a bit of FLC_FENCED (R440, R451). -/
def Die.fenceBlock (d : Die) (blk : Nat) : Die :=
  let k := d.part.blockIndex blk
  d.setN Reg.FLC_FENCED (putBits (d.getN Reg.FLC_FENCED) k k 1)

/-- End the collectives that use a lane, or all of them: none of their worms is launched any more (R236). -/
def Agt.endDescs (a : Agt) (lane : Option Nat) : Agt :=
  let uses (e : PurlEnt) : Bool := match lane with
    | none => true
    | some l => e.hasLane l
  let a := a.keepEmits fun k => !(a.purl.descs.any fun p => p.2.ent.collective = k && uses p.2.ent)
  { a with purl := { a.purl with descs := a.purl.descs.map fun p => if uses p.2.ent then (p.1, { p.2 with ended := true }) else p } }

/-- PURL_LANE_FENCE (R236, R440): a fault in a logical lane, or in the engine. -/
def Agt.purlFence (a : Agt) (lane : Option Nat) : Agt :=
  if a.die.part.noPurl then a
  else match lane with
  | some l =>
    if a.purl.map.length ≤ l ∨ a.purl.fencedLanes.contains l then a
    else
      let a : Agt := { a with purl := { a.purl with fencedLanes := a.purl.fencedLanes ++ [l] } }
      (a.endDescs (some l)).onDie fun d => d.raiseFence Ev.PURL_LANE_FENCED l
  | none =>
    if a.die.blockFenced Blk.PRL then a
    else (a.endDescs none).onDie fun d => (d.fenceBlock Blk.PRL).raiseFence Ev.PURL_ENGINE_FENCED 0xFFFF

/-- PURL_LANE_FENCE. -/
def execPurlLaneFence (w : Who) (lane : Option Nat) (s : State) : Res := s.agtNext w fun a => a.purlFence lane

/-- The first byte of the chunk records in the store, and its size (R234). -/
def recordBase : Nat := 31457280
def storeSize : Nat := 33554432

/-- The engine's records as numbers: per descriptor its chunks, with the bonds as masks, and its run-occurrence bits (R234). -/
def Agt.records (a : Agt) : List (List Nat) :=
  a.purl.descs.flatMap fun p =>
    (p.2.chunks.map fun c => [0, p.1, c.slot, c.chunk, c.step, c.parent, ofBitList c.inputs, ofBitList c.sent, c.nextSeg,
      b2n c.inputRange, c.state, b2n c.result.isSome, (c.result.getD (0, 0)).1, (c.result.getD (0, 0)).2])
    ++ p.2.taken.map fun t => [1, p.1, t.1, t.2.1, t.2.2]

/-- The chunk, or the run-occurrence, that a record's numbers describe. -/
def chunkOf (r : List Nat) : Chunk :=
  let f (i : Nat) : Nat := r.getD i 0
  { slot := f 2, chunk := f 3, step := f 4, parent := f 5, inputs := bitList (f 6) 256, sent := bitList (f 7) 256, nextSeg := f 8,
    inputRange := f 9 = 1, state := f 10, result := if f 11 = 1 then some (f 12, f 13) else none }
def occurrenceOf (r : List Nat) : Nat × Nat × Nat := (r.getD 2 0, r.getD 3 0, r.getD 4 0)

/-- Put records in force. -/
def Agt.setRecords (a : Agt) (rs : List (List Nat)) : Agt :=
  { a with purl := { a.purl with descs := a.purl.descs.map fun p =>
      let mine := rs.filter fun r => r.getD 1 0 = p.1
      (p.1, { p.2 with chunks := (mine.filter fun r => r.getD 0 0 = 0).map chunkOf,
                       taken := (mine.filter fun r => r.getD 0 0 = 1).map occurrenceOf }) } }

/-- An access of PRL_STO_ADDR or PRL_STO_DATA of an engine that is present (R237, R263, R440, R443): the state after it, the
status of R456 and the value. In test mode alone the store is reached. The layout of the chunk records is the engine's own: what a
read of them shows, and what a write makes of them, are open functions of the records (log entry 13). -/
def Agt.stoReach (a : Agt) (addrReg : Bool) (val : Option Word) : Agt × Nat × Word :=
  let addr := a.die.getN Reg.PRL_STO_ADDR
  if a.die.blockFenced Blk.PRL ∧ (val.isSome ∨ !addrReg) then (a.onDie (·.noteFenced Blk.PRL), 4, 0)
  else if a.die.frozen Blk.PRL ∧ val.isSome then (a, 5, 0)
  else if !a.die.testEn then (a.raise Ev.STORE_LOCKED, 0, 0)
  else if !a.isSwitch then (a, 0, 0)
  else match val, addrReg with
  | some v, true => (a.onDie (·.set Reg.PRL_STO_ADDR v), 0, 0)
  | none, true => (a, 0, a.die.get Reg.PRL_STO_ADDR)
  | some v, false =>
    (if addr + 8 ≤ recordBase then a.setStore (mwrite a.purl.store addr (le 8 v.toNat))
      else if addr < storeSize then a.setRecords (Config.recordWrite a.records addr v)
      else a, 0, 0)
  | none, false =>
    if addr + 8 ≤ recordBase then (a, 0, BitVec.ofNat 64 (leNat (mread a.purl.store addr 8)))
    else if addr < storeSize then (a, 0, Config.recordRead a.records addr)
    else (a, 0, 0)

/-- PRL_STO_ACCESS: an access of PRL_STO_DATA over a path; the engine of a part that has none is an absent unit (R3, R524). -/
def Agt.stoAccess (a : Agt) (path : Path) (val : Option Word) : Agt :=
  if a.die.part.noPurl then (a.raise (Ev.ABSENT_ACCESS Blk.PRL)).emit (.access path 0 0)
  else
    let (a, st, v) := a.stoReach false val
    a.emit (.access path st v)

/-- PRL_STO_ACCESS. -/
def execPrlStoAccess (w : Who) (path : Path) (val : Option Word) (s : State) : Res := s.agtNext w fun a => a.stoAccess path val

/-- PRL_CLEAR_COUNTERS (R263). -/
def execPrlClearCounters (w : Who) (s : State) : Res := s.agtNext w fun a => a.written Blk.PRL (·.onDie (·.clearCounters Blk.PRL))

end Sys2Proof.Machine
end

