-- ==== Sys2Proof/Machine/Record.lean ====
section
/-! DEFINITION. The telemetry record of an agent (R353 to R357): what a window held, closed at its end, and the record made of it. -/

namespace Sys2Proof.Machine

/-! ## An agent's record (R354 to R357) -/

/-- The length of a window in ns (R353). -/
def windowNs (k : Nat) : Nat := 64000 * 2 ^ k

/-- The source counters of a record in its order: register and field width (R355). The switch's verdict counts and the discards
of R246 stand beside these. -/
def telSources (isSwitch : Bool) : List (Nat × Nat) :=
  (if isSwitch then
    [Reg.LKP_CNT_LOOKUPS, Reg.LKP_CNT_HOP_LIMIT, Reg.LKP_CNT_EXPIRED, Reg.LKP_CNT_NO_ROUTE, Reg.LKP_CNT_NO_OUTPUT,
     Reg.LKP_CNT_HDR_FAIL, Reg.LKP_CNT_MCAST_DROP, Reg.LKP_CNT_ERR_SENT, Reg.LKP_CNT_ERR_LOST, Reg.LKP_CNT_FWD_DROP,
     Reg.LKP_CNT_SCHED_MISS, Reg.PLB_CNT_SCHED_SUPPRESSED, Reg.PRL_CNT_INPUTS, Reg.PRL_CNT_ELEM_OPS, Reg.PRL_CNT_EMITS,
     Reg.PRL_CNT_EMIT_EMPTY, Reg.PRL_CNT_EMIT_LATE, Reg.PRL_CNT_INCOMPLETE, Reg.PRL_CNT_RESET_DISCARD,
     Reg.PRL_CNT_UNKNOWN, Reg.PRL_CNT_MISMATCH, Reg.PRL_CNT_TAG_FAIL, Reg.PRL_CNT_STALE_COURSE, Reg.PRL_CNT_DUPLICATE,
     Reg.PRL_CNT_SLOT_BUSY, Reg.PRL_CNT_STEP_MISMATCH, Reg.PRL_CNT_LATE_INPUT, Reg.PRL_CNT_FAN_IN].map fun k => (k, 32)
  else
    ([Reg.LKP_CNT_INJ_STALL_REQ, Reg.LKP_CNT_INJ_STALL_RSP, Reg.LKP_CNT_INJ_STALL_FWD].map fun k => (k, 16))
    ++ [Reg.AGT_CNT_INJECTED, Reg.AGT_CNT_PRESENTED, Reg.LKP_CNT_BOUNCED, Reg.LKP_CNT_EJECT_BOUNCE, Reg.LKP_CNT_EJECT_DISCARD,
        Reg.LKP_CNT_RSP_SPACE_WAIT, Reg.LKP_CNT_TIMEOUT, Reg.LKP_CNT_LATE_ARRIVAL, Reg.LKP_CNT_SCHED_MISS,
        Reg.PLB_CNT_INJECT_EMPTY, Reg.LKP_CNT_HDR_FAIL, Reg.GCM_CNT_TAG_FAIL, Reg.AGT_CNT_UNIT_ERR, Reg.LNK_CNT_RETRY,
        Reg.AGT_CNT_ACCEPT_LATE, Reg.AGT_CNT_HB_LATE, Reg.AGT_CNT_INJ_REFUSED, Reg.WCH_CNT_PRESENT_ABORT].map fun k => (k, 32))
  ++ [(Reg.FLC_CNT_S1, 16), (Reg.FLC_CNT_S2, 16), (Reg.FLC_CNT_S3, 16)]

/-- The counters as they stand, in the record's order. -/
def Agt.telSample (a : Agt) : List Word :=
  (telSources a.isSwitch).map (fun (p : Nat × Nat) => a.die.get p.1) ++ a.tel.verdicts.map (BitVec.ofNat 64)

/-- The difference of two samples of a counter in a field (R43, R356); none where the counter was cleared between them, of
which the spec states no difference. -/
def counterDiff (now old : Word) (bits : Nat) : Option Nat :=
  if now.toNat ≥ 2 ^ 63 ∨ old.toNat ≥ 2 ^ 63 then some (2 ^ bits - 1)
  else if old.toNat ≤ now.toNat then some (satU bits (now.toNat - old.toNat)) else none

/-- The differences of a list of counters; one that the spec states no value for is a free value (log entry 3). -/
def Die.counterDiffs (d : Die) : List (Word × Word × Nat) → List Nat × Die
  | [] => ([], d)
  | (now, old, bits) :: rest =>
    let (v, d) := match counterDiff now old bits with
      | some v => (v, d)
      | none =>
        let (w, d) := d.freeVal
        (w.toNat % 2 ^ bits, d)
    let (vs, d) := Die.counterDiffs d rest
    (v :: vs, d)

/-- n free busy fields: how long flits crossed a bond is time the model does not hold (log entry 24). -/
def Die.freeBusy : Nat → Die → List Nat × Die
  | 0, d => ([], d)
  | n + 1, d =>
    let (w, d) := d.freeVal
    let (ws, d) := Die.freeBusy n d
    (w.toNat % 65536 :: ws, d)

/-- The region with the largest gauge ratio, and the ratio (R355). -/
def worstRatio (rs : Tbl Region) : Nat × Nat :=
  rs.foldl (fun (b : Nat × Nat) p => if p.2.ratio > b.2 then (p.1, p.2.ratio) else b) (0, 0)

/-- The health block (R355) with the events of the window. -/
def Agt.healthBlock (a : Agt) (s1 s2 s3 : Nat) : Bytes :=
  let h := a.tel.health.getD
    { fresh := false, temp := 0, region := 0, coreLo := 0, coreHi := 0, sramLo := 0, ioLo := 0, power := 0, eye := 0, eyeBond := 0 }
  let g := worstRatio a.die.regions
  le 2 (toTwos 16 h.temp) ++ le 1 h.region ++ le 1 g.1 ++ le 2 h.coreLo ++ le 2 h.coreHi ++ le 2 h.sramLo ++ le 2 h.ioLo
  ++ le 4 h.power ++ le 2 (satU 16 g.2) ++ le 2 (satU 16 h.eye) ++ le 1 h.eyeBond
  ++ le 1 (a.cast.modules.filter (· = 3)).length ++ le 2 0 ++ le 2 s1 ++ le 2 s2 ++ le 2 s3 ++ le 2 0

/-- The bond that one of some logical lanes belongs to. A switch's lanes keep their functions (R18), so that its bonds to endpoint
slots, dimensions and the controller are known by their lanes, never from a FID (R34). -/
def Agt.bondOver (a : Agt) (lanes : List Nat) : Option Nat :=
  (a.fwd.bonds.find? fun p => p.2.lanes.any lanes.contains).map (·.1)

/-- The bond to an endpoint slot of a switch's own rack: lanes 2e and 2e + 1 (R18). -/
def Agt.downBond (a : Agt) (slot : Nat) : Option Nat := a.bondOver [2 * slot, 2 * slot + 1]

/-- The bonds of the up_busy entries (R355): dimensions 0 to 10 on lanes 128 + 4d to 131 + 4d, the controller bond on lanes 172 to
175 (R18). -/
def Agt.upBonds (a : Agt) : List (Option Nat) :=
  (List.range 12).map fun d => a.bondOver ((List.range 4).map (· + (128 + 4 * d)))

/-- The body of a switch record from what its window held and the host's counts (R355, R357). -/
def Agt.switchBody (a : Agt) (x : TelWindow) : Bytes :=
  let v := x.diffs
  let n (i : Nat) : Nat := v.getD i 0
  let cnt (b : Option Nat) : Nat × Nat := (b.bind fun x => tget a.tel.counts x).getD (0, 0)
  let downs := (List.range 64).map fun i => cnt (a.downBond i)
  let ups := (a.upBonds ++ List.replicate 4 none).map cnt
  let discards := satU 32 (sumL ((v.drop 19).take 9))
  (downs.flatMap fun p => le 2 p.1) ++ (ups.flatMap fun p => le 2 p.1) ++ (ups.flatMap fun p => le 2 p.2)
  ++ ([n 0, n 31, n 32, n 33, satU 32 (sumL (downs.map (·.2))), n 1, n 2, n 3, n 4, n 5, n 6, n 7, n 8, n 9, n 10, n 11].flatMap
      (le 4))
  ++ x.health
  ++ ([n 12, n 13, n 14, n 15, n 16, discards, n 17, n 18].flatMap (le 4))
  ++ le 2 x.lanes ++ le 2 x.chunkHigh ++ le 12 0 ++ List.replicate 32 0

/-- The body of an endpoint record from what its window held (R355). -/
def TelWindow.endpointBody (x : TelWindow) : Bytes :=
  let n (i : Nat) : Nat := x.diffs.getD i 0
  slice (x.busy.take 16 |>.flatMap (le 2)) 0 32 ++ slice (x.busy.drop 16 |>.flatMap (le 2)) 0 32
  ++ (((List.range 3).map n).flatMap (le 2)) ++ le 2 0
  ++ (((List.range 10).map fun i => n (3 + i)).flatMap (le 4))
  ++ x.health
  ++ (((List.range 8).map fun i => n (13 + i)).flatMap (le 4))

/-- Begin a window: the counters as they stand are what its record differs from. -/
def Agt.windowStart (a : Agt) (partial_ : Bool) : Agt :=
  { a with tel := { a.tel with last := a.telSample, exceedSeen := false, partialFlag := partial_, chunkHigh := 0,
                               health := a.tel.health.map fun h => { h with fresh := false } } }

/-- The widths of a record's counter fields, in the order of `Agt.telSample`. -/
def telBits (isSwitch : Bool) : List Nat := (telSources isSwitch).map (·.2) ++ (if isSwitch then [32, 32, 32] else [])

/-- Whether the health block of a record reports a field at full scale (R356): a voltage, the power, the gauge ratio or the eye. -/
def healthFull (h : Bytes) : Bool :=
  ([4, 6, 8, 10, 16, 18].any fun o => fieldAt h o 2 = 0xFFFF) || fieldAt h 12 4 = 0xFFFFFFFF

/-- A window ends (R354 to R356): the differences of its counters, its busy fields and its health block are kept for its record, and the
next window begins. A window of which fabric time skipped a part is PARTIAL. -/
def Agt.closeWindow (a : Agt) (window : Nat) (skipped : Bool) : Agt :=
  let bits := telBits a.isSwitch
  let now := a.telSample
  let (v, d) := a.die.counterDiffs ((List.range bits.length).map fun i => (now.getD i 0, a.tel.last.getD i 0, bits.getD i 32))
  let n := min 16 a.fwd.bonds.length
  let (out, d) := if a.isSwitch then ([], d) else d.freeBusy n
  let (inn, d) := if a.isSwitch then ([], d) else d.freeBusy n
  let a : Agt := { a with die := d }
  let busy := out ++ List.replicate (16 - out.length) 0 ++ inn
  let ev (i : Nat) : Nat := v.getD ((if a.isSwitch then 28 else 21) + i) 0
  let health := a.healthBlock (ev 0) (ev 1) (ev 2)
  let full := (List.range bits.length).any (fun i => v.getD i 0 = 2 ^ bits.getD i 32 - 1) || busy.contains 0xFFFF || healthFull health
  let x : TelWindow :=
    { window := window, k := a.tel.k, diffs := v, busy := busy, health := health, full := full, skipped := a.tel.partialFlag || skipped,
      exceed := a.tel.exceedSeen, unaligned := decide (a.die.fget Fl.PLB_STATUS_chain_locked = 0),
      lanes := sumL (a.purl.descs.map fun p => p.2.ent.laneCount), chunkHigh := a.tel.chunkHigh }
  let kept := a.tel.closed ++ [x]
  ({ a with tel := { a.tel with closed := kept.drop (kept.length - 2) } } : Agt).windowStart skipped

/-- The window in which an agent's fabric time lies ends where a tick from `t0` takes the time out of it (R353). -/
def Agt.windowTick (a : Agt) (t0 : Nat) : Agt :=
  let l := windowNs a.tel.k
  let w := t0 / l
  if !a.tel.enable ∨ a.die.ns / l = w then a else a.closeWindow w (decide (a.die.ns / l ≠ w + 1))

/-- When the record of a window is sent, ns (R354): 8 µs after the window's end and a part of the next window that the FID gives. -/
def TelWindow.dueNs (x : TelWindow) (fid : Nat) : Nat :=
  8000 + (x.window + 1) * windowNs x.k + fid % 1024 * windowNs x.k / 1024

/-- The record of a window (R355, R356). -/
def Agt.recordOf (a : Agt) (x : TelWindow) : Bytes :=
  let counts := if a.tel.countsWindow = x.window then a.tel.counts else []
  let a : Agt := { a with tel := { a.tel with counts := counts } }
  let noCounts := a.isSwitch && a.fwd.bonds.any fun b => (tget counts b.1).isNone
  let sums := [sumL ((x.diffs.drop 19).take 9), sumL ((List.range 64).map fun i => ((a.downBond i).bind fun b => (tget counts b).map (·.2)).getD 0)]
  let saturated := x.full || (a.isSwitch && ((counts.any fun p => p.2.1 = 0xFFFF || p.2.2 = 0xFFFF) || sums.any fun s => decide (2 ^ 32 - 1 ≤ s)))
  let flags := b2n saturated + 2 * b2n x.skipped + 4 * b2n x.exceed + 8 * b2n x.unaligned + 16 * b2n noCounts
  let kind := if a.mode = 1 then 2 else if a.mode = 2 then 3 else 1
  le 1 kind ++ le 1 flags ++ le 1 x.k ++ le 1 0 ++ le 4 a.fid ++ le 8 x.window ++ (if a.isSwitch then a.switchBody x else x.endpointBody)

/-- The record of a window that has ended goes to the active controller, once and when it is due (R354). -/
def Agt.sendRecord (a : Agt) (window : Nat) : Agt :=
  match a.tel.closed.find? fun x => x.window = window with
  | none => a
  | some x =>
    if !a.tel.enable ∨ a.die.ns < x.dueNs a.fid then a
    else
      let m : FwdMsg := { dst := a.die.controllerFid, op := 0x88, mcast := 0, root := 0, bond := 0xFF, operand := [], payload := a.recordOf x,
                          block := a.die.part.blockIndex Blk.AGT, privilege := 0 }
      ({ a with tel := { a.tel with closed := a.tel.closed.filter fun y => y.window ≠ window } } : Agt).onDie (·.sendFwd m)

end Sys2Proof.Machine
end

