-- ==== Sys2Proof/Machine/MemExec.lean ====
section
/-! DEFINITION. The commands of controller memory (R484 to R487, R492). -/

namespace Sys2Proof.Machine

/-- NARROW_WRITE (R484): a write to controller memory by a unit of the die. -/
def execNarrowWrite (addr : Nat) (data : Bytes) (s : State) : Res :=
  s.ctlNext fun c => if addr + data.length ≤ c.capacity then (c.memWrite addr data).1 else c

/-- MERGE_WRITEBACK (R484): the entry's 2 µs are over. -/
def execMergeWriteback (codeword : Nat) (s : State) : Res :=
  s.ctlNext fun c =>
    if c.memu.merge.any fun m => m.addr = codeword / 128 * 128 && decide (2000 + m.startNs ≤ c.die.up) then
      c.writeback (codeword / 128 * 128)
    else c

/-- SCRUB_READ. -/
def execScrubRead (errs : List (Nat × Nat)) (s : State) : Res := s.ctlNext fun c => c.scrub errs

/-- ROW_SPARE. -/
def execRowSpare (channel row : Nat) (s : State) : Res := s.ctlNext fun c => c.spareRow channel row

/-- MEM_CLEAR_COUNTERS (R492). -/
def execMemClearCounters (s : State) : Res := s.ctlNext fun c => c.written Blk.MEM (·.onDie (·.clearCounters Blk.MEM))

end Sys2Proof.Machine
end

