-- ==== Sys2Proof/Machine/Cvu.lean ====
section
/-! DEFINITION. The check-value units of both parts (R488 to R493). -/

namespace Sys2Proof.Machine

/-- The key of a unit's register. -/
def cvuReg (unit reg : Nat) : Nat := reg + 0x100 * unit

/-- Fields of CVU_CTL (R493). -/
def cvuMode (ctl : Nat) : Nat := bitsOf ctl 4 3
def cvuXz (ctl : Nat) : Bool := bitOf ctl 2
def cvuLast (ctl : Nat) : Bool := bitOf ctl 6

/-- Width in bytes of a code's check value, its init and final XOR, its polynomial (R488). -/
def cvuBytes (ctl : Nat) : Nat := if cvuXz ctl then 8 else 4
def cvuOnes (ctl : Nat) : Nat := 2 ^ (8 * cvuBytes ctl) - 1
def cvuPoly (ctl : Nat) : Nat := if cvuXz ctl then poly64xz else poly32c

/-- Whether a unit runs an operation. -/
def Die.cvuBusy (d : Die) (unit : Nat) : Bool := d.bget (cvuReg unit Reg.CVU_STATUS) 0 0 = 1

/-- End an operation with a result. -/
def Die.cvuEnd (d : Die) (unit result : Nat) : Die :=
  (d.bset (cvuReg unit Reg.CVU_STATUS) 0 0 0).bset (cvuReg unit Reg.CVU_STATUS) 3 1 result

/-- The operation that a unit runs or ran last. -/
def Die.cvuOp (d : Die) (unit : Nat) : Cvu := d.cvu.getD unit { ctl := 0 }

/-- The bytes of the source that the operation processes: without the check value that CHECK_STRIP compares. -/
def Cvu.body (o : Cvu) : Nat := if cvuMode o.ctl = 2 ∧ cvuLast o.ctl then o.len - cvuBytes o.ctl else o.len

/-- Whether the length and mode are within the limits of R489. -/
def Die.cvuLengthOk (d : Die) (unit ctl : Nat) : Bool :=
  let len := d.bget (cvuReg unit Reg.CVU_LEN) 24 0
  decide (1 ≤ len) && decide (len ≤ 16 * 1048576) && decide (cvuMode ctl ≠ 3)
    && (!(cvuMode ctl = 2 && cvuLast ctl) || decide (cvuBytes ctl < len))

/-- CVU_START (R489, R490): the write of CVU_CTL with start. -/
def Die.cvuStart (d : Die) (unit ctl : Nat) : Die :=
  if !bitOf ctl 0 ∨ d.part.cvus ≤ unit then d
  else if d.fenced Blk.CVU unit then d.noteFenced Blk.CVU
  else if d.cvuBusy unit then d.raise Ev.CVU_BUSY unit
  else
    let d := d.bset (cvuReg unit Reg.CVU_STATUS) 4 4 (bitsOf ctl 2 2)
    if !d.cvuLengthOk unit ctl then d.cvuEnd unit 5
    else
      let d := if bitOf ctl 5 then (d.setN (cvuReg unit Reg.CVU_RUN) (cvuOnes ctl)).setN (cvuReg unit Reg.CVU_COUNT) 0 else d
      let d := (d.bset (cvuReg unit Reg.CVU_STATUS) 0 0 1).bset (cvuReg unit Reg.CVU_STATUS) 3 1 0
      { d with cvu := d.cvu.set unit { ctl := ctl, src := d.getN (cvuReg unit Reg.CVU_SRC), dst := d.getN (cvuReg unit Reg.CVU_DST),
                                       len := d.bget (cvuReg unit Reg.CVU_LEN) 24 0 } }

/-- Process source bytes: the context moves on. -/
def Die.cvuProcess (d : Die) (unit : Nat) (bs : Bytes) : Die :=
  let ctl := (d.cvuOp unit).ctl
  let d := d.setN (cvuReg unit Reg.CVU_RUN) (crcRun (cvuPoly ctl) (d.getN (cvuReg unit Reg.CVU_RUN) % (cvuOnes ctl + 1)) bs)
  d.setN (cvuReg unit Reg.CVU_COUNT) ((d.getN (cvuReg unit Reg.CVU_COUNT) + bs.length) % 2 ^ 48)

/-- What the operation copies of the bytes it processed: an address and bytes; COMPUTE copies nothing. -/
def Cvu.copies (o : Cvu) (bs : Bytes) : List (Nat × Bytes) := if cvuMode o.ctl = 0 then [] else [(o.dst, bs)]

/-- CVU_COMPLETE (R489, R491): the operation ends, and what it writes to its local memory; `src` are the source bytes that could be
read, `bad` tells that a code word of the source reads UNCORRECTABLE. -/
def Die.cvuComplete (d : Die) (unit : Nat) (src : Bytes) (bad : Bool) : Die × List (Nat × Bytes) :=
  let o := d.cvuOp unit
  let n := o.body
  let d := d.cvuProcess unit (src.take n)
  let copied := o.copies (src.take n)
  if bad then (d.cvuEnd unit 4, copied)
  else if !cvuLast o.ctl then (d.cvuEnd unit 0, copied)
  else
    let v := Nat.xor (d.getN (cvuReg unit Reg.CVU_RUN)) (cvuOnes o.ctl)
    let d := d.setN (cvuReg unit Reg.CVU_VALUE) v
    match cvuMode o.ctl with
    | 1 => (d.cvuEnd unit 0, copied ++ [(o.dst + n, le (cvuBytes o.ctl) v)])
    | 2 => (d.cvuEnd unit (if leNat (src.drop n) = v then 1 else 2), copied)
    | _ => (d.cvuEnd unit 0, copied)

/-- Writes of a unit of the controller go into controller memory (R480, R484); one that would pass its capacity changes nothing (log
entry 15). -/
def Ctl.putAll (c : Ctl) (ws : List (Nat × Bytes)) : Ctl :=
  ws.foldl (fun c w => if w.1 + w.2.length ≤ c.capacity then (c.memWrite w.1 w.2).1 else c) c

/-- Size of the bulk buffer (R84). -/
def bulkSize : Nat := 4 * 1048576

/-- Writes of a unit of an agent go into the bulk buffer; one that would pass its 4 MiB changes nothing (log entry 15). -/
def Die.putAll (d : Die) (ws : List (Nat × Bytes)) : Die :=
  ws.foldl (fun d w => if w.1 + w.2.length ≤ bulkSize then { d with mem := mwrite d.mem w.1 w.2 } else d) d

/-- CVU_START. -/
def execCvuStart (pl : Place) (unit : Nat) (val : Word) (s : State) : Res :=
  s.dieNext pl fun d => d.written Blk.CVU (·.cvuStart unit val.toNat)

/-- The end of the controller's operation: its source is read from controller memory (R483). -/
def Ctl.cvuFinish (c : Ctl) (unit : Nat) : Ctl :=
  if !c.die.cvuBusy unit then c
  else
    let o := c.die.cvuOp unit
    let (c, src, bad) := c.memRead o.src o.len
    let (d, ws) := c.die.cvuComplete unit src bad
    ({ c with die := d } : Ctl).putAll ws

/-- The end of an agent's operation: its source is read from the bulk buffer. -/
def Die.cvuFinish (d : Die) (unit : Nat) : Die :=
  if !d.cvuBusy unit then d
  else
    let o := d.cvuOp unit
    let (d, ws) := d.cvuComplete unit (mread d.mem o.src o.len) false
    d.putAll ws

/-- CVU_COMPLETE. -/
def execCvuComplete (pl : Place) (unit : Nat) (s : State) : Res :=
  match pl with
  | .ctl => s.ctlNext fun c => c.cvuFinish unit
  | .agt w => s.agtNext w fun a => a.onDie (·.cvuFinish unit)

/-- How many bytes an aborted operation has processed: it stops at a 64-byte boundary of the source before its end. How far the unit has
come by then is a free value (log entry 3). -/
def Die.cvuStop (d : Die) (unit : Nat) : Nat × Die :=
  let o := d.cvuOp unit
  let stops := (List.range (o.body / 64 + 1)).map fun i => 64 * i - o.src % 64
  let ok := (stops.filter (· < o.body))
  let (w, d) := d.freeVal
  (ok.getD (w.toNat % max 1 ok.length) 0, d)

/-- An abort at the controller: a code word that reads UNCORRECTABLE before the stop ends the operation with that result. -/
def Ctl.cvuAbort (c : Ctl) (unit : Nat) : Ctl :=
  if !c.die.cvuBusy unit then c
  else
    let (n, d) := c.die.cvuStop unit
    let (c, bs, bad) := ({ c with die := d } : Ctl).memRead (c.die.cvuOp unit).src n
    (c.onDie fun d => (d.cvuProcess unit bs).cvuEnd unit (if bad then 4 else 3)).putAll ((c.die.cvuOp unit).copies bs)

/-- An abort at an agent. -/
def Die.cvuAbort (d : Die) (unit : Nat) : Die :=
  if !d.cvuBusy unit then d
  else
    let o := d.cvuOp unit
    let (n, d) := d.cvuStop unit
    let bs := mread d.mem o.src n
    ((d.cvuProcess unit bs).cvuEnd unit 3).putAll (o.copies bs)

/-- CVU_ABORT (R491). -/
def execCvuAbort (pl : Place) (unit : Nat) (s : State) : Res :=
  match pl with
  | .ctl => s.ctlNext fun c => c.written Blk.CVU (·.cvuAbort unit)
  | .agt w => s.agtNext w fun a => a.written Blk.CVU (·.onDie (·.cvuAbort unit))

/-- The status that a write of CVU_RUN or CVU_COUNT completes with during an operation: BUSY, to which R456 gives no byte. -/
def statusBusy : Nat := 0x100

/-- CVU_CONTEXT_WRITE (R490): `reg` 0 is CVU_RUN, 1 CVU_COUNT. During an operation the write is ignored and completes BUSY. -/
def Die.cvuContext (d : Die) (unit reg val : Nat) : Die :=
  if d.part.cvus ≤ unit then d
  else if d.cvuBusy unit then d.emit (.irq "cvu_busy" unit)
  else if reg = 0 then d.setN (cvuReg unit Reg.CVU_RUN) val
  else d.setN (cvuReg unit Reg.CVU_COUNT) (val % 2 ^ 48)

/-- CVU_CONTEXT_WRITE. -/
def execCvuContextWrite (pl : Place) (unit reg : Nat) (val : Word) (s : State) : Res :=
  s.dieNext pl fun d => d.written Blk.CVU (·.cvuContext unit reg val.toNat)

/-- What FUNC_REINIT of CVU does (R345, R491): every operation ends with ABORTED, every running value takes its code's init. -/
def Die.cvuReinit (d : Die) : Die :=
  (List.range d.part.cvus).foldl (fun d u =>
    let d := if d.cvuBusy u then d.cvuEnd u 3 else d
    d.setN (cvuReg u Reg.CVU_RUN) (cvuOnes (d.bget (cvuReg u Reg.CVU_STATUS) 4 4 * 4))) d

end Sys2Proof.Machine
end

