-- ==== Sys2Proof/Machine/Recover.lean ====
section
/-! DEFINITION. Watches, recovery levels and dumps at an agent (R284, R285, R324 to R343, R504, R547). -/

namespace Sys2Proof.Machine

/-! ## Notices and reports (R330, R341) -/

/-- A NOTICE message to the host. -/
def Agt.notice (a : Agt) (code partition : Nat) (body : Bytes) : Agt := a.msg 0x86 0 0 (le 2 code ++ le 2 partition ++ body)

/-- The results of a RECOVERY_REPORT body, whose layout the spec does not give (log entry 14). -/
def reportDone : Nat := 0
def reportFailed : Nat := 1
def reportBusy : Nat := 2
def reportStarted : Nat := 3

/-- The level in progress, the recovery's state and its origin (R350). -/
def Agt.recLevel (a : Agt) : Nat := a.die.fget Fl.WCH_STATUS_level
def Agt.recState (a : Agt) : Nat := a.die.fget Fl.WCH_STATUS_state

/-- A RECOVERY_REPORT to the controller (R330). -/
def Agt.report (a : Agt) (level result : Nat) : Agt :=
  a.onDie fun d => d.toController 0x24 (le 1 level ++ le 1 (d.fget Fl.WCH_STATUS_target) ++ le 1 result
    ++ le 1 (d.fget Fl.WCH_STATUS_origin) ++ le 4 a.rcv.lastTaken)

/-! ## Levels (R326 to R333) -/

/-- The watch timer that tray acknowledge owns (R328). -/
def Agt.trayTimer (a : Agt) : Option (Nat × Timer) :=
  a.rcv.timers.find? fun p => a.die.resource.timers.getD p.1 0 = 6

/-- Whether an agent has a level (R326, R328): a switch only 4 and 5, an endpoint 3 only as a member, 5 only with a timer. -/
def Agt.hasLevel (a : Agt) (lv : Nat) : Bool :=
  if lv = 5 then a.trayTimer.isSome
  else if a.isSwitch then lv = 4
  else if lv = 3 then a.tenant.isSome
  else 1 ≤ lv && lv ≤ 4

/-- The first level at or above one that the agent has. -/
def Agt.levelFrom (a : Agt) (lv : Nat) : Option Nat := ([1, 2, 3, 4, 5].filter fun k => lv ≤ k).find? a.hasLevel

/-- Bind-off begins (R332): the REQs in the staging are refused. -/
def Agt.beginBindOff (a : Agt) (level : Nat) : Agt :=
  if a.die.fget Fl.WCH_STATUS_bind_off = 1 then a
  else
    let st := a.flow.stReq
    let a : Agt := { a with flow := { a.flow with stReq := [] }, rcv := { a.rcv with drained := false } }
    let a := a.onDie fun d => d.fset Fl.WCH_STATUS_bind_off 1
    let a := a.notice 0x0102 0 (le 1 1 ++ le 1 level)
    st.foldl (fun a x => a.refuseInject 0 x.reqTag 3) a

/-- Change the recovery's state. -/
def Agt.setRec (a : Agt) (st : Nat) : Agt := a.onDie fun d => d.fset Fl.WCH_STATUS_state st

/-- Presentations that were accepted and not fully transferred are cut off and counted (R332): how many is a free value, since the
model holds no transfer in progress (log entry 49). -/
def Agt.cutPresented (a : Agt) : Agt :=
  if a.isSwitch then a
  else
    let (v, d) := a.die.freeVal
    { a with die := d.countN Reg.WCH_CNT_PRESENT_ABORT v.toNat }

/-- RESET_CMD, or TRAY_REQ_N, once the dump and the drain are done (R327, R332, R547). -/
def Agt.command (a : Agt) : Agt :=
  let lv := a.recLevel
  let a := if lv ≥ 4 then a.cutPresented else a
  let a : Agt := { a with rcv := { a.rcv with sinceNs := a.die.up, trayed := false } }
  let a := if lv ≥ 4 then a.setReserved 0 else a
  if lv = 5 then
    let now := a.die.up
    let ts := a.rcv.timers.map fun p =>
      if a.die.resource.timers.getD p.1 0 = 6 then (p.1, { p.2 with startNs := some now, expired := false }) else p
    let a : Agt := { a with rcv := { a.rcv with timers := ts }, pins := { a.pins with trayReqN := false } }
    ((a.emit (.pin "TRAY_REQ_N" false)).count Reg.TRY_CNT_CYCLES).setRec 5
  else (a.msg 0x8B 0 0 (le 1 lv ++ le 1 (a.die.fget Fl.WCH_STATUS_target))).setRec 3

/-- Go on with the level once its dump and its drain allow (R327): the state is DUMPING or DRAINING until then. -/
def Agt.proceed (a : Agt) : Agt :=
  if a.recState ≠ 1 ∧ a.recState ≠ 2 then a
  else if a.rcv.dump.isSome then a.setRec 1
  else if a.recLevel ≥ 3 ∧ !a.rcv.drained then a.setRec 2
  else a.command

/-- Stop the timers whose owner escalates (R325). -/
def Agt.stopTimers (a : Agt) : Agt :=
  let f (p : Nat × Timer) : Nat × Timer :=
    let o := a.die.resource.timers.getD p.1 0
    if 1 ≤ o ∧ o ≤ 3 then (p.1, { p.2 with startNs := none }) else p
  { a with rcv := { a.rcv with timers := a.rcv.timers.map f } }

/-- Start the timers whose owner escalates again (R325, R328); in the safe state they stay stopped (R443). -/
def Agt.startTimers (a : Agt) : Agt :=
  if a.die.safe then a else
  let now := a.die.up
  let f (p : Nat × Timer) : Nat × Timer :=
    let o := a.die.resource.timers.getD p.1 0
    if 1 ≤ o ∧ o ≤ 3 then (p.1, { p.2 with startNs := some now, expired := false }) else p
  { a with rcv := { a.rcv with timers := a.rcv.timers.map f } }

/-- Enter EXHAUSTED (R328). -/
def Agt.exhaust (a : Agt) : Agt :=
  let a := (a.onDie fun d => (d.fset Fl.WCH_STATUS_level 0).fset Fl.WCH_STATUS_state 6).count Reg.WCH_CNT_EXHAUSTED
  a.raise Ev.RECOVERY_EXHAUSTED

/-- Run a level (R327); `lv` is one the agent has. -/
def Agt.runLevel (a : Agt) (lv target : Nat) : Agt :=
  let a := a.stopTimers
  let a := a.onDie fun d => ((d.fset Fl.WCH_STATUS_level lv).fset Fl.WCH_STATUS_target target).fset Fl.WCH_STATUS_state 1
  let a := (a.count (Reg.WCH_CNT_LEVEL1 + 8 * (lv - 1))).report lv reportStarted
  let a := if lv ≥ 3 then a.beginBindOff lv else a
  let a := if lv ≥ 2 then a.startDump (if a.die.fget Fl.WCH_STATUS_origin = 1 then 1 else 2) lv else a
  let a := if a.isSwitch then a.withdrawAll else a
  a.proceed

/-- A level failed: the next level where it escalates, else EXHAUSTED (R327); in the safe state no new level starts (R443). -/
def Agt.failLevel (a : Agt) : Agt :=
  let lv := a.recLevel
  let up : Bool := a.rcv.escalate && decide (lv < 5) && !a.die.safe
  let a := a.report lv reportFailed
  if up then
    match a.levelFrom (lv + 1) with
    | some n => a.runLevel n 0xFF
    | none => a.exhaust
  else a.exhaust

/-- Retrain what a level 5, or a switch's recovery, took down: lanes of bonds that carry nothing now (R332, R333). -/
def Agt.retrainDown (a : Agt) : Agt :=
  let ls := (a.fwd.bonds.flatMap fun p => p.2.lanes).filter fun l => let st := (a.lane l).state; st = 0 || st = 5
  ls.foldl (fun a l => a.startTraining l) a

/-- A level ends DONE (R328, R332, R333). -/
def Agt.endLevel (a : Agt) (lv : Nat) : Agt :=
  let a := match a.tenant with
    | some (_, p) => if lv ≥ 3 then a.zeroGroups p.cgBase p.cgCount else a
    | none => a
  let a := if lv ≥ 4 then (a.clearMsr 4 15).grantCredits else a
  let bound := a.die.fget Fl.WCH_STATUS_bind_off = 1
  let a := if bound then (a.onDie fun d => d.fset Fl.WCH_STATUS_bind_off 0).notice 0x0102 0 (le 1 0 ++ le 1 lv) else a
  let a := if lv = 5 ∨ (lv ≥ 4 ∧ a.isSwitch) then a.retrainDown else a
  let a := a.report lv reportDone
  (a.onDie fun d => ((d.fset Fl.WCH_STATUS_level 0).fset Fl.WCH_STATUS_state 0).fset Fl.WCH_STATUS_origin 0).startTimers

/-! ## Watch timers (R284, R324) -/

/-- What an expiry does by owner (R324). -/
def Agt.ownerAction (a : Agt) (k : Nat) : Agt :=
  match tget a.rcv.timers k with
  | none => a
  | some t =>
    match a.die.resource.timers.getD k 0 with
    | 4 => a.purlFence none
    | 5 => a.raise Ev.MBX_NO_RESPONSE k
    | 6 => a
    | _ =>
      match if a.die.safe then none else a.levelFrom t.firstLevel with
      | none => a
      | some lv =>
        let a : Agt := { a with rcv := { a.rcv with escalate := true, graceUs := t.graceUs, lastTaken := 0 } }
        (a.onDie fun d => (d.fset Fl.WCH_STATUS_origin 1).fset Fl.WCH_STATUS_timer k).runLevel lv 0xFF

/-- Decide a timer TIMED_OUT (R324, R508): while the agent core restarts, the action waits for the new firmware. -/
def Agt.expire (a : Agt) (k : Nat) (t : Timer) : Agt :=
  let a : Agt := { a with rcv := { a.rcv with timers := tset a.rcv.timers k { t with startNs := none, expired := true } } }
  let a := (a.count Reg.WCH_CNT_EXPIRED).raise Ev.WATCH_EXPIRED k
  let a := a.notice 0x0101 0 (le 1 k ++ le 1 t.firstLevel)
  if a.die.fget Fl.AGT_FW_STATUS_state = 5 then { a with rcv := { a.rcv with deferred := a.rcv.deferred ++ [k] } }
  else a.ownerAction k

/-- WATCH_EXPIRE (R324, R325): none expires during a recovery, and the tray timer serves only as a wait. -/
def Agt.watchExpire (a : Agt) (k : Nat) : Agt :=
  match tget a.rcv.timers k with
  | none => a
  | some t =>
    match t.startNs with
    | none => a
    | some start =>
      let o := a.die.resource.timers.getD k 0
      if a.inRecovery ∨ o = 0 ∨ o = 6 then a
      else if start + t.timeoutUs * 1000 ≤ a.die.up then a.expire k t
      else
        let (forced, d) := a.die.takeWait Blk.WCH
        if forced then ({ a with die := d } : Agt).expire k t else a

/-- WATCH_EXPIRE. -/
def execWatchExpire (w : Who) (timer : Nat) (s : State) : Res := s.agtNext w fun a => a.works Blk.WCH fun a => a.watchExpire timer

/-- A message that restarts a timer of an owner (R284). One that comes after timeout_us finds its wait TIMED_OUT, as does one whose wait
FLC_INJECT made come out so: the timer expires, and the message is late (R324, R343, R444). -/
def Agt.restartMsg (a : Agt) (k owner : Nat) : Agt :=
  match tget a.rcv.timers k with
  | none => a.count Reg.AGT_CNT_MSG_DENIED
  | some t =>
    if a.die.resource.timers.getD k 0 ≠ owner then a.count Reg.AGT_CNT_MSG_DENIED
    else if t.expired then a.count Reg.AGT_CNT_HB_LATE
    else
    match t.startNs with
    | none => a
    | some start =>
      let (forced, d) := a.die.takeWait Blk.WCH
      if forced ∨ start + t.timeoutUs * 1000 < a.die.up then (({ a with die := d } : Agt).expire k t).count Reg.AGT_CNT_HB_LATE
      else { a with rcv := { a.rcv with timers := tset a.rcv.timers k { t with startNs := some a.die.up } } }

/-- HEARTBEAT (R284). -/
def execHeartbeat (w : Who) (timer : Nat) (s : State) : Res := s.agtNext w (·.hears (·.restartMsg timer 1))

/-- PROGRESS (R284): whichever engine is given. -/
def execProgress (w : Who) (timer _engine : Nat) (s : State) : Res := s.agtNext w (·.hears (·.restartMsg timer 2))

/-! ## The waits of a level (R328, R343) -/

/-- WCH_LIMIT.grace_ms, or the entry's grace, ns (R328). -/
def Agt.graceNs (a : Agt) : Nat :=
  if a.die.fget Fl.WCH_STATUS_origin = 1 then 1000 * a.rcv.graceUs else 1000000 * a.die.fget Fl.WCH_LIMIT_grace_ms

/-- Whether the level's wait has passed its bound. -/
def Agt.levelLate (a : Agt) : Bool :=
  let waited := a.die.up - a.rcv.sinceNs
  match a.recState, a.recLevel with
  | 3, lv => decide (a.graceNs ≤ waited) || (lv = 4 && decide (1000000 * a.die.fget Fl.WCH_LIMIT_l4_ms ≤ waited))
  | 4, 4 => decide (1000000 * a.die.fget Fl.WCH_LIMIT_l4_ms ≤ waited)
  | 4, _ => decide (1000000 * a.die.fget Fl.WCH_LIMIT_l5_ms ≤ waited)
  | 5, _ => decide (1000000 * a.die.fget Fl.WCH_LIMIT_l5_ms ≤ waited)
      || (match a.trayTimer with
        | some (_, t) => decide (t.timeoutUs * 1000 ≤ waited)
        | none => true)
  | _, _ => false

/-- Stop the timer that tray acknowledge owns: it runs only during level 5's wait (R324). -/
def Agt.stopTray (a : Agt) : Agt :=
  let ts := a.rcv.timers.map fun p => if a.die.resource.timers.getD p.1 0 = 6 then (p.1, { p.2 with startNs := none }) else p
  { a with rcv := { a.rcv with timers := ts } }

/-- RECOVERY_LEVEL_TIMEOUT (R328). -/
def Agt.levelTimeout (a : Agt) : Agt :=
  if a.levelLate then a.stopTray.failLevel
  else if 3 ≤ a.recState ∧ a.recState ≤ 5 then
    let (forced, d) := a.die.takeWait Blk.WCH
    if forced then ({ a with die := d } : Agt).stopTray.failLevel else a
  else a

/-- RECOVERY_LEVEL_TIMEOUT. -/
def execRecoveryLevelTimeout (w : Who) (s : State) : Res := s.agtNext w Agt.levelTimeout

/-- An arrival that a level waits for, unless it comes after the level's bound or FLC_INJECT made the wait come out TIMED_OUT (R343,
R444): a late arrival is counted and not acted on, and the level has failed. -/
def Agt.arrived (a : Agt) (f : Agt → Agt) : Agt :=
  let (forced, d) := a.die.takeWait Blk.WCH
  let a : Agt := { a with die := d }
  if forced ∨ a.levelLate then (a.count Reg.WCH_CNT_LATE_ARRIVAL).stopTray.failLevel else f a

/-- RESET_DONE (R328). -/
def Agt.resetDone (a : Agt) (level target result : Nat) : Agt :=
  if a.recState ≠ 3 ∨ a.recLevel ≠ level then a.count Reg.WCH_CNT_LATE_ARRIVAL
  else a.arrived fun a =>
    let a := a.onDie fun d => d.fset Fl.WCH_STATUS_target target
    match result with
    | 0 => if level ≤ 3 then a.endLevel level else a
    | 1 | 2 => a.failLevel
    | 3 => if level = 4 then (a.onDie fun d => d.fset Fl.AGT_HIF_STATUS_host_ready 0).setRec 4 else a
    | _ => a

/-- RESET_DONE. -/
def execResetDone (w : Who) (level target result : Nat) (s : State) : Res :=
  s.agtNext w (·.hears (·.resetDone level target result))

/-- Reply space after a host reset: what entries still outstanding reserve (R152). -/
def Agt.recomputeSpace (a : Agt) : Agt :=
  a.setReserved (sumL ((a.flow.tracker.filter fun t => t.heldStatus.isNone).map (·.flits)))

/-- Presentation resumes with the holding registers as they stood: a head presented before the host's reset is presented again (R285). -/
def Agt.reopen (a : Agt) : Agt := [0, 1, 3].foldl Agt.closePresent a

/-- HOST_READY (R285, R286, R302, R328, R331). -/
def Agt.hostReady (a : Agt) : Agt :=
  if !a.pins.rstN then a
  else
    let a := (a.onDie fun d => d.fset Fl.AGT_HIF_STATUS_host_ready 1).recomputeSpace.reopen
    let a := if a.castState = 2 then (a.setCast 3).startWaiting else a
    if a.recState = 4 then a.arrived fun a => a.endLevel a.recLevel
    else if a.recState = 6 then (if a.rcv.trayed then a.endLevel 5 else a.count Reg.WCH_CNT_LATE_ARRIVAL)
    else a

/-- HOST_READY. -/
def execHostReady (w : Who) (s : State) : Res := s.agtNext w (·.hears (·.hostReady))

/-- TRAY_ACK (R328, R547): ignored while TRAY_REQ_N is deasserted. The host's SerDes domain and its side of the modules are cycled, so
the lanes fall and the modules read TRAINING meanwhile (R329, R333). -/
def Agt.trayAck (a : Agt) : Agt :=
  let asked := !a.pins.trayReqN
  let a : Agt := { a with pins := { a.pins with trayAckN := false } }
  if !asked then a
  else
    let a : Agt := { a with pins := { a.pins with trayReqN := true }, rcv := { a.rcv with trayed := true } }
    let a := a.emit (.pin "TRAY_REQ_N" true)
    let ms := a.cast.modules.map fun m => if m = 2 then 1 else m
    let a : Agt := { a with cast := { a.cast with modules := ms } }
    let a := a.onDie fun d => d.fset Fl.AGT_HIF_STATUS_host_ready 0
    let a := if a.isSwitch then a else a.withdrawAll
    if a.recState = 5 then a.arrived fun a => a.stopTray.setRec 4 else a.count Reg.WCH_CNT_LATE_ARRIVAL

/-- TRAY_ACK. -/
def execTrayAck (w : Who) (s : State) : Res := .next (s.onAgt w Agt.trayAck)

/-- TRAY_ACK_RELEASE (R547). -/
def execTrayAckRelease (w : Who) (s : State) : Res := .next (s.onAgt w fun a => { a with pins := { a.pins with trayAckN := true } })

/-- BIND_OFF_DRAIN_COMPLETE (R332): only HELD entries remain; they are released without report. -/
def Agt.drainComplete (a : Agt) : Agt :=
  if a.die.fget Fl.WCH_STATUS_bind_off = 0 ∨ a.rcv.drained ∨ a.flow.tracker.any fun t => t.heldStatus.isNone then a
  else
    let a : Agt := { a with flow := { a.flow with tracker := [] }, rcv := { a.rcv with drained := true } }
    a.proceed

/-- BIND_OFF_DRAIN_COMPLETE. -/
def execBindOffDrainComplete (w : Who) (s : State) : Res := s.agtNext w Agt.drainComplete

/-! ## Commands of the controller (R330, R331) -/

/-- A dump in progress ends: the block whose read is outstanding is NO_ANSWER, the blocks not read are NOT_READ. -/
def Agt.cutDump (a : Agt) : Agt :=
  match a.rcv.dump with
  | none => a
  | some d =>
    let d := d.reads.foldl (fun (d : Dump) x => d.put x.2.1 .noAnswer) d
    let d := d.todo.foldl (fun (d : Dump) x => d.put x.1 .notRead) d
    ({ a with rcv := { a.rcv with dump := some { d with reads := [], todo := [], halves := [] } } } : Agt).endDump

/-- RECOVERY_CMD at an agent (R330, R331): flags bit 0 escalate, bit 1 dump only. A higher level ends the level in progress as if its
wait had come out TIMED_OUT, its dump with it; a switch has no level below 4 (log entry 71). -/
def Agt.recoveryCmd (a : Agt) (level target flags : Nat) : Agt :=
  if a.die.safe ∨ !a.pins.rstN then a
  else if bitOf flags 1 then
    let b := a.startDump 3 0
    if a.rcv.dump.isSome ∨ b.rcv.dump.isNone then b.report 0 reportFailed else b.report 0 reportStarted
  else if level = 0 ∨ 5 < level ∨ (a.isSwitch ∧ level < 4) then a.report level reportFailed
  else if level ≤ a.recLevel then a.report level reportBusy
  else
    match a.levelFrom level with
    | none => a.report level reportFailed
    | some lv =>
      let a := if a.recLevel = 0 then a else (a.cutDump.stopTray).report a.recLevel reportFailed
      let a : Agt := { a with rcv := { a.rcv with escalate := bitOf flags 0, lastTaken := 0 } }
      (a.onDie fun d => d.fset Fl.WCH_STATUS_origin 2).runLevel lv target

/-- RECOVERY_CMD. -/
def execRecoveryCmd (w : Who) (level target flags : Nat) (s : State) : Res := s.agtNext w fun a => a.recoveryCmd level target flags

/-- CONTROLLER_NOTICE (R341): passed to the host. -/
def execControllerNotice (w : Who) (code partition : Nat) (body : Bytes) (s : State) : Res :=
  s.agtNext w fun a => if a.pins.rstN then a.notice code partition (body.take 112) else a

/-! ## Dumps (R334 to R339, R504) -/

/-- Change the dump in progress. -/
def Agt.setDump (a : Agt) (d : Dump) : Agt := { a with rcv := { a.rcv with dump := some d } }

/-- A sample block ends with a result, its reads with it (R335). -/
def Agt.blockEnds (a : Agt) (d : Dump) (blk : Nat) (r : BlockResult) : Agt :=
  let d := d.put blk r
  (a.setDump { d with reads := d.reads.filter (fun x => x.2.1 ≠ blk), halves := d.halves.filter (fun x => x.1 ≠ blk) }).issueSample

/-- MEMDATA (R278, R335): half a sample block, or the host's refusal. -/
def Agt.memdata (a : Agt) (tag : Nat) (data : Bytes) : Agt :=
  match a.rcv.dump with
  | none => a.count Reg.WCH_CNT_LATE_ARRIVAL
  | some d =>
    match d.reads.find? fun x => x.1 = tag with
    | none => a.count Reg.WCH_CNT_LATE_ARRIVAL
    | some (_, blk, half) =>
      let (forced, die) := a.die.takeWait Blk.WCH
      let a : Agt := { a with die := die }
      if forced ∨ d.issuedNs + blockWaitNs < a.die.up then (a.blockEnds d blk .noAnswer).count Reg.WCH_CNT_LATE_ARRIVAL
      else if data.take 8 = List.replicate 8 (0xFF : Byte) ∧ data.length ≤ 64 then a.blockEnds d blk .hostRefused
      else
        let d : Dump := { d with reads := d.reads.filter (fun x => x.1 ≠ tag), halves := d.halves ++ [(blk, half, slice data 0 2048)] }
        match d.halves.find? (fun x => x.1 = blk && x.2.1 = 0), d.halves.find? (fun x => x.1 = blk && x.2.1 = 1) with
        | some lo, some hi => a.blockEnds d blk (.valid (lo.2.2 ++ hi.2.2))
        | _, _ => a.setDump d

/-- MEMDATA. -/
def execMemdata (w : Who) (tag : Nat) (data : Bytes) (s : State) : Res := s.agtNext w fun a => a.memdata tag data

/-- DUMP_BLOCK_TIMEOUT (R335, R340): a block that is not complete 2 µs after its read was issued; register blocks are read from the
dump's start on, and a sample block that has not been issued waits for nothing. -/
def Agt.dumpTimeout (a : Agt) (blk : Nat) : Agt :=
  match a.rcv.dump with
  | none => a
  | some d =>
    let since := if blk < 16 then some d.begunNs else if d.reads.any (fun x => x.2.1 = blk) then some d.issuedNs else none
    match since with
    | none => a
    | some t => if (d.result blk).isSome ∨ a.die.up < t + blockWaitNs then a else a.blockEnds d blk .noAnswer

/-- DUMP_BLOCK_TIMEOUT. -/
def execDumpBlockTimeout (pl : Place) (block : Nat) (s : State) : Res :=
  match pl with
  | .agt w => s.agtNext w fun a => a.dumpTimeout block
  | .ctl => s.ctlNext fun c => c.dumpTimeout block

/-- DUMP_COMPLETE at an agent (R336 to R339): every sample read has ended. -/
def Agt.dumpComplete (a : Agt) : Agt :=
  match a.rcv.dump with
  | none => a
  | some d =>
    if !d.todo.isEmpty ∨ !d.reads.isEmpty then a
    else
      let a := a.endDump
      (if d.trigger = 3 then a.report 0 reportDone else a).proceed

/-- CHUNK_FETCH (R339, R504): every chunk whose bit is clear goes again. -/
def execChunkFetch (w : Who) (sequence _count bitmap : Nat) (s : State) : Res :=
  s.agtNext w fun a => match a.rcv.records.find? fun r => r.sequence % 2 ^ 32 = sequence with
    | none => a
    | some r => a.sendChunks r.sequence r.bytes bitmap true

/-- CHUNK_ACK (R338, R448, R504): the record's space is free. -/
def execChunkAck (w : Who) (sequence : Nat) (s : State) : Res :=
  s.agtNext w fun a =>
    let r : Rec := { a.rcv with records := a.rcv.records.filter fun r => r.sequence % 2 ^ 32 ≠ sequence }
    ({ a with rcv := r } : Agt).thaw

/-- WCH_CLEAR_COUNTERS (R350). -/
def execWchClearCounters (w : Who) (s : State) : Res := s.agtNext w fun a => a.written Blk.WCH (·.onDie (·.clearCounters Blk.WCH))

end Sys2Proof.Machine
end

