-- ==== Sys2Proof/Machine/Mbx.lean ====
section
/-! DEFINITION. Mailboxes (R465 to R474) and relays (R468). A class A message that is taken goes to the firmware's inbox; what
the firmware does with it is the command of the message's own row (log entry 16). -/

namespace Sys2Proof.Machine

/-! ## Class A: what a message needs (R464, R465) -/

/-- Types that the controller sends: their mark must be CONTROLLER. -/
def controllerTypes : List Nat := [0x01, 0x02, 0x03, 0x40, 0x50, 0x54, 0x56, 0x57, 0x5E, 0x5F]
/-- Types that agents send: their mark must be UNIT or AGENT_FW. -/
def agentTypes : List Nat := [0x20, 0x21, 0x22, 0x23, 0x24, 0x25, 0x26, 0x27, 0x28, 0x41, 0x42, 0x51, 0x52, 0x53, 0x55]

/-- What the receiver does with a message of a type and mark: 0 delivers, 1 denies the mark, 2 does not know the type. -/
def typeVerdict (pelron : Bool) (mtype priv : Nat) : Nat :=
  if controllerTypes.contains mtype then (if priv ≠ 2 then 1 else if pelron then 2 else 0)
  else if agentTypes.contains mtype then (if 2 ≤ priv then 1 else if pelron then 0 else 2)
  else 2

/-- Give a message to the firmware. -/
def Die.deliverA (d : Die) (mark : Nat) (m : MsgA) : Die :=
  match typeVerdict d.part.pelron m.mtype (markPriv mark) with
  | 0 => { d with mbx := { d.mbx with inbox := d.mbx.inbox ++ [(markFid mark, markPriv mark, markPart mark, m)] } }
  | 1 => d.markDenied
  | _ => d.count Reg.MBX_CNT_A_UNKNOWN

/-! ## Receiving (R466, R467) -/

/-- How far a sequence is ahead of another, as 32-bit numbers. -/
def seqAhead (x y : Nat) : Nat := (2 ^ 32 + x - y) % 2 ^ 32

/-- Deliver every held message that is next in order. -/
def Die.drainHeld : Nat → Die → Peer → Die × Peer
  | 0, d, p => (d, p)
  | n + 1, d, p =>
    match tget p.held p.nextExpect with
    | some m => Die.drainHeld n (d.deliverA m.1 m.2) { p with held := tdel p.held p.nextExpect, nextExpect := (p.nextExpect + 1) % 2 ^ 32 }
    | none => (d, p)

/-- Raise the next expected to a floor: messages held below it are delivered, seqs missing are counted as skipped, and what is held in
order from the floor on is delivered. -/
def Die.raiseFloor (d : Die) (p : Peer) (floor : Nat) : Die × Peer :=
  let gap := seqAhead floor p.nextExpect
  if gap = 0 ∨ gap ≥ 2 ^ 31 then (d, p)
  else
    let below := p.held.filter fun h => seqAhead h.1 p.nextExpect < gap
    let d := below.foldl (fun d h => d.deliverA h.2.1 h.2.2) d
    let d := d.countN Reg.MBX_CNT_A_SKIPPED (gap - below.length)
    Die.drainHeld 17 d { p with held := p.held.filter (fun h => !(below.any fun b => b.1 = h.1)), nextExpect := floor }

/-- The MBX_ACK worm (R466): the next seq expected and the map of the 16 after it. -/
def Die.ackWorm (d : Die) (p : Peer) : FwdMsg :=
  let map := ofBitList ((List.range 16).filter fun i => (tget p.held ((p.nextExpect + 1 + i) % 2 ^ 32)).isSome)
  { dst := p.fid, op := 0x82, mcast := 0, root := 0, bond := 0xFF, operand := le 4 p.nextExpect ++ le 2 map, payload := [],
    block := d.part.blockIndex Blk.MBX, privilege := if d.part.pelron then 2 else 1 }

/-- The peers a part keeps: an agent keeps the two controller FIDs that sent to it last (R466). -/
def Die.keepPeer (d : Die) (p : Peer) : Die :=
  let p : Peer := { p with order := d.mbx.clock + 1 }
  let m : Mbx := { (d.mbx.setPeer p) with clock := d.mbx.clock + 1 }
  let newest := m.peers.mergeSort fun x y => x.order ≥ y.order
  let m : Mbx := if d.part.pelron then m else { m with peers := m.peers.filter fun x => (newest.take 2).any fun y => y.fid = x.fid }
  { d with mbx := m }

/-- Take a class A message from a peer whose state is kept. -/
def Die.acceptA (d : Die) (mark : Nat) (p : Peer) (m : MsgA) : Die :=
  let (d, p) := d.raiseFloor p m.floor
  let ahead := seqAhead m.seq p.nextExpect
  if ahead ≥ 2 ^ 31 ∨ (tget p.held m.seq).isSome then
    let d := (d.count Reg.MBX_CNT_A_DUPLICATE).keepPeer p
    d.sendFwd (d.ackWorm p)
  else if ahead = 0 then
    let d := d.deliverA mark m
    let (d, p) := Die.drainHeld 17 d { p with nextExpect := (p.nextExpect + 1) % 2 ^ 32 }
    let d := d.keepPeer p
    d.sendFwd (d.ackWorm p)
  else if ahead ≤ 16 then
    let p : Peer := { p with held := tset p.held m.seq (mark, m) }
    let d := d.keepPeer p
    d.sendFwd (d.ackWorm p)
  else d.keepPeer p

/-- MBX_A (R465 to R467). Nothing is taken in the safe state, nor without room for it (R156). A message to an agent whose mark
is no controller's is acknowledged and discarded without a place among the controllers that the agent keeps. -/
def Die.mbxA (d : Die) (w : Worm) (room : Bool) : Die :=
  if d.safe ∨ !room then d
  else
    let mark := wormMark w
    let m := msgOfBytes w.payload
    if !d.part.pelron && markPriv mark ≠ 2 then
      let d := d.deliverA mark m
      d.sendFwd (d.ackWorm { (d.mbx.peer (markFid mark)) with nextExpect := (m.seq + 1) % 2 ^ 32, held := [] })
    else d.acceptA mark (d.mbx.peer (markFid mark)) m

/-- Whether a class A message is dropped for want of space (R156, R466): there is no room, or it lies beyond the 16 that are held. -/
def Die.lacksRoom (d : Die) (w : Worm) (room : Bool) : Bool :=
  let mark := wormMark w
  let m := msgOfBytes w.payload
  let ahead := seqAhead m.seq (d.raiseFloor (d.mbx.peer (markFid mark)) m.floor).2.nextExpect
  !d.safe && (!room || ((d.part.pelron || decide (markPriv mark = 2)) && decide (16 < ahead) && decide (ahead < 2 ^ 31)))

/-- MBX_A: a message dropped for want of space is counted at the agent that received it, the controller's at its own (R19, R156). -/
def execMbxA (pl : Place) (wm : Worm) (room : Bool) (s : State) : Res :=
  let lost := (s.die pl).lacksRoom wm room
  match pl with
  | .ctl =>
    if !s.ctl.running then .next s
    else
      let t := s.onCtl fun c => c.onDie fun d => d.mbxA wm room
      if lost then t.agtNext .emb (·.count Reg.LKP_CNT_FWD_DROP) else .next t
  | .agt w => s.agtNext w fun a =>
    let a := a.onDie fun d => d.mbxA wm room
    if lost then a.count Reg.LKP_CNT_FWD_DROP else a

/-! ## Sending (R466, R467) -/

/-- MBX_A_SEND: firmware sends a message. -/
def execMbxASend (pl : Place) (peer mtype flags : Nat) (body : Bytes) (s : State) : Res :=
  s.dieNext pl fun d => d.sendA peer mtype flags body

/-- Send what waits for the window. -/
def Die.sendWaiting : Nat → Die → Nat → Die
  | 0, d, _ => d
  | n + 1, d, fid =>
    let p := d.mbx.peer fid
    match p.waiting with
    | [] => d
    | m :: rest =>
      if p.unacked.length ≥ d.bget Reg.MBX_A_CFG 24 20 then d
      else Die.sendWaiting n (d.postA { p with waiting := rest } m) fid

/-- The count of a peer's unacknowledged messages fell: waiting sends go out; at zero the sender takes its empty interrupt. -/
def Die.afterAck (d : Die) (fid before : Nat) : Die :=
  let d := Die.sendWaiting 16 d fid
  if (d.mbx.peer fid).unacked.isEmpty ∧ 0 < before then d.emit (.irq "mbx_a_empty" fid) else d

/-- An attempt of a message timed out (R467): it is sent again, or ends TIMEOUT_UNKNOWN. -/
def Die.retryA (d : Die) (fid seq : Nat) : Die :=
  let p := d.mbx.peer fid
  match d.safe, p.unacked.find? fun u => u.msg.seq = seq with
  | false, some u =>
    if u.sends < d.bget Reg.MBX_A_CFG 19 16 then
      let p : Peer := { p with unacked := p.unacked.map fun x => if x.msg.seq = seq then { x with sends := x.sends + 1, sentNs := d.up } else x }
      let m : MsgA := { u.msg with floor := p.floor }
      let d : Die := ({ d with mbx := d.mbx.setPeer p } : Die).count Reg.MBX_CNT_A_RETX
      d.sendFwd (d.mbxWorm fid m (if d.part.pelron then 2 else 1))
    else
      let n := p.unacked.length
      let p : Peer := { p with unacked := p.unacked.filter (fun x => x.msg.seq ≠ seq), ended := p.ended ++ [seq] }
      let d : Die := ({ d with mbx := d.mbx.setPeer p } : Die).count Reg.MBX_CNT_A_TIMEOUT
      ((d.raise Ev.MBX_A_TIMEOUT).emit (.irq "mbx_a_timeout_unknown" seq)).afterAck fid n
  | _, _ => d

/-- Whether an unacknowledged message's wait of retry_us is over (R467, R474). -/
def Die.retryDue (d : Die) (fid seq : Nat) : Bool :=
  (d.mbx.peer fid).unacked.any fun u => u.msg.seq = seq && decide (u.sentNs + 1000 * d.bget Reg.MBX_A_CFG 15 0 ≤ d.up)

/-- MBX_A_RETRY. -/
def execMbxARetry (pl : Place) (peer seq : Nat) (s : State) : Res :=
  s.dieNext pl fun d => if d.retryDue peer seq then d.retryA peer seq else d

/-- Whether an ack covers a seq. -/
def acked (next map seq : Nat) : Bool :=
  let back := seqAhead next seq
  let up := seqAhead seq next
  (decide (0 < back) && decide (back < 2 ^ 31)) || (decide (1 ≤ up) && decide (up ≤ 16) && bitOf map (up - 1))

/-- MBX_ACK (R464, R466, R467): its mark must be a known peer's. A wait that FLC_INJECT makes time out does so now (R444). -/
def Die.mbxAck (d : Die) (w : Worm) : Die :=
  let fid := markFid (wormMark w)
  if d.safe then d
  else if !(d.mbx.peers.any fun p => p.fid = fid) then d.markDenied
  else
    let p := d.mbx.peer fid
    let next := Worm.opnd w 8 4
    let map := Worm.opnd w 12 2
    let (forced, d) := if p.unacked.isEmpty then (false, d) else d.takeWait Blk.MBX
    match forced, p.unacked with
    | true, u :: _ => (d.count Reg.MBX_CNT_LATE_ARRIVAL).retryA fid u.msg.seq
    | _, _ =>
      let late := p.ended.filter (acked next map)
      let p' : Peer := { p with unacked := p.unacked.filter (fun u => !acked next map u.msg.seq), ended := p.ended.filter fun s => !acked next map s }
      let d : Die := { d with mbx := d.mbx.setPeer p' }
      (d.countN Reg.MBX_CNT_LATE_ARRIVAL late.length).afterAck fid (p.unacked.length - p'.unacked.length)

/-- MBX_ACK. At an agent it also restarts the timers of owner mailbox response (log entry 16). -/
def execMbxAck (pl : Place) (wm : Worm) (s : State) : Res :=
  match pl with
  | .ctl => s.ctlNext fun c => c.onDie (·.mbxAck wm)
  | .agt w => s.agtNext w fun a =>
    let a' := a.onDie (·.mbxAck wm)
    if a'.die.mbx.peers = a.die.mbx.peers then a' else a'.restartOwner 5

/-! ## Class B (R471) -/

/-- Put the result of a master's last operation. -/
def Die.resultB (d : Die) (c m result : Nat) : Die := d.setViewB { d.viewB c m with result := result }

/-- The operation of a master that may not act here: unbound (its access is DENIED and logged), frozen or fenced. -/
def Die.refuseB (d : Die) (c m : Nat) : Option Die :=
  match (d.chan c).bind fun ch => ch.side d.part.pelron m with
  | none => some ((d.resultB c m 2).raise (Ev.WRITE_IGNORED Blk.MBX) c)
  | some _ =>
    if d.blockFenced Blk.MBX then some ((d.resultB c m 4).noteFenced Blk.MBX)
    else if d.safe then some (d.resultB c m 3) else none

/-- Store a channel. -/
def Die.setChan (d : Die) (ch : ChanB) : Die :=
  { d with mbx := { d.mbx with chans := d.mbx.chans.map fun x => if x.channel = ch.channel then ch else x } }

/-- MBX_B_SEND: the write of MBX_B_CMD.send by a master; the message is its staging. -/
def Die.sendB (d : Die) (c m : Nat) : Die :=
  match d.refuseB c m, d.chan c with
  | some d, _ => d
  | none, none => d
  | none, some ch =>
    let v := { d.viewB c m with lost := false }
    let isA := (ch.side d.part.pelron m).getD true
    if (ch.outQ isA).length ≥ 8 then d.setViewB { v with result := 1 }
    else
      let msg := (m, v.staging)
      let ch : ChanB := if isA then { ch with toB := ch.toB ++ [msg] } else { ch with toA := ch.toA ++ [msg] }
      (d.setViewB { v with result := 0 }).setChan ch

/-- MBX_B_POP: the write of MBX_B_CMD.pop. When the queue becomes empty its sender takes its empty interrupt. -/
def Die.popB (d : Die) (c m : Nat) : Die :=
  match d.refuseB c m, d.chan c with
  | some d, _ => d
  | none, none => d
  | none, some ch =>
    let isA := (ch.side d.part.pelron m).getD true
    match ch.inQ isA with
    | [] => d.resultB c m 5
    | (snd, _) :: rest =>
      let ch : ChanB := if isA then { ch with toA := rest } else { ch with toB := rest }
      let d := (d.resultB c m 0).setChan ch
      if rest.isEmpty then d.emit (.irq "mbx_b_empty" (c + 256 * snd)) else d

/-- MBX_B_SEND. -/
def execMbxBSend (pl : Place) (channel : Nat) (master : Path) (s : State) : Res :=
  s.dieNext pl fun d => if d.part.channels ≤ channel then d else d.sendB channel (masterOf master)

/-- MBX_B_POP. -/
def execMbxBPop (pl : Place) (channel : Nat) (master : Path) (s : State) : Res :=
  s.dieNext pl fun d => if d.part.channels ≤ channel then d else d.popB channel (masterOf master)

/-- What FUNC_REINIT of MBX does (R345, R471): every class B queue is emptied, the messages are counted as lost, and each
affected sender takes its empty interrupt with `lost` set. Class A goes on from what memory keeps (R467). -/
def Die.reinitB (d : Die) : Die :=
  d.mbx.chans.foldl (fun d ch =>
    let gone := ch.toA ++ ch.toB
    let d := (d.countN Reg.MBX_CNT_B_LOST gone.length).setChan { ch with toA := [], toB := [] }
    (gone.map (·.1)).eraseDups.foldl (fun d m =>
      (d.setViewB { d.viewB ch.channel m with lost := true }).emit (.irq "mbx_b_empty" (ch.channel + 256 * m))) d) d

/-- MBX_CLEAR_COUNTERS (R474). -/
def execMbxClearCounters (pl : Place) (s : State) : Res :=
  s.dieNext pl fun d => d.written Blk.MBX (·.clearCounters Blk.MBX)

/-! ## Relays (R468) -/

/-- RELAY: the inner worm goes out with its mark marked as relayed, its head stamped as at injection. -/
def Agt.relay (a : Agt) (w : Worm) (room : Bool) : Agt :=
  if markPriv (wormMark w) ≠ 2 then a.onDie Die.markDenied
  else
    let inner : Worm := { wormOfHead (leNat (slice w.payload 0 64)) with payload := w.payload.drop 64 }
    if inner.cls ≠ 2 ∨ inner.partition ≠ 0 ∨ inner.mcast ≠ 0 ∨ a.fid = 0x3FFFF then a
    else if !room then a.count Reg.LKP_CNT_FWD_DROP
    else
      let e := a.stampEpoch
      let mark := relayMark (wormMark inner) a.fid
      let inner : Worm := { inner with operand := le 8 mark ++ inner.operand.drop 8, payload := slice inner.payload 0 (64 * inner.length) }
      let inner := sealHead { inner with hopLimit := a.hopInit, age := a.ageStamp, epoch := e }
      a.sendStamped inner (w.operand.getD 8 0).toNat

/-- RELAY. -/
def execRelay (w : Who) (_inBond : Nat) (wm : Worm) (room : Bool) (s : State) : Res := s.agtNext w fun a => a.relay wm room

end Sys2Proof.Machine
end

