-- ==== Sys2Proof/Machine/Net.lean ====
section
/-! DEFINITION. The fabric as the controller plans it: the Fabric Plan of the BASE Pattern (R15 to R21, R33, R305, R18), and
the tables that the Solver Array computes from the fabric found (R198 to R203, R142). -/

namespace Sys2Proof.Machine

/-! ## The Fabric Plan -/

/-- The whole-scope IDENT row of a BASE Pattern (03). -/
structure Plan where
  fabricId : Nat
  variant : Nat
  planes : Nat
  adopt : Bool
  hop : Nat
  populated : List Nat
  /-- fabric lanes of a controller of the fabric (R19) -/
  fabLanes : Nat
  deriving DecidableEq, Repr

/-- The plan of a BASE Pattern for controllers with some fabric lanes; without one, an empty fabric. -/
def planOf (fabLanes : Nat) (base : Option Pattern) : Plan :=
  match base.bind fun p => p.rows.find? fun r => r.rtype = Rt.IDENT && r.targetKind = 0 with
  | some r =>
    let b := r.payload
    { fabricId := fieldAt b 0 8, variant := byteAt b 8, planes := max 1 (byteAt b 9), adopt := byteAt b 10 = 1,
      hop := byteAt b 11, populated := bitList (fieldAt b 16 256) 2048,
      fabLanes := fabLanes }
  | none => { fabricId := 0, variant := 0, planes := 1, adopt := false, hop := 24, populated := [],
              fabLanes := fabLanes }

/-- The plan at a controller. -/
def Ctl.plan (c : Ctl) : Plan := planOf c.die.part.fabLanes c.base

/-- The neighbour of a rack in a dimension (R21). -/
def neighbour (variant d r : Nat) : Nat :=
  let n := Nat.xor r (2 ^ d)
  if variant = 1 ∧ 2 ≤ d ∧ bitOf r (d - 1) then Nat.xor n (2 ^ (d - 2)) else n

/-- A location (R35): rack index × 128 + slot. -/
def locOf (rack slot : Nat) : Nat := rack * 128 + slot

/-- The rows of a BASE Pattern of a type that target a location. -/
def baseRows (base : Option Pattern) (rtype loc : Nat) : List Row :=
  (base.map (·.rows)).getD [] |>.filter fun r => r.rtype = rtype && r.targetKind = 1 && r.target = loc

/-- The rows of a type that an agent at a location takes from the BASE Pattern: the most specific target that supplies any
(R80). -/
def planRows (base : Option Pattern) (rtype loc : Nat) : List Row :=
  let mine := baseRows base rtype loc
  if mine.isEmpty then (base.map (·.rows)).getD [] |>.filter fun r => r.rtype = rtype && r.targetKind = 0 else mine

/-- The FID of a location (R305). -/
def planFid (base : Option Pattern) (loc : Nat) : Nat :=
  match baseRows base Rt.IDENT loc with
  | r :: _ => (identOf r.payload).fid
  | [] => loc / 128 * 80 + loc % 128

/-- The mode of a slot (R35): endpoint slots, switches, controllers. -/
def slotMode (slot : Nat) : Nat := if slot < 64 then 0 else if slot < 72 then 1 else 2

/-- The locations that the BASE Pattern targets with any row, of one rack. -/
def targeted (base : Option Pattern) (rack : Nat) : List Nat :=
  (((base.map (·.rows)).getD [] |>.filter fun r => r.targetKind = 1 && r.target / 128 = rack).map (·.target % 128)).eraseDups

/-- The slots of a rack that the plan fills: its switches, the endpoint slots that rows target, every endpoint slot where no
row targets one, and the controllers that rows target (log entry 17). -/
def Plan.slots (pl : Plan) (base : Option Pattern) (rack : Nat) : List Nat :=
  let ts := targeted base rack
  let eps := ts.filter (· < 64)
  (if eps.isEmpty then List.range 64 else (List.range 64).filter eps.contains)
    ++ (List.range pl.planes).map (· + 64) ++ ((List.range 8).map (· + 72)).filter ts.contains

/-- Every planned location. -/
def Plan.locations (pl : Plan) (base : Option Pattern) : List Nat :=
  pl.populated.flatMap fun r => (pl.slots base r).map (locOf r)

/-- A planned bond of a location: bond, reach, far bond, far FID, lanes. -/
structure PlanBond where
  bond : Nat
  reach : Nat
  farBond : Nat
  farFid : Nat
  lanes : List Nat
  deriving DecidableEq, Repr

/-- The bonds of the default lane plan (R18, R19), for a location without BOND rows. It numbers bonds by plane at an endpoint, and by
endpoint slot, then dimension, then controller at a switch (log entry 17). Choices of the model, as the spec gives none (log entry
58): the reach class is C between endpoint and switch and O on rack-rack and controller bonds, which R31 calls their typical use;
and the module's lanes to the switch of plane p are np to np + n - 1, n being its lanes to each switch, which land on the lowest of
the switch's lanes 172 to 175. -/
def defaultBonds (pl : Plan) (base : Option Pattern) (loc : Nat) : List PlanBond :=
  let rack := loc / 128
  let slot := loc % 128
  let n := 16 / pl.planes
  let each := pl.fabLanes / 8
  if slot < 64 then
    (List.range pl.planes).map fun p =>
      { bond := p, reach := 2, farBond := slot, farFid := planFid base (locOf rack (64 + p)),
        lanes := (List.range n).map (· + n * p) }
  else if slot < 72 then
    let p := slot - 64
    let ends : List PlanBond := ((pl.slots base rack).filter (· < 64)).map fun e =>
      { bond := e, reach := 2, farBond := p, farFid := planFid base (locOf rack e), lanes := [2 * e, 2 * e + 1] }
    let dims : List PlanBond :=
      ((List.range 11).filter fun d => pl.populated.contains (neighbour pl.variant d rack)).map fun d =>
        { bond := 64 + d, reach := 3, farBond := 64 + d, farFid := planFid base (locOf (neighbour pl.variant d rack) slot),
          lanes := (List.range 4).map (· + (128 + 4 * d)) }
    let ctls : List PlanBond := (((pl.slots base rack).filter (72 ≤ ·)).take 1).map fun c =>
      { bond := 75, reach := 3, farBond := p, farFid := planFid base (locOf rack c), lanes := (List.range each).map (· + 172) }
    ends ++ dims ++ ctls
  else
    (List.range pl.planes).map fun p =>
      { bond := p, reach := 3, farBond := 75, farFid := planFid base (locOf rack (64 + p)),
        lanes := (List.range each).map (· + each * p) }

/-- The planned bonds of a location: the BOND rows of the BASE Pattern, or the default plan. -/
def planBonds (pl : Plan) (base : Option Pattern) (loc : Nat) : List PlanBond :=
  let es := (planRows base Rt.BOND loc).flatMap rowEntries
  if es.isEmpty then defaultBonds pl base loc
  else es.map fun e => match bondOf e with
    | (b, reach, far, fid, lanes) => { bond := b, reach := reach, farBond := far, farFid := fid % 2 ^ 18, lanes := lanes }

/-- The planned bond that a lane of a location belongs to. -/
def planLane (pl : Plan) (base : Option Pattern) (loc lane : Nat) : Option PlanBond :=
  (planBonds pl base loc).find? fun b => b.lanes.contains lane

/-- The location that holds a FID under the plan. -/
def planLoc (pl : Plan) (base : Option Pattern) (fid : Nat) : Option Nat := (pl.locations base).find? fun l => planFid base l = fid

/-- The far lane that the plan gives for a lane of a bond: the far bond's lane at the same place. -/
def planFarLane (pl : Plan) (base : Option Pattern) (b : PlanBond) (lane : Nat) : Nat :=
  match planLoc pl base b.farFid with
  | some far =>
    match (planBonds pl base far).find? fun x => x.bond = b.farBond with
    | some x => x.lanes.getD (indexIn b.lanes lane) 0xFF
    | none => 0xFF
  | none => 0xFF

/-! ## The fabric found -/

/-- The fabric a computation reads (R192): the plan, the agents that are there, and the live ends of bonds. -/
structure Net where
  plan : Plan
  base : Option Pattern := none
  agents : List AgentRec
  links : List SolBond
  deriving DecidableEq, Repr

/-- Whether an end of a bond carries worms of every kind (R301, R320). -/
def SolBond.up (b : SolBond) : Bool := decide (0 < b.active) && !b.down && !b.quarantined

/-- The live links of some ends: both ends are up. -/
def liveLinks (bs : List SolBond) : List SolBond :=
  bs.filter fun b => SolBond.up b && bs.any fun x => x.fid = b.farFid && x.farFid = b.fid && x.bond = b.farBond && SolBond.up x

/-- The agent at a location. -/
def Net.at_ (n : Net) (rack slot : Nat) : Option AgentRec := n.agents.find? fun a => a.rack = rack && a.slot = slot

/-- The bond of an agent toward another. -/
def Net.bondTo (n : Net) (fid far : Nat) : Option Nat := (n.links.find? fun b => b.fid = fid && b.farFid = far).map (·.bond)

/-- The bond of dimension d at the plane-p switch of a rack, if it is live and leads where R21 says. -/
def Net.dimBond (n : Net) (p r d : Nat) : Option Nat := do
  let x := neighbour n.plan.variant d r
  let a ← n.at_ r (64 + p)
  let b ← n.at_ x (64 + p)
  if n.plan.populated.contains x then n.bondTo a.fid b.fid else none

/-- The racks joined to a rack in a plane by live dimension bonds. -/
def Net.nbrs (n : Net) (p r : Nat) : List Nat :=
  ((List.range 11).filter fun d => (n.dimBond p r d).isSome).map fun d => neighbour n.plan.variant d r

/-- One layer of a breadth-first search: those seen with their distance, the frontier. -/
def bfs (next : Nat → List Nat) : Nat → Nat → List Nat → Tbl Nat → Tbl Nat
  | 0, _, _, seen => seen
  | fuel + 1, d, front, seen =>
    let new_ := ((front.flatMap next).filter fun r => (tget seen r).isNone).eraseDups
    if new_.isEmpty then seen else bfs next fuel (d + 1) new_ (new_.foldl (fun t r => tset t r (d + 1)) seen)

/-- The distances to a rack in a plane (R198); a rack that is not listed is unreachable. -/
def Net.distTo (n : Net) (p t : Nat) : Tbl Nat :=
  if (n.at_ t (64 + p)).isSome then bfs (n.nbrs p) (n.plan.populated.length + 1) 0 [t] [(t, 0)] else []

/-- A route entry (R112). -/
def packRoute (primary secondary alternate mask : Nat) (loc : Bool) (rack : Nat) : Nat :=
  primary % 256 + secondary % 256 * 2 ^ 8 + alternate % 256 * 2 ^ 16 + mask % 32 * 2 ^ 24 + 2 ^ 29 + b2n loc * 2 ^ 30 + rack % 2 ^ 11 * 2 ^ 32

/-- An entry that does not route. -/
def noRoute (rack : Nat) : Nat := rack % 2 ^ 11 * 2 ^ 32 + 0xFFFFFF

/-- The dimensions of a rack in a plane with their bond and neighbour, live ones only. -/
def Net.dims (n : Net) (p r : Nat) : List (Nat × Nat × Nat) :=
  (List.range 11).filterMap fun d => (n.dimBond p r d).map fun b => (d, b, neighbour n.plan.variant d r)

/-- G_t of R202 from the distances to t. -/
def deflectSet (dims : List (Nat × Nat × Nat)) (dist : Tbl Nat) (r : Nat) : List Nat :=
  match tget dist r with
  | some own => (dims.filter fun x => match tget dist x.2.2 with
    | some v => decide (v ≤ own)
    | none => false).map (·.2.1)
  | none => []

/-- The rack-route entry toward t at the plane-p switch of r (R199), its mask index given. -/
def Net.rackRoute (n : Net) (p r t mask : Nat) : Nat :=
  let dist := n.distTo p t
  match tget dist r with
  | none => noRoute t
  | some 0 => noRoute t
  | some own =>
    let ds := n.dims p r
    let m := ds.filter fun x => tget dist x.2.2 = some (own - 1)
    match m with
    | [] => noRoute t
    | _ =>
      let a := m.getD (t % m.length) (0, 0xFF, 0)
      let b := m.getD ((t + 1) % m.length) (0, 0xFF, 0)
      let used := if m.length ≥ 2 then [a.1, b.1] else [a.1]
      let rest := ds.filter fun x => !used.contains x.1 && (tget dist x.2.2).isSome
      let alt := rest.foldl (fun (best : Option (Nat × Nat × Nat)) x => match best with
        | none => some x
        | some y => if (tget dist x.2.2).getD 0 < (tget dist y.2.2).getD 0 then some x else some y) none
      packRoute a.2.1 (if m.length ≥ 2 then b.2.1 else 0xFF) ((alt.map (·.2.1)).getD 0xFF) mask false t

/-- The masks 3 to 31 of a switch (R202): the distinct deflection sets in ascending order of the smallest t that uses each. -/
def Net.maskSets (n : Net) (p r : Nat) : List (List Nat) :=
  ((n.plan.populated.map fun t => deflectSet (n.dims p r) (n.distTo p t) r).eraseDups.filter fun g => !g.isEmpty).take 29

/-- The mask index of a destination rack. -/
def Net.maskOf (n : Net) (p r : Nat) (sets : List (List Nat)) (t : Nat) : Nat :=
  let g := deflectSet (n.dims p r) (n.distTo p t) r
  if sets.contains g then 3 + (sets.takeWhile fun x => x ≠ g).length else 1

/-! ## Intermediate sets (R203) -/

/-- Whether a rack is reachable in every plane from every populated rack that has switches. -/
def Net.reachable (n : Net) (r : Nat) : Bool :=
  (List.range n.plan.planes).all fun p =>
    (n.at_ r (64 + p)).isSome && n.plan.populated.all fun x => (n.at_ x (64 + p)).isNone || (tget (n.distTo p r) x).isSome

/-- The intermediate set of some members: the racks that hold them, ascending. -/
def Net.iset (n : Net) (members : List Nat) : List Nat :=
  n.plan.populated.filter fun r => n.reachable r && n.agents.any fun a => a.rack = r && members.contains a.fid

/-- The longest path that an intermediate set permits, in switches. -/
def Net.isetHops (n : Net) (set : List Nat) : Nat :=
  maxL ((List.range n.plan.planes).flatMap fun p => set.flatMap fun ir =>
    let d := n.distTo p ir
    set.flatMap fun a => set.map fun b => (tget d a).getD 0 + (tget d b).getD 0 + 1)

/-- The descriptors and the member array of some partitions, each with its members, ascending by tag: the descriptor of each
(tag, base, count), the array, and the tags whose set is too long for H. -/
def Net.isets (n : Net) (parts : List (Nat × List Nat)) : List (Nat × Nat × Nat) × List Nat × List Nat :=
  let all := n.plan.populated
  parts.foldl (fun (st : List (Nat × Nat × Nat) × List Nat × List Nat × List (List Nat × Nat)) p =>
    let (descs, arr, long, known) := st
    let set := n.iset p.2
    if set.length < 2 then (descs ++ [(p.1, 0, 0)], arr, long, known)
    else if n.isetHops set > n.plan.hop - 4 then (descs ++ [(p.1, 0, 0)], arr, long ++ [p.1], known)
    else match known.find? fun k => k.1 = set with
      | some k => (descs ++ [(p.1, k.2, set.length)], arr, long, known)
      | none =>
        if arr.length + set.length > 204800 then
          (if n.isetHops all > n.plan.hop - 4 then (descs ++ [(p.1, 0, 0)], arr, long ++ [p.1], known)
           else (descs ++ [(p.1, 0, all.length)], arr, long, known))
        else (descs ++ [(p.1, arr.length, set.length)], arr ++ set, long, known ++ [(set, arr.length)])) ([], all, [], [])
  |> fun st => (st.1, st.2.1, st.2.2.1)

/-- Four members to an entry of the member array (R113). -/
def memberEntries (arr : List Nat) : List (Nat × Nat) :=
  (List.range (ceilDiv arr.length 4)).map fun i =>
    (6144 + i, (List.range 4).foldl (fun v k => v + arr.getD (4 * i + k) 0 % 2 ^ 11 * 2 ^ (16 * k)) 0)

/-! ## Multicast trees (R141, R142, R203) -/

/-- The racks that a tree of a mode (1 rack, 2 row, 3 column) covers beside its root's own rule: whether a rack is in it. -/
def inTree (mcast root r : Nat) : Bool :=
  if mcast = 1 then r = root else if mcast = 2 then r / 64 = root / 64 else r % 64 = root % 64

/-- The distances of the tree from its root: only links whose far end lies in the root's row or column. -/
def Net.treeDist (n : Net) (p mcast root : Nat) : Tbl Nat :=
  if (n.at_ root (64 + p)).isNone then []
  else bfs (fun r => (n.nbrs p r).filter (inTree mcast root)) (n.plan.populated.length + 1) 0 [root] [(root, 0)]

/-- The parent dimension of a rack in a tree, as its parent counts it: the neighbour one nearer by the lowest dimension. -/
def Net.treeParent (n : Net) (p : Nat) (dist : Tbl Nat) (r : Nat) : Option (Nat × Nat) :=
  ((n.dims p r).find? fun x => match tget dist r, tget dist x.2.2 with
    | some a, some b => decide (b + 1 = a)
    | _, _ => false).map fun x => (x.1, x.2.2)

/-- The tree entry of a rack (R114): child dimensions, down, own, valid. -/
def Net.treeEntry (n : Net) (p mcast root r : Nat) : Option Nat :=
  let dist := n.treeDist p mcast root
  if (tget dist r).isNone then none
  else
    let kids := (n.dims p r).filter fun x => match n.treeParent p dist x.2.2 with
      | some (_, y) => y = r && inTree mcast root x.2.2
      | none => false
    some (ofBitList (kids.map (·.1)) + 2 ^ 11 + 2 ^ 12 + 2 ^ 13)

/-! ## The tables of an agent -/

/-- Three entries of a mask (R114) from an index on. -/
def maskEntries (first : Nat) (bonds : List Nat) : List (Nat × Nat) :=
  (List.range 3).map fun i => (first + i, ofBitList ((bonds.filter fun b => b / 64 = i).map (· % 64)))

/-- The bonds of a switch to the endpoints and controllers of its rack. -/
def Net.downBonds (n : Net) (sw : AgentRec) : List Nat :=
  (n.agents.filter fun a => a.rack = sw.rack && a.slot < 64).filterMap fun a => n.bondTo sw.fid a.fid

/-- A table from pairs, entries of zero left out. -/
def tableOf (es : List (Nat × Nat)) : Tbl Nat := es.foldl (fun t e => if e.2 = 0 then t else tset t e.1 e.2) []

/-- The multicast table of a switch. -/
def Net.mcastTable (n : Net) (p : Nat) (sw : AgentRec) (sets : List (List Nat)) : Tbl Nat :=
  let trees := [1, 2, 3].flatMap fun m => n.plan.populated.filterMap fun root =>
    (n.treeEntry p m root sw.rack).map fun v => ((m - 1) * 2048 + root, v)
  let live := (n.links.filter fun b => b.fid = sw.fid).map (·.bond)
  let dims := (n.dims p sw.rack).map (·.2.1)
  let masks := [live, dims, n.downBonds sw] ++ sets
  let maskRows := (List.range masks.length).flatMap fun k => maskEntries (6144 + 3 * k) (masks.getD k [])
  let dimRows := (List.range 11).map fun d => (6243 + d, (n.dimBond p sw.rack d).getD 0xFF)
  tableOf (trees ++ maskRows ++ maskEntries 6240 (n.downBonds sw) ++ dimRows)

/-- The planes in the rotation of R201 whose bond is live, from a start. -/
def Net.planesFrom (n : Net) (fid rack start : Nat) : List Nat :=
  ((List.range n.plan.planes).map fun j => (start + j) % n.plan.planes).filterMap fun p =>
    (n.at_ rack (64 + p)).bind fun sw => n.bondTo fid sw.fid

/-- The entry of an endpoint toward a destination number (R201). -/
def Net.endpointRoute (n : Net) (a : AgentRec) (f rack : Nat) : Nat :=
  match n.planesFrom a.fid a.rack f with
  | [] => noRoute rack
  | x :: rest => packRoute x (rest.getD 0 0xFF) (if n.plan.planes ≥ 4 then rest.getD 1 0xFF else 0xFF) 0 false rack

/-- The planned bond of a switch to an agent of its rack: the down bond of that agent's slot (R18, R200). -/
def Net.downBond (n : Net) (sw f : AgentRec) : Option Nat :=
  ((planBonds n.plan n.base (locOf sw.rack sw.slot)).find? fun b => b.farFid = f.fid).map (·.bond)

/-- The FID entry at a switch of plane p (R200): an agent of the own rack is reached over the down bond of its slot, live or not. A
switch of another plane has no entry (log entry 17). -/
def Net.switchFid (n : Net) (p : Nat) (sw : AgentRec) (sets : List (List Nat)) (f : AgentRec) : Nat :=
  if f.fid = sw.fid then packRoute 0xFF 0xFF 0xFF 0 true sw.rack
  else if f.mode = 1 ∧ f.plane ≠ p then noRoute f.rack
  else if f.rack = sw.rack then
    match n.downBond sw f with
    | some b => packRoute b 0xFF 0xFF 2 false f.rack
    | none => noRoute f.rack
  else n.rackRoute p sw.rack f.rack (n.maskOf p sw.rack sets f.rack)

/-- The FID entry at an endpoint or embedded agent (R201). -/
def Net.endpointFid (n : Net) (a f : AgentRec) : Nat :=
  if f.fid = a.fid then packRoute 0xFF 0xFF 0xFF 0 true a.rack else n.endpointRoute a f.fid f.rack

/-- The tables of an agent (R198 to R203): the far agent of a quarantined bond keeps its FID entry (R301). -/
def Net.tables (n : Net) (quarantined : List SolBond) (parts : List (Nat × List Nat)) (a : AgentRec) : TabSlot :=
  let (descs, arr, _) := n.isets parts
  let iset := descs.map (fun d => (2048 + d.1, d.2.1 % 2 ^ 18 + d.2.2 % 2 ^ 12 * 2 ^ 32)) ++ memberEntries arr
  let mine := quarantined.filter fun b => b.fid = a.fid
  if a.mode = 1 then
    let p := a.slot - 64
    let sets := n.maskSets p a.rack
    let racks := n.plan.populated.map fun t => (t, n.rackRoute p a.rack t (n.maskOf p a.rack sets t))
    let fids := n.agents.map fun f => (f.fid, n.switchFid p a sets f)
    let q := mine.map fun b => (b.farFid, packRoute b.bond 0xFF 0xFF 2 false a.rack)
    { fid := tableOf (fids ++ q), iset := tableOf (racks ++ iset), mcast := n.mcastTable p a sets }
  else
    let racks := n.plan.populated.map fun t => (t, n.endpointRoute a t t)
    let fids := n.agents.map fun f => (f.fid, n.endpointFid a f)
    let q := mine.map fun b => (b.farFid, packRoute b.bond 0xFF 0xFF 0 false a.rack)
    { fid := tableOf (fids ++ q), iset := tableOf (racks ++ iset), mcast := [] }

end Sys2Proof.Machine
end

