-- ==== Sys2Proof/Machine/Derive.lean ====
section
/-! DEFINITION. The Patterns that the controller derives (R73 to R84), their streams (R469), and the install of an epoch (R204
to R206, R307). -/

namespace Sys2Proof.Machine

/-! ## Worms of the controller -/

/-- The controller's own embedded agent. -/
def Ctl.embFid (c : Ctl) : Nat := c.die.bget Reg.FAB_AGENT 17 0

/-- The inner worm of a RELAY: 64-byte head and payload (R468). -/
def Ctl.innerWorm (c : Ctl) (dst op block : Nat) (operand payload : Bytes) : Bytes :=
  let mark := c.embFid + block * 2 ^ 18 + 2 * 2 ^ 26
  let n := ceilDiv payload.length 64
  headBytes { emptyWorm with version := 1, cls := 2, dstFid := dst, srcFid := c.embFid, length := n, op := op,
                             operand := le 8 mark ++ slice operand 0 24 }
  ++ slice payload 0 (64 * n)

/-- Send a FWD worm to an agent: by the tables, through its sponsor on the sponsor's bond, on a bond of the own embedded agent,
or to that agent itself (R304, R468). -/
def Ctl.sendOp (c : Ctl) (via : Option (Nat × Nat)) (dst op block : Nat) (operand payload : Bytes) : Ctl :=
  let m : FwdMsg := { dst := dst, op := op, mcast := 0, root := 0, bond := 0xFF, operand := operand, payload := payload,
                      block := block, privilege := 2 }
  c.onDie (·.sendFwd (match via with
    | none => m
    | some (sponsor, bond) =>
      if bond = 0xFD ∨ sponsor = c.embFid then { m with bond := bond }
      else { m with dst := sponsor, op := 0x83, operand := le 1 bond, payload := c.innerWorm dst op block operand payload,
                    block := c.die.part.blockIndex Blk.MBX }))

/-! ## Streams (R469) -/

/-- Payload of a PATTERN_DATA worm: through a relay it shares the worm with the inner head (log entry 18). -/
def Stream.piece (s : Stream) : Nat := if s.via.isSome then 1984 else 2048

/-- Send what the 16 worms in flight allow. -/
def Ctl.pumpWorms (c : Ctl) (s : Stream) : Nat → Ctl × Stream
  | 0 => (c, s)
  | n + 1 =>
    if s.bytes.length ≤ s.next ∨ s.reported + 16 * s.piece ≤ s.next then (c, s)
    else
      let data := (s.bytes.drop s.next).take s.piece
      let op := le 4 s.stream ++ le 4 s.next ++ le 4 s.bytes.length ++ le 4 (crc32c data)
      let c := c.sendOp s.via s.fid 0x84 (c.die.part.blockIndex Blk.PAT) op data
      Ctl.pumpWorms c { s with next := s.next + data.length } n

/-- The stream in course to an agent: the first queued. -/
def Ctl.streamOf (c : Ctl) (fid : Nat) : Option Stream := c.cst.streams.find? fun s => s.fid = fid

/-- Store the stream in course to an agent. -/
def Ctl.setStream (c : Ctl) (s : Stream) : Ctl :=
  { c with cst := { c.cst with streams := replaceFirst (fun x => x.stream = s.stream) (fun _ => s) c.cst.streams } }

/-- Whether a stream may not begin yet (R133): its table rows wait for the drain bound from the activation of the tables in force, but
in the cast-on regime (R307). -/
def Ctl.streamWaits (c : Ctl) (s : Stream) : Bool :=
  s.tables && s.next = 0 && match tget c.cst.agents s.fid with
    | some a => !a.castOn && decide (c.die.ns < a.tablesNs + drainBound c.plan.hop)
    | none => false

/-- Send on the stream in course to an agent. -/
def Ctl.pump (c : Ctl) (fid : Nat) : Ctl :=
  match c.streamOf fid with
  | some s =>
    if c.streamWaits s then c
    else
      let (c, s) := c.pumpWorms s 16
      c.setStream s
  | none => c

/-- Begin the streams whose wait is over. -/
def Ctl.pumpDue (c : Ctl) : Ctl :=
  ((c.cst.streams.filter fun s => s.tables && s.next = 0).map (·.fid)).foldl Ctl.pump c

/-- PATTERN_PROGRESS: the agent expects an offset next; the stream resumes there. -/
def Ctl.progressed (c : Ctl) (fid stream next : Nat) : Ctl :=
  match c.streamOf fid with
  | some s => if s.stream = stream then (c.setStream { s with reported := next, next := next }).pump fid else c
  | none => c

/-- The stream in course to an agent has ended: the next one starts. -/
def Ctl.streamDone (c : Ctl) (fid : Nat) : Ctl :=
  Ctl.pump { c with cst := { c.cst with streams := removeFirst (fun s => s.fid = fid) c.cst.streams } } fid

/-! ## Files -/

/-- A row to be written: type and payload; its target is the agent or the whole scope. -/
structure NewRow where
  rtype : Nat
  target : Option Nat
  payload : Bytes
  deriving DecidableEq, Repr

/-- The rows of a derived file, its EPOCH and END rows added (R79). -/
def fileRows (rows : List NewRow) (activate : Nat) (imm : Bool) : List NewRow :=
  rows ++ [⟨Rt.EPOCH, none, le 8 activate ++ le 4 (b2n imm) ++ le 4 0⟩, ⟨Rt.END, none, []⟩]

/-- The rows part of a derived file (R77). -/
def rowsFile (all : List NewRow) : Bytes :=
  (List.range all.length).flatMap fun i =>
    let r := all.getD i ⟨0, none, []⟩
    rowBytes r.rtype (if r.target.isSome then 2 else 0) (r.target.getD 0) i r.payload

/-- The header of a derived Pattern (R74): the firmware range is open, as no rule gives one (log entry 18). -/
def derivedHeader (c : Ctl) (kind scope epoch seq count : Nat) (rows : Bytes) : Bytes :=
  let base := (c.base.map headerDigest).getD 0
  (le 4 0x53454C44).reverse ++ le 2 0x0100 ++ le 1 kind ++ le 1 2 ++ le 1 (if kind = 2 then 1 else 2) ++ le 3 0 ++ le 4 scope
  ++ le 8 epoch ++ le 8 seq ++ le 8 (256 + 64 + rows.length) ++ le 4 count ++ le 4 64
  ++ digestBytes (Config.shake256 rows) ++ le 16 0 ++ le 4 0 ++ le 4 0xFFFFFFFF ++ digestBytes base ++ le 56 0

/-- The first 16 bytes of a header's digest, as a number. -/
def headerDigest16 (hdr : Bytes) : Nat := leNat ((digestBytes (Config.shake256 hdr)).take 16)

/-- Queue a file for an agent, tagged under its pattern key (R75); an agent without keys is sent none. -/
def Ctl.sendFile (c : Ctl) (fid : Nat) (via : Option (Nat × Nat)) (hdr rows : Bytes) (imm : Bool)
    (activate : Nat) (tables : Bool) : Ctl :=
  match tget c.kst.agentKeys fid with
  | none => c
  | some k =>
    let tag := Config.kmac256 k.keys.patternKey hdr 512 (ascii "SELUD PATTERN")
    let s : Stream := { fid := fid, stream := c.cst.nextStream, bytes := hdr ++ slice tag 0 64 ++ rows, next := 0, reported := 0,
                        via := via, digest := headerDigest16 hdr, immediate := imm, activate := activate, tables := tables }
    let idle := (c.streamOf fid).isNone
    let c : Ctl := { c with cst := { c.cst with streams := c.cst.streams ++ [s], nextStream := c.cst.nextStream + 1 } }
    if idle then c.pump fid else c

/-- The next sequence of a kind and scope (R97). -/
def Ctl.nextSeq (c : Ctl) (kind scope : Nat) : Ctl × Nat :=
  let k := seqKey kind scope
  let n := tgetD c.cst.seqs k 0 + 1
  ({ c with cst := { c.cst with seqs := tset c.cst.seqs k n } }, n)

/-! ## Rows -/

def identRow (pl : Plan) (a : AgentRec) : NewRow :=
  ⟨Rt.IDENT, none, le 4 (a.fid + pl.hop % 64 * 2 ^ 24) ++ le 2 a.rack ++ le 1 a.slot ++ le 1 a.mode ++ le 8 pl.fabricId⟩

/-- Where two tables differ: index and new entry. -/
def tableDiff (old new_ : Tbl Nat) : List (Nat × Nat) :=
  let put := new_.filter fun (p : Nat × Nat) => tgetD old p.1 0 ≠ p.2
  let gone := (old.filter fun (p : Nat × Nat) => (tget new_ p.1).isNone).map fun p => (p.1, 0)
  (put ++ gone).mergeSort fun x y => x.1 ≤ y.1

/-- The row that brings a table from one content to another (R205): the smaller of the delta and the range. -/
def tableRow (table : Nat) (old new_ : Tbl Nat) : List NewRow :=
  match tableDiff old new_ with
  | [] => []
  | (first, v) :: rest =>
    let d := (first, v) :: rest
    let span := (d.getLastD (first, v)).1 - first + 1
    if 8 + 12 * d.length < 16 + 8 * span then
      [⟨Rt.TABLE_DELTA, none, le 1 table ++ le 1 0 ++ le 2 8 ++ le 4 d.length ++ d.flatMap fun p => le 4 p.1 ++ le 8 p.2⟩]
    else
      [⟨Rt.TABLE, none, le 1 table ++ le 3 0 ++ le 4 first ++ le 4 span ++ le 2 8 ++ le 2 0
        ++ (List.range span).flatMap fun i => le 8 (tgetD new_ (first + i) 0)⟩]

/-- The rows of all three tables. -/
def tableRows (old new_ : TabSlot) : List NewRow :=
  tableRow 0 old.fid new_.fid ++ tableRow 1 old.iset new_.iset ++ tableRow 2 old.mcast new_.mcast

/-- The rows that give an agent its tables: the differences from the shadow; every entry where the controller holds no shadow, of the
multicast table at a switch alone (R111). -/
def tableRowsFrom (switch : Bool) (old : Option TabSlot) (new_ : TabSlot) : List NewRow :=
  let whole (table : Nat) (t : Tbl Nat) : NewRow :=
    ⟨Rt.TABLE, none, le 1 table ++ le 3 0 ++ le 4 0 ++ le 4 (tableSize table) ++ le 2 8 ++ le 2 0
      ++ (List.range (tableSize table)).flatMap fun i => le 8 (tgetD t i 0)⟩
  match old with
  | some o => tableRows o new_
  | none => [whole 0 new_.fid, whole 1 new_.iset] ++ (if switch then [whole 2 new_.mcast] else [])

/-- A TABLE_DELTA row with count 0 (R307). -/
def emptyDelta : NewRow := ⟨Rt.TABLE_DELTA, none, le 1 0 ++ le 1 0 ++ le 2 8 ++ le 4 0⟩

/-- The PARTITION entry of a partition at an agent, if it has one there (R219). -/
def PartPlan.entry (p : PartPlan) (fid : Nat) : Option Bytes :=
  let enc := bitOf p.flags 1
  let seed := (Config.routeSeed p.tag).toNat
  let mk (flags traffic dump base count : Nat) : Bytes :=
    le 2 p.tag ++ le 2 flags ++ le 1 traffic ++ le 1 dump ++ le 2 0 ++ le 4 base ++ le 4 count ++ le 8 seed ++ le 4 p.tag ++ le 4 0
  let traffic := if enc then p.trafficSlot else 0xFF
  if p.members.contains fid then
    some (mk (1 + (if bitOf p.flags 0 then 0 else 2)) traffic (if p.samples.isEmpty then 0xFF else p.dumpSlot) 4096 p.cgCount)
  else if p.switches.contains fid then some (mk 6 traffic 0xFF 0 0)
  else none

/-- The KEYREF entries of a partition at an agent. -/
def PartPlan.keyrefs (p : PartPlan) (fid : Nat) : Bytes :=
  let mk (slot use key : Nat) : Bytes := le 1 slot ++ le 1 use ++ le 2 p.tag ++ le 4 0 ++ le 16 key
  let enc := bitOf p.flags 1
  if p.members.contains fid then
    (if enc then mk p.trafficSlot 0 p.trafficKey else []) ++ (if p.samples.isEmpty then [] else mk p.dumpSlot 1 p.dumpKey)
  else if p.switches.contains fid && enc then mk p.trafficSlot 2 p.trafficKey
  else []

/-- A COURSE entry's bytes. -/
def courseBytes (e : CourseEnt) : Bytes :=
  le 4 e.course ++ le 2 e.slot ++ le 1 e.outBond ++ le 1 e.action ++ le 4 e.collective ++ le 2 e.partition ++ le 1 e.inBond ++ le 1 0

/-- A COURSE row. -/
def courseRow (g : Geom) (target : Option Nat) (period : Nat) (es : List CourseEnt) : NewRow :=
  ⟨Rt.COURSE, target, le 1 g.slotCode ++ le 1 g.countCode ++ le 1 g.guard ++ le 1 0 ++ le 4 period ++ le 4 es.length ++ le 4 0
    ++ es.flatMap courseBytes⟩

/-- The entries of a scheduled run, one per slot (R208). -/
def SolRun.entries (r : SolRun) : List CourseEnt := (List.range r.slots).map fun i => { r.ent with slot := r.ent.slot + i }

/-- The COURSE entries of a partition at an agent. -/
def PartPlan.course (p : PartPlan) (fid : Nat) : List CourseEnt := (p.runs.filter fun r => r.fid = fid).flatMap SolRun.entries

/-- A PURL entry's bytes. -/
def purlBytes (e : PurlEnt) : Bytes :=
  le 4 e.collective ++ le 2 e.partition ++ le 1 e.op ++ le 1 e.inFmt ++ le 1 e.outFmt ++ le 1 e.rounding ++ le 1 e.overflow
  ++ le 1 0 ++ le 4 e.divisor ++ le 8 e.seed ++ le 4 e.elements ++ le 4 e.fanIn ++ le 2 e.laneBase ++ le 2 e.laneCount
  ++ le 4 e.storeOffset ++ le 4 e.storeBytes ++ le 4 0

/-- The PURL entries of a partition at an agent. -/
def PartPlan.purlAt (p : PartPlan) (fid : Nat) : List PurlEnt := (p.purls.filter fun x => x.1 = fid).map (·.2)

/-- A WATCH sample entry (R218). -/
def sampleBytes (s : Sample) : Bytes := le 1 2 ++ le 1 s.engine ++ le 2 0 ++ le 4 s.length ++ le 8 s.offset ++ le 8 0

/-- Whether a partition has anything at an agent. -/
def PartPlan.touches (p : PartPlan) (fid : Nat) : Bool :=
  p.members.contains fid || p.switches.contains fid || p.runs.any fun r => r.fid = fid

/-- The COURSE rows of an AGENT Pattern (R82): one for each partition with entries, or one that carries the geometry. -/
def courseRows (g : Geom) (ps : List PartPlan) (fid : Nat) : List NewRow :=
  let rows := (ps.filter fun p => p.runs.any fun r => r.fid = fid).map fun p => courseRow g none p.period (p.course fid)
  if rows.isEmpty then [courseRow g none 1 []] else rows

/-- The rows of the partitions at an agent. -/
def Ctl.partRows (c : Ctl) (ps : List PartPlan) (a : AgentRec) : List NewRow :=
  let loc := locOf a.rack a.slot
  let g := c.geom.getD { slotCode := 1, countCode := 1, guard := 8 }
  let ents := (ps.filterMap fun p => p.entry a.fid).flatten
  let keys := ps.flatMap fun p => p.keyrefs a.fid
  let purls := ps.flatMap fun p => p.purlAt a.fid
  let watch := (planRows c.base Rt.WATCH loc).flatMap (·.payload)
  let meter := match (c.meter.keys.filter fun k => k.fid = a.fid && k.dieId = a.dieId).getLast? with
    | some k => le 4 c.meter.pattern.intervalUs ++ le 4 c.meter.pattern.periodMs ++ le 8 k.keyId ++ le 4 c.meter.pattern.flags ++ le 4 0
    | none => []
  let evr := ((planRows c.base Rt.EVR loc).flatMap rowEntries).filter fun e =>
    Part.codeListed .twd210 (fieldAt e 0 2) && Part.snapOk .twd210 (fieldAt e 4 2)
  let samples := (ps.filter fun p => p.members.contains a.fid).flatMap fun p => p.samples.flatMap sampleBytes
  (if ents.isEmpty then [] else [⟨Rt.PARTITION, none, ents⟩])
  ++ courseRows g (if a.unmet then [] else ps) a.fid
  ++ (if a.mode = 1 && a.purl then [⟨Rt.PURL, none, purls.flatMap purlBytes⟩] else [])
  ++ [⟨Rt.KEYREF, none, keys⟩]
  ++ (if (watch ++ samples).isEmpty then [] else [⟨Rt.WATCH, none, watch ++ samples⟩])
  ++ (if evr.isEmpty then [] else [⟨Rt.EVR, none, evr.flatten⟩])
  ++ (if meter.isEmpty then [] else [⟨Rt.METER, none, meter⟩])

/-- The row that releases a partition at an agent (R231). -/
def releaseRow (tag f : Nat) : NewRow := ⟨Rt.PARTITION, some f, le 2 tag ++ le 2 8 ++ le 1 0xFF ++ le 1 0xFF ++ le 26 0⟩

/-- Whether an agent's bound keeps it from COURSE entries (R176). -/
def Ctl.unmet (c : Ctl) (fid : Nat) : Bool := ((tget c.cst.agents fid).map (·.unmet)).getD false

/-- The rows of a partition's JOB Pattern at an agent: one JOB Pattern goes to each, as it holds at most one COURSE row (R82); an agent
that the partition no longer touches releases it (R229). -/
def Ctl.jobRows (c : Ctl) (p : PartPlan) (f : Nat) : List NewRow :=
  if !(p.touches f) then [releaseRow p.tag f]
  else
  let g := c.geom.getD { slotCode := 1, countCode := 1, guard := 8 }
  let keys := p.keyrefs f
  let purls := p.purlAt f
  (match p.entry f with
    | some e => [⟨Rt.PARTITION, some f, e⟩]
    | none => [])
  ++ (if purls.isEmpty then [] else [⟨Rt.PURL, some f, purls.flatMap purlBytes⟩])
  ++ (if keys.isEmpty then [] else [⟨Rt.KEYREF, some f, keys⟩])
  ++ [courseRow g (some f) p.period (if c.unmet f then [] else p.course f)]
  ++ (if p.samples.isEmpty || !p.members.contains f then [] else [⟨Rt.WATCH, some f, p.samples.flatMap sampleBytes⟩])

/-- A BOND entry's bytes. -/
def bondBytes (b : PlanBond) : Bytes :=
  le 1 b.bond ++ le 1 b.reach ++ le 1 b.farBond ++ le 1 0 ++ le 4 b.farFid ++ le 22 (ofBitList b.lanes) ++ le 2 0

/-- The rows of a naming Pattern beside IDENT, tables and COURSE (R304). In a step 7 with full training its TRAIN rows force it (R294). The
bindings of a controller's location are the controller's own: its embedded agent takes those of the whole scope (log entry 76). -/
def Ctl.namingRows (c : Ctl) (a : AgentRec) : List NewRow :=
  let pl := c.plan
  let loc := locOf a.rack a.slot
  let copy (t : Nat) : List NewRow := (planRows c.base t loc).map fun r => ⟨t, none, r.payload⟩
  let wide (t : Nat) : List NewRow :=
    ((((c.base.map (·.rows)).getD []).filter fun r => r.rtype = t && r.targetKind = 0)).map fun r => ⟨t, none, r.payload⟩
  let maps := a.remap.flatMap fun p => le 1 p.1 ++ le 1 p.2 ++ le 2 0
  let lanes := ((planRows c.base Rt.LANEMAP loc).flatMap (·.payload)) ++ maps
  let kept := tgetD c.flash.train a.fid []
  let planned := ((planRows c.base Rt.TRAIN loc).flatMap rowEntries).map trainOf
  let saved := kept ++ planned.filter fun t => !(kept.any fun k => k.lane = t.lane)
  let train := (saved.map fun t => if c.cst.running = some (7, true) then { t with flags := Nat.lor t.flags 2 } else t).flatMap trainBytes
  copy Rt.RESOURCE ++ (if lanes.isEmpty then [] else [⟨Rt.LANEMAP, none, lanes⟩])
  ++ [⟨Rt.BOND, none, (planBonds pl c.base loc).flatMap bondBytes⟩]
  ++ copy Rt.GAUGE ++ (if train.isEmpty then [] else [⟨Rt.TRAIN, none, train⟩])
  ++ (if a.mode = 2 then wide Rt.MBXBIND else copy Rt.MBXBIND)

/-! ## Sending derived Patterns -/

/-- A new row in its place, as the loader reads it. -/
def NewRow.row (r : NewRow) (i : Nat) : Row :=
  { rtype := r.rtype, flags := 0, targetKind := if r.target.isSome then 2 else 0, target := r.target.getD 0, reserved := 0, seq := i,
    crc := crc32c r.payload, payload := r.payload }

/-- The structure that nothing was assigned to, with a mode's default RESOURCE assignment. -/
def Struct.empty (mode : Nat) : Struct :=
  { bonds := [], laneMap := [], parts := [], keyrefs := [], geom := none, periods := [], course := [], purl := [],
    resource := defaultResource mode, timers := [], samples := [] }

/-- What the loader of an agent knows, as far as the controller does. -/
def Ctl.agentEnv (c : Ctl) (a : AgentRec) (parts : Tbl PartEnt) : LoadEnv :=
  { unit := 1, part := if a.mode = 2 then .embedded else if a.mode = 1 && !a.purl then .twd200 else .twd210,
    fid := if a.naming then 0x3FFFF else a.fid, mode := a.mode, rack := a.rack, slot := a.slot, fabricId := c.plan.fabricId,
    hop := c.plan.hop, lkpLocked := !a.naming, epoch := a.epoch, fw := a.fwVersion, patternKey := none, lastSeq := [], floor := 0,
    aligned := !a.castOn, parts := parts }

/-- The checks of R99 on a derived Pattern at an agent, from the structure that its rows change: steps 6, 8 and 9 of R96. -/
def Ctl.derivedFail (c : Ctl) (a : AgentRec) (hdr : Bytes) (s : Struct) (rows : List Row) : Option (Nat × Nat) :=
  let h := parseHeader hdr
  let env := c.agentEnv a s.parts
  match rowsFail env h 0 0 [] rows with
  | some f => some (f.code, f.detail)
  | none =>
    let after := s.after env h rows
    let lanes := if a.mode = 2 then c.plan.fabLanes else agentLanes a.mode
    (after.rangeFail a.mode).or (after.unitFail env h rows lanes (if a.naming then none else c.geom) false)

/-- The structure that an agent's naming and some partitions give it. -/
def Ctl.agentStruct (c : Ctl) (a : AgentRec) (ps : List PartPlan) : Struct :=
  let rows := c.namingRows a ++ (if ps.isEmpty then [] else c.partRows ps a)
  let rs := (List.range rows.length).map fun i => (rows.getD i ⟨0, none, []⟩).row i
  let h := parseHeader (derivedHeader c 3 a.fid 0 0 0 [])
  (Struct.empty a.mode).after (c.agentEnv a []) h rs

/-- Send a derived Pattern to an agent, its rows given, unless its own checks refuse it (R99): then it is not sent, and the refusal is
kept as an agent's would be (log entry 59). -/
def Ctl.sendDerived (c : Ctl) (a : AgentRec) (via : Option (Nat × Nat)) (kind scope epoch seq : Nat) (s : Struct) (rows : List NewRow)
    (activate : Nat) (imm : Bool) : Ctl :=
  let all := fileRows rows activate imm
  let file := rowsFile all
  let hdr := derivedHeader c kind scope epoch seq all.length file
  match c.derivedFail a hdr s ((List.range all.length).map fun i => (all.getD i ⟨0, none, []⟩).row i) with
  | some (code, _) =>
    { c with cst := { c.cst with refusals := c.cst.refusals.filter (fun (r : Nat × Nat) => r.1 ≠ a.fid) ++ [(a.fid, code)] } }
  | none => c.sendFile a.fid via hdr file imm activate (all.any fun r => r.rtype = Rt.TABLE || r.rtype = Rt.TABLE_DELTA)

/-- Derive an AGENT Pattern and send it: every row's target becomes the agent's FID (R80). -/
def Ctl.sendAgent (c : Ctl) (a : AgentRec) (via : Option (Nat × Nat)) (epoch : Nat) (rows : List NewRow) (activate : Nat)
    (imm : Bool) : Ctl :=
  let (c, seq) := c.nextSeq 3 a.fid
  c.sendDerived a via 3 a.fid epoch seq (if a.naming then Struct.empty a.mode else c.agentStruct a [])
    (rows.map fun r => { r with target := some a.fid }) activate imm

/-- Derive a JOB Pattern and send it to every agent that its rows name. -/
def Ctl.sendJob (c : Ctl) (tag : Nat) (epochOf : Nat → Nat) (fids : List Nat) (rows : List NewRow) (activate : Nat) : Ctl :=
  let (c, seq) := c.nextSeq 2 tag
  fids.foldl (fun c f => match tget c.cst.agents f with
    | some a => c.sendDerived a none 2 tag (epochOf f) seq (c.agentStruct a (c.adm.parts.filter (·.tag ≠ tag))) rows activate false
    | none => c) c

/-! ## The fabric as found -/

/-- Agents that are there: named and not lost. -/
def Ctl.liveAgents (c : Ctl) : List AgentRec := (c.cst.agents.map (·.2)).filter fun a => a.named && !a.lost

/-- What the tables are computed from. -/
def Ctl.net (c : Ctl) : Net :=
  let live := c.liveAgents
  let there (f : Nat) : Bool := live.any fun a => a.fid = f
  { plan := c.plan, base := c.base, agents := live, links := liveLinks (c.sol.bonds.filter fun b => there b.fid && there b.farFid) }

/-- Ends of bonds in quarantine (R301). -/
def Ctl.quarantine (c : Ctl) : List SolBond := c.sol.bonds.filter fun b => b.quarantined && !b.down && decide (0 < b.active)

/-- Partitions with their members, ascending by tag: what the intermediate sets are formed of. -/
def partSets (ps : List PartPlan) : List (Nat × List Nat) :=
  (ps.map fun p => (p.tag, p.members)).mergeSort fun x y => x.1 ≤ y.1

/-- The solver input changes (R192): its generation rises. -/
def Ctl.changed (c : Ctl) : Ctl := { c with sol := { c.sol with gen := c.sol.gen + 1 } }

/-- Change an agent's record. -/
def Ctl.modAgent (c : Ctl) (fid : Nat) (f : AgentRec → AgentRec) : Ctl :=
  { c with cst := { c.cst with agents := tmod c.cst.agents fid f } }

/-- Send a NOTICE to the members of a partition (R465, R342): code in the first field of its body, which the agent passes on. -/
def Ctl.notify (c : Ctl) (members : List Nat) (code tag : Nat) (body : Bytes) : Ctl :=
  members.foldl (fun c f => c.sendA f 0x01 (le 2 code ++ le 2 tag ++ body)) c

/-! ## Install (R206, R307) -/

/-- D (R132). -/
def Ctl.drain (c : Ctl) : Nat := drainBound (c.plan).hop

/-- Length of a course, ns; 4,096 by the default geometry where BASE gives none. -/
def Ctl.courseNs (c : Ctl) : Nat := ((c.geom.map Geom.courseNs).getD 4096)

/-- The first course boundary after the streaming, the drain of the active epoch and the previous install (R206), at which a period has
an index of 0. The streaming time is open: below 5 ms. -/
def Ctl.installCourse (c : Ctl) (taking : List AgentRec) (period : Nat) : Ctl × Nat :=
  let (w, d) := c.die.freeVal
  let c : Ctl := { c with die := d }
  let from_ := [c.die.ns + w.toNat % 5000000, c.sol.epochNs + c.drain, c.sol.lastInstall]
    ++ (taking.filter (·.castOn)).map fun a => a.immediateNs + c.drain
  let n := maxL from_ / c.courseNs + 1
  (c, if period ≤ 1 then n else ceilDiv n period * period)

/-- Make the parity of an agent in the cast-on regime equal (R307). -/
def Ctl.equalise (c : Ctl) (a : AgentRec) (parity : Nat) : Ctl × AgentRec :=
  if a.castOn && a.epoch % 2 ≠ parity then
    let g := c.geom.getD { slotCode := 1, countCode := 1, guard := 8 }
    let c := c.sendAgent a none (a.epoch + 1) [identRow (c.plan) a, emptyDelta, courseRow g none 1 []] 0 true
    let a : AgentRec := { a with epoch := a.epoch + 1, immediateNs := c.die.ns }
    (c.modAgent a.fid fun _ => a, a)
  else (c, a)

/-- The parity that the agents flip with: that of the agents in service, else of the first named. -/
def parityOf (live : List AgentRec) : Nat :=
  match live.find? fun a => !a.castOn with
  | some a => a.epoch % 2
  | none => ((live.head?.map (·.epoch)).getD 0) % 2

/-- Send ROUTE_CHANGE to the members of partitions that an install concerns (R323, R341). -/
def Ctl.routeChange (c : Ctl) (ps : List PartPlan) (course cause : Nat) : Ctl :=
  let epoch := ((c.liveAgents.head?.map (·.epoch)).getD 0) + 1
  ps.foldl (fun c p => c.notify p.members 3 p.tag (le 8 epoch ++ le 8 course ++ le 1 cause)) c

/-- What an install carries for an agent whose structure differs from what the controller now derives for it (R306, R308). -/
def Ctl.renewRows (c : Ctl) (a : AgentRec) : List NewRow := if a.renew then c.namingRows a else []

/-- Install the tables of the fabric as found and the content of the partitions at one epoch course; with `all` every live agent
takes part, else the agents whose tables or content change. Without a change of tables `job` goes out as a JOB Pattern. Whether the
shadow region can hold a new epoch is open (R204). The course is answered, 0 where there is none. -/
def Ctl.install (c : Ctl) (old ps : List PartPlan) (all : Bool) (job : Option PartPlan) (period : Nat) : Ctl × Nat :=
    let net := c.net
    let sets := partSets ps
    let tabs := net.agents.map fun a => (a, net.tables c.quarantine sets a)
    let long := (net.isets sets).2.2
    let c := long.foldl (fun c _ => c.raise Ev.ROUTE_HOP_MARGIN) c
    let flips := tabs.any fun x => tgetD c.sol.shadow x.1.fid TabSlot.empty ≠ x.2
    let (w, d) := c.die.freeVal
    let c : Ctl := { c with die := d }
    if (all ∨ flips) ∧ w.toNat % 2 ^ 40 > 48 * 2 ^ 30 then (c.raise Ev.SOL_SHADOW_FULL, 0)
    else if all ∨ flips then
      let parity := parityOf net.agents
      let (c, live) := net.agents.foldl (fun (st : Ctl × List AgentRec) a =>
        let (c, a) := st.1.equalise a parity
        (c, st.2 ++ [a])) (c, [])
      let (c, course) := c.installCourse live period
      let c := live.foldl (fun c a =>
        let new_ := ((tabs.find? fun x => x.1.fid = a.fid).map (·.2)).getD TabSlot.empty
        let rows := tableRowsFrom (a.mode = 1) (tget c.sol.shadow a.fid) new_
        let rows := if rows.isEmpty then [emptyDelta] else rows
        let c := c.sendAgent a none (a.epoch + 1) (identRow (c.plan) a :: c.renewRows a ++ rows ++ c.partRows ps a) course false
        let c := c.modAgent a.fid fun x => { x with renew := false }
        { c with sol := { c.sol with next := tset c.sol.next a.fid new_ } }) c
      let c : Ctl := { c with sol := { c.sol with lastInstall := course * c.courseNs, epochNs := course * c.courseNs },
                              cst := { c.cst with taking := live.map (·.fid) } }
      (c, course)
    else
      let (c, course) := c.installCourse [] period
      let content (l : List PartPlan) (a : AgentRec) : List NewRow := c.partRows l a
      let hit := net.agents.filter fun a => content old a ≠ content ps a
      let epochOf (f : Nat) : Nat := ((tget c.cst.agents f).map (·.epoch)).getD 0
      let c : Ctl := match job with
        | some p => ((net.agents.map (·.fid)).filter fun f => p.touches f || old.any fun o => o.tag = p.tag && o.touches f).foldl (fun (c : Ctl) f =>
            c.sendJob p.tag epochOf [f] (c.jobRows p f) course) c
        | none => hit.foldl (fun (c : Ctl) a => c.sendAgent a none a.epoch (identRow (c.plan) a :: c.partRows ps a) course false) c
      ({ c with sol := { c.sol with lastInstall := course * c.courseNs },
                cst := { c.cst with taking := (if job.isSome then [] else hit.map fun (a : AgentRec) => a.fid) } }, course)

end Sys2Proof.Machine
end

