-- ==== Sys2Proof/Machine/Compile.lean ====
section
/-! DEFINITION. Scheduled paths and slot assignment: the gauge values the solver reads (R64, R365, R366), the paths of the plan
types (R207, R221, R256), the transit condition (R183), the assignment of slots (R207, R208) and of Purl lanes and store (R257,
R258). Times are in units of 2^-17 ns, in which one-way delays are exact (R171). -/

namespace Sys2Proof.Machine

/-- Units in 1 ns. -/
def tick17 : Nat := 131072

/-! ## Gauge -/

/-- What a region counts for: its reported worst corner, or g′ while it is in EXCEED (R366). -/
def Region.bound (r : Region) : Nat := if r.exceed then gaugePrime r.delay r.dMeas r.ref else r.delay

/-- g_worst over some regions, UQ16.16 ns: none where there is none of them, or where a corner lies outside its grid (R63, R64; log
entry 19). -/
def worstOf (rs : List (Nat × Region)) : Option Nat :=
  if rs.isEmpty || rs.any (·.2.outside) then none else some (maxL (rs.map (·.2.bound)))

/-- The regions that an agent reported, of some indices. -/
def Ctl.regionsOf (c : Ctl) (fid : Nat) (which : Nat → Bool) : List (Nat × Region) :=
  c.tel.regions.filter fun p => p.1 / 256 = fid && which (p.1 % 256)

/-- A bound of k × g ns, g in UQ16.16 ns, rounded up; beyond every deadline where g is saturated (R42, R223). -/
def gaugeNs (k g : Nat) : Nat := if gaugeFull ≤ g then 2 ^ 96 else ceilDiv (k * g) 65536

/-- g_worst over an agent's regions (R64, R182), its agent-core ones (R223), its Purl ones (R258). -/
def Ctl.gWorst (c : Ctl) (fid : Nat) : Option Nat := worstOf (c.regionsOf fid fun _ => true)
def Ctl.gCore (c : Ctl) (fid : Nat) : Option Nat := worstOf (c.regionsOf fid Config.coreRegion)
def Ctl.gPurl (c : Ctl) (fid : Nat) : Option Nat := worstOf (c.regionsOf fid Config.purlRegion)

/-- g_m: g_worst over the Sealed Meter's regions (R223). -/
def Ctl.gMeter (c : Ctl) : Option Nat := worstOf (c.die.regions.filter fun p => Config.meterRegion p.1)

/-- Whether a switch carries scheduled paths: 32 × g_worst within 8 ns (R182). -/
def Ctl.schedOk (c : Ctl) (fid : Nat) : Bool :=
  match c.gWorst fid with
  | some g => decide (32 * g ≤ 8 * 65536)
  | none => false

/-! ## Hops -/

/-- A hop of a path: the agent, its bonds in and out, and its action (R179). -/
structure Hop where
  fid : Nat
  inBond : Nat
  outBond : Nat
  action : Nat
  deriving DecidableEq, Repr

/-- Whether an agent may carry a scheduled run: not one whose bound is unmet (R176), and a switch within 32 × g_worst ≤ 8 ns (R182). -/
def Ctl.carries (c : Ctl) (fid action : Nat) : Bool := !(c.unmet fid) && (action = 1 || action = 3 || c.schedOk fid)

/-- Whether every agent of a path may carry its run (R176, R182, R207). -/
def Ctl.pathOk (c : Ctl) (hs : List Hop) : Bool := hs.all fun h => c.carries h.fid h.action

/-- The live end of a bond. -/
def Net.end_ (n : Net) (fid bond : Nat) : Option SolBond := n.links.find? fun b => b.fid = fid && b.bond = bond

/-- The primary bond toward rack t at the plane-p switch of rack r, and the rack it leads to (R199). -/
def Net.primary (n : Net) (p r t : Nat) : Option (Nat × Nat) :=
  let dist := n.distTo p t
  match tget dist r with
  | none => none
  | some own =>
    let m := (n.dims p r).filter fun x => decide (tget dist x.2.2 = some (own - 1) ∧ own ≠ 0)
    if m.isEmpty then none else (m[t % m.length]?).map (·.2)

/-- The switches from rack r to rack t with the bonds they leave by. -/
def Net.climb (n : Net) (p t : Nat) : Nat → Nat → Option (List (Nat × Nat))
  | 0, _ => none
  | fuel + 1, r =>
    if r = t then some []
    else do
      let sw ← n.at_ r (64 + p)
      let (b, next) ← n.primary p r t
      let rest ← n.climb p t fuel next
      some ((sw.fid, b) :: rest)

/-- A path's hops from the agents and the bonds they leave by: the first injects or emits, the last ends it. -/
def Net.hops (n : Net) (first last : Nat) (ends : List (Nat × Nat)) : List Hop :=
  let far (e : Nat × Nat) : Nat × Nat := match n.end_ e.1 e.2 with
    | some b => (b.farFid, b.farBond)
    | none => (0x3FFFF, 0xFF)
  let ins := 0xFF :: ends.map fun e => (far e).2
  let hs := (List.range ends.length).map fun i =>
    let e := ends.getD i (0, 0)
    { fid := e.1, inBond := ins.getD i 0xFF, outBond := e.2, action := if i = 0 then first else 2 : Hop }
  match ends.getLast? with
  | some e => hs ++ [{ fid := (far e).1, inBond := (far e).2, outBond := 0xFF, action := last }]
  | none => []

/-- The path from one endpoint to another in a plane along primary bonds (R207). -/
def Net.path (n : Net) (p : Nat) (src dst : AgentRec) : Option (List Hop) := do
  let s ← n.at_ src.rack (64 + p)
  let d ← n.at_ dst.rack (64 + p)
  let up ← n.bondTo src.fid s.fid
  let mid ← n.climb p dst.rack (n.plan.populated.length + 1) src.rack
  let down ← n.bondTo d.fid dst.fid
  some (n.hops 1 3 ((src.fid, up) :: mid ++ [(d.fid, down)]))

/-- D of a link in the direction it leaves an agent by (R171): (d + a)/2, in units of 2^-17 ns. -/
def Net.delayAt (n : Net) (fid bond : Nat) : Nat := match n.end_ fid bond with
  | some b => ((b.d : Int) + b.asym).toNat
  | none => 0

/-- Active lanes of a link. -/
def Net.widthAt (n : Net) (fid bond : Nat) : Nat := match n.end_ fid bond with
  | some b => max 1 b.active
  | none => 1

/-- D of the link that leaves a hop, and its active lanes. -/
def Net.delay (n : Net) (h : Hop) : Nat := n.delayAt h.fid h.outBond
def Net.width (n : Net) (h : Hop) : Nat := n.widthAt h.fid h.outBond

/-- Duration of f flits on w lanes (R183). -/
def duration (f w : Nat) : Nat := ceilDiv (f * 512 * tick17) (224 * w)

/-- Sum of D and Λ along a path (R224). -/
def Net.latency (n : Net) (hs : List Hop) : Nat :=
  sumL (hs.map n.delay) + 24 * tick17 * (hs.filter fun h => h.action = 2).length

/-! ## Transfers (R221, R256) -/

/-- One transfer of a collective: its phase, chunk, ends, the alternatives in order, the flits of its worm, and for a Purl hop the
agent whose inputs of the chunk must be in (R258), whether that agent rounds the chunk, and whether the worm carries its result. -/
structure Xfer where
  phase : Nat
  src : Nat
  dst : Nat
  chunk : Nat
  paths : List (List Hop)
  flits : Nat
  after : Option Nat
  work : Nat
  rounded : Bool := false
  result : Bool := false
  deriving DecidableEq, Repr

/-- Element formats: elements a worm of a collective carries (R220). -/
def Coll.width (k : Coll) : Nat :=
  max 1 (if k.compiled = 1 ∨ k.compiled = 2 then min (formatElems k.inFmt) (formatElems k.outFmt) else formatElems k.outFmt)

/-- C (R220). -/
def Coll.chunks (k : Coll) : Nat := ceilDiv k.elements k.width

/-- ceil(log2 n). -/
def log2Up (n : Nat) : Nat := if n ≤ 1 then 0 else Nat.log2 (n - 1) + 1

/-- Partial segments of a chunk of n elements (R240). -/
def segmentsOf (inFmt n : Nat) : Nat := ceilDiv n (partialShape ((fmtOfCode inFmt).getD .fp32)).2.2

/-- The edges of an endpoint-based plan with the worms each carries in a step (R221): source, destination, worms, rounds before
it. -/
def Coll.edges (k : Coll) (members : List Nat) : List (Nat × Nat × Nat × Nat) :=
  let n := members.length
  let ring (phases : Nat) : List (Nat × Nat × Nat × Nat) :=
    (List.range phases).flatMap fun ph => (List.range n).map fun i =>
      (members.getD i 0, members.getD ((i + 1) % n) 0, ceilDiv k.chunks n, ph)
  match k.compiled with
  | 2 => ring (2 * (n - 1))
  | 3 => ring (n - 1)
  | 4 =>
    let at_ := indexIn members k.root
    let m (i : Nat) : Nat := members.getD ((at_ + i) % n) 0
    (List.range (log2Up n)).flatMap fun r =>
      ((List.range (2 ^ r)).filter fun i => i + 2 ^ r < n).map fun i => (m i, m (i + 2 ^ r), k.chunks, r)
  | _ => []

/-- Planes in the rotation of R207. -/
def Net.rotation (n : Net) (src dst : Nat) : List Nat :=
  let s := (src + dst) % n.plan.planes
  s :: (List.range n.plan.planes).filter (· ≠ s)

/-- The paths of an edge in order: agents that carry no scheduled run and links missing leave a plane out (R207). -/
def Ctl.edgePaths (c : Ctl) (n : Net) (src dst : Nat) : List (List Hop) :=
  match n.agents.find? (fun a => a.fid = src), n.agents.find? (fun a => a.fid = dst) with
  | some a, some b => ((n.rotation src dst).filterMap fun p => n.path p a b).filter c.pathOk
  | _, _ => []

/-! ## Rack trees of a Purl collective (R256) -/

/-- Dimensions whose links join two populated racks in a plane. -/
def Net.liveDims (n : Net) (p : Nat) : List Nat :=
  (List.range 11).filter fun d => n.plan.populated.any fun r => (n.dimBond p r d).isSome

/-- A rotation of a list. -/
def rotateL (l : List Nat) (k : Nat) : List Nat := l.drop (k % max 1 l.length) ++ l.take (k % max 1 l.length)

/-- The parent of a rack in a chunk's tree. -/
def Net.rackParent (n : Net) (p root sigma r : Nat) : Option Nat :=
  let dist := n.distTo p root
  ((rotateL (n.liveDims p) sigma).find? fun d => (n.dimBond p r d).isSome
    && decide ((tget dist (neighbour n.plan.variant d r)).map (· + 1) = tget dist r)).map fun d => neighbour n.plan.variant d r

/-- A rack's chain to the root, itself first. -/
def Net.chain (n : Net) (p root sigma : Nat) : Nat → Nat → List Nat
  | 0, r => [r]
  | fuel + 1, r => if r = root then [r] else match n.rackParent p root sigma r with
    | some x => r :: n.chain p root sigma fuel x
    | none => [r]

/-- A chunk's tree: plane, root rack, racks with their parents. -/
structure RackTree where
  plane : Nat
  root : Nat
  racks : List (Nat × Option Nat)
  deriving DecidableEq, Repr

/-- Member racks, ascending. -/
def Net.memberRacks (n : Net) (members : List Nat) : List Nat :=
  n.plan.populated.filter fun r => n.agents.any fun a => a.rack = r && members.contains a.fid

/-- The tree of chunk j. -/
def Net.treeOf (n : Net) (members : List Nat) (j : Nat) : RackTree :=
  let rs := n.memberRacks members
  let pl := n.plan.planes
  let p := j % pl
  let root := rs.getD (j / pl % max 1 rs.length) 0
  let sigma := j / (pl * max 1 rs.length) % max 1 (n.liveDims p).length
  let all := (rs.flatMap (n.chain p root sigma (n.plan.populated.length + 1))).eraseDups
  { plane := p, root := root, racks := all.map fun r => (r, if r = root then none else n.rackParent p root sigma r) }

/-- The depth of a rack in a tree. -/
def RackTree.depth (t : RackTree) : Nat → Nat → Nat
  | 0, _ => 0
  | fuel + 1, r => match (t.racks.find? fun x => x.1 = r).bind (·.2) with
    | some x => 1 + t.depth fuel x
    | none => 0

/-- The distinct trees repeat with this period in j: in each plane the rotation σ has as many values as the plane has dimensions. -/
def Net.treePeriod (n : Net) (members : List Nat) : Nat :=
  n.plan.planes * max 1 (n.memberRacks members).length
    * (List.range n.plan.planes).foldl (fun m p => Nat.lcm m (max 1 (n.liveDims p).length)) 1

/-- Stages of one chunk's transfers, at most. -/
def chunkStages : Nat := 8192

/-- The transfers of one chunk: contributions, partials up by falling depth, results down by rising depth; one chunk's stages come
before the next one's, which keeps the EMIT runs of a bond in ascending chunk order (R256; log entry 66). Work is the elements of the
input at its receiver (R258). -/
def Ctl.purlXfers (c : Ctl) (n : Net) (k : Coll) (members : List Nat) (enc j : Nat) : List Xfer :=
  let t := n.treeOf members j
  let full := t.racks.length + 1
  let size := min k.width (k.elements - j * k.width)
  let segs := segmentsOf k.inFmt size
  let (_, wp, ep) := partialShape ((fmtOfCode k.inFmt).getD .fp32)
  let carries (f : Nat) : Nat := ceilDiv (payloadBytes ((fmtOfCode f).getD .fp32) size) 64
  let sw (r : Nat) : Nat := ((n.at_ r (64 + t.plane)).map (·.fid)).getD 0x3FFFF
  let mine := n.agents.filter fun a => members.contains a.fid
  let one (ph src dst : Nat) (first last : Nat) (after : Option Nat) (work length : Nat) : Xfer :=
    let hs := match n.bondTo src dst with
      | some b => [n.hops first last [(src, b)]].filter c.pathOk
      | none => []
    { phase := j * chunkStages + ph, src := src, dst := dst, chunk := j, paths := hs, flits := 1 + length + enc, after := after,
      work := work, rounded := after = some (sw t.root) }
  let up := mine.map fun a => one 0 a.fid (sw a.rack) 1 4 none size (carries k.inFmt)
  let deep := maxL (t.racks.map fun x => t.depth full x.1)
  let ups := t.racks.flatMap fun x => match x.2 with
    | some par => (List.range segs).map fun g =>
      let m := min ep (size - g * ep)
      one (1 + deep - t.depth full x.1) (sw x.1) (sw par) 5 4 (some (sw x.1)) m (ceilDiv (m * wp + ceilDiv m 2) 64)
    | none => []
  let downs := t.racks.flatMap fun x => match x.2 with
    | some par => [one (1 + deep + t.depth full par) (sw par) (sw x.1) 5 4 (some (sw par)) 0 (carries k.outFmt)]
    | none => []
  let outs := mine.map fun a => one (1 + deep + t.depth full a.rack) (sw a.rack) a.fid 5 3 (some (sw a.rack)) 0 (carries k.outFmt)
  up ++ ups ++ (downs ++ outs).map fun x => { x with result := true }

/-- Every transfer of a collective in the order of R207. -/
def Ctl.xfers (c : Ctl) (n : Net) (k : Coll) (members : List Nat) (enc : Nat) : List Xfer :=
  let all : List Xfer :=
    if k.compiled = 1 then (List.range k.chunks).flatMap (c.purlXfers n k members enc)
    else (k.edges members).flatMap fun e =>
      List.replicate e.2.2.1 { phase := e.2.2.2, src := e.1, dst := e.2.1, chunk := 0, paths := c.edgePaths n e.1 e.2.1,
                               flits := 33 + enc, after := none, work := 0 }
  all.mergeSort fun x y => decide (x.phase < y.phase) || (x.phase = y.phase && (decide (x.src < y.src)
    || (x.src = y.src && (decide (x.dst < y.dst) || (x.dst = y.dst && decide (x.chunk ≤ y.chunk))))))

/-! ## Assignment (R207) -/

/-- What has been assigned: this partition's runs, other partitions' runs with their periods, the work taken by agent and course
(R258); the end of the last input run of a chunk at an agent, that of its last EMIT run there, and that of the last EMIT run of a
bond. -/
structure Slate where
  runs : List SolRun
  others : List (Nat × SolRun)
  work : Tbl Nat
  ends : Tbl Nat
  sent : Tbl Nat := []
  emits : Tbl Nat := []
  deriving DecidableEq, Repr

/-- Whether two runs collide (R98, R178). -/
def runsCollide (p1 p2 : Nat) (x y : SolRun) : Bool :=
  let owns (a : Nat) : Bool := a = 1 || a = 2 || a = 5
  x.fid = y.fid && x.ent.course % max 1 (Nat.gcd p1 p2) = y.ent.course % max 1 (Nat.gcd p1 p2)
  && decide (x.ent.slot < y.ent.slot + y.slots) && decide (y.ent.slot < x.ent.slot + x.slots)
  && ((owns x.ent.action && owns y.ent.action && x.ent.outBond = y.ent.outBond && x.ent.outBond ≠ 0xFF)
    || (x.ent.inBond = y.ent.inBond && x.ent.inBond ≠ 0xFF))

/-- The run of one hop and the slack it leaves, none where R183 or the plumb slot forbids it: start and end of what it must cover. -/
def hopRun (g : Geom) (h : Hop) (period coll tag from_ to_ t : Nat) : Option (SolRun × Nat) :=
  let sl := g.slotNs * tick17
  let len := g.courseNs * tick17
  let first := from_ / sl
  let last := (to_ + sl - 1) / sl - 1
  let n := g.slots
  if first / n ≠ last / n ∨ first / n ≠ t / len ∨ first % n = 0 then none
  else some ({ fid := h.fid, slots := last - first + 1,
               ent := { course := first / n % period, slot := first % n, outBond := h.outBond, action := h.action,
                        collective := coll, partition := tag, inBond := h.inBond } },
             min (from_ - first * sl) ((last + 1) * sl - to_))

/-- The runs of a path that starts at t_0 (R183), and the least margin that any of them leaves at either end (log entry 66). -/
def pathRuns (n : Net) (g : Geom) (period coll tag flits : Nat) (parent : Nat) : List Hop → Nat → Nat → Nat → Option (List SolRun × Nat)
  | [], _, _, _ => some ([], g.courseNs * tick17)
  | h :: rest, i, t, tau =>
    let half := g.guard * tick17 / 2
    let s := i * 98304
    let tau := if h.outBond = 0xFF then tau else duration flits (n.width h)
    let h := if h.action = 4 then { h with outBond := parent } else h
    if t < s + half then none
    else do
      let (r, slack) ← hopRun g h period coll tag (t - s - half) (t + s + tau + half) t
      let next := match rest with
        | x :: _ => t + n.delay h + (if x.action = 2 then 24 * tick17 else 0)
        | [] => t
      let (rs, more) ← pathRuns n g period coll tag flits parent rest (i + 1) next tau
      some (r :: rs, min slack more)

/-- Start and end of a run from the start of its period, units. -/
def SolRun.start (g : Geom) (r : SolRun) : Nat := (r.ent.course * g.slots + r.ent.slot) * (g.slotNs * tick17)
def SolRun.stop (g : Geom) (r : SolRun) : Nat := r.start g + r.slots * (g.slotNs * tick17)

/-- Whether the runs of a path meet the transit condition of R183 from a head time on. -/
def Net.runsMeet (n : Net) (g : Geom) : List SolRun → Nat → Nat → Nat → Bool
  | [], _, _, _ => true
  | r :: rest, i, t, tau =>
    let half := g.guard * tick17 / 2
    let s := i * 98304
    let leaves := r.ent.action = 1 || r.ent.action = 2 || r.ent.action = 5
    let tau := if leaves then duration r.flits (n.widthAt r.fid r.ent.outBond) else tau
    let ahead := match rest with
      | x :: _ => if x.ent.action = 2 then 24 * tick17 else 0
      | [] => 0
    decide (r.start g + half + s ≤ t) && decide (t + s + tau + half ≤ r.stop g)
      && (!leaves || (n.end_ r.fid r.ent.outBond).isSome)
      && n.runsMeet g rest (i + 1) (t + n.delayAt r.fid r.ent.outBond + ahead) tau

/-- Whether a path of compiled runs meets R183 with the delays now reported. -/
def Net.pathMeets (n : Net) (g : Geom) (rs : List SolRun) : Bool := match rs with
  | r :: _ => n.runsMeet g rs 0 (r.start g + g.guard * tick17 / 2) 0
  | [] => true

/-- Key of an agent's work in a course, and of a chunk at an agent. -/
def workKey (fid course : Nat) : Nat := fid * 2 ^ 20 + course
def endKey (chunk fid : Nat) : Nat := chunk * 2 ^ 18 + fid

/-- What a transfer brings to its assignment: the course range and id of its collective, the partition, the parent bond that its
ACCUMULATE entry names, its work, P_acc of the agent it waits for, and the chunk slots at its receiver. -/
structure Slotting where
  period : Nat
  base : Nat
  courses : Nat
  coll : Nat
  tag : Nat
  parent : Nat
  work : Nat
  pacc : Nat
  slots : Nat
  deriving DecidableEq, Repr

/-- The runs of a candidate and its slack. -/
def Slotting.runs (l : Slotting) (n : Net) (g : Geom) (x : Xfer) (c0 k0 : Nat) (hs : List Hop) : Option (List SolRun × Nat) :=
  pathRuns n g l.period l.coll l.tag x.flits l.parent hs 0
    ((l.base + c0) * (g.courseNs * tick17) + k0 * (g.slotNs * tick17) + g.guard * tick17 / 2) 0

/-- Try a candidate (R207): its runs lie in the collective's courses (R225), collide with nothing, wait P_acc after the last input of
their chunk, follow the bond's earlier EMIT runs (R256), open no slot that an earlier chunk still holds (R257), and bring the receiver
at most L/2 of work in a course (R258). -/
def Slate.fits (s : Slate) (n : Net) (g : Geom) (l : Slotting) (x : Xfer) (c0 k0 : Nat) (hs : List Hop) : Option Slate := do
  let (rs, _) ← l.runs n g x c0 k0 hs
  let rs := rs.map fun r => { r with path := s.runs.length, flits := x.flits }
  let first ← rs.head?
  let last ← rs.getLast?
  let ready := match x.after with
    | some f => tgetD s.ends (endKey x.chunk f) 0 + l.pacc
    | none => 0
  let bond := first.fid * 256 + first.ent.outBond
  let emits : Bool := first.ent.action = 5
  let opens : Bool := last.ent.action = 4 && !x.result && decide (l.slots ≤ x.chunk)
  let freed := if opens then tgetD s.sent (endKey (x.chunk - l.slots) x.dst) 0 else 0
  let out := rs.any fun r => decide (r.ent.course < l.base) || decide (l.base + l.courses ≤ r.ent.course)
  let clash := rs.any fun r => s.runs.any (fun y => runsCollide l.period l.period r y) || s.others.any fun y => runsCollide l.period y.1 r y.2
  let key := workKey x.dst last.ent.course
  let w := tgetD s.work key 0 + l.work
  let inKey := endKey x.chunk x.dst
  let outKey := endKey x.chunk x.src
  if first.start g < ready ∨ (emits ∧ first.start g < tgetD s.emits bond 0) ∨ last.start g < freed ∨ out ∨ clash
    ∨ (l.work ≠ 0 ∧ 2 * w > g.courseNs * tick17) then none
  else some { s with runs := s.runs ++ rs, work := if l.work = 0 then s.work else tset s.work key w,
                     ends := tset s.ends inKey (max (last.stop g) (tgetD s.ends inKey 0)),
                     sent := if emits then tset s.sent outKey (max (first.stop g) (tgetD s.sent outKey 0)) else s.sent,
                     emits := if emits then tset s.emits bond (first.stop g) else s.emits }

/-- The first element that f takes. -/
def firstSome {α β : Type} (f : α → Option β) : List α → Option β
  | [] => none
  | x :: xs => match f x with
    | some y => some y
    | none => firstSome f xs

/-- The candidates of a transfer in the order of R207: path, start course and start slot. -/
def Slotting.candidates (l : Slotting) (g : Geom) (x : Xfer) : List (List Hop × Nat × Nat) :=
  x.paths.flatMap fun hs => (List.range l.courses).flatMap fun c0 => (List.range (g.slots - 1)).map fun k0 => (hs, c0, k0 + 1)

/-- Assign a transfer: the first candidate that fits. -/
def Slate.assign (s : Slate) (n : Net) (g : Geom) (l : Slotting) (x : Xfer) : Option Slate :=
  firstSome (fun y => s.fits n g l x y.2.1 y.2.2 y.1) (l.candidates g x)

/-- The largest slack that a transfer reaches over all its candidates (R207, R208; log entry 66). -/
def Slotting.bestSlack (l : Slotting) (n : Net) (g : Geom) (x : Xfer) : Nat :=
  maxL ((l.candidates g x).filterMap fun y => (l.runs n g x y.2.1 y.2.2 y.1).map (·.2))

/-! ## Purl lanes and store (R257) -/

/-- The largest free range of a space of a size, at the lowest base on a tie, from the ranges taken: base and length. -/
def largestFree (size : Nat) (taken : List (Nat × Nat)) : Nat × Nat :=
  let (best, at_) := (taken.mergeSort fun x y => x.1 ≤ y.1).foldl (fun (st : (Nat × Nat) × Nat) r =>
    let gap := r.1 - st.2
    (if gap > st.1.2 then (st.2, gap) else st.1, max st.2 (r.1 + r.2))) ((0, 0), 0)
  if size - at_ > best.2 then (at_, size - at_) else best

/-- What other partitions hold of the lanes and of the store of a switch. -/
def purlTaken (ps : List PartPlan) (fid : Nat) : List (Nat × Nat) × List (Nat × Nat) :=
  let es := ps.flatMap fun p => p.purlAt fid
  (es.map fun e => (e.laneBase, e.laneCount), es.map fun e => (e.storeOffset, e.storeBytes))

/-- Lanes and store that each of a partition's Purl collectives, given by their E_w, receives at a switch: lane base and count, store
offset and bytes for the i-th. The lanes are the working ones that are not fenced (R233, R236). -/
def purlShare (ps : List PartPlan) (a : AgentRec) (widths : List Nat) (i : Nat) : Nat × Nat × Nat × Nat :=
  let (ls, ss) := purlTaken ps a.fid
  let (lb, ln) := largestFree a.lanes (ls ++ a.fencedLanes.map fun l => (l, 1))
  let (sb, sn) := largestFree (30 * 2 ^ 20) ss
  let k := max 1 widths.length
  let each := ln / k / 32 * 32
  let part (j : Nat) : Nat := sn / k / (48 * widths.getD j 1) * (48 * widths.getD j 1)
  (lb + i * each, each, sb + sumL ((List.range i).map part), part i)

/-- Switches on the trees of a Purl collective. -/
def Net.treeSwitches (n : Net) (members : List Nat) (k : Coll) : List Nat :=
  ((List.range (min k.chunks (n.treePeriod members))).flatMap fun j =>
    let t := n.treeOf members j
    t.racks.filterMap fun x => (n.at_ x.1 (64 + t.plane)).map (·.fid)).eraseDups

/-- a of P_acc at an agent for a role (R258): it emits a partial or relays, or it rounds. -/
def accSteps (op : Nat) (rounds : Bool) : Nat := if !rounds then 8 else if op = 3 then 64 else 16

/-- P_acc in units (R258), g in UQ16.16 ns. -/
def paccOf (courseNs g a width lanes : Nat) : Nat := courseNs * tick17 + 2 * g * (640 + a * ceilDiv width (max 1 lanes))

/-- The work of an input of n elements, units (R258). -/
def workOf (g n lanes : Nat) : Nat := 2 * g * 4 * ceilDiv n (max 1 lanes)

end Sys2Proof.Machine
end

