-- ==== Sys2Proof/Machine/Admit.lean ====
section
/-! DEFINITION. Admission (R217 to R228): the request record, what is carved for it, the deadlines checked and the figures
reported, and the reply ring. -/

namespace Sys2Proof.Machine

/-! ## The request record (R218) -/

/-- A request as read. -/
structure Request where
  id : Nat
  replaceTag : Nat
  flags : Nat
  cgCount : Nat
  reactionUs : Nat
  dumpUs : Nat
  trafficKey : Nat
  dumpKey : Nat
  colls : List Coll
  samples : List Sample
  members : List Nat
  reserved : Bool
  deriving DecidableEq, Repr

/-- A collective entry: divisor 0 stands for the member count. -/
def collOf (members : Nat) (e : Bytes) : Coll :=
  { id := fieldAt e 0 4, plan := byteAt e 4, op := byteAt e 5, inFmt := byteAt e 6, outFmt := byteAt e 7, rounding := byteAt e 8,
    overflow := byteAt e 9, divisor := if fieldAt e 12 4 = 0 then members else fieldAt e 12 4, seed := fieldAt e 16 8,
    elements := fieldAt e 24 4, root := fieldAt e 28 4, turn := fieldAt e 32 4, deadline := fieldAt e 40 8, compiled := byteAt e 4,
    cause := 0, courses := 0, stepNs := 0, atRisk := false }

/-- Whether the reserved bytes of an entry are zero. -/
def collReserved (e : Bytes) : Bool := fieldAt e 10 2 = 0 && fieldAt e 36 4 = 0 && fieldAt e 48 16 = 0

/-- The request of a record's bytes, none where its length does not match its counts. -/
def requestOf (b : Bytes) : Option Request :=
  let m := fieldAt b 8 4
  let nc := byteAt b 12
  let ns := byteAt b 13
  if b.length < 64 ∨ b.length ≠ 64 + 64 * nc + 16 * ns + 4 * m then none
  else
    let ces := chunksOf 64 nc (b.drop 64)
    let ses := chunksOf 16 ns (b.drop (64 + 64 * nc))
    some { id := fieldAt b 0 4, replaceTag := fieldAt b 4 2, flags := fieldAt b 6 2, cgCount := fieldAt b 16 4,
           reactionUs := fieldAt b 20 4, dumpUs := fieldAt b 24 4, trafficKey := fieldAt b 32 16, dumpKey := fieldAt b 48 16,
           colls := ces.map (collOf m),
           samples := ses.map fun e => { engine := byteAt e 0, length := sampleLength (fieldAt e 4 4), offset := fieldAt e 8 8, partition := 0 },
           members := (chunksOf 4 m (b.drop (64 + 64 * nc + 16 * ns))).map leNat,
           reserved := fieldAt b 14 2 = 0 && fieldAt b 28 4 = 0 && fieldAt b 6 2 < 4 && ces.all collReserved
             && ses.all fun e => fieldAt e 1 3 = 0 && fieldAt e 4 4 % 4096 = 0 }

/-- Whether a plan reduces: the others ignore op (R218, R221). -/
def planReduces (plan : Nat) : Bool := plan = 1 || plan = 2

/-- Whether every field of a request lies in its range (R218, R221). -/
def Request.fieldsOk (r : Request) : Bool :=
  let n := r.members.length
  let enc := bitOf r.flags 1
  r.reserved && 1 ≤ n && n ≤ 131072 && r.colls.length ≤ 16 && r.samples.length ≤ 16 && r.cgCount ≤ 1044480
  && (enc = (r.trafficKey ≠ 0)) && (r.samples.isEmpty = (r.dumpKey = 0))
  && strictly (r.members.map Int.ofNat) && r.members.all (· < 2 ^ 18)
  && !(dupNat (r.colls.map (·.id)))
  && r.colls.all fun k => k.id ≠ 0 && 1 ≤ k.plan && k.plan ≤ 4 && (!planReduces k.plan || k.op ≤ 3) && (fmtOfCode k.inFmt).isSome && (fmtOfCode k.outFmt).isSome
    && k.rounding ≤ 2 && k.overflow ≤ 1 && 1 ≤ k.elements && (!planReduces k.plan || k.op ≠ 3 || (1 ≤ k.divisor && k.divisor ≤ 2 ^ 20))
    && (if k.plan = 4 then r.members.contains k.root else k.root = 0x3FFFF) && (k.plan ≠ 1 || 2 ≤ n)

/-! ## The reply ring (R228) -/

/-- The figures of a collective in a reply. -/
structure Fig where
  plan : Nat
  cause : Nat
  courses : Nat
  stepNs : Nat
  maxElements : Nat
  fid : Nat
  bond : Nat
  deriving DecidableEq, Repr

/-- A reply record's content. -/
structure Reply where
  kind : Nat
  result : Nat
  reason : Nat
  detail : Nat
  requestId : Nat
  tag : Nat
  course : Nat
  reactUs : Nat
  batchUs : Nat
  dumpUs : Nat
  figs : List Fig
  deriving DecidableEq, Repr

/-- A figure's 32 bytes; saturated figures read all ones. -/
def Fig.bytes (f : Fig) : Bytes :=
  le 1 f.plan ++ le 1 f.cause ++ le 2 0 ++ le 4 (satU 32 f.courses) ++ le 8 (satU 64 f.stepNs) ++ le 4 (satU 32 f.maxElements)
  ++ le 4 f.fid ++ le 1 f.bond ++ le 7 0

/-- A reply record (R228). -/
def Reply.bytes (r : Reply) (gen atNs : Nat) : Bytes :=
  slice (le 1 r.kind ++ le 1 r.result ++ le 1 r.reason ++ le 1 r.detail ++ le 4 r.requestId ++ le 2 r.tag ++ le 2 0 ++ le 4 gen
    ++ le 8 r.course ++ le 8 atNs ++ le 4 (satU 32 r.reactUs) ++ le 4 (satU 32 r.batchUs) ++ le 4 (satU 32 r.dumpUs) ++ le 20 0
    ++ r.figs.flatMap Fig.bytes) 0 1024

/-- Whether the ring has no free record: the next index would meet the consumer's. -/
def Ctl.admRingFull (c : Ctl) : Bool :=
  (c.die.bget Reg.ADM_RING_PROD 9 0 + 1) % 1024 = c.die.bget Reg.ADM_RING_CONS 9 0

/-- Write a record into the ring. -/
def Ctl.putReply (c : Ctl) (b : Bytes) : Ctl :=
  let i := c.die.bget Reg.ADM_RING_PROD 9 0
  let n := c.die.bget Reg.ADM_RING_PROD 63 32
  let (c, _) := c.memWrite (c.die.getN Reg.ADM_RING_BASE + 1024 * i) b
  c.onDie (·.setN Reg.ADM_RING_PROD ((i + 1) % 1024 + (n + 1) % 2 ^ 32 * 2 ^ 32))

/-- Whether a waiting record is replaced by a new one: AT_RISK or RESTORED of the same tag, deadline and collective. -/
def sameRisk (x y : Bytes) : Bool :=
  (byteAt x 0 = 4 || byteAt x 0 = 5) && (byteAt y 0 = 4 || byteAt y 0 = 5) && fieldAt x 2 2 = fieldAt y 2 2 && fieldAt x 8 2 = fieldAt y 8 2

/-- Write a reply, or hold it in the backlog while the ring is full. It carries the generation of the computation it comes from. -/
def Ctl.reply (c : Ctl) (r : Reply) : Ctl :=
  let b := r.bytes (c.sol.taskGen.getD c.sol.gen) c.die.ns
  if c.adm.backlog.isEmpty && !c.admRingFull then c.putReply b
  else
    let first := c.adm.backlog.isEmpty
    let l := if c.adm.backlog.any (sameRisk b) then replaceFirst (sameRisk b) (fun _ => b) c.adm.backlog else c.adm.backlog ++ [b]
    let c : Ctl := { c with adm := { c.adm with backlog := l } }
    if first then c.raise Ev.ADM_RING_FULL else c

/-- Records leave the backlog in the order of their places while the ring has room. -/
def Ctl.drainBacklog : Nat → Ctl → Ctl
  | 0, c => c
  | n + 1, c =>
    match c.adm.backlog with
    | b :: rest =>
      if c.admRingFull then c
      else Ctl.drainBacklog n (({ c with adm := { c.adm with backlog := rest } } : Ctl).putReply b)
    | [] => c

/-- ADM_RING_CONS is written. -/
def Ctl.admCons (c : Ctl) (val : Nat) : Ctl := Ctl.drainBacklog 1024 (c.onDie (·.bset Reg.ADM_RING_CONS 9 0 val))

/-! ## What is free (R219, R257) -/

/-- The partitions beside the one that a request replaces: its slots, keys, Purl space and members count as free (R226). -/
def Ctl.others (c : Ctl) (tag : Nat) : List PartPlan := c.adm.parts.filter fun p => p.tag ≠ tag

/-- The lowest tag free. -/
def Ctl.freeTag (c : Ctl) : Option Nat :=
  ((List.range 4095).map (· + 1)).find? fun t => !(c.adm.parts.any fun p => p.tag = t)
    && c.adm.released.all fun r => r.1 ≠ t || decide (r.2 + c.drain ≤ c.die.ns)

/-- Key slots that partitions hold at an agent. -/
def slotsHeld (ps : List PartPlan) (fid : Nat) : List Nat :=
  (ps.filter fun p => p.members.contains fid || p.switches.contains fid).flatMap fun p =>
    (if bitOf p.flags 1 then [p.trafficSlot] else []) ++ (if p.samples.isEmpty then [] else [p.dumpSlot])

/-- The lowest key slot free at every agent of a list, from a first one on. -/
def freeSlot (ps : List PartPlan) (fids : List Nat) (first : Nat := 0) : Option Nat :=
  let used := fids.flatMap (slotsHeld ps)
  (List.range 255).find? fun s => first ≤ s && !used.contains s

/-- The digest of a member list (R388). -/
def memberDigest (ms : List Nat) : Digest := Config.shake256 (ms.flatMap (le 4))

/-- Whether a key is held for a request (R388). -/
def Ctl.keyHeld (c : Ctl) (key use : Nat) (members : List Nat) : Bool :=
  !(c.flash.consumed.contains key) && c.kst.tenant.any fun k => k.keyId = key && k.use = use && k.bound.isNone
    && (match k.member with
      | some d => d = memberDigest members
      | none => true)

/-- The dump-staging share planned at a location, bytes (R84). -/
def Ctl.dumpShare (c : Ctl) (a : AgentRec) : Nat :=
  4096 * (match planRows c.base Rt.RESOURCE (locOf a.rack a.slot) with
    | r :: _ => ((resourceOf r.payload).shares.getD 1 (0, 384)).2
    | [] => 384)

/-! ## Plan selection (R222) -/

/-- Whether a key is bound to an admitted partition's instance and still held. -/
def Ctl.keyBound (c : Ctl) (key inst : Nat) : Bool := c.kst.tenant.any fun k => k.keyId = key && k.bound = some inst

/-- Why the i-th Purl plan of a partition falls back to the ring, 0 for none. -/
def fallbackCause (n : Net) (ps : List PartPlan) (flags : Nat) (members widths : List Nat) (i : Nat) (k : Coll) : Nat :=
  if bitOf flags 0 then 1
  else
    let sws := (n.treeSwitches members k).filterMap fun f => n.agents.find? fun a => a.fid = f
    if sws.any fun a => !a.purl then 2
    else if sws.any (·.purlFenced) then 3
    else if sws.any fun a =>
      let (_, lanes, _, store) := purlShare ps a widths i
      lanes < 32 || store < 2 * 48 * k.width then 4
    else 0

/-- The collectives with the plans that are compiled. -/
def selectPlans (n : Net) (ps : List PartPlan) (flags : Nat) (members : List Nat) (ks : List Coll) : List Coll :=
  let ks := ks.mergeSort fun x y => x.id ≤ y.id
  let purls := (ks.filter fun k => k.plan = 1).map fun k => { k with compiled := 1 }
  let widths := purls.map Coll.width
  ks.map fun k =>
    if k.plan ≠ 1 then { k with compiled := k.plan, cause := 0 }
    else
      let k1 : Coll := { k with compiled := 1 }
      let cause := fallbackCause n ps flags members widths (indexIn (purls.map (·.id)) k.id) k1
      if cause = 0 then { k1 with cause := 0 } else { k with compiled := 2, cause := cause }

/-! ## The step bound (R224, R258, R259) -/

/-- What a partition's check reads: the net, the other partitions, the members, 1 when it encrypts, and the E_w of the collectives that
share each switch's Purl lanes, in ascending collective_id. -/
structure Check where
  net : Net
  others : List PartPlan
  members : List Nat
  enc : Nat
  widths : List Nat
  geom : Geom
  deriving DecidableEq, Repr

/-- The E_w of the Purl collectives of a list. -/
def purlWidths (ks : List Coll) : List Nat := (ks.filter fun k => k.compiled = 1).map Coll.width

/-- Add a load to the count of a bond. -/
def addLoad (t : Tbl Nat) (fid bond n : Nat) : Tbl Nat := tset t (fid * 256 + bond) (tgetD t (fid * 256 + bond) 0 + n)

/-- The chunks whose transfers stand for all of a Purl collective's, each with how many it stands for: one of each distinct tree,
and the last chunk, which may hold fewer elements. -/
def Net.chunkClasses (n : Net) (members : List Nat) (k : Coll) : List (Nat × Nat) :=
  let per := n.treePeriod members
  let full := k.chunks - 1
  ((List.range (min full per)).map fun j => (j, ceilDiv (full - j) per)) ++ [(full, 1)]

/-- Parts that a worm is divided into: every number of planes divides it, so an edge's worms spread over its planes in whole parts. -/
def wormParts : Nat := 840

/-- The paths that a collective's transfers take, each with the parts of worms it carries in a step: an edge's worms are spread evenly
over the planes that have a path (R207, R221). -/
def Ctl.loads (c : Ctl) (q : Check) (k : Coll) : List (List Hop × Nat) :=
  if k.compiled = 1 then
    (q.net.chunkClasses q.members k).flatMap fun j =>
      (c.purlXfers q.net k q.members q.enc j.1).flatMap fun x => x.paths.map fun hs => (hs, j.2 * wormParts)
  else
    let es := (k.edges q.members).foldl (fun (t : List (Nat × Nat × Nat)) e =>
      if t.any fun x => x.1 = e.1 && x.2.1 = e.2.1 then t.map fun x => if x.1 = e.1 ∧ x.2.1 = e.2.1 then (x.1, x.2.1, x.2.2 + e.2.2.1) else x
      else t ++ [(e.1, e.2.1, e.2.2.1)]) []
    es.flatMap fun e =>
      let ps := c.edgePaths q.net e.1 e.2.1
      ps.map fun hs => (hs, e.2.2 * (wormParts / max 1 ps.length))

/-- Whether every transfer has a path. -/
def Ctl.routed (c : Ctl) (q : Check) (k : Coll) : Bool :=
  if k.compiled = 1 then
    (List.range (min k.chunks (q.net.treePeriod q.members))).all fun j =>
      (c.purlXfers q.net k q.members q.enc j).all fun x => !x.paths.isEmpty
  else (k.edges q.members).all fun e => !(c.edgePaths q.net e.1 e.2.1).isEmpty

/-- The bonds of a collective with the worms on each, by agent and bond, rounded up. -/
def bondLoads (ls : List (List Hop × Nat)) : Tbl Nat :=
  (ls.foldl (fun t l => l.1.foldl (fun t h => if h.outBond = 0xFF then t else addLoad t h.fid h.outBond l.2) t) []).map fun p =>
    (p.1, ceilDiv p.2 wormParts)

/-- The slots that a partition owns of a bond in each course of its period that has any (R178). -/
def PartPlan.owned (p : PartPlan) (fid bond : Nat) : List (Nat × Nat) :=
  let rs := p.runs.filter fun r => r.fid = fid && r.ent.outBond = bond && (r.ent.action = 1 || r.ent.action = 2 || r.ent.action = 5)
  ((rs.map (·.ent.course)).eraseDups).map fun n => (n, sumL ((rs.filter fun x => x.ent.course = n).map (·.slots)))

/-- The largest sum of slots over partitions, each with its period and its slots by course, in courses that fall together: two do where
their numbers are equal modulo the greatest common divisor of their periods (R98). -/
def mostOwned : List (Nat × List (Nat × Nat)) → List (Nat × Nat) → Nat
  | [], _ => 0
  | (period, es) :: rest, chosen =>
    let meet (n : Nat) : Bool := chosen.all fun y => n % max 1 (Nat.gcd period y.1) = y.2 % max 1 (Nat.gcd period y.1)
    maxL (mostOwned rest chosen :: (es.filter fun e => meet e.1).map fun e => e.2 + mostOwned rest ((period, e.1) :: chosen))

/-- The largest number of slots of a bond that other partitions own in any one course (R224). -/
def ownedSlots (others : List PartPlan) (fid bond : Nat) : Nat := mostOwned (others.map fun p => (p.period, p.owned fid bond)) []

/-- The share of the i-th Purl collective at a switch, and the lanes that each receives there. -/
def Check.share (q : Check) (fid i : Nat) : Nat × Nat × Nat × Nat := match q.net.agents.find? fun a => a.fid = fid with
  | some a => purlShare q.others a q.widths i
  | none => (0, 0, 0, 0)
def Check.lanes (q : Check) (fid : Nat) : Nat := (q.share fid 0).2.1

/-- The work of the inputs that each switch takes in a step, units (R259). -/
def Ctl.intake (c : Ctl) (q : Check) (k : Coll) : List (Nat × Nat) :=
  if k.compiled ≠ 1 then []
  else
    let t := (q.net.chunkClasses q.members k).foldl (fun t j =>
      (c.purlXfers q.net k q.members q.enc j.1).foldl (fun t x =>
        if x.work = 0 then t else addLoad t x.dst 0 (j.2 * workOf ((c.gPurl x.dst).getD gaugeFull) x.work (q.lanes x.dst))) t) []
    t.map fun p => (p.1 / 256, p.2)

/-- P_acc of a switch for a collective. -/
def Ctl.pacc (c : Ctl) (q : Check) (k : Coll) (fid : Nat) (rounds : Bool) : Nat :=
  let g := (c.gPurl fid).getD gaugeFull
  if gaugeFull ≤ g then 2 ^ 96 * tick17 else paccOf q.geom.courseNs g (accSteps k.op rounds) k.width (q.lanes fid)

/-- The longest chain of one chunk's tree: up to the root, rounded, and down. -/
def Ctl.treeChain (c : Ctl) (q : Check) (k : Coll) (j : Nat) : Nat :=
  let n := q.net
  let t := n.treeOf q.members j
  let sw (r : Nat) : Nat := ((n.at_ r (64 + t.plane)).map (·.fid)).getD 0x3FFFF
  let link (x y : Nat) : Nat := match n.bondTo x y with
    | some b => n.delay { fid := x, inBond := 0xFF, outBond := b, action := 5 }
    | none => 0
  let steps (m : AgentRec) : Nat × Nat :=
    let ch := n.chain t.plane t.root (j / (n.plan.planes * max 1 (n.memberRacks q.members).length) % max 1 (n.liveDims t.plane).length)
      (n.plan.populated.length + 1) m.rack
    let pairs := ch.zip (ch.drop 1)
    (link m.fid (sw m.rack) + sumL (pairs.map fun p => c.pacc q k (sw p.1) false + link (sw p.1) (sw p.2)),
     link (sw m.rack) m.fid + sumL (pairs.map fun p => c.pacc q k (sw p.1) false + link (sw p.2) (sw p.1)))
  let ms := (n.agents.filter fun a => q.members.contains a.fid).map steps
  maxL (ms.map (·.1)) + c.pacc q k (sw t.root) true + maxL (ms.map (·.2))

/-- Lat of a collective (R221, R224). -/
def Ctl.chainTime (c : Ctl) (q : Check) (k : Coll) : Nat :=
  if k.compiled = 1 then maxL ((List.range (min k.chunks (q.net.treePeriod q.members))).map (c.treeChain q k))
  else
    let n := q.members.length
    let edge := maxL ((c.loads q k).map fun l => q.net.latency l.1)
    let rounds := match k.compiled with
      | 2 => 2 * (n - 1)
      | 3 => n - 1
      | _ => log2Up n
    rounds * (edge + k.turn * tick17)

/-- The course count of a collective with its bottleneck, none where no schedule exists (R224, R259). Where the Purl intake of a switch
sets W, the bottleneck is that switch and names no bond (log entry 66). -/
def Ctl.stepCourses (c : Ctl) (q : Check) (k : Coll) : Option (Nat × Nat × Nat) :=
  let ls := c.loads q k
  let bl := bondLoads ls
  if !(c.routed q k) then none
  else
    let top := bl.foldl (fun (b : Nat × Nat) p => if p.2 > b.2 then p else b) (0, 0)
    let hops := ls.flatMap (·.1)
    let narrow := minL 1 ((hops.filter fun h => h.outBond ≠ 0xFF).map q.net.width)
    let far := maxL (ls.map fun l => l.1.length - 1)
    let s := q.geom.slotNs * tick17
    let rw := ceilDiv (duration (33 + q.enc) narrow + 2 * (far * 98304) + q.geom.guard * tick17) s + 1
    let free := q.geom.slots - 1 - maxL (bl.map fun p => ownedSlots q.others (p.1 / 256) (p.1 % 256))
    let len := q.geom.courseNs * tick17
    if free = 0 then none
    else
      let intake := ((c.intake q k).map fun x => (x.1, ceilDiv (x.2 * 2 * free) (len * rw))).foldl
        (fun (b : Nat × Nat) x => if x.2 > b.2 then x else b) (0, 0)
      let w := max top.2 intake.2
      let at_ : Nat × Nat := if intake.2 > top.2 then (intake.1, 0xFF) else (top.1 / 256, top.1 % 256)
      some (ceilDiv (w * rw) free + ceilDiv (c.chainTime q k) len + 1, at_.1, at_.2)

/-- T_step, saturated where no schedule exists. -/
def Ctl.stepNs (c : Ctl) (q : Check) (k : Coll) : Nat :=
  match c.stepCourses q k with
  | some (n, _, _) => n * q.geom.courseNs
  | none => 2 ^ 64 - 1

/-- The largest element count that meets the deadline, by bisection between a count that does (or 0) and one that does not. -/
def Ctl.bisect (c : Ctl) (q : Check) (k : Coll) : Nat → Nat → Nat → Nat
  | 0, lo, _ => lo
  | fuel + 1, lo, hi =>
    if hi ≤ lo + 1 then lo
    else
      let m := (lo + hi) / 2
      if c.stepNs q { k with elements := m } ≤ k.deadline then c.bisect q k fuel m hi else c.bisect q k fuel lo m

/-- max_elements (R227): whole chunks. -/
def Ctl.maxElements (c : Ctl) (q : Check) (k : Coll) : Nat := c.bisect q k 33 0 (2 ^ 32)

/-- The figures of a collective. -/
def Ctl.figure (c : Ctl) (q : Check) (k : Coll) : Fig :=
  match c.stepCourses q k with
  | some (n, fid, bond) =>
    { plan := k.compiled, cause := k.cause, courses := n, stepNs := n * q.geom.courseNs, maxElements := c.maxElements q k, fid := fid,
      bond := bond }
  | none => { plan := k.compiled, cause := k.cause, courses := 2 ^ 32, stepNs := 2 ^ 64, maxElements := 0, fid := 0x3FFFF, bond := 0xFF }

/-! ## The other deadlines (R223) -/

/-- The FAILURE bound for one failure, ns (R209, R223). -/
def Ctl.failBound (c : Ctl) : Nat := ceilDiv (2000000 * c.die.part.tiles) (max 1 c.usableTiles)

/-- Agents whose gauge the checks read: the members and the switches on the partition's paths. -/
def Ctl.gaugeAgents (c : Ctl) (q : Check) (ks : List Coll) : List Nat :=
  (q.members ++ ks.flatMap fun k => (c.loads q k).flatMap fun l => l.1.map (·.fid)).eraseDups

/-- g_a, UQ16.16. -/
def Ctl.gAgents (c : Ctl) (q : Check) (ks : List Coll) : Nat := maxL ((c.gaugeAgents q ks).map fun f => (c.gCore f).getD gaugeFull)

/-- Whether every corner that the checks need lies in its grid (R63, R223): the agent-core ones of the members and of the switches on the
paths, every one of those switches (R182), and the meter's. -/
def Ctl.cornersOk (c : Ctl) (q : Check) (ks : List Coll) : Bool :=
  (c.gaugeAgents q ks).all (fun f => (c.gCore f).isSome && (q.members.contains f || (c.gWorst f).isSome))
  && (!c.die.part.hasMeter || c.gMeter.isSome)

/-- T_react, T_batch and T_dump in ns. -/
def Ctl.reactBound (c : Ctl) (q : Check) (ks : List Coll) : Nat :=
  gaugeNs 40000 (c.gAgents q ks) + (q.net.plan.hop * 1250 + 256) + c.failBound + 5000000 + q.geom.courseNs
def Ctl.batchBound (c : Ctl) (n : Nat) : Nat := gaugeNs (160000000 + n * 6000) (c.gMeter.getD gaugeFull)
def dumpBound (ss : List Sample) : Nat := (16 + sumL (ss.map fun s => ceilDiv s.length 4096)) * 2000

/-! ## Deciding (R226) -/

/-- What a decision found: reason (0 for admitted), detail, the figures and the plan it carved. -/
structure Decision where
  reason : Nat
  detail : Nat
  figs : List Fig
  react : Nat
  batch : Nat
  dump : Nat
  plan : Option PartPlan
  deriving DecidableEq, Repr

/-- A refusal at steps 1 to 8: no figures. -/
def refuseEarly (code : Nat) : Decision := { reason := code, detail := 0xFF, figs := [], react := 0, batch := 0, dump := 0, plan := none }

/-- Steps 4 to 13 for a request under a tag; with `running` an admitted partition of that tag is checked again, as a COMPILE does on a
changed input (R229): its members, bound keys and slots are its own. -/
def Ctl.decideFrom (c : Ctl) (r : Request) (tag : Nat) (running : Option PartPlan) : Decision :=
  let n := c.net
  let others := c.others tag
  let g := c.geom.getD { slotCode := 1, countCode := 1, guard := 8 }
  let enc := bitOf r.flags 1
  let known (f : Nat) : Bool := n.agents.any fun a => a.fid = f && a.mode = 0
  let held (key use : Nat) : Bool := match running with
    | some p => c.keyBound key p.inst
    | none => c.keyHeld key use r.members
  if r.members.any fun f => !known f then refuseEarly 5
  else if r.members.any fun f => others.any fun p => p.members.contains f then refuseEarly 6
  else if (enc && !held r.trafficKey 0) || (!r.samples.isEmpty && !held r.dumpKey 1) then refuseEarly 7
  else
    let ks := selectPlans n others r.flags r.members r.colls
    let q : Check := { net := n, others := others, members := r.members, enc := b2n enc, widths := purlWidths ks, geom := g }
    let sws := ((ks.filter fun k => k.compiled = 1).flatMap (n.treeSwitches r.members)).eraseDups
    let at_ := r.members ++ sws
    let still (s : Nat) (fids : List Nat) : Option Nat := if s = 0xFF || !((fids.flatMap (slotsHeld others)).contains s) then some s else none
    let ts := match running with
      | some p => still p.trafficSlot at_
      | none => if enc then freeSlot others at_ else some 0xFF
    let ds := match running with
      | some p => still p.dumpSlot r.members
      | none => if r.samples.isEmpty then some 0xFF else freeSlot others at_ (if enc then ts.getD 0 + 1 else 0)
    let room := n.agents.all fun a => !(r.members.contains a.fid) || decide (sumL (r.samples.map (·.length)) ≤ c.dumpShare a)
    match ts, ds with
    | some ts, some ds =>
      if !room then refuseEarly 8
      else if !(c.cornersOk q ks) then refuseEarly 9
      else
        let figs := ks.map (c.figure q)
        let bad := (List.range ks.length).find? fun i => (figs.getD i { plan := 0, cause := 0, courses := 0, stepNs := 0, maxElements := 0, fid := 0, bond := 0 }).stepNs
          > ((ks[i]?).map (·.deadline)).getD 0
        let period := sumL (figs.map (·.courses))
        let react := c.reactBound q ks
        let batch := if c.die.part.hasMeter then c.batchBound (others.length + 1) else 0
        let dump := dumpBound r.samples
        let reason :=
          if bad.isSome then 0x0A
          else if period > 65536 then 0x0B
          else if r.reactionUs ≠ 0 ∧ react > r.reactionUs * 1000 then 0x0C
          else if c.die.part.hasMeter ∧ batch > 1000000 * c.meter.pattern.periodMs then 0x0D
          else if r.dumpUs ≠ 0 ∧ dump > r.dumpUs * 1000 then 0x0E
          else 0
        let done := (List.range ks.length).filterMap fun i => match ks[i]?, figs[i]? with
          | some k, some f => some { k with courses := f.courses, stepNs := f.stepNs }
          | _, _ => none
        let plan : PartPlan :=
          { tag := tag, requestId := r.id, inst := c.adm.inst + 1, flags := r.flags, members := r.members, switches := sws,
            samples := r.samples.map fun s => { s with partition := tag }, cgCount := r.cgCount, reactionUs := r.reactionUs,
            dumpUs := r.dumpUs, trafficKey := r.trafficKey, dumpKey := r.dumpKey, trafficSlot := ts, dumpSlot := ds, gen := 0,
            colls := done, period := max 1 period, runs := [], purls := [], phase := 0, replaces := r.replaceTag, activateCourse := 0,
            atRisk := [], reactNs := react, batchNs := batch, dumpNs := dump, activeNs := none }
        { reason := reason, detail := bad.getD 0xFF, figs := figs, react := react, batch := batch, dump := dump, plan := some plan }
    | _, _ => refuseEarly 8

/-- The whole decision (R226). -/
def Ctl.decide_ (c : Ctl) (b : Bytes) : Decision :=
  match requestOf b with
  | none => refuseEarly 1
  | some r =>
    if !r.fieldsOk then refuseEarly 1
    else if c.die.safe then refuseEarly 2
    else if r.replaceTag ≠ 0 then
      if c.adm.parts.any fun p => p.tag = r.replaceTag then c.decideFrom r r.replaceTag none else refuseEarly 4
    else match c.freeTag with
      | none => refuseEarly 3
      | some t => c.decideFrom r t none

end Sys2Proof.Machine
end

