-- ==== Sys2Proof/Machine/SolTask.lean ====
section
/-! DEFINITION. The tasks of the Solver Array (R189 to R209), the Shard Directory (R210 to R216), and what admission does around
its tasks (R217 to R232). A task's command is the task run whole (log entry 19). -/

namespace Sys2Proof.Machine

/-! ## The solver input and the task around its work (R192, R209, R215) -/

/-- A task is asked for once (R195). -/
def Ctl.ask (c : Ctl) (kind : Nat) : Ctl := { c with sol := { c.sol with others := c.sol.others.filter (· ≠ kind) ++ [kind] } }

/-- An event's bytes in the solver input. -/
def SolEvent.bytes : SolEvent → Bytes
  | .bondFailed f b x t => le 1 0 ++ le 4 f ++ le 1 b ++ le 4 x ++ le 8 t
  | .bondRestored f b => le 1 1 ++ le 4 f ++ le 1 b
  | .agentLost f => le 1 2 ++ le 4 f
  | .gaugeExceed f r => le 1 3 ++ le 4 f ++ le 1 r
  | .bondNarrowed f b => le 1 4 ++ le 4 f ++ le 1 b
  | .purlFenced f l => le 1 5 ++ le 4 f ++ le 2 (l.getD 0xFFFF)

/-- The admitted partitions in the order of their tags, which every computation follows (R193). -/
def Ctl.byTag (c : Ctl) : List PartPlan := c.adm.parts.mergeSort fun x y => x.tag ≤ y.tag

/-- An agent in the solver input: FID, coordinates, mode and capabilities, and what else of it decides a result. -/
def AgentRec.inputBytes (a : AgentRec) : Bytes :=
  le 4 a.fid ++ le 2 a.rack ++ le 1 a.slot ++ le 1 a.plane ++ le 1 a.mode ++ le 8 a.cap ++ le 1 (b2n a.purl) ++ le 1 (b2n a.purlFenced)
  ++ le 1 a.window ++ le 1 a.hold ++ le 2 a.lanes ++ le 2 a.fencedLanes.length ++ a.fencedLanes.flatMap (le 2) ++ le 1 (b2n a.castOn)

/-- A bond in the solver input: its far end, reach class, active lanes, d, w and a, and its state. -/
def SolBond.inputBytes (b : SolBond) : Bytes :=
  le 4 b.fid ++ le 1 b.bond ++ le 4 b.farFid ++ le 1 b.farBond ++ le 1 b.reach ++ le 22 b.lanes ++ le 1 b.active ++ le 8 b.d
  ++ le 4 (toTwos 32 b.w) ++ le 4 (toTwos 32 b.asym) ++ le 1 (b2n b.down) ++ le 1 (b2n b.quarantined)

/-- A collective in the solver input: as requested and as compiled. -/
def Coll.inputBytes (k : Coll) : Bytes :=
  le 4 k.id ++ le 1 k.plan ++ le 1 k.op ++ le 1 k.inFmt ++ le 1 k.outFmt ++ le 1 k.rounding ++ le 1 k.overflow ++ le 4 k.divisor
  ++ le 8 k.seed ++ le 4 k.elements ++ le 4 k.root ++ le 4 k.turn ++ le 8 k.deadline ++ le 1 k.compiled ++ le 1 k.cause ++ le 4 k.courses
  ++ le 8 k.stepNs

/-- A partition in the solver input: its members, policy and admitted plan, its collectives in the order of their ids. -/
def PartPlan.inputBytes (p : PartPlan) : Bytes :=
  le 2 p.tag ++ le 4 p.inst ++ le 1 p.phase ++ le 2 p.flags ++ le 4 p.gen ++ le 4 p.members.length ++ p.members.flatMap (le 4)
  ++ le 4 p.cgCount ++ le 4 p.reactionUs ++ le 4 p.dumpUs ++ le 2 p.trafficSlot ++ le 2 p.dumpSlot ++ le 16 p.trafficKey ++ le 16 p.dumpKey
  ++ le 4 p.period ++ (p.samples.flatMap sampleBytes) ++ (p.colls.mergeSort fun x y => x.id ≤ y.id).flatMap Coll.inputBytes
  ++ p.runs.flatMap fun r => le 4 r.fid ++ courseBytes r.ent ++ le 2 r.slots

/-- A free entry, as an index that was never written reads. -/
def Shard.free : Shard :=
  { model := 0, granule := 0, partition := 0, replicas := 0, state := 0, gen := 0, holders := [0x3FFFF, 0x3FFFF, 0x3FFFF, 0x3FFFF],
    offset := 0, length := 0, target := 0x3FFFF, digest := 0, source := 0x3FFFF, lostHolder := 0x3FFFF }

/-- A Shard Directory entry's 64 bytes (R210). -/
def Shard.bytes (s : Shard) : Bytes :=
  le 4 s.model ++ le 4 s.granule ++ le 2 s.partition ++ le 1 s.replicas ++ le 1 s.state ++ le 4 s.gen
  ++ slice (s.holders.flatMap (le 4)) 0 16 ++ le 8 s.offset ++ le 4 s.length ++ le 4 s.target ++ le 16 s.digest

/-- The solver input as bytes, in the order of R192 (log entry 19). -/
def Ctl.inputBytes (c : Ctl) : Bytes :=
  let digest := digestBytes ((c.base.map headerDigest).getD 0)
  let bonds := c.sol.bonds.mergeSort fun x y => x.fid < y.fid || (x.fid = y.fid && decide (x.bond ≤ y.bond))
  let events := c.sol.failures ++ c.sol.restored.map fun r => SolEvent.bondRestored r.1 r.2
  digest ++ (c.liveAgents.mergeSort fun x y => x.fid ≤ y.fid).flatMap AgentRec.inputBytes ++ bonds.flatMap SolBond.inputBytes
  ++ (c.tel.regions.flatMap fun p => le 4 p.1 ++ le 4 p.2.bound) ++ c.byTag.flatMap PartPlan.inputBytes
  ++ (c.shards.flatMap fun p => le 4 p.1 ++ p.2.bytes) ++ events.flatMap SolEvent.bytes ++ c.sol.others.flatMap (le 1)
  ++ (c.sol.lostHolders.flatMap fun l => le 4 l.1 ++ le 2 (l.2.getD 0xFFFF)) ++ c.adm.releases.flatMap (le 2)

/-- The bound of a task in µs with every tile usable (R209, R226), n being the failures taken; 0 where R209 gives none. -/
def taskBound (part : Part) (kind n : Nat) : Nat :=
  let pick (a b c : Nat) : Nat := match part with
    | .pln9320 => b
    | .pln9210 => c
    | _ => a
  match kind with
  | 1 => pick 40000 54000 80000
  | 2 => 2000 + (n - 1) * pick 500 700 1000
  | 3 => pick 50000 67000 100000
  | 4 => pick 500000 667000 1000000
  | 6 => pick 8000 11000 16000
  | 7 => 1000
  | _ => 0

/-- The work of a task between its start, where the input's generation and digest are taken, and its end, which counts it and
notes its duration, an open value. -/
def Ctl.task (c : Ctl) (kind n : Nat) (work : Ctl → Ctl) : Ctl :=
  let gen := c.sol.gen
  let digest := Config.shake256 c.inputBytes
  let c := work { c with sol := { c.sol with taskGen := some gen } }
  let c : Ctl := { c with sol := { c.sol with taskGen := none } }
  let (w, d) := c.die.freeVal
  let us := w.toNat
  let d := (List.range 8).foldl (fun (d : Die) i => d.setN (Reg.SOL_INPUT_DIGEST0 + 8 * i) (fieldAt (digestBytes digest) (8 * i) 8)) d
  let d := d.setN Reg.SOL_GEN gen
  let d := d.setN Reg.SOL_LAST (satU 32 us + kind * 2 ^ 32)
  let d := d.count Reg.SOL_CNT_TASKS
  let bound := taskBound d.part kind n
  let d := if bound ≠ 0 ∧ us * max 1 c.usableTiles > bound * d.part.tiles then d.count Reg.SOL_CNT_OVERRUN else d
  { c with die := d }

/-! ## Failures marked in the input (R197 step 1) -/

/-- Whether an end belongs to a bond given by one of its ends. -/
def SolBond.is (b : SolBond) (fid bond : Nat) : Bool := (b.fid = fid && b.bond = bond) || (b.farFid = fid && b.farBond = bond)

/-- Mark an agent as lost: every bond to it is down, and its holdings go (R322, R211). -/
def Ctl.loseAgent (c : Ctl) (fid : Nat) : Ctl :=
  let bs := c.sol.bonds.map fun b => if b.fid = fid ∨ b.farFid = fid then { b with down := true } else b
  ({ c with sol := { c.sol with bonds := bs, lostHolders := c.sol.lostHolders ++ [(fid, none)] } } : Ctl).modAgent fid fun a => { a with lost := true }

/-- Take one event into the input. -/
def Ctl.markEvent (c : Ctl) : SolEvent → Ctl
  | .bondFailed fid bond _ _ =>
    { c with sol := { c.sol with bonds := c.sol.bonds.map fun b => if SolBond.is b fid bond then { b with down := true } else b } }
  | .bondRestored fid bond =>
    let ends := c.sol.bonds.filter fun b => SolBond.is b fid bond
    let back (f : Nat) : Bool := ends.any fun b => b.fid = f || b.farFid = f
    -- an agent that a bond reaches again is lost no more (R322)
    { c with sol := { c.sol with bonds := c.sol.bonds.map fun b => if SolBond.is b fid bond then { b with down := false } else b },
             cst := { c.cst with agents := c.cst.agents.map fun p => if back p.2.fid then (p.1, { p.2 with lost := false }) else p } }
  | .agentLost fid => c.loseAgent fid
  | .gaugeExceed _ _ => c
  | .bondNarrowed fid bond =>
    -- the other end carries no more lanes than this one
    let width := ((c.sol.bonds.find? fun b => b.fid = fid && b.bond = bond).map (·.active)).getD 0
    { c with sol := { c.sol with bonds := c.sol.bonds.map fun b =>
        if b.farFid = fid ∧ b.farBond = bond then { b with active := min b.active width } else b } }
  | .purlFenced fid none => c.modAgent fid fun a => { a with purlFenced := true }
  | .purlFenced fid (some l) => c.modAgent fid fun a => { a with fencedLanes := if a.fencedLanes.contains l then a.fencedLanes else a.fencedLanes ++ [l] }

/-- Agents every bond of which has failed are lost (R322). -/
def Ctl.markIsolated (c : Ctl) : Ctl :=
  c.liveAgents.foldl (fun c a =>
    let mine := c.sol.bonds.filter fun b => b.fid = a.fid
    if !mine.isEmpty && mine.all (·.down) && a.fid ≠ c.embFid then c.loseAgent a.fid else c) c

/-- Mark what waits, restored bonds too, and take it off the queue. -/
def Ctl.takeFailures (c : Ctl) : Ctl :=
  let evs := c.sol.failures ++ c.sol.restored.map fun r => SolEvent.bondRestored r.1 r.2
  let c := (evs.foldl Ctl.markEvent c).markIsolated
  ({ c with sol := { c.sol with failures := [], restored := [], restoredNs := none } } : Ctl).changed

/-! ## Compiling (R207, R208, R225, R257) -/

/-- The parent bond that the ACCUMULATE entry of a transfer's receiver names (R247, R256): 0xFF at the root and for a result. -/
def Check.parentBond (q : Check) (k : Coll) (x : Xfer) : Nat :=
  if k.compiled ≠ 1 ∨ x.result then 0xFF
  else
    let t := q.net.treeOf q.members x.chunk
    let rack := ((q.net.agents.find? fun a => a.fid = x.dst).map (·.rack)).getD 0
    match (t.racks.find? fun r => r.1 = rack).bind (·.2) with
    | some par => ((q.net.at_ par (64 + t.plane)).bind fun a => q.net.bondTo x.dst a.fid).getD 0xFF
    | none => 0xFF

/-- What a transfer of the i-th Purl collective brings to its assignment. -/
def Ctl.slotting (c : Ctl) (q : Check) (tag period base i : Nat) (k : Coll) (x : Xfer) : Slotting :=
  { period := period, base := base, courses := k.courses, coll := k.id, tag := tag, parent := q.parentBond k x,
    work := if x.work = 0 then 0 else workOf ((c.gPurl x.dst).getD gaugeFull) x.work (q.lanes x.dst),
    pacc := match x.after with
      | some f => c.pacc q k f x.rounded
      | none => 0,
    slots := (q.share x.dst i).2.2.2 / (48 * k.width) }

/-- Assign one collective from a base course, the i-th of those on Purl: the slate with all its runs, or the best slack of the first
transfer that fits nowhere (R207, R208). -/
def Ctl.assignColl (c : Ctl) (q : Check) (tag period base i : Nat) (k : Coll) (s : Slate) : Except Nat Slate :=
  (c.xfers q.net k q.members q.enc).foldl (fun st x => match st with
    | .error slack => .error slack
    | .ok s =>
      let l := c.slotting q tag period base i k x
      match s.assign q.net q.geom l x with
      | some s' => .ok s'
      | none => .error (l.bestSlack q.net q.geom x)) (.ok s)

/-- The PURL entries of a compiled Purl collective, the i-th of its partition (R257). -/
def Ctl.purlEnts (q : Check) (tag i : Nat) (k : Coll) : List (Nat × PurlEnt) :=
  if k.compiled ≠ 1 then []
  else (q.net.treeSwitches q.members k).map fun f =>
    let (lb, ln, so, sb) := q.share f i
    (f, { collective := k.id, partition := tag, op := k.op, inFmt := k.inFmt, outFmt := k.outFmt, rounding := k.rounding,
          overflow := k.overflow, divisor := k.divisor, seed := k.seed, elements := k.elements, fanIn := q.members.length, laneBase := lb,
          laneCount := ln, storeOffset := so, storeBytes := sb })

/-- What the compile of a partition reads. -/
def Ctl.checkOf (c : Ctl) (p : PartPlan) (ks : List Coll) : Check :=
  { net := c.net, others := c.others p.tag, members := p.members, enc := b2n (bitOf p.flags 1), widths := purlWidths ks,
    geom := c.geom.getD { slotCode := 1, countCode := 1, guard := 8 } }

/-- What a compile has made so far: the slate, the next collective's base course, the Purl collectives passed, the collectives that fit
nowhere, and the best slack of the first of them. -/
structure Compiled where
  slate : Slate
  base : Nat
  purl : Nat
  failed : List Nat
  slack : Option Nat
  deriving DecidableEq, Repr

/-- Compile a partition: its collectives occupy consecutive course ranges; a collective that fits nowhere has no runs and is
answered by its index, and a Purl one whose traffic slot another partition holds at a tree switch fits nowhere (R219). The switches of
its trees are those of the fabric as it is now. -/
def Ctl.compile (c : Ctl) (p : PartPlan) : PartPlan × Compiled :=
  let q := c.checkOf p p.colls
  let others := q.others.flatMap fun o => o.runs.map fun r => (o.period, r)
  let start : Compiled := { slate := { runs := [], others := others, work := [], ends := [] }, base := 0, purl := 0, failed := [], slack := none }
  let taken (k : Coll) : Bool := k.compiled = 1 && q.enc = 1
    && (q.net.treeSwitches q.members k).any fun f => (slotsHeld q.others f).contains p.trafficSlot
  let out := (List.range p.colls.length).foldl (fun (st : Compiled) i =>
    match p.colls[i]? with
    | none => st
    | some k =>
      let next : Compiled := { st with base := st.base + k.courses, purl := st.purl + b2n (k.compiled = 1) }
      match if taken k then .error 0 else c.assignColl q p.tag p.period st.base st.purl k st.slate with
      | .ok s => { next with slate := s }
      | .error slack => { next with failed := st.failed ++ [i], slack := some (st.slack.getD slack) }) start
  let pk := p.colls.filter fun k => k.compiled = 1
  let purls := (List.range pk.length).flatMap fun i => match pk[i]? with
    | some k => Ctl.purlEnts q p.tag i k
    | none => []
  ({ p with runs := out.slate.runs, purls := purls, switches := (pk.flatMap (q.net.treeSwitches q.members)).eraseDups }, out)

/-! ## Deadlines while a partition runs (R230) -/

/-- A partition's request as it was admitted. -/
def PartPlan.request (p : PartPlan) : Request :=
  { id := p.requestId, replaceTag := p.replaces, flags := p.flags, cgCount := p.cgCount, reactionUs := p.reactionUs, dumpUs := p.dumpUs,
    trafficKey := p.trafficKey, dumpKey := p.dumpKey, colls := p.colls, samples := p.samples, members := p.members, reserved := true }

/-- One deadline checked: code, collective id and index, admitted and current figure, and whether it is met. -/
structure Met where
  code : Nat
  coll : Nat
  index : Nat
  admitted : Nat
  current : Nat
  ok : Bool
  deriving DecidableEq, Repr

/-- The notice of R230 to the members. -/
def Ctl.riskNotice (c : Ctl) (p : PartPlan) (m : Met) (cause code : Nat) : Ctl :=
  c.notify p.members code p.tag (le 2 p.tag ++ le 1 m.code ++ le 1 cause ++ le 4 m.coll ++ le 8 (satU 64 m.admitted) ++ le 8 (satU 64 m.current))

/-- A deadline's state has been found: a record and a notice where it changed, with the figures of this check (R228, R230). -/
def Ctl.risk (c : Ctl) (p : PartPlan) (figs : List Fig) (now : Nat × Nat × Nat) (m : Met) (cause : Nat) : Ctl :=
  let key := m.code * 2 ^ 8 + m.index
  let was := p.atRisk.contains key
  if was = !m.ok then c
  else
    let rec_ (kind : Nat) : Reply :=
      { kind := kind, result := 0, reason := m.code, detail := if m.code = 0x0A then m.index else 0xFF, requestId := p.requestId,
        tag := p.tag, course := 0, reactUs := ceilDiv now.1 1000, batchUs := ceilDiv now.2.1 1000, dumpUs := ceilDiv now.2.2 1000,
        figs := figs }
    let put (l : List Nat) : Ctl := { c with adm := { c.adm with parts := c.adm.parts.map fun x =>
      if x.tag = p.tag ∧ x.inst = p.inst then { x with atRisk := l } else x } }
    if m.ok then ((put (p.atRisk.filter (· ≠ key))).reply (rec_ 5)).riskNotice p m cause 6
    else (((put (p.atRisk ++ [key])).onDie (·.count Reg.ADM_CNT_AT_RISK)).reply (rec_ 4)).riskNotice p m cause 5

/-- Whether a collective moves anything. -/
def Coll.moves (k : Coll) (members : List Nat) : Bool := k.compiled = 1 || !(k.edges members).isEmpty

/-- Whether a PURL entry uses an engine or a lane that is fenced (R236). -/
def Ctl.purlLost (c : Ctl) (fid : Nat) (e : PurlEnt) : Bool := match tget c.cst.agents fid with
  | some a => a.purlFenced || a.fencedLanes.any e.hasLane
  | none => false

/-- Whether the schedule of a running partition's collective no longer holds: a run on a link that is gone or at an agent that may carry
none (R176, R182), a bond narrower than compiled (R30), a path that fails R183 with the delays now reported (R185, R194), a fenced Purl
lane or engine (R236), or no runs at all. -/
def Ctl.collBroken (c : Ctl) (n : Net) (narrowed : List (Nat × Nat)) (p : PartPlan) (k : Coll) : Bool :=
  let g := c.geom.getD { slotCode := 1, countCode := 1, guard := 8 }
  let rs := p.runs.filter fun r => r.ent.collective = k.id
  let paths := ((rs.map (·.path)).eraseDups).map fun i => rs.filter fun r => r.path = i
  (rs.isEmpty && k.moves p.members)
  || rs.any (fun r =>
    (r.ent.outBond ≠ 0xFF && r.ent.action ≠ 4 && (n.end_ r.fid r.ent.outBond).isNone)
    || (r.ent.inBond ≠ 0xFF && (n.end_ r.fid r.ent.inBond).isNone)
    || !(c.carries r.fid r.ent.action)
    || narrowed.any (fun x => x = (r.fid, r.ent.outBond) || x = (r.fid, r.ent.inBond)))
  || paths.any (fun rs => !(n.pathMeets g rs))
  || p.purls.any fun e => e.2.collective = k.id && c.purlLost e.1 e.2

/-- Re-check a partition's deadlines with the net, gauges and delays as they are: a collective whose schedule does not hold has none. -/
def Ctl.recheck (c : Ctl) (tag cause : Nat) : Ctl :=
  match c.adm.parts.find? fun p => p.tag = tag && p.phase = 1 with
  | none => c
  | some p =>
    let q := c.checkOf p p.colls
    let figs := p.colls.map (c.figure q)
    let steps : List Met := (List.range p.colls.length).filterMap fun i => match p.colls[i]?, figs[i]? with
      | some k, some f =>
        let cur := if c.collBroken q.net [] p k then 2 ^ 64 else f.stepNs
        some { code := 0x0A, coll := k.id, index := i, admitted := k.stepNs, current := cur, ok := decide (cur ≤ k.deadline) }
      | _, _ => none
    let react := c.reactBound q p.colls
    let batch := c.batchBound (c.adm.parts.filter fun x => x.phase = 1).length
    let dump := dumpBound p.samples
    let rest : List Met :=
      [{ code := 0x0C, coll := 0, index := 0, admitted := p.reactNs, current := react,
         ok := p.reactionUs = 0 || decide (react ≤ p.reactionUs * 1000) },
       { code := 0x0D, coll := 0, index := 0, admitted := p.batchNs, current := batch,
         ok := !c.die.part.hasMeter || decide (batch ≤ 1000000 * c.meter.pattern.periodMs) },
       { code := 0x0E, coll := 0, index := 0, admitted := p.dumpNs, current := dump,
         ok := p.dumpUs = 0 || decide (dump ≤ p.dumpUs * 1000) }]
    (steps ++ rest).foldl (fun c m =>
      match c.adm.parts.find? fun x => x.tag = tag && x.inst = p.inst with
      | some x => c.risk x figs (react, batch, dump) m cause
      | none => c) c

/-- Re-check every partition that a condition picks, in the order of their tags (R193). -/
def Ctl.recheckAll (c : Ctl) (cause : Nat) (which : PartPlan → Bool := fun _ => true) : Ctl :=
  (c.byTag.filter fun p => p.phase = 1 && which p).foldl (fun c p => c.recheck p.tag cause) c

/-- Whether a running partition's schedule is broken. -/
def Ctl.broken (c : Ctl) (n : Net) (narrowed : List (Nat × Nat)) (p : PartPlan) : Bool := p.colls.any (c.collBroken n narrowed p)

/-- A running partition before it is compiled again: a Purl collective whose trees lost what R222 asks for falls back to the ring
(R236), and each collective gets the courses that the fabric now asks of it, as far as the period stays within its limit (R230). -/
def Ctl.refit (c : Ctl) (p : PartPlan) : PartPlan :=
  let n := c.net
  let again := selectPlans n (c.others p.tag) p.flags p.members (p.colls.map fun k => if k.compiled = 1 then k else { k with plan := k.compiled })
  let ks := p.colls.map fun k => match again.find? fun x => x.id = k.id with
    | some x => if k.compiled = 1 then { k with compiled := x.compiled, cause := x.cause } else k
    | none => k
  let q := c.checkOf p ks
  let fitted := ks.map fun k => match c.stepCourses q k with
    | some (m, _, _) => { k with courses := m }
    | none => k
  let ks := if sumL (fitted.map (·.courses)) ≤ 65536 then fitted else ks
  { p with colls := ks, period := max 1 (sumL (ks.map (·.courses))) }

/-- Recompile partitions of a list in the order of their tags, and keep the rest. -/
def Ctl.recompile (c : Ctl) (which : PartPlan → Bool) : Ctl :=
  c.byTag.foldl (fun (c : Ctl) p =>
    if p.phase = 1 && which p then
      let p' := (c.compile (c.refit p)).1
      { c with adm := { c.adm with parts := c.adm.parts.map fun x => if x.tag = p.tag ∧ x.inst = p.inst then p' else x } }
    else c) c

/-! ## Plumb tree (R163, R176) -/

/-- The calibrated w and u_w of a bond's end (R172): the table's entry for it, or the negative w of the entry for the other end. -/
def Ctl.calibOf (c : Ctl) (b : SolBond) : Option (Int × Nat) :=
  match c.flash.calib.find? fun x => x.1 = b.fid && x.2.1 = b.bond with
  | some (_, _, w, u) => some (w, u)
  | none => (c.flash.calib.find? fun x => x.1 = b.farFid && x.2.1 = b.farBond).map fun x => (-x.2.2.1, x.2.2.2)

/-- u_a of a link: two host skews and the wire's, calibrated or by class, ps (R176). -/
def Ctl.linkUa (c : Ctl) (b : SolBond) : Nat := 20 + ((c.calibOf b).map (·.2)).getD (defaultUw b.reach)

/-- The bound of a link at its follower, with that agent's window (R176). -/
def Ctl.linkBound (c : Ctl) (b : SolBond) : Nat :=
  ((tget c.cst.agents b.fid).map (·.window)).getD 0x20 + 20 + ceilDiv (c.linkUa b) 2

/-- Smallest bounds from the root: an agent's bound, and the bond it takes it by. -/
def Ctl.boundsFrom (c : Ctl) (links : List SolBond) : Nat → Tbl (Nat × Nat) → Tbl (Nat × Nat)
  | 0, t => t
  | n + 1, t =>
    let cand := links.filterMap fun b => match tget t b.farFid with
      | some (far, _) => if (tget t b.fid).isNone then some (far + c.linkBound b, b.farFid, b) else none
      | none => none
    match cand with
    | [] => t
    | x :: rest =>
      let best := rest.foldl (fun (m : Nat × Nat × SolBond) y => if y.1 < m.1 ∨ (y.1 = m.1 ∧ y.2.1 < m.2.1) then y else m) x
      c.boundsFrom links n (tset t best.2.2.fid (best.1, best.2.2.bond))

/-- Whether an agent's chain passes through another. -/
def chainThrough (links : List SolBond) (t : Tbl (Nat × Nat)) (x : Nat) : Nat → Nat → Bool
  | 0, _ => true
  | fuel + 1, f =>
    if f = x then true
    else match tget t f with
      | some (_, b) => match links.find? fun l => l.fid = f && l.bond = b with
        | some l => chainThrough links t x fuel l.farFid
        | none => false
      | none => false

/-- Send a MGMT_OP request (R470). -/
def Ctl.sendMgmt (c : Ctl) (fid : Nat) (request : Bytes) : Ctl :=
  c.sendOp (if fid = c.embFid then some (fid, 0xFD) else none) fid 0x85 (c.die.part.blockIndex Blk.MBX) [] request

/-- The controller's own management operation: access entries, each a write or a read of a register with a value (R470). -/
def Ctl.mgmtOps (c : Ctl) (fid about : Nat) (ents : List (Bool × Nat × Nat)) : Ctl :=
  let offOf (key : Nat) : Nat := indexIn twidelBlocks (key / 0x10000) * 0x10000 + key % 0x10000
  let hdr := le 4 c.nextOp ++ le 1 ents.length ++ le 1 0 ++ le 10 0
  let op : Rmt := { soft := false, about := about, fid := fid, addr := 0, opId := c.nextOp, attempts := 1, startNs := c.die.up,
                    reads := ents.all fun e => !e.1,
                    request := hdr ++ ents.flatMap fun e => le 4 (offOf e.2.1) ++ le 1 (b2n e.1) ++ le 1 0 ++ le 2 0 ++ le 8 e.2.2 }
  ({ c with nextOp := c.nextOp + 1, ops := c.ops ++ [op] } : Ctl).sendMgmt fid op.request

/-- Write registers of an agent by a management operation (R163, R470). -/
def Ctl.mgmtWrite (c : Ctl) (fid : Nat) (writes : List (Nat × Nat)) : Ctl := c.mgmtOps fid 0 (writes.map fun w => (true, w))

/-- Read at an agent what is active and what is staged there (R94, R306, R348). -/
def Ctl.readActive (c : Ctl) (fid : Nat) : Ctl :=
  c.mgmtOps fid 0 ((((List.range 8).map fun i => Reg.PAT_ACTIVE_DIGEST0 + 8 * i) ++ [Reg.PAT_ACTIVE_EPOCH, Reg.PAT_STAGED_COURSE]).map
    fun key => (false, key, 0))

/-- Read an agent's capabilities, its follower's window and hold limit, and its Purl lanes (R176, R192, R233; log entry 67). -/
def Ctl.readFigures (c : Ctl) (fid : Nat) : Ctl :=
  c.mgmtOps fid 1 ([Reg.AGT_CAP, Reg.PLB_WINDOW, Reg.PRL_LANES].map fun key => (false, key, 0))

/-- Read the delay, offset, asymmetry and state of an agent's links (R173, R185, R192), 12 links an operation; `about` 3 after a drift
(log entry 67). -/
def Ctl.readLinks (c : Ctl) (fid about : Nat) : Ctl :=
  let mine := c.sol.bonds.filter fun b => b.fid = fid
  (List.range (ceilDiv mine.length 12)).foldl (fun c i =>
    c.mgmtOps fid about ([(false, Reg.PLB_HOST_SKEW0, 0), (false, Reg.PLB_HOST_SKEW1, 0)]
      ++ ((mine.drop (12 * i)).take 12).flatMap fun b =>
        (true, Reg.PLB_LINK_SEL, b.bond) :: [Reg.PLB_LINK_DELAY, Reg.PLB_LINK_THETA, Reg.PLB_LINK_ASYM, Reg.PLB_LINK_STATE].map
          fun key => (false, key, 0))) c

/-- The status and the value of an access entry of an operation's bytes (R456). -/
def opStatus (p : Bytes) (i : Nat) : Nat := byteAt p (21 + 16 * i)
def opValue (p : Bytes) (i : Nat) : Nat := fieldAt p (24 + 16 * i) 8

/-- What a read of an agent's figures brings. -/
def Ctl.tookFigures (c : Ctl) (fid : Nat) (p : Bytes) : Ctl :=
  let got (i : Nat) : Option Nat := if opStatus p i = 0 then some (opValue p i) else none
  match tget c.cst.agents fid with
  | none => c
  | some a =>
    let a' : AgentRec := match got 0 with
      | some v => { a with cap := v, purl := bitOf v 0 }
      | none => a
    let a' : AgentRec := match got 1 with
      | some v => { a' with window := bitsOf v 7 0, hold := bitsOf v 15 8 }
      | none => a'
    let a' : AgentRec := match got 2 with
      | some v => if a'.purl then { a' with lanes := bitsOf v 9 0 } else a'
      | none => a'
    if a' = a then c else (c.modAgent fid fun _ => a').changed

/-- A link's report: d, w, a and θ from the values read; none while its exchange is not VALID (R171). -/
def SolBond.report (b : SolBond) (skews : Nat × Nat) (delay theta asym state : Nat) : SolBond :=
  if state % 4 ≠ 2 then b
  else
    let word := if b.reach < 2 then skews.1 else skews.2
    let own := ofTwos 32 (word / 2 ^ (32 * (b.reach % 2)) % 2 ^ 32)
    let w := ofTwos 32 (asym % 2 ^ 32)
    { b with d := delay % 2 ^ 48, w := w, asym := satS 32 (own - ofTwos 32 (state / 2 ^ 32 % 2 ^ 32) + w), theta := some (ofTwos 64 theta) }

/-- What a read of an agent's links brings into the solver input (R192). -/
def Ctl.tookLinks (c : Ctl) (fid : Nat) (request p : Bytes) : Ctl :=
  let n := (byteAt request 4 - 2) / 5
  let ok := (List.range (2 + 5 * n)).all fun i => opStatus p i = 0
  let at_ (b : SolBond) : Option Nat := ((List.range n).find? fun k => b.fid = fid && b.bond = opValue request (2 + 5 * k)).map fun k => 2 + 5 * k
  let take (b : SolBond) : SolBond := match at_ b with
    | some i => b.report (opValue p 0, opValue p 1) (opValue p (i + 1)) (opValue p (i + 2)) (opValue p (i + 3)) (opValue p (i + 4))
    | none => b
  let bonds := c.sol.bonds.map take
  if !ok ∨ bonds = c.sol.bonds then c else ({ c with sol := { c.sol with bonds := bonds } } : Ctl).changed

/-- Install the calibrated asymmetry of an agent's links in place of the defaults (R163, R172). -/
def Ctl.installAsym (c : Ctl) (fid : Nat) : Ctl :=
  (c.sol.bonds.filter fun b => b.fid = fid).foldl (fun (c : Ctl) b => match c.calibOf b with
    | some (w, u) => c.mgmtWrite fid [(Reg.PLB_LINK_SEL, b.bond), (Reg.PLB_LINK_ASYM, toTwos 32 w + u % 2 ^ 16 * 2 ^ 32)]
    | none => c) c

/-- What such a read brings: the digest and the active epoch of the agent; the next install keeps the drain bound's distance from the
staged course (R348). -/
def Ctl.tookActive (c : Ctl) (fid : Nat) (p : Bytes) : Ctl :=
  let value (i : Nat) : Nat := fieldAt p (24 + 16 * i) 8
  if byteAt p 4 ≠ 10 ∨ (List.range 10).any (fun i => byteAt p (21 + 16 * i) ≠ 0) then c
  else
    let c := c.modAgent fid fun a => { a with digest := value 0 + value 1 * 2 ^ 64, epoch := value 8 }
    { c with sol := { c.sol with lastInstall := max c.sol.lastInstall (value 9 * c.courseNs) } }

/-- The agents that the checks of R182, R223 and R258 concern: those whose gauge an admitted partition's checks read. -/
def Ctl.concerned (c : Ctl) : List Nat :=
  (c.adm.parts.flatMap fun p => c.gaugeAgents (c.checkOf p p.colls) p.colls).eraseDups

/-- Write the core-voltage floors after a check (R543): the lowest voltage at which the checks pass follows from temperatures that no
message carries, so it is a free value of 600 to 800 mV (log entry 35); 600 where no check concerns the agent any more. -/
def Ctl.writeFloors (c : Ctl) : Ctl :=
  let now := c.concerned
  let gone := c.sol.floors.filter fun f => !(now.contains f)
  let c := now.foldl (fun (c : Ctl) f =>
    let (v, d) := c.die.freeVal
    ({ c with die := d } : Ctl).mgmtWrite f [(Reg.AGT_VCORE, 600 + v.toNat % 201)]) c
  let c := gone.foldl (fun (c : Ctl) f => c.mgmtWrite f [(Reg.AGT_VCORE, 600)]) c
  { c with sol := { c.sol with floors := now } }

/-- The link end of an agent toward another. -/
def Net.endTo (n : Net) (fid far : Nat) : Option SolBond := n.links.find? fun b => b.fid = fid && b.farFid = far

/-- The links around a cycle of agents in the order of its traversal, each at the end it leaves by; none where one is missing. -/
def Net.cycle (n : Net) (fids : List Nat) : Option (List SolBond) :=
  (fids.zip (fids.drop 1 ++ fids.take 1)).mapM fun e => n.endTo e.1 e.2

/-- The cycles that R173 sums: the 4-cycles of one plane between racks, each from its lowest rack and its lower dimension, and the
endpoint–switch–endpoint–switch cycles within a rack. -/
def Net.cycles (n : Net) : List (List SolBond) :=
  let v := n.plan.variant
  let sw (p r : Nat) : Nat := ((n.at_ r (64 + p)).map (·.fid)).getD 0x3FFFF
  let squares := (List.range n.plan.planes).flatMap fun p => n.plan.populated.flatMap fun r =>
    (List.range 11).flatMap fun d => (List.range d).filterMap fun e =>
      let x := neighbour v e r
      let y := neighbour v d x
      let z := neighbour v e y
      if neighbour v d z = r ∧ r < x ∧ r < y ∧ r < z then n.cycle [sw p r, sw p x, sw p y, sw p z] else none
  let inner := n.plan.populated.flatMap fun r =>
    let es := n.agents.filter fun a => a.rack = r && a.mode = 0
    es.flatMap fun a => (es.filter fun b => a.fid < b.fid).flatMap fun b =>
      (List.range n.plan.planes).flatMap fun p => (List.range p).filterMap fun q => n.cycle [a.fid, sw q r, b.fid, sw p r]
  squares ++ inner

/-- Whether the reported offsets around a cycle sum to more than the sum of 16 ps + u_a/2 over its links (R173), in units of 2^-17 ns
against ps; a cycle with a link not reported yet is not judged. -/
def Ctl.residual (c : Ctl) (ls : List SolBond) : Bool :=
  let sum := ls.foldl (fun (s : Int) b => s + b.theta.getD 0) 0
  ls.all (·.theta.isSome) && decide (2000 * sum.natAbs > 2 ^ 17 * sumL (ls.map fun b => 32 + c.linkUa b))

/-- PLUMB_LOOP_RESIDUAL for each cycle whose offsets do not close (R173); the event names the cycle by its place in the order of
Net.cycles (log entry 53). -/
def Ctl.checkLoops (c : Ctl) : Ctl :=
  let cs := c.net.cycles
  (List.range cs.length).foldl (fun (c : Ctl) i => if c.residual (cs.getD i []) then c.raise Ev.PLUMB_LOOP_RESIDUAL (i % 2 ^ 16) else c) c

/-- Compute the plumb tree and write PLB_PARENT, PLB_BOUND and the calibrated PLB_LINK_ASYM at every agent. -/
def Ctl.plumbTree (c : Ctl) : Ctl :=
  let c := c.checkLoops
  let n := c.net
  let root := c.embFid
  let t := c.boundsFrom n.links (n.agents.length + 1) [(root, (0, 0xFE))]
  n.agents.foldl (fun c a =>
    match tget t a.fid with
    | none => c
    | some (b, parent) =>
      let alts := ((n.links.filter fun l => l.fid = a.fid && l.bond ≠ parent
          && !(chainThrough n.links t a.fid (n.agents.length + 1) l.farFid)).filterMap fun l =>
            (tget t l.farFid).map fun f => (f.1 + c.linkBound l, l.farFid, l.bond)).mergeSort
        fun x y => decide (x.1 < y.1) || (x.1 = y.1 && decide (x.2.1 ≤ y.2.1))
      let alt (i : Nat) : Nat := if parent = 0xFE then 0xFF else ((alts[i]?).map (·.2.2)).getD 0xFF
      let unmet : Bool := decide (1250 < b + 4 * a.hold)
      let c := if unmet && !a.unmet then c.raise Ev.PLUMB_BOUND_UNMET else c
      let c := c.modAgent a.fid fun x => { x with bound := b, parent := parent, unmet := unmet }
      (c.mgmtWrite a.fid [(Reg.PLB_PARENT, parent + alt 0 * 2 ^ 8 + alt 1 * 2 ^ 16), (Reg.PLB_BOUND, b)]).installAsym a.fid) c

/-! ## Shards (R211 to R213) -/

/-- Change a directory entry: its generation rises, and the solver input's with it (R192, R210). -/
def Ctl.setShard (c : Ctl) (i : Nat) (s : Shard) : Ctl :=
  ({ c with shards := tset c.shards i { s with gen := (s.gen + 1) % 2 ^ 32 } } : Ctl).changed

/-- SHARD_MOVED to the members of the entry's partition (R341). -/
def Ctl.shardMoved (c : Ctl) (s : Shard) (lost target source : Nat) : Ctl :=
  let ms := ((c.adm.parts.find? fun p => p.tag = s.partition).map (·.members)).getD []
  c.notify ms 4 s.partition (le 4 s.model ++ le 4 s.granule ++ le 4 lost ++ le 4 target ++ le 4 source)

/-- The lowest surviving holder. -/
def Shard.lowest (s : Shard) : Nat :=
  let hs := s.holders.filter (· ≠ 0x3FFFF)
  minL 0x3FFFF hs

/-- An endpoint's holdings are lost, all of them or those of one partition. -/
def Ctl.loseHolder (c : Ctl) (lost : Nat × Option Nat) : Ctl :=
  let fid := lost.1
  c.shards.foldl (fun c p =>
    let s := p.2
    if s.state = 0 ∨ !(lost.2.all (· = s.partition)) then c
    else
      let held := s.holders.contains fid
      let aimed := s.state = 3 && s.target = fid
      let hs := s.holders.map fun h => if h = fid then 0x3FFFF else h
      if held && hs.all (· = 0x3FFFF) then
        (c.setShard p.1 { s with holders := hs, state := 4, target := 0x3FFFF, lostHolder := fid }).shardMoved s fid 0x3FFFF 0x3FFFF
      else if aimed then c.setShard p.1 { s with holders := hs, state := 2, target := 0x3FFFF }
      else if held && s.state = 3 then
        let s' : Shard := { s with holders := hs }
        let c := c.setShard p.1 { s' with source := if s.source = fid then s'.lowest else s.source }
        if s.source = fid then c.shardMoved s fid s.target s'.lowest else c
      else if held then c.setShard p.1 { s with holders := hs, state := 2, lostHolder := fid }
      else c) c

/-- The target of a DEGRADED entry (R211). -/
def Ctl.shardTarget (c : Ctl) (s : Shard) : Option Nat :=
  let ms := ((c.adm.parts.find? fun p => p.tag = s.partition).map (·.members)).getD []
  let copies := (c.shards.filter fun p => p.2.model = s.model && p.2.granule = s.granule && p.2.state ≠ 0).flatMap fun p => p.2.holders
  let rackOf (f : Nat) : Nat := ((tget c.cst.agents f).map (·.rack)).getD 2048
  let rs := (s.holders.filter (· ≠ 0x3FFFF)).map rackOf
  let held (f : Nat) : Nat := (c.shards.filter fun p => p.2.state ≠ 0 && p.2.holders.contains f).length
  let live := ms.filter fun f => !copies.contains f && c.liveAgents.any fun a => a.fid = f
  let best := live.foldl (fun (b : Option (Nat × Nat × Nat)) f =>
    let k := (b2n (rs.contains (rackOf f)), held f, f)
    match b with
    | some x => if k.1 < x.1 ∨ (k.1 = x.1 ∧ (k.2.1 < x.2.1 ∨ (k.2.1 = x.2.1 ∧ k.2.2 < x.2.2))) then some k else some x
    | none => some k) none
  best.map (·.2.2)

/-- Choose a target for every DEGRADED entry in ascending index. -/
def Ctl.placeShards (c : Ctl) : Ctl :=
  c.shards.foldl (fun c p =>
    match tget c.shards p.1 with
    | some s =>
      if s.state ≠ 2 then c
      else match c.shardTarget s with
        | some t => (c.setShard p.1 { s with state := 3, target := t, source := s.lowest }).shardMoved s s.lostHolder t s.lowest
        | none => c.raise Ev.SHARD_UNDER_REPLICATED
    | none => c) c

/-- Take the losses that wait and place again. -/
def Ctl.shardWork (c : Ctl) : Ctl :=
  let lost := c.sol.lostHolders
  let c : Ctl := { c with sol := { c.sol with lostHolders := [] } }
  (lost.foldl Ctl.loseHolder c).placeShards

/-! ## Tasks -/

/-- A task runs only as the first that waits, with tile_en 1 (R195, R215); one that was preempted or was still to finish is so no
more. -/
def Ctl.runTask (c : Ctl) (kind : Nat) (n : Nat) (work : Ctl → Ctl) : Ctl :=
  if c.taskNow = kind then
    let preempted := if c.sol.preempted = some kind then none else c.sol.preempted
    ({ c with sol := { c.sol with preempted := preempted, finishing := none } } : Ctl).task kind n work
  else c

/-- Remove a kind from the other events that wait. -/
def Ctl.took (c : Ctl) (kind : Nat) : Ctl := { c with sol := { c.sol with others := c.sol.others.filter (· ≠ kind) } }

/-- The cause that the failures taken give (R230). -/
def failureCause (evs : List SolEvent) : Nat :=
  if evs.all fun e => match e with
    | .gaugeExceed _ _ => true
    | _ => false then 3
  else if evs.all fun e => match e with
    | .bondNarrowed _ _ => true
    | _ => false then 2
  else 1

/-- Load a slot key into an agent (R390, R391). A transit switch holds the partition's traffic slot key (R395): its use in the
derivation is 0 (log entry 18). -/
def Ctl.wrapKey (c : Ctl) (fid slot use tag inst gen keyId : Nat) : Ctl :=
  match tget c.kst.agentKeys fid, c.kst.tenant.find? fun k => k.keyId = keyId with
  | some ak, some tk =>
    let n := ak.wrap + 1
    let key := Config.kmac256 tk.key (le 4 inst ++ le 4 gen ++ le 2 tag ++ le 1 (if use = 1 then 1 else 0)) 256 (ascii "YARULAIS SLOT KEY")
    let head := le 1 slot ++ le 1 use ++ le 2 tag ++ le 4 inst ++ le 4 gen ++ le 4 0 ++ le 16 keyId ++ le 8 n
    let (cipher, tg) := Config.gcmSeal ak.keys.wrapKey (le 4 0 ++ be 8 n) (head ++ le 4 fid) key
    let kst : Kst := { c.kst with agentKeys := tset c.kst.agentKeys fid { ak with wrap := n },
                                  wraps := c.kst.wraps ++ [(fid, slot, n)] }
    ({ c with kst := kst } : Ctl).sendOp none fid 0x8A (c.die.part.blockIndex Blk.KST) []
      (slice (head ++ slice cipher 0 32 ++ slice tg 0 16) 0 128)
  | _, _ => c

/-- Load the traffic key of partitions into the switches that a recompilation brought onto their trees (R219, R390). -/
def Ctl.keySwitches (c : Ctl) (old : List PartPlan) : Ctl :=
  (c.byTag.filter fun p => p.phase = 1 && bitOf p.flags 1).foldl (fun (c : Ctl) p =>
    let had := ((old.find? fun o => o.tag = p.tag && o.inst = p.inst).map (·.switches)).getD []
    (p.switches.filter fun f => !had.contains f).foldl (fun (c : Ctl) f => c.wrapKey f p.trafficSlot 2 p.tag p.inst p.gen p.trafficKey) c) c

/-- Steps 1 to 9 of R197 for what waits, in order; with `all` for every agent and partition. -/
def Ctl.failureWork (c : Ctl) (all : Bool) : Ctl :=
  let evs := c.sol.failures
  let restoredOnly := evs.isEmpty || evs.all fun e => match e with
    | .bondRestored _ _ => true
    | _ => false
  let narrowed := evs.flatMap fun e => match e with
    | .bondNarrowed f b => (f, b) :: (c.sol.bonds.filter fun x => x.farFid = f && x.farBond = b).map fun x => (x.fid, x.bond)
    | _ => []
  let old := c.adm.parts.filter fun p => p.phase = 1
  let c := c.takeFailures.plumbTree
  let n := c.net
  let c := (c.recompile fun p => all || c.broken n narrowed p).keySwitches old
  let c := (c.recheckAll (failureCause evs)).writeFloors
  let c := c.shardWork
  let ps := c.adm.parts.filter fun p => p.phase = 1
  let before := c.sol.lastInstall
  let (c, course) := c.install old ps all none 0
  let takeover : Bool := !c.rcv.mirrored.isEmpty && !c.stepDone 10
  if c.sol.lastInstall = before then c else c.routeChange ps course (if takeover then 2 else if restoredOnly then 1 else 0)

/-- SOLVER_FULL_TASK (R195, R196). -/
def execSolverFullTask (s : State) : Res :=
  s.ctlNext fun c => c.runTask 1 0 fun c => (c.took 1).failureWork true

/-- SOLVER_FAILURE_TASK (R197); a preempted task starts again once its rows are installed (R196). -/
def execSolverFailureTask (s : State) : Res := s.ctlNext fun c => c.runTask 2 c.sol.failures.length (·.failureWork false)

/-- PLUMB_TREE_TASK (R163). -/
def execPlumbTreeTask (s : State) : Res := s.ctlNext fun c => c.runTask 6 0 fun c => (c.took 6).plumbTree

/-- SHARD_TASK (R211, R213). -/
def execShardTask (s : State) : Res := s.ctlNext fun c => c.runTask 7 0 fun c => (c.took 7).shardWork

/-- TASK_PREEMPT (R196): counts; the preempted task is still queued, waits until the failure's rows are installed and starts from its
beginning. -/
def execTaskPreempt (s : State) : Res :=
  s.ctlNext fun c =>
    let later := c.waitingTasks.filter fun k => k = 3 || k = 4
    if c.taskNow = 2 ∧ !later.isEmpty ∧ c.sol.preempted.isNone then
      ({ c with sol := { c.sol with preempted := later.head? } } : Ctl).onDie (·.count Reg.SOL_CNT_PREEMPT)
    else c

/-- Drop a tile from the array (R191). -/
def Ctl.dropTile (c : Ctl) (tile : Nat) : Ctl :=
  if tile ≥ c.sol.map.length ∨ c.sol.fencedTiles.contains tile then c
  else
    let busy := c.taskNow ≠ 0
    let c : Ctl := { c with sol := { c.sol with fencedTiles := c.sol.fencedTiles ++ [tile] } }
    if busy then c.onDie (·.count Reg.SOL_CNT_RESTART) else c

/-- TILE_FENCE (R191). -/
def execTileFence (tile : Nat) (s : State) : Res := s.ctlNext fun c => c.dropTile tile

/-- SOL_TILE_EN: SOL_CTL is written (R215); the task that runs when tile_en is cleared still finishes. -/
def execSolTileEn (val : Word) (s : State) : Res :=
  s.ctlNext fun c => c.written Blk.SOL fun c =>
    let c : Ctl := { c with sol := { c.sol with finishing :=
      if val.toNat % 2 = 1 then none else if c.die.fget Fl.SOL_CTL_tile_en = 1 ∧ c.taskNow ≠ 0 then some c.taskNow else c.sol.finishing } }
    let c := c.onDie (·.fset Fl.SOL_CTL_tile_en (val.toNat % 2))
    if bitOf val.toNat 1 then c.onDie (·.clearCounters Blk.SOL) else c

/-- SOL_CLEAR_COUNTERS. -/
def execSolClearCounters (s : State) : Res := s.ctlNext fun c => c.written Blk.SOL fun c => c.onDie (·.clearCounters Blk.SOL)

/-! ## Admission, compile and release -/

/-- The list of consumed keys, the oldest removed beyond 1 Mi (R388). -/
def Ctl.consume (c : Ctl) (key : Nat) : Ctl :=
  let l := c.flash.consumed ++ [key]
  let c : Ctl := { c with flash := { c.flash with consumed := l.drop (l.length - 1048576) } }
  if l.length > 1048576 then c.raise Ev.CONSUMED_LIST_WRAPPED else c

/-- Bind a request's keys to its instance. -/
def Ctl.bindKeys (c : Ctl) (p : PartPlan) : Ctl :=
  let ks := (if bitOf p.flags 1 then [p.trafficKey] else []) ++ (if p.samples.isEmpty then [] else [p.dumpKey])
  let t := c.kst.tenant.map fun k => if ks.contains k.keyId then { k with bound := some p.inst } else k
  ks.foldl Ctl.consume { c with kst := { c.kst with tenant := t } }

/-- A reply of a decision. -/
def Decision.reply (d : Decision) (kind result id tag course : Nat) : Reply :=
  { kind := kind, result := result, reason := d.reason, detail := d.detail, requestId := id, tag := tag, course := course,
    reactUs := ceilDiv d.react 1000, batchUs := ceilDiv d.batch 1000, dumpUs := ceilDiv d.dump 1000, figs := d.figs }

/-- The first queued request is decided. -/
def Ctl.admission (c : Ctl) : Ctl :=
  match c.adm.queue with
  | [] => c
  | (addr, len) :: rest =>
    let c : Ctl := { c with adm := { c.adm with queue := rest } }
    let c := c.onDie (·.fset Fl.CTL_LOCK_admission 1)
    let (c, b, bad) := c.memRead addr len
    let d := if bad then refuseEarly 1 else c.decide_ b
    let id := fieldAt b 0 4
    if d.reason = 0 then
      match d.plan with
      | some p =>
        let c : Ctl := { c with adm := { c.adm with inst := p.inst, parts := c.adm.parts ++ [p] } }
        let c := ((c.bindKeys p).changed).onDie (·.count Reg.ADM_CNT_ADMITTED)
        c.reply (d.reply 1 1 id p.tag 0)
      | none => c
    else (c.onDie (·.count Reg.ADM_CNT_REFUSED)).reply (d.reply 1 2 id (fieldAt b 4 2) 0)

/-- ADMISSION_TASK (R226). In the safe state the solver takes no task, and admission refuses what waits (R443). -/
def execAdmissionTask (s : State) : Res :=
  s.ctlNext fun c => if c.die.safe ∧ c.adm.serving then c.admission else c.runTask 3 0 fun c => c.admission.writeFloors

/-- Load a partition's keys into its agents. -/
def Ctl.loadKeys (c : Ctl) (p : PartPlan) (slot gen : Nat) : Ctl :=
  let enc := bitOf p.flags 1
  let c := if enc then p.members.foldl (fun c f => c.wrapKey f slot 0 p.tag p.inst gen p.trafficKey) c else c
  let c := if enc then p.switches.foldl (fun c f => c.wrapKey f slot 2 p.tag p.inst gen p.trafficKey) c else c
  if p.samples.isEmpty || gen ≠ 0 then c else p.members.foldl (fun c f => c.wrapKey f p.dumpSlot 1 p.tag p.inst 0 p.dumpKey) c

/-- A compile ends with a FAILED record: the tag and the members are free (R229). -/
def Ctl.compileFailed (c : Ctl) (p : PartPlan) (d : Decision) : Ctl :=
  let c : Ctl := { c with adm := { c.adm with parts := c.adm.parts.filter fun x => !(x.tag = p.tag && x.inst = p.inst) } }
  (c.changed.onDie (·.count Reg.ADM_CNT_FAILED)).reply (d.reply 3 0 p.requestId p.tag 0)

/-- The first admitted partition is compiled and installed (R229). The meter hears OPEN with the instance's first course, and CLOSE of
one that it replaces (R419); endpoints that the replacement drops lose their holdings (R211). Where the shadow region has no room for
the epoch, the compile fails with RESOURCE (log entry 66). -/
def Ctl.compileTask (c : Ctl) : Ctl :=
  match c.adm.parts.find? fun p => p.phase = 0 with
  | none => c
  | some p =>
    let d := c.decideFrom p.request p.tag (some p)
    let (p', out) := c.compile (match d.plan with
      | some x => { p with colls := x.colls, period := x.period, reactNs := x.reactNs, batchNs := x.batchNs, dumpNs := x.dumpNs }
      | none => p)
    let d : Decision := if d.reason = 0 ∧ !out.failed.isEmpty then { d with reason := 0x0A, detail := out.failed.headD 0xFF } else d
    let c : Ctl := { c with sol := { c.sol with slack := out.slack } }
    if d.reason ≠ 0 then c.compileFailed p d
    else
      let old := c.adm.parts.filter fun x => x.phase = 1
      let before := old.find? fun x => x.tag = p.tag
      let ps := old.filter (fun x => x.tag ≠ p.tag) ++ [p']
      let (c, course) := c.install old ps false (some p') ((before.map (·.period)).getD 0)
      if course = 0 then c.compileFailed p { d with reason := 8 }
      else
        let c := c.loadKeys p' p'.trafficSlot 0
        let p' : PartPlan := { p' with phase := 1, activateCourse := course, activeNs := some (course * c.courseNs) }
        let parts := (c.adm.parts.filter fun x => x.tag ≠ p.tag) ++ [p']
        let dropped := ((before.map (·.members)).getD []).filter fun f => !p'.members.contains f
        let c : Ctl := { c with adm := { c.adm with parts := parts },
                                sol := { c.sol with lostHolders := c.sol.lostHolders ++ dropped.map fun f => (f, some p.tag) } }
        let c := if dropped.isEmpty then c else c.ask 7
        let c := match before with
          | some o => c.meterClose o.tag o.inst course
          | none => c
        (c.meterOpen p'.tag p'.inst course).changed.reply (d.reply 2 0 p.requestId p.tag course)

/-- COMPILE_TASK (R229). -/
def execCompileTask (s : State) : Res := s.ctlNext fun c => c.runTask 4 0 fun c => c.compileTask.writeFloors

/-- Release a partition at some agents (R231): a JOB Pattern whose entries carry the release bit; the time from which the release
holds is answered. -/
def Ctl.sendRelease (c : Ctl) (tag : Nat) (fids : List Nat) : Ctl × Nat :=
  if fids.isEmpty then (c, c.die.ns)
  else
    let epochOf (f : Nat) : Nat := ((tget c.cst.agents f).map (·.epoch)).getD 0
    let rows : List NewRow := fids.map fun f => releaseRow tag f
    let (c, course) := c.installCourse [] 0
    let c := c.sendJob tag epochOf fids rows course
    ({ c with sol := { c.sol with lastInstall := course * c.courseNs } }, course * c.courseNs)

/-- Partition entries found in agents that no admitted partition accounts for (R348): each tag is released where it was found. -/
def Ctl.releaseOrphans (c : Ctl) (found : List (Nat × Nat)) : Ctl :=
  let orphans := ((found.map (·.2)).eraseDups).filter fun t => t ≠ 0 && !(c.adm.parts.any fun p => p.tag = t)
  orphans.foldl (fun (c : Ctl) t =>
    let fids := (c.liveAgents.map (·.fid)).filter fun f => found.contains (f, t)
    let (c, at_) := c.sendRelease t fids
    let c : Ctl := { c with adm := { c.adm with released := c.adm.released.filter (fun x => x.1 ≠ t) ++ [(t, at_)] } }
    c.raise Ev.ORPHAN_PARTITION t) c

/-- A release has taken effect, at its course (R231): the controller erases the keys bound to the partition, its Directory entries become
FREE, its members and its tag are given up, RELEASED is written, and tables whose intermediate sets it changes go out (R195). -/
def Ctl.finishRelease (c : Ctl) (tag : Nat) : Ctl :=
  let mine := c.adm.parts.filter fun p => p.tag = tag
  match mine.getLast? with
  | none => c
  | some p =>
    let keys := mine.flatMap fun p => [p.trafficKey, p.dumpKey]
    let c : Ctl := { c with kst := { c.kst with tenant := c.kst.tenant.filter fun k => !(keys.contains k.keyId && k.bound.isSome) } }
    let c := (c.shards.filter fun x => x.2.partition = tag && x.2.state ≠ 0).foldl
      (fun (c : Ctl) x => c.setShard x.1 { Shard.free with gen := x.2.gen }) c
    let c : Ctl := { c with adm := { c.adm with parts := c.adm.parts.filter fun x => x.tag ≠ tag } }
    let c := c.changed.onDie (·.count Reg.ADM_CNT_RELEASED)
    let c := c.reply { kind := 6, result := 0, reason := 0, detail := 0xFF, requestId := p.requestId, tag := tag, course := 0, reactUs := 0,
                       batchUs := 0, dumpUs := 0, figs := [] }
    let left := c.adm.parts.filter fun x => x.phase = 1
    if mine.all (·.phase = 0) then c else (c.install left left false none 0).1

/-- The releases whose course has come. -/
def Ctl.finishReleases (c : Ctl) : Ctl :=
  (c.adm.released.filter fun r => decide (r.2 ≤ c.die.ns) && c.adm.parts.any fun p => p.tag = r.1 && p.phase = 2).foldl
    (fun (c : Ctl) r => c.finishRelease r.1) c

/-- The first queued release (R231): a compile that waits is cancelled, the agents get the release, the meter hears CLOSE with the
release course (R419); the rest follows at that course, at once where no agent holds anything of the partition. -/
def Ctl.releaseTask (c : Ctl) : Ctl :=
  match c.adm.releases with
  | [] => c
  | tag :: rest =>
    let c : Ctl := { c with adm := { c.adm with releases := rest } }
    let live := c.adm.parts.filter fun p => p.tag = tag && p.phase = 1
    let fids := (c.liveAgents.map (·.fid)).filter fun f => live.any fun p => p.touches f
    let (c, at_) := c.sendRelease tag fids
    let c := live.foldl (fun (c : Ctl) p => c.meterClose tag p.inst (at_ / c.courseNs)) c
    let c : Ctl := { c with adm := { c.adm with released := c.adm.released.filter (fun x => x.1 ≠ tag) ++ [(tag, at_)],
                                                parts := (c.adm.parts.filter fun p => !(p.tag = tag && p.phase = 0 && !live.isEmpty)).map fun p =>
                                                  if p.tag = tag ∧ p.phase = 1 then { p with phase := 2 } else p } }
    if fids.isEmpty then c.finishRelease tag else c

/-- SOLVER_RELEASE_TASK (R231). -/
def execSolverReleaseTask (s : State) : Res := s.ctlNext fun c => c.runTask 5 0 fun c => c.releaseTask.writeFloors

/-- ADM_STATUS.last_cmd. -/
def Ctl.admCmd (c : Ctl) (v : Nat) : Ctl := c.onDie (·.fset Fl.ADM_STATUS_last_cmd v)

/-- A submit (R217): length first, then room (R232). -/
def Ctl.submit (c : Ctl) : Ctl :=
  let len := c.die.bget Reg.ADM_REQ_LEN 23 0
  if len < 64 ∨ len > 16 * 2 ^ 20 then c.admCmd 4
  else if c.adm.queue.length ≥ 64 then c.admCmd 2
  else ({ c with adm := { c.adm with queue := c.adm.queue ++ [(c.die.getN Reg.ADM_REQ_ADDR, len)] } } : Ctl).admCmd 1

/-- A release (R231); one of a tag whose release is under way adds nothing to it. -/
def Ctl.release (c : Ctl) : Ctl :=
  let tag := c.die.bget Reg.ADM_REL_TAG 11 0
  if tag = 0 then c.admCmd 5
  else if !(c.adm.parts.any fun p => p.tag = tag) then c.admCmd 3
  else if c.adm.releases.contains tag || c.adm.parts.any (fun p => p.tag = tag && p.phase = 2) then c.admCmd 1
  else ({ c with adm := { c.adm with releases := c.adm.releases ++ [tag] } } : Ctl).admCmd 1

/-- ADM_SUBMIT. -/
def execAdmSubmit (s : State) : Res := s.ctlNext fun c => c.written Blk.ADM Ctl.submit
/-- ADM_RELEASE. -/
def execAdmRelease (s : State) : Res := s.ctlNext fun c => c.written Blk.ADM Ctl.release
/-- ADM_CLEAR_COUNTERS. -/
def execAdmClearCounters (s : State) : Res := s.ctlNext fun c => c.written Blk.ADM fun c => c.onDie (·.clearCounters Blk.ADM)
/-- ADM_RING_CONS_WRITE (R228). -/
def execAdmRingConsWrite (val : Word) (s : State) : Res := s.ctlNext fun c => c.written Blk.ADM fun c => c.admCons val.toNat

/-! ## Directory commands (R210, R214, R216) -/

/-- The entry of 64 bytes. -/
def shardOf (b : Bytes) : Shard :=
  { model := fieldAt b 0 4, granule := fieldAt b 4 4 % 2 ^ 22, partition := fieldAt b 8 2 % 2 ^ 12, replicas := byteAt b 10, state := byteAt b 11,
    gen := fieldAt b 12 4, holders := (List.range 4).map fun i => fieldAt b (16 + 4 * i) 4 % 2 ^ 18, offset := fieldAt b 32 8 % 2 ^ 46,
    length := fieldAt b 40 4, target := fieldAt b 44 4 % 2 ^ 18, digest := fieldAt b 48 16, source := 0x3FFFF, lostHolder := 0x3FFFF }

/-- SHD_ENTRY's bytes. -/
def Ctl.shdEntry (c : Ctl) : Bytes := (List.range 8).flatMap fun i => le 8 (c.die.getN (Reg.SHD_ENTRY0 + 8 * i))

/-- SHD_STATUS.result. -/
def Ctl.shdResult (c : Ctl) (v : Nat) : Ctl := c.onDie (·.fset Fl.SHD_STATUS_result v)

/-- READ. -/
def Ctl.shdGet (c : Ctl) (i : Nat) : Ctl :=
  if i ≥ 4194304 then c.shdResult 4
  else
    let b := Shard.bytes (tgetD c.shards i Shard.free)
    ((List.range 8).foldl (fun (c : Ctl) k => c.onDie (·.setN (Reg.SHD_ENTRY0 + 8 * k) (fieldAt b (8 * k) 8))) c).shdResult 0

/-- WRITE: the checks of R214 in its order; model_id 0 means a free entry and the replicas are 1 to 4 (R210), so neither is written
otherwise (log entry 66). A SHARD task follows (R195). -/
def Ctl.shdPut (c : Ctl) (i : Nat) : Ctl :=
  let old := tgetD c.shards i Shard.free
  let new_ := shardOf c.shdEntry
  let ms := ((c.adm.parts.find? fun p => p.tag = new_.partition).map (·.members)).getD []
  let hs := new_.holders.filter (· ≠ 0x3FFFF)
  if i ≥ 4194304 then c.shdResult 4
  else if new_.gen ≠ old.gen then c.shdResult 1
  else if old.state = 3 then c.shdResult 2
  else if new_.state ≠ 1 ∨ hs.isEmpty ∨ !(hs.all ms.contains) ∨ new_.model = 0 ∨ new_.replicas < 1 ∨ 4 < new_.replicas then c.shdResult 3
  else ((c.setShard i { new_ with target := 0x3FFFF }).ask 7).shdResult 0

/-- DELETE. -/
def Ctl.shdDel (c : Ctl) (i : Nat) : Ctl :=
  let old := tgetD c.shards i Shard.free
  if i ≥ 4194304 then c.shdResult 4
  else if (shardOf c.shdEntry).gen ≠ old.gen then c.shdResult 1
  else ((c.setShard i { Shard.free with gen := old.gen }).ask 7).shdResult 0

/-- SHD_READ. -/
def execShdRead (index : Nat) (s : State) : Res := s.ctlNext fun c => c.written Blk.SHD fun c => c.shdGet index
/-- SHD_WRITE. -/
def execShdWrite (index : Nat) (s : State) : Res := s.ctlNext fun c => c.written Blk.SHD fun c => c.shdPut index
/-- SHD_DELETE. -/
def execShdDelete (index : Nat) (s : State) : Res := s.ctlNext fun c => c.written Blk.SHD fun c => c.shdDel index

/-- SHARD_READY (R212, R213): one from a target whose loss came first, though no task has taken it yet, is late. -/
def Ctl.shardReady (c : Ctl) (fid partition model granule digest : Nat) : Ctl :=
  let gone := c.sol.lostHolders.any fun l => l.1 = fid && l.2.all (· = partition)
  match c.shards.find? fun p => p.2.model = model && p.2.granule = granule && p.2.partition = partition && p.2.state = 3 && p.2.target = fid && !gone with
  | none => c.onDie (·.bsat Reg.SHD_COUNT 63 48 1)
  | some (i, s) =>
    if s.digest ≠ digest then c.raise Ev.SHARD_DIGEST_MISMATCH
    else
      let hs := replaceFirst (· = 0x3FFFF) (fun _ => fid) s.holders
      let n := (hs.filter (· ≠ 0x3FFFF)).length
      let c := c.setShard i { s with holders := hs, target := 0x3FFFF, state := if n < s.replicas then 2 else 1 }
      if n < s.replicas then c.ask 7 else c

/-- SHARD_READY. -/
def execShardReady (fid partition model granule : Nat) (digest : Nat) (s : State) : Res :=
  s.ctlNext fun c => c.works Blk.SHD fun c => c.shardReady fid partition model granule digest

/-! ## Failures reported (R196, R322) -/

/-- Queue a failure. -/
def Ctl.queueFailure (c : Ctl) (e : SolEvent) : Ctl :=
  if c.sol.failures.contains e then c else ({ c with sol := { c.sol with failures := c.sol.failures ++ [e] } } : Ctl).changed

/-- FAILOVER (R322). -/
def execFailover (fid bond farFid time : Nat) (s : State) : Res :=
  s.ctlNext fun c => c.queueFailure (.bondFailed fid bond farFid time)

/-- RESTORED_BOND_TIMER (R322): a second after the first restored bond, with no FAILURE or FULL task pending, the restored bonds alone
make a FAILURE task. -/
def execRestoredBondTimer (s : State) : Res :=
  s.ctlNext fun c =>
    let early := match c.sol.restoredNs with
      | some t => decide (c.die.up < 1000000000 + t)
      | none => true
    if c.sol.restored.isEmpty || early || !c.sol.failures.isEmpty || c.sol.others.contains 1 then c
    else
      let evs := c.sol.restored.map fun r => SolEvent.bondRestored r.1 r.2
      ({ c with sol := { c.sol with failures := evs, restored := [], restoredNs := none } } : Ctl).changed

end Sys2Proof.Machine
end

