-- ==== Sys2Proof/Machine/CtlPat.lean ====
section
/-! DEFINITION. The controller's Pattern loader, which loads BASE Patterns (R86 to R101, R295), the loader commands of both parts,
and discovery and naming (R300 to R312, R469). -/

namespace Sys2Proof.Machine

/-! ## The controller's loader -/

/-- The location of the controller's own embedded agent: that of its FID where it is named; else the first location of a
controller's slot that a row targets; else slot 72 of the first populated rack (log entry 21). -/
def Ctl.ownLoc (c : Ctl) : Nat :=
  let pl := c.plan
  let named := if c.embFid = 0x3FFFF then none else planLoc pl c.base c.embFid
  match named with
  | some l => l
  | none =>
    match (pl.locations c.base).find? fun l => 72 ≤ l % 128 with
    | some l => l
    | none => locOf (pl.populated.headD 0) 72

/-- What the controller's checks read. A BASE Pattern with the digest of the one last activated is exempt from the sequence
check (R295); its floor is fused (R376). -/
def Ctl.loadEnv (c : Ctl) (digest : Digest) : LoadEnv :=
  { unit := 0, part := c.die.part, fid := 0x3FFFF, mode := 2, rack := 0, slot := 0, fabricId := 0, hop := 0, lkpLocked := false, epoch := 0,
    fw := c.die.fw.version, patternKey := none,
    lastSeq := if c.flash.baseDigest = some digest then [] else [(seqKey 1 0, c.flash.baseSeq)],
    floor := c.flash.fuses.getD 3 0 * 2 ^ 32, aligned := false, parts := [] }

/-- Refuse the Pattern in the controller's loader. -/
def Ctl.patRefuse (c : Ctl) (code detail row : Nat) : Ctl :=
  c.onDie fun d => (d.patIdle 2 code detail row).bsat Reg.PAT_COUNT 63 32 1

/-- A load starts (R86): the file is read from the Pattern area; the header and the rows are checked as they are read. -/
def Ctl.patStart (c : Ctl) : Ctl :=
  if c.die.fget Fl.PAT_STATUS_state ≠ 0 then c.raise Ev.PATTERN_BUSY
  else
    let (c, b, bad) := c.memRead (c.die.getN Reg.PAT_SRC_ADDR) (c.die.getN Reg.PAT_SRC_LEN)
    let c := c.onDie fun d => { (d.fset Fl.PAT_STATUS_state 1) with pat := { d.pat with bytes := b, fileLen := b.length } }
    if bad ∨ b.length < 256 then c.patRefuse 2 0x42 0xFFFFFFFF
    else match prefixFail (c.loadEnv (Config.shake256 (b.take 256))) b.length b with
      | some f => c.patRefuse f.code f.detail f.row
      | none => c.onDie fun d => { (d.fset Fl.PAT_STATUS_state 2) with pat := { d.pat with pattern := some (patternOf b) } }

/-- Whether a default FID equals one that a location-targeted IDENT row assigns (R305). -/
def duplicateFid (p : Pattern) : Bool :=
  let base := some p
  let own := p.rows.filter fun r => r.rtype = Rt.IDENT && r.targetKind = 1
  let given := own.map fun r => (identOf r.payload).fid
  let defaults := ((planOf 32 base).locations base).filter fun l => !(own.any fun r => r.target = l)
  dupNat given || defaults.any fun l => given.contains (l / 128 * 80 + l % 128)

/-- Count planned, named and missing agents (R317). -/
def Ctl.countAgents (c : Ctl) (ended : Bool) : Ctl :=
  let planned := ((c.plan).locations c.base).length
  let named := (c.cst.agents.filter fun p => p.2.named && !p.2.lost).length
  let missing := if ended then planned - named else c.die.bget Reg.CST_AGENTS 53 36
  c.onDie (·.setN Reg.CST_AGENTS (planned % 2 ^ 18 + named % 2 ^ 18 * 2 ^ 18 + missing % 2 ^ 18 * 2 ^ 36))

/-- A BASE Pattern becomes active at the controller (R91, R295, R377): its events, gauge tables and channels are those of its own
location; Keystone extends register 2. -/
def Ctl.activateBase (c : Ctl) (p : Pattern) : Ctl :=
  let dg := headerDigest p
  let c := ({ c with base := some p, flash := { c.flash with baseDigest := some dg, baseSeq := p.header.sequence } } : Ctl)
  let loc := c.ownLoc
  let evr := (planRows c.base Rt.EVR loc).flatMap rowEntries
  let gauge := ((p.rows.filter fun r => r.rtype = Rt.GAUGE && r.targetKind = 3) ++ planRows c.base Rt.GAUGE loc).flatMap rowEntries
  let bind := (planRows c.base Rt.MBXBIND loc).flatMap rowEntries
  let c := c.onDie fun d =>
    let d := d.patActivated p
    let d : Die := { d with evrEnts := evr.map evrOf, gaugeTab := (gauge.map gaugeOf).foldl (fun t x => tset t x.1 x.2) [] }
    if bind.isEmpty then d else (d.bind (bind.map bindOf)).fset Fl.CTL_LOCK_mailboxes 1
  (((c.extend 2 0x10 dg).changed).ask 1).countAgents false

/-- The boundary of a staged BASE Pattern: refused in the safe state (R94); it waits for a report under way (R402). -/
def Ctl.patBoundary (c : Ctl) (p : Pattern) : Ctl :=
  if c.die.safe then c.patRefuse 5 0x73 0xFFFFFFFF
  else if !c.kst.jobs.isEmpty then c
  else c.activateBase p

/-- The geometry that a BASE Pattern's activate_course is reckoned under: the one in force, else that of its own COURSE row (R90). -/
def Ctl.reckon (c : Ctl) (p : Pattern) : Option Geom :=
  c.geom.or ((p.rows.find? fun r => r.rtype = Rt.COURSE).map fun r => geomOf r.payload)

/-- Whether a BASE Pattern's course of activation has begun. -/
def Ctl.courseBegun (c : Ctl) (p : Pattern) : Bool := match c.reckon p with
  | some g => decide (p.activateCourse ≤ c.die.ns / g.courseNs)
  | none => false

/-- Rows of a type of a BASE Pattern with one target: a location, or the whole scope. -/
def Pattern.rowsAt (p : Pattern) (rtype : Nat) (loc : Option Nat) : List Row :=
  p.rows.filter fun r => r.rtype = rtype && (match loc with
    | some l => r.targetKind = 1 && r.target = l
    | none => r.targetKind = 0)

/-- Steps 8 and 9 of R96 for the rows of a BASE Pattern with one target: its lanes are there, no item is assigned twice, the shares fit
(R83, R84, R99). A whole-scope row is judged as at a switch, which has the most lanes. -/
def Pattern.targetFail (p : Pattern) (fabLanes : Nat) (loc : Option Nat) : Option (Nat × Nat) :=
  let lanes := match loc with
    | some l => if slotMode (l % 128) = 2 then fabLanes else agentLanes (slotMode (l % 128))
    | none => agentLanes 1
  let bonds := ((p.rowsAt Rt.BOND loc).flatMap rowEntries).map bondOf
  let maps := ((p.rowsAt Rt.LANEMAP loc).flatMap rowEntries).map laneMapOf
  let trains := ((p.rowsAt Rt.TRAIN loc).flatMap rowEntries).map trainOf
  let res := p.rowsAt Rt.RESOURCE loc
  let samples := ((((p.rowsAt Rt.WATCH loc).flatMap rowEntries).filter fun e => byteAt e 0 = 2).map (sampleOf 0))
  firstFail [
    ((bonds.any fun b => b.2.2.2.2.any fun l => lanes ≤ l) || (maps.any fun m => lanes ≤ m.1 || lanes ≤ m.2.1)
      || (trains.any fun t => lanes ≤ t.lane), 3, 0x50),
    (decide (1 < res.length) || (res.any fun r => anyPair meets (resourceOf r.payload).shares)
      || lanesOverlap (bonds.map fun b => (b.1, b.2.2.2.2)) maps lanes, 4, 0x60),
    (res.any fun r => shareSizeBad (resourceOf r.payload) samples, 4, 0x61)]

/-- Steps 8 and 9 of R96 for a BASE Pattern: each target of its rows, channel 63 bound otherwise than to the cores and the meter (R419,
R525), then the binding-table lock, the FIDs and the geometry. -/
def Ctl.baseFail (c : Ctl) (p : Pattern) : Option (Nat × Nat) :=
  let targets := none :: (((p.rows.filter fun r => r.targetKind = 1).map (·.target)).eraseDups.map some)
  let fails := targets.filterMap (p.targetFail c.die.part.fabLanes)
  let first (code : Nat) : Option (Nat × Nat) := fails.find? fun f => f.2 = code
  let bind := ((planRows (some p) Rt.MBXBIND c.ownLoc).flatMap rowEntries).map bindOf
  let geoms := (p.rows.filter fun r => r.rtype = Rt.COURSE).map fun r => geomOf r.payload
  let stray := c.die.part.hasMeter && bind.any fun b => b.1 = 63 && b.2 ≠ (0xFF, 0x11) && b.2 ≠ (0x11, 0xFF)
  (first 0x50).or (((first 0x60).or (if stray then some (4, 0x60) else none)).or ((first 0x61).or (firstFail [
    (!bind.isEmpty && c.die.fget Fl.CTL_LOCK_mailboxes = 1 && !(sameBinds bind c.die.bindings), 4, 0x62),
    (duplicateFid p, 4, 0x64),
    ((match c.geom with
      | some g => geoms.any (· ≠ g)
      | none => anyPair (· ≠ ·) geoms) || (!p.immediate && (c.reckon p).isNone), 4, 0x66)])))

/-- PATTERN_STAGED at the controller. -/
def Ctl.patStaged (c : Ctl) : Ctl :=
  match c.die.pat.pattern with
  | none => c
  | some p =>
    if c.die.fget Fl.PAT_STATUS_state ≠ 2 then c
    else match fileFail p.header p.rows (rowsPart c.die.pat.bytes) with
      | some (k, d) => c.patRefuse k d 0xFFFFFFFF
      | none =>
        match c.baseFail p with
        | some (k, d) => c.patRefuse k d 0xFFFFFFFF
        | none =>
          if !p.immediate ∧ c.courseBegun p then c.patRefuse 5 0x72 0xFFFFFFFF
          else
            let c := c.onDie fun d => ((d.fset Fl.PAT_STATUS_state 3).setN Reg.PAT_STAGED_COURSE p.activateCourse).setDigest
              Reg.PAT_STAGED_DIGEST0 (headerDigest p)
            if p.immediate then c.patBoundary p else c

/-- PATTERN_ACTIVATE at the controller. -/
def Ctl.patActivate (c : Ctl) : Ctl :=
  match c.die.pat.pattern with
  | none => c
  | some p =>
    if c.die.fget Fl.PAT_STATUS_state ≠ 3 ∨ (!p.immediate ∧ !(c.courseBegun p)) then c
    else
      let (late, d) := c.die.takeWait Blk.PAT
      let c : Ctl := { c with die := d }
      if late then c.patRefuse 5 0x72 0xFFFFFFFF else c.patBoundary p

/-- PAT_ABORT at the controller. -/
def Ctl.patAbort (c : Ctl) : Ctl :=
  let st := c.die.fget Fl.PAT_STATUS_state
  if 1 ≤ st ∧ st ≤ 3 then c.onDie fun d => d.patIdle 3 0 0 0 else c

/-- PAT_START: PAT_CTL.start; ignored on Twidel (R100). -/
def execPatStart (pl : Place) (s : State) : Res :=
  match pl with
  | .ctl => s.ctlNext fun c => c.written Blk.PAT Ctl.patStart
  | .agt w => s.agtNext w fun a => a.written Blk.PAT fun a => a

/-- PAT_ABORT: PAT_CTL.abort (R101). -/
def execPatAbort (pl : Place) (s : State) : Res :=
  match pl with
  | .ctl => s.ctlNext fun c => c.written Blk.PAT Ctl.patAbort
  | .agt w => s.agtNext w fun a => a.written Blk.PAT Agt.patAbortCmd

/-- PATTERN_STAGED (R86). -/
def execPatternStaged (pl : Place) (s : State) : Res :=
  match pl with
  | .ctl => s.ctlNext fun c => c.works Blk.PAT Ctl.patStaged
  | .agt w => s.agtNext w Agt.patStaged

/-- PATTERN_ACTIVATE (R90). -/
def execPatternActivate (pl : Place) (s : State) : Res :=
  match pl with
  | .ctl => s.ctlNext fun c => c.works Blk.PAT Ctl.patActivate
  | .agt w => s.agtNext w Agt.patActivateCmd

/-! ## Discovery records (R312) -/

/-- A finding: kind, detail, lanes, near and far. -/
structure Finding where
  kind : Nat
  detail : Nat
  nearLane : Nat
  farLane : Nat
  nearFid : Nat
  nearLoc : Nat
  planned : Nat
  farDie : Nat
  farFid : Nat
  farLevel : Nat
  deriving DecidableEq, Repr

def Finding.bytes (f : Finding) : Bytes :=
  le 1 f.kind ++ le 1 f.detail ++ le 1 f.nearLane ++ le 1 f.farLane ++ le 4 f.nearFid ++ le 4 f.nearLoc ++ le 4 f.planned
  ++ le 8 f.farDie ++ le 4 f.farFid ++ le 2 f.farLevel ++ le 2 0

/-- Write a discovery record while one of steps 5, 7, 8 and 9 runs. -/
def Ctl.discover (c : Ctl) (f : Finding) : Ctl :=
  let on := match c.cst.running with
    | some (k, _) => k = 5 || (7 ≤ k && k ≤ 9)
    | none => false
  if !on then c
  else
    let i := c.die.bget Reg.CST_REPORT_PROD 15 0
    if (i + 1) % 65536 = c.die.bget Reg.CST_REPORT_CONS 15 0 then c.onDie (·.bsat Reg.CST_REPORT_PROD 47 32 1)
    else
      let (c, _) := c.memWrite (c.die.getN Reg.CST_REPORT_BASE + 32 * i) f.bytes
      c.onDie (·.bset Reg.CST_REPORT_PROD 15 0 ((i + 1) % 65536))

/-- A finding about an agent alone. -/
def aboutAgent (kind detail : Nat) (fid loc die : Nat) : Finding :=
  { kind := kind, detail := detail, nearLane := 0xFF, farLane := 0xFF, nearFid := fid, nearLoc := loc, planned := 0xFFFFFFFF, farDie := die,
    farFid := fid, farLevel := 0 }

/-! ## Naming (R304, R381) -/

/-- The plan's own fabric: every planned agent and bond is there (R304: the tables of the plan). -/
def Ctl.planNet (c : Ctl) : Net :=
  let pl := c.plan
  let blank : AgentRec :=
    { fid := 0, dieId := 0, rack := 0, slot := 0, plane := 0, mode := 0, state := 0, named := true, lost := false, purl := false,
      linkLevel := 0, fwVersion := 0, epochBit := 0, digest := 0, level := 0, castOn := true, epoch := 0, immediateNs := 0,
      purlFenced := false, bound := 0, parent := 0xFF, unmet := false, remap := [], sponsor := none, naming := false, namedAt := 0 }
  let locs := pl.locations c.base
  let agents := locs.map fun l =>
    { blank with fid := planFid c.base l, rack := l / 128, slot := l % 128, plane := if slotMode (l % 128) = 1 then l % 128 - 64 else 0,
                 mode := slotMode (l % 128) }
  let links := locs.flatMap fun l => (planBonds pl c.base l).map fun b =>
    { fid := planFid c.base l, bond := b.bond, farFid := b.farFid, farBond := b.farBond, reach := b.reach, lanes := ofBitList b.lanes,
      active := b.lanes.length, d := 0, w := 0, down := false, quarantined := false : SolBond }
  { plan := pl, base := c.base, agents := agents, links := liveLinks links }

/-- The record of an agent at a location as the controller first meets it. -/
def Ctl.newAgent (c : Ctl) (loc dieId : Nat) (blk : Option IdBlock) (sponsor : Option (Nat × Nat)) : AgentRec :=
  let mode := slotMode (loc % 128)
  let st := (blk.map (·.state)).getD 3
  { fid := planFid c.base loc, dieId := dieId, rack := loc / 128, slot := loc % 128, plane := if mode = 1 then loc % 128 - 64 else 0,
    mode := mode, state := st, named := decide (4 ≤ st), lost := false, purl := decide (mode = 1),
    linkLevel := (blk.map (·.linkLevel)).getD 0, fwVersion := (blk.map (·.fwVersion)).getD 0, epochBit := (blk.map (·.epochBit)).getD 0,
    digest := (blk.map (·.patternDigest)).getD 0, level := 0, castOn := decide (st < 6), epoch := (blk.map (·.epochBit)).getD 0,
    immediateNs := 0, purlFenced := false, bound := 0, parent := 0xFF, unmet := false, remap := [], sponsor := sponsor, naming := false, namedAt := 0 }

/-- The keys of R381 from a shared secret. -/
def namingKeys (secret : Bytes) (dieId fid ctlDie : Nat) : AgentKeys :=
  let k := Config.kmac256 secret (le 8 dieId ++ le 4 fid ++ le 8 ctlDie) 768 (ascii "YARULAIS AGENT KEYS")
  { fid := fid, ctlDie := ctlDie, patternKey := slice k 0 32, wrapKey := slice k 32 32, reportKey := slice k 64 32 }

/-- Name a die at a location: KEY_ENCAPS, then the naming Pattern. Without a certificate the die stays UNNAMED. -/
def Ctl.nameAgent (c : Ctl) (a : AgentRec) : Ctl :=
  let loc := locOf a.rack a.slot
  match tget c.flash.certs a.dieId with
  | none => c.discover (aboutAgent 8 0 a.fid loc a.dieId)
  | some cert =>
    let (ct, secret) := Config.kemEncaps (Config.certKey cert) c.die.free
    let c := c.onDie fun d => { d with free := d.free + 1 }
    let ident := leNat ((digestBytes (Config.shake256 ct)).take 16)
    let keys : CtlKeys := { keys := namingKeys secret a.dieId a.fid c.dieId, ident := ident, wrap := 0 }
    let c : Ctl := { c with kst := { c.kst with agentKeys := tset c.kst.agentKeys a.fid keys } }
    let c := c.sendOp a.sponsor a.fid 0x89 (c.die.part.blockIndex Blk.KST) [] (slice (slice ct 0 1568 ++ le 8 c.dieId) 0 1600)
    let g := c.geom.getD { slotCode := 1, countCode := 1, guard := 8 }
    let net := c.planNet
    let tabs := net.tables [] [] ((net.agents.find? fun x => x.fid = a.fid).getD a)
    let a : AgentRec := { a with naming := true, named := false, castOn := true, epoch := 0, namedAt := c.die.up }
    let c := c.onDie fun d => d.forgetForwards a.fid
    let c : Ctl := { c with cst := { c.cst with agents := tset c.cst.agents a.fid a,
                                                streams := c.cst.streams.filter fun s => s.fid ≠ a.fid,
                                                lastNaming := c.die.clk.tick },
                            sol := { c.sol with next := tset c.sol.next a.fid tabs } }
    c.sendAgent a a.sponsor 1 (identRow (c.plan) a :: c.namingRows a ++ tableRows TabSlot.empty tabs ++ [courseRow g none 1 []]) 0 true

/-! ## The comparison of R308 -/

/-- What a comparison gives: the location, whether it differs from the plan, and a remap of the far agent's lanes. -/
inductive Compared where
  | accepted (loc : Nat) (adopted : Bool)
  | held (detail : Nat)
  | extra
  deriving DecidableEq, Repr

/-- Compare a near lane of an agent with the far block over it. -/
def Ctl.compareLane (c : Ctl) (near : AgentRec) (lane : Nat) (blk : IdBlock) : Compared :=
  let pl := c.plan
  match planLane pl c.base (locOf near.rack near.slot) lane with
  | none => .extra
  | some pb =>
    match planLoc pl c.base pb.farFid with
    | none => .extra
    | some far =>
      let slot := far % 128
      let farLane := planFarLane pl c.base pb lane
      let known := (c.cst.agents.map (·.2)).find? fun a => a.dieId = blk.dieId && !a.lost
      let holder := tget c.cst.agents (planFid c.base far)
      let adopt (detail : Nat) : Compared := if pl.adopt then .accepted far true else .held detail
      let place : Compared :=
        if slotMode slot ≠ blk.mode then .held 5
        else if blk.lane = farLane then .accepted far false
        else
          -- the bond of the far agent's own plan that the far lane belongs to
          let own := planLane pl c.base far blk.lane
          match own with
          | some o =>
            if o.farFid = near.fid then adopt 1
            else if blk.mode = 0 then adopt 3
            else .held 4
          | none => adopt 1
      match known with
      | some a =>
        let loc := locOf a.rack a.slot
        if loc = far then place
        else if a.mode ≠ slotMode slot then .held 5
        else if a.mode = 0 then
          (if a.rack ≠ near.rack then .held 5 else if pl.adopt then .accepted loc true else .held 2)
        else if a.mode = 1 then
          (if near.mode = 1 && a.plane = near.plane && (List.range 11).any fun d => neighbour pl.variant d near.rack = a.rack then
            (if pl.adopt then .accepted loc true else .held 4)
          else if near.mode = 0 && a.rack = near.rack then (if pl.adopt then .accepted loc true else .held 3)
          else .held 5)
        else .held 5
      | none =>
        match place with
        | .accepted l ad =>
          (match holder with
            | some h => if h.dieId ≠ blk.dieId && !h.lost then .held 6 else .accepted l ad
            | none => .accepted l ad)
        | r => r

/-! ## Neighbour reports -/

/-- Count what R317 counts of links. -/
def Ctl.countLinks (c : Ctl) : Ctl :=
  let pl := c.plan
  let width (b : SolBond) : Nat := match planLoc pl c.base b.fid with
    | some l => (((planBonds pl c.base l).find? fun x => x.bond = b.bond).map (·.lanes.length)).getD b.active
    | none => b.active
  let held := sumL ((c.cst.reports.filter fun r => r.2.2.2 = 3).map (·.2.1.length))
  let quar := sumL ((c.sol.bonds.filter (·.quarantined)).map (·.active))
  let miss := sumL (c.sol.bonds.map fun b => width b - b.active)
  let narrow := (c.sol.bonds.filter fun b => 0 < b.active && b.active < width b).length
  c.onDie (·.setN Reg.CST_LINKS (satU 16 held + satU 16 quar * 2 ^ 16 + satU 16 miss * 2 ^ 32 + satU 16 narrow * 2 ^ 48))

/-- Take the lanes of an accepted group into the solver input (R192, R309): until its agents report its delays, these are open values
(log entry 21). -/
def Ctl.setBond (c : Ctl) (near : AgentRec) (lanes : List Nat) (pb : PlanBond) (far : AgentRec) : Ctl :=
  let old := c.sol.bonds.find? fun b => b.fid = near.fid && b.bond = pb.bond
  let quar := decide (1 < near.linkLevel - far.linkLevel ∨ 1 < far.linkLevel - near.linkLevel)
  match old with
  | some b =>
    let b' : SolBond := { b with lanes := ofBitList lanes, active := lanes.length, quarantined := quar, farFid := far.fid }
    let c : Ctl := { c with sol := { c.sol with bonds := c.sol.bonds.map fun x => if x = b then b' else x } }
    let c := if b' = b then c else c.changed
    if lanes.length < b.active then c.queueFailure (.bondNarrowed near.fid pb.bond)
    else if b.down ∧ lanes.length ≠ 0 then
      { c with sol := { c.sol with restored := c.sol.restored.filter (· ≠ (near.fid, pb.bond)) ++ [(near.fid, pb.bond)],
                                   restoredNs := some (c.sol.restoredNs.getD c.die.up) } }
    else c
  | none =>
    let (d, die) := c.die.freeVal
    let (a, die) := die.freeVal
    let b : SolBond := { fid := near.fid, bond := pb.bond, farFid := far.fid, farBond := pb.farBond, reach := pb.reach,
                         lanes := ofBitList lanes, active := lanes.length, d := d.toNat % 2 ^ 48, w := 0, down := false, quarantined := quar,
                         asym := ofTwos 32 (a.toNat % 2 ^ 32) }
    let b : SolBond := { b with w := ((c.calibOf b).map (·.1)).getD 0 }
    ({ c with die := die, sol := { c.sol with bonds := c.sol.bonds ++ [b] } } : Ctl).changed

/-- What an agent's identity block says of it. -/
def AgentRec.seen (a : AgentRec) (blk : IdBlock) : AgentRec :=
  { a with state := blk.state, linkLevel := blk.linkLevel, fwVersion := blk.fwVersion, epochBit := blk.epochBit, digest := blk.patternDigest }

/-- The progress or refusal that an unnamed agent's block shows (R469). -/
def Ctl.seenProgress (c : Ctl) (a : AgentRec) (blk : IdBlock) : Ctl :=
  match c.streamOf a.fid with
  | none => c
  | some st =>
    if blk.patCode ≠ 0 then
      let c := (c.streamDone a.fid).discover (aboutAgent 9 blk.patCode a.fid (locOf a.rack a.slot) a.dieId)
      { c with cst := { c.cst with refusals := c.cst.refusals.filter (fun r => r.1 ≠ a.fid) ++ [(a.fid, blk.patCode)] } }
    else if blk.patStream = st.stream then c.progressed a.fid st.stream blk.patNext
    else c

/-- Whether the controller names agents now: in step 7, and after step 10 (R304, R315). -/
def Ctl.naming (c : Ctl) : Bool := (match c.cst.running with
  | some (k, _) => k = 7
  | none => false) || c.stepDone 10

/-- Compare a group, unless its die was already accepted there (R308). -/
def Ctl.compareGroup (c : Ctl) (near : AgentRec) (lane : Nat) (blk : IdBlock) (before : Option Nat) : Compared :=
  match before, (c.cst.agents.map (·.2)).find? fun a => a.dieId = blk.dieId && !a.lost with
  | some 0, some a => .accepted (locOf a.rack a.slot) false
  | _, _ => c.compareLane near lane blk

/-- Places of a list. -/
def indices {α : Type} (l : List α) : List Nat := List.range l.length

/-- Exchange lanes of an agent under plan adopt (R308): each logical lane goes to the physical lane on which its far die is, and the lane that
the plan has there takes the place it leaves (log entry 70). A named agent takes the change with the next install. -/
def Ctl.remapAgent (c : Ctl) (fid : Nat) (pairs : List (Nat × Nat)) (renew : Bool) : Ctl :=
  let moves := pairs.filter fun p => p.1 ≠ p.2
  let both := moves ++ (moves.map fun p => (p.2, p.1)).filter fun q => !(moves.any fun p => p.1 = q.1)
  c.modAgent fid fun a =>
    { a with remap := a.remap.filter (fun q => !(both.any fun p => p.1 = q.1)) ++ both, renew := a.renew || (renew && !both.isEmpty) }

/-- A compared group of lanes: the finding and what follows from it. Reports are handled as they come: the spec gives no moment at which a
wave of R308 ends (log entry 70). -/
def Ctl.takeGroup (c : Ctl) (near : AgentRec) (lanes : List Nat) (blk : IdBlock) : Ctl :=
  let pl := c.plan
  let lane := lanes.headD 0xFF
  let nearLoc := locOf near.rack near.slot
  let pb := planLane pl c.base nearLoc lane
  let find (kind detail planned farFid : Nat) : Finding :=
    { kind := kind, detail := detail, nearLane := lane, farLane := blk.lane, nearFid := near.fid, nearLoc := nearLoc, planned := planned,
      farDie := blk.dieId, farFid := farFid, farLevel := blk.linkLevel }
  let plannedLoc := ((pb.bind fun b => planLoc pl c.base b.farFid)).getD 0xFFFFFFFF
  let note (c : Ctl) (finding : Nat) : Ctl :=
    { c with cst := { c.cst with reports := c.cst.reports.filter (fun r => !(r.1 = near.fid && r.2.2.1.dieId = blk.dieId)) ++ [(near.fid, lanes, blk, finding)] } }
  let before := (c.cst.reports.find? fun r => r.1 = near.fid && r.2.2.1.dieId = blk.dieId).map (·.2.2.2)
  if blk.fabricId ≠ 0 ∧ blk.fabricId ≠ pl.fabricId then
    (note c 3).discover (find 3 7 plannedLoc blk.fid)
  else match c.compareGroup near lane blk before with
  | .extra =>
    if before = some 2 then c
    else ((note c 2).discover (find 2 0 0xFFFFFFFF blk.fid)).raise Ev.EXTRA_NEIGHBOUR
  | .held d =>
    if before = some 3 then c
    else ((note c 3).discover (find 3 d plannedLoc blk.fid)).raise Ev.PLAN_MISMATCH
  | .accepted loc adopted =>
    let fid := planFid c.base loc
    let first := before ≠ some 0
    let c := note c 0
    let c := if adopted ∧ first then c.discover (find 7 0 plannedLoc fid) else c
    let sponsor := match pb with
      | some b => some (near.fid, b.bond)
      | none => none
    let old := tget c.cst.agents fid
    let fresh : Bool := match old with
      | some a => a.lost || a.dieId ≠ blk.dieId || (a.named && decide (blk.state < 4))
      | none => true
    let c := if fresh then
        let a := c.newAgent loc blk.dieId (some blk) sponsor
        let c : Ctl := { c with cst := { c.cst with agents := tset c.cst.agents fid a } }
        let c := c.changed
        if decide (4 ≤ blk.state) && blk.fid ≠ 0x3FFFF then
          (((c.discover (find 0xB 0 plannedLoc fid)).modAgent fid fun a => { a with renew := true }).readActive fid).readFigures fid
        else c
      else c.modAgent fid fun a => a.seen blk
    let c := if !(adopted && first) then c
      else if loc = plannedLoc then
        c.remapAgent fid ((indices lanes).map fun i =>
          ((pb.map fun b => planFarLane pl c.base b (lanes.getD i 0)).getD 0, blk.lane + i)) false
      else
        let own := (((planBonds pl c.base nearLoc).find? fun b => b.farFid = fid).map (·.lanes)).getD []
        c.remapAgent near.fid ((indices lanes).filterMap fun i => (own[i]?).map fun l => (l, lanes.getD i 0)) true
    match tget c.cst.agents fid with
    | none => c
    | some a =>
      let c := match pb with
        | some b => c.setBond near lanes b a
        | none => c
      let c := if 1 < blk.linkLevel - near.linkLevel ∨ 1 < near.linkLevel - blk.linkLevel then
          (if first then (c.discover (find 4 0 plannedLoc fid)).raise Ev.LINK_QUARANTINE else c) else c
      if blk.state = 3 ∧ blk.fid = 0x3FFFF then
        if a.naming && (c.streamOf fid).isSome then c.seenProgress a blk
        else if c.naming then c.nameAgent a
        else c
      else c

/-- A neighbour report (R308): lanes of the group in ascending order; a group that lost all its lanes is gone. -/
def Ctl.neighbourReport (c : Ctl) (fid : Nat) (lanes : List Nat) (blk : IdBlock) : Ctl :=
  match (c.cst.agents.map (·.2)).find? fun a => a.fid = fid && a.named && !a.lost with
  | none => c
  | some near =>
    if lanes.isEmpty then c else ((c.takeGroup near lanes blk).countAgents false).countLinks

/-- NEIGHBOUR_REPORT. -/
def execNeighbourReport (fid : Nat) (lanes : List Nat) (blk : IdBlock) (s : State) : Res :=
  s.ctlNext fun c => c.neighbourReport fid lanes blk

/-- NAME_RESULT_TIMEOUT (R304): no PATTERN_RESULT within 1 s of naming: what the sponsor last reported of the agent decides; a
refused Pattern is reported NAME_REFUSED. -/
def Ctl.nameTimeout (c : Ctl) (dieId : Nat) : Ctl :=
  match (c.cst.agents.map (·.2)).find? fun a => a.dieId = dieId && a.naming with
  | none => c
  | some a =>
    if c.die.up < 1000000000 + a.namedAt then c
    else match (c.cst.reports.filter fun r => r.2.2.1.dieId = dieId).getLast? with
    | some r => c.seenProgress a r.2.2.1
    | none => c

/-- NAME_RESULT_TIMEOUT. -/
def execNameResultTimeout (dieId : Nat) (s : State) : Res := s.ctlNext fun c => c.nameTimeout dieId

/-- The controller at a reference tick: fabric time moves, streams that waited for a drain bound begin (R133), and releases whose course
has come take effect (R231). -/
def Ctl.tickAll (c : Ctl) (e : Agt) : Ctl := (c.tick e).pumpDue.finishReleases

/-- The controller and its embedded agent after one tick of the module's reference: the agent ticks first, so that a master in FOLLOW
copies its time of now (R161), an embedded agent with parent 0xFE then takes the master's (R163), and a telemetry window that the tick
ends is closed (R353). -/
def State.moduleTick (s : State) : State :=
  let t0 := s.emb.die.ns
  let s := s.onAgt .emb Agt.tick
  let c := s.ctl.tickAll s.emb
  (s.onCtl fun _ => c).onAgt .emb fun a => (a.rootTick c.die.clk).windowTick t0

/-- REFERENCE_TICK (R45, R46): one tick of a part's reference; the controller and its embedded agent share the module's. -/
def execReferenceTick (pl : Place) (s : State) : Res :=
  match pl with
  | .agt .twd => s.agtNext .twd fun a => a.tick.windowTick a.die.ns
  | .agt .emb | .ctl => .next s.moduleTick

/-- PATTERN_PROGRESS (R469). -/
def execPatternProgress (fid stream next : Nat) (s : State) : Res := s.ctlNext fun c => c.progressed fid stream next

/-! ## Results of Patterns (R93, R304, R314) -/

/-- Write the operating seconds and power cycles kept of a die into its time base after naming (R438). -/
def Ctl.timeBase (c : Ctl) (fid dieId : Nat) : Ctl :=
  let (sec, cycles) := tgetD c.flash.agentOpsec dieId (0, 0)
  let c : Ctl := { c with flash := { c.flash with agentOpsec := tset c.flash.agentOpsec dieId (sec, cycles + 1) } }
  c.mgmtWrite fid [(Reg.EVR_TIME_BASE, sec % 2 ^ 40 + (cycles + 1) % 2 ^ 24 * 2 ^ 40)]

/-- A Pattern that an agent activated: its epoch, its tables, and its place in cast-on. -/
def Ctl.tookPattern (c : Ctl) (a : AgentRec) (st : Stream) : Ctl :=
  let job := byteAt st.bytes 6 = 2
  let epoch := fieldAt st.bytes 16 8
  let tables := decide (epoch = a.epoch + 1)
  let shadow := if job || !tables then c.sol.shadow
    else match tget c.sol.next a.fid with
      | some t => tset c.sol.shadow a.fid t
      | none => c.sol.shadow
  let first := a.naming
  let a : AgentRec := if job then a
    else if tables then { a with tablesNs := if st.immediate then c.die.ns else st.activate * c.courseNs }
    else a
  let a : AgentRec := if job then a
    else if st.immediate then { a with named := true, naming := false, state := max a.state 4, epoch := epoch, immediateNs := c.die.ns }
    else { a with named := true, state := 6, epoch := max epoch a.epoch, castOn := false }
  let c : Ctl := { c with sol := { c.sol with shadow := shadow },
                          cst := { c.cst with agents := tset c.cst.agents a.fid a, taking := c.cst.taking.filter (· ≠ a.fid) } }
  -- the meter sends METER_ENCAPS once after each naming (R411)
  let c := if first then ((c.meterEncaps a.fid a.dieId false).timeBase a.fid a.dieId).changed else c
  -- BOND rows brought the default asymmetries back, and what the agent measures and holds is read anew (R172, R192)
  if job then c else ((c.installAsym a.fid).readFigures a.fid).readLinks a.fid 2

/-- PATTERN_RESULT from an agent, for the stream in course with that header digest. -/
def Ctl.patternResult (c : Ctl) (fid : Nat) (digest : Digest) (result code : Nat) : Ctl :=
  match tget c.cst.agents fid, c.streamOf fid with
  | some a, some st =>
    if st.digest ≠ leNat ((digestBytes digest).take 16) then c
    else
      let c := match result with
        | 1 => c.tookPattern a st
        | 2 =>
          let c : Ctl := c.discover (aboutAgent 9 code fid (locOf a.rack a.slot) a.dieId)
          { c with cst := { c.cst with refusals := c.cst.refusals.filter (fun (r : Nat × Nat) => r.1 ≠ fid) ++ [(fid, code)] } }
        | _ => c
      (c.streamDone fid).countAgents false
  | _, _ => c

end Sys2Proof.Machine
end

