-- ==== Sys2Proof/Machine/FwSend.lean ====
section
/-! DEFINITION. What the controller sends in a firmware distribution (R499, R500, R506 to R509): chunks, activation courses. -/

namespace Sys2Proof.Machine

/-- An agent's place in the distribution. -/
def Ctl.fdsAgent (c : Ctl) (fid : Nat) : FdsAgent := tgetD c.fds.agents fid { state := 0, bitmap := 0, reported := false }

/-- Store it. -/
def Ctl.setFdsAgent (c : Ctl) (fid : Nat) (x : FdsAgent) : Ctl := { c with fds := { c.fds with agents := tset c.fds.agents fid x } }

/-- Chunks of the image sent out (R498). -/
def Ctl.fdsCount (c : Ctl) : Nat := ceilDiv c.fds.image.length 2048

/-- FDS_STATUS.state (R511). -/
def Ctl.fdsState (c : Ctl) : Nat := c.die.fget Fl.FDS_STATUS_state
def Ctl.setFds (c : Ctl) (st : Nat) : Ctl := c.onDie (·.fset Fl.FDS_STATUS_state st)

/-- Bytes 8 to 31 of a FW_CHUNK's operand (R499): flags bit 0 RELAY_COLUMN, bit 1 LAST_OF_PASS, bit 2 REPAIR. -/
def chunkOperand (imageId i count total flags : Nat) (chunk : Bytes) : Bytes :=
  le 4 imageId ++ le 2 i ++ le 2 count ++ le 4 (crc32c chunk) ++ le 4 total ++ le 1 flags ++ le 1 3 ++ le 6 0

/-- Chunk i of the image. -/
def Ctl.chunkBytes (c : Ctl) (i : Nat) : Bytes := (c.fds.image.drop (2048 * i)).take 2048

/-- Send chunk i: unicast, or a multicast of a mode and root on a bond. -/
def Ctl.sendChunk (c : Ctl) (dst mcast root bond flags i : Nat) : Ctl :=
  let chunk := c.chunkBytes i
  let m : FwdMsg := { dst := dst, op := 0x86, mcast := mcast, root := root, bond := bond,
                      operand := chunkOperand c.fds.imageId i c.fdsCount c.fds.image.length flags chunk, payload := chunk,
                      block := c.die.part.blockIndex Blk.FDS, privilege := 2 }
  c.onDie fun d => (d.count Reg.FDS_CNT_CHUNKS).sendFwd m

/-- The anchor rack: the controller's own. -/
def Ctl.anchorRack (c : Ctl) : Nat := c.ownLoc / 128

/-- The embedded agent's bond to the anchor switch of a plane, where it is live. -/
def Ctl.planeBond (c : Ctl) (p : Nat) : Option Nat := do
  let n := c.net
  let sw ← n.at_ c.anchorRack (64 + p)
  n.bondTo c.embFid sw.fid

/-- The roots of the column multicasts that the controller sends itself in a plane (R500): the lowest populated rack of each
populated column in whose anchor-row rack no plane-p switch is live. -/
def Ctl.bareColumns (c : Ctl) (p : Nat) : List Nat :=
  let n := c.net
  let row := c.anchorRack / 64
  (List.range 64).filterMap fun k =>
    let at_ := row * 64 + k
    let live : Bool := n.plan.populated.contains at_ && (n.at_ at_ (64 + p)).isSome
    if live then none else n.plan.populated.find? fun r => r % 64 = k

/-- Send chunk i as P row multicasts rooted at a rack. -/
def Ctl.sendRow (c : Ctl) (root flags i : Nat) (count : Ctl → Ctl) : Ctl :=
  (List.range c.net.plan.planes).foldl (fun (c : Ctl) p => match c.planeBond p with
    | some b => count (c.sendChunk 0x3FFFF 2 root b flags i)
    | none => c) c

/-- The chunk of a pass (R500). -/
def Ctl.passChunk (c : Ctl) (i : Nat) : Ctl :=
  let last := if i + 1 = c.fdsCount then 2 else 0
  let c := c.sendRow c.anchorRack (1 + last) i fun c => c
  (List.range c.net.plan.planes).foldl (fun (c : Ctl) p => match c.planeBond p with
    | none => c
    | some b => (c.bareColumns p).foldl (fun (c : Ctl) root => c.sendChunk 0x3FFFF 3 root b last i) c) c

/-- Send an agent the chunks that a bitmap lacks by unicast, as repair (R506, R509). -/
def Ctl.unicastMissing (c : Ctl) (fid bitmap : Nat) : Ctl :=
  (List.range c.fdsCount).foldl (fun (c : Ctl) i =>
    if bitOf bitmap i then c else (c.sendChunk fid 0 0 0xFF 4 i).onDie (·.count Reg.FDS_CNT_UNICAST)) c

/-! ## Activation courses (R402, R507, R508) -/

/-- Agents to which an activation goes: FW_READY, and those that were deferred or late once the cause has passed. -/
def Ctl.fdsTargets (c : Ctl) : List Nat :=
  (c.fds.agents.filter fun p => match tget c.cst.agents p.1 with
    | some a => !a.lost && (p.2.state = 3 || (p.2.state = 7 && decide (a.level < 2) && !a.castOn))
    | none => false).map (·.1)

/-- Choose a course at or after a time and send FW_ACTIVATE; it waits for a report in progress (R402), and in the safe state none is
sent (R443). -/
def Ctl.fdsChoose (c : Ctl) (earliest : Nat) : Ctl :=
  match c.geom with
  | none => c
  | some g =>
    if c.die.safe ∨ c.fdsTargets.isEmpty then c
    else if c.kst.jobs.any (·.started) then { c with fds := { c.fds with want := some earliest } }
    else
      let course := ceilDiv (max earliest c.die.ns) g.courseNs
      let fids := c.fdsTargets
      let c : Ctl := { c with fds := { c.fds with course := some course, want := none } }
      let c := if c.fds.activated then c else c.setFds 5
      fids.foldl (fun (c : Ctl) f => c.sendA f 0x54 (le 4 c.fds.imageId ++ le 4 0 ++ le 8 course)) c

/-- The time FDS_CFG.lead_ms from now. -/
def Ctl.fdsLead (c : Ctl) : Nat := c.die.ns + 1000000 * c.die.fget Fl.FDS_CFG_lead_ms

/-- An activation that waited for a report goes on (R402). -/
def Ctl.fdsResume (c : Ctl) : Ctl :=
  match c.fds.want with
  | some t => c.fdsChoose t
  | none => c

/-- A new course for agents that were deferred or late, once the cause has passed (R508). -/
def Ctl.fdsRetry (c : Ctl) : Ctl :=
  if c.fds.activated ∧ c.fdsTargets.any fun f => (c.fdsAgent f).state = 7 then c.fdsChoose c.fdsLead else c

/-- An agent named after the activation with another version gets the image by unicast (R509). -/
def Ctl.fdsLate (c : Ctl) (fid : Nat) : Ctl :=
  match tget c.cst.agents fid with
  | none => c
  | some a =>
    if !c.fds.activated ∨ !a.named ∨ a.fwVersion = (imageHdr c.fds.image).version ∨ [1, 2, 3, 4, 7].contains (c.fdsAgent fid).state then c
    else (c.setFdsAgent fid { state := 1, bitmap := 0, reported := false }).unicastMissing fid 0

/-- PATTERN_RESULT_TAKE (R93): a first activation names the agent, and the firmware in force goes to it where it has another. -/
def execPatternResultTake (fid : Nat) (digest : Digest) (result code _detail _rowSeq : Nat) (s : State) : Res :=
  s.ctlNext fun c =>
    let naming : Bool := match tget c.cst.agents fid with
      | some a => a.naming
      | none => false
    let c := c.patternResult fid digest result code
    (if naming then c.fdsLate fid else c).fdsRetry

end Sys2Proof.Machine
end

