-- ==== Sys2Proof/Machine/CastOn.lean ====
section
/-! DEFINITION. The controller's cast-on steps (R290 to R297, R311, R313 to R315). -/

namespace Sys2Proof.Machine

/-! ## Step registers (R317) -/

/-- Write CST_STEPk. -/
def Ctl.setStep (c : Ctl) (k state fully code detail ms : Nat) : Ctl :=
  c.onDie (·.setN (Reg.CST_STEP1 + 8 * (k - 1)) (state + fully * 4 + code % 256 * 2 ^ 8 + detail % 256 * 2 ^ 16 + satU 32 ms * 2 ^ 32))

/-- The code of a refused run. -/
def Ctl.refuseStep (c : Ctl) (k code : Nat) : Ctl := c.onDie (·.bset (Reg.CST_STEP1 + 8 * (k - 1)) 15 8 code)

/-- Why a run of step k is refused (R291, R349): ORDER or SAFE_STATE. -/
def Ctl.stepRefusal (c : Ctl) (k : Nat) : Option Nat :=
  if c.die.safe then some 0xF3
  else if c.cst.running.isSome ∨ (2 ≤ k ∧ !c.stepDone (k - 1)) ∨ c.stepDone k ∨ c.stepDone 10
      ∨ (7 ≤ k ∧ c.die.bget Reg.RCV_ROLE 0 0 = 0) then some 0xF1
  else none

/-! ## What a step starts -/

/-- Key of the training settings of the controller's own lanes in module flash. -/
def ownTrain : Nat := 0x3FFFF

/-- MGMT_AUTH locks when step 1 starts, and Keystone extends register 5 with it (R293, R377). -/
def Ctl.lockAuth (c : Ctl) : Ctl :=
  if c.die.fget Fl.CTL_LOCK_cast_on = 1 then c
  else (c.onDie (·.fset Fl.CTL_LOCK_cast_on 1)).extend 5 0x50 (Config.eventDigest 0x50 (c.die.fget Fl.KST_MGMT_AUTH_auth))

/-- Whether the embedded agent sees a switch of the anchor rack that serves the fabric of the BASE Pattern (R296). -/
def Ctl.warmNow (c : Ctl) (e : Agt) : Bool :=
  e.fwd.lanes.any fun p => p.2.trained && (match p.2.far with
    | some b => b.mode = 1 && b.state = 6 && b.fabricId = (c.plan).fabricId
    | none => false)

/-- Name the controller's own embedded agent, or record the name it has (R304, R306). -/
def Ctl.nameOwn (c : Ctl) (e : Agt) : Ctl :=
  let loc := c.ownLoc
  let sponsor := some (e.fid, 0xFD)
  let a : AgentRec := { c.newAgent loc c.dieId none sponsor with state := e.castState, named := decide (4 ≤ e.castState),
                                                                 linkLevel := e.die.fw.linkLevel, fwVersion := e.die.fw.version,
                                                                 epoch := e.epoch, epochBit := e.epoch % 2, castOn := e.regime }
  let a : AgentRec := if a.named then { a with fid := e.fid } else a
  let c : Ctl := { c with cst := { c.cst with agents := tset c.cst.agents a.fid a } }
  if a.named then c.changed.readActive a.fid else c.nameAgent a

/-- The embedded agent as step 5 starts (R290, R294, R298): it is brought up, and the lanes that carry nothing, with `full` those not
fully trained too, train from the settings saved in module flash, or fully. -/
def Agt.startPorts (e : Agt) (saved : List TrainEnt) (full : Bool) : Agt :=
  let e := if e.pins.rstN then e else e.resetDeassert 2 false
  let e : Agt := { e with cast := { e.cast with train := saved.foldl (fun t x => tset t x.lane x) [] } }
  let again (l : Lane) : Bool := l.state ≠ 1 && (!l.trained || (full && l.source ≠ 3))
  let todo := (e.fwd.lanes.filter fun p => again p.2).map (·.1)
  (todo.foldl (fun (e : Agt) l => (e.withdraw l).modLane l fun x => { x with state := 0, trainings := 0, retryNs := 0 }) e).startWaiting

/-- Start step k. -/
def State.startStep (s : State) (k : Nat) (full : Bool) : State :=
  let e := s.emb
  let begin_ (c : Ctl) : Ctl :=
    let c : Ctl := { c with cst := { c.cst with running := some (k, full) } }
    ((c.setStep k 1 0 0 0 0).onDie (·.bset Reg.CST_STATUS 3 0 k)).onDie (·.bset Reg.CST_STATUS 5 4 1)
  let s := s.onCtl begin_
  match k with
  | 1 => s.onCtl Ctl.lockAuth
  | 5 =>
    let es := if full then [] else tgetD s.ctl.flash.train ownTrain []
    s.onAgt .emb (·.startPorts es full)
  | 6 => s.onCtl Ctl.patStart
  | 7 => s.onCtl fun c =>
      let c := c.onDie (·.bset Reg.CST_STATUS 6 6 (b2n (c.warmNow e)))
      let c : Ctl := { c with cst := { c.cst with lastNaming := c.die.clk.tick, newSettings := false } }
      (c.nameOwn e).countAgents false
  | 8 => s.onCtl fun c => c.ask 6
  | 9 => s.onCtl fun c => ({ c with cst := { c.cst with refusals := [] } } : Ctl).ask 1
  | _ => s

/-- CST_RUN (R291): CST_CTL is written with run. A step number outside 1 to 10 names no step. -/
def State.cstRun (s : State) (val : Nat) : State :=
  let k := bitsOf val 3 0
  if bitOf val 4 = false ∨ k < 1 ∨ 10 < k then s
  else if s.ctl.die.blockFenced Blk.CST then s.onCtl fun c => c.onDie (·.noteFenced Blk.CST)
  else match s.ctl.stepRefusal k with
    | some code => s.onCtl fun c => c.refuseStep k code
    | none => s.startStep k (bitOf val 6)

/-- CST_RUN. -/
def execCstRun (val : Word) (s : State) : Res := .next (if s.ctl.running then s.cstRun val.toNat else s)

/-! ## How a step ends -/

/-- Stop what a step that does not end DONE has under way: the loader, the naming streams, the tasks asked for. -/
def Ctl.stopWork (c : Ctl) (k : Nat) : Ctl :=
  let c : Ctl := { c with sol := { c.sol with others := c.sol.others.filter fun t => !((k = 8 && t = 6) || (k = 9 && t = 1)) } }
  match k with
  | 6 => c.patAbort
  | 7 => { c with cst := { c.cst with streams := c.cst.streams.filter fun st => !(c.cst.agents.any fun p => p.1 = st.fid && p.2.naming) } }
  | _ => c

/-- The running step ends: code 0 is DONE. -/
def Ctl.endStep (c : Ctl) (k code detail : Nat) (fully : Bool) (ms : Nat) : Ctl :=
  let st := if code = 0 then 2 else 3
  let c := (c.setStep k st (b2n fully) code detail ms).onDie (·.bset Reg.CST_STATUS 5 4 st)
  let c : Ctl := { c with cst := { c.cst with running := none } }
  if code = 0 then (if fully then c.raise Ev.CST_SETTINGS_SAVED k else c)
  else (c.stopWork k).raise Ev.CST_STEP_FAILED k

/-- A duration that no command carries: a value the spec leaves open. -/
def Ctl.openMs (c : Ctl) : Ctl × Nat :=
  let (w, d) := c.die.freeVal
  ({ c with die := d }, w.toNat % 2 ^ 32)

/-- CST_ABORT (R292). -/
def Ctl.cstAbort (c : Ctl) : Ctl :=
  match c.cst.running with
  | none => c
  | some (k, _) =>
    let (c, ms) := c.openMs
    c.endStep k 0xF2 0 false ms

/-- CST_ABORT. -/
def execCstAbort (s : State) : Res := s.ctlNext fun c => c.written Blk.CST Ctl.cstAbort

/-! ### Step 1 (R375, R497) -/

/-- The failing check of an image of a kind: 0 for none, 1 signature, 2 rollback. -/
def Ctl.imageCheck (c : Ctl) (kind : Nat) (b : Bytes) : Nat :=
  let h := imageHdr b
  if !h.formOk ∨ h.kind ≠ kind ∨ !(imageOk [3] b) then 1 else if h.rollback < c.flash.fuses.getD (kind - 1) 0 then 2 else 0

/-- Take an image of a kind as running: its register is extended with its digest. -/
def Ctl.runImage (c : Ctl) (kind : Nat) (b : Bytes) : Ctl :=
  let h := imageHdr b
  let c : Ctl := { c with flash := { c.flash with running := tset c.flash.running kind b, staged := tdel c.flash.staged kind } }
  let c := c.extend (kind - 1) kind (digestOf h.bodyDigest)
  if kind = 2 then c.onDie fun d => { d with fw := { version := h.version, linkLevel := h.linkLevel, index := h.rollback } } else c

/-- Boot one of the two images: a staged one that passes replaces the running one. The image a module is delivered with is not
held here: it passes, and its digest is open (log entry 8). -/
def Ctl.bootImage (c : Ctl) (kind : Nat) : Ctl × Nat :=
  let staged := tget c.flash.staged kind
  let good : Option Bytes := staged.bind fun b => if c.imageCheck kind b = 0 then some b else none
  match good with
  | some b => (c.runImage kind b, 0)
  | none =>
    let c : Ctl := if staged.isSome then
        ({ c with flash := { c.flash with staged := tdel c.flash.staged kind } } : Ctl).raise Ev.FW_PENDING_REFUSED
      else c
    match tget c.flash.running kind with
    | none => (c.extend (kind - 1) kind (Config.eventDigest kind 0), 0)
    | some b => match c.imageCheck kind b with
      | 0 => (c.runImage kind b, 0)
      | n => (c, n)

/-- Keystone's look at the operator store (R383): a store that fails its tag counts as empty. -/
def Ctl.storeWork (c : Ctl) : Ctl :=
  if c.flash.operatorsOk then c.onDie (·.fset Fl.KST_STATUS_store_valid 1) else c.raise Ev.OPERATOR_STORE_INVALID

/-- The work of step 1: Keystone's image and its look at the operator store, then the controller's image. KST_STATUS shows how far
it came (R404). -/
def Ctl.keystoneWork (c : Ctl) : Ctl × Nat × Nat :=
  let (c, r) := c.bootImage 1
  if r ≠ 0 then (c.onDie (·.fset Fl.KST_STATUS_boot 3), 1, r)
  else
    let (c, r) := ((c.onDie (·.fset Fl.KST_STATUS_boot 1)).storeWork).bootImage 2
    if r ≠ 0 then (c.onDie (·.fset Fl.KST_STATUS_boot 3), 1, r) else (c.onDie (·.fset Fl.KST_STATUS_boot 2), 0, 0)

/-! ### Steps 2 and 3 -/

/-- Whether a repair entry names a spare row already used or a row beyond its channel (R485). -/
def badRepairs : List Repair → Bool
  | [] => false
  | r :: rs => decide (Config.channelRows ≤ r.row) || decide (64 ≤ r.spare) || rs.any (fun x => x.channel = r.channel && x.spare = r.spare)
      || badRepairs rs

/-- A mirror that fails its check is rebuilt from the fuses (R485). -/
def Ctl.repairMirror (c : Ctl) : Ctl :=
  if c.flash.mirrorOk then c
  else ({ c with flash := { c.flash with mirrorOk := true, repairs := c.flash.repairs.filter (·.fused) } } : Ctl).raise Ev.MEM_MIRROR_REBUILT

/-- Whether each channel was fully trained: where the step trained only some fully, which ones is open. -/
def Ctl.fullBits (c : Ctl) (full fully : Bool) : Ctl × List Bool :=
  let (w, d) := c.die.freeVal
  let (x, d) := d.freeVal
  let v := w.toNat + x.toNat * 2 ^ 64
  ({ c with die := d }, (List.range 128).map fun i => full || (fully && bitOf v i))

/-- The work of step 2: channels that fail are fenced, the others are usable, and memory is zero (R477 to R479, R485). -/
def Ctl.memoryWork (c : Ctl) (full fully : Bool) (bad : List Nat) : Ctl × Nat × Nat :=
  let c := c.repairMirror
  if badRepairs c.flash.repairs then (c, 0x21, 3)
  else
    let (c, bits) := c.fullBits full fully
    let c := bad.foldl (fun c n => c.fenceChannel n) c
    let good := (List.range c.die.part.memChannels).filter fun n => (c.chan n).state ≠ 3
    let chans := good.foldl (fun t n => tset t n { (c.chan n) with state := 2, fully := bits.getD n false }) c.memu.chans
    let c : Ctl := { c with memu := { c.memu with chans := chans, usable := good, errors := [], merge := [], rowHits := [], rowsBad := [] },
                            die := { c.die with mem := [] } }
    if c.capacity < 1341 * 2 ^ 28 then (c, 0x10, c.die.part.memChannels - good.length) else (c, 0, 0)

/-- The circulating area is usable once step 2 is DONE (R447). -/
def Ctl.eventsStart (c : Ctl) : Ctl := c.onDie fun d => (d.fset Fl.EVR_STATUS_mode 0).drainFallback

/-- The work of step 3: the tile map of the working physical tiles (R190). -/
def Ctl.mapWork (c : Ctl) (bad : List Nat) : Ctl :=
  let good := (List.range 272).filter fun t => !bad.contains t
  let t := c.die.part.tiles
  let c : Ctl := { c with sol := { c.sol with map := good.take t, spares := good.length - t } }
  let c := if good.length < t then c.raise Ev.SOL_TILES_SHORT else c
  c.onDie (·.fset Fl.SOL_CTL_tile_en 1)

/-! ### Step 7 (R309, R310) -/

/-- The planned bonds of the named agents with the lanes that carry nothing, each once: at the end whose far agent is not named,
else at the end of the lower FID. -/
def Ctl.planGaps (c : Ctl) : List (AgentRec × PlanBond × List Nat) :=
  let pl := c.plan
  let live := c.liveAgents
  live.flatMap fun a =>
    (planBonds pl c.base (locOf a.rack a.slot)).filterMap fun b =>
      let mine := !(live.any fun x => x.fid = b.farFid) || decide (a.fid < b.farFid)
      let lanes := ((c.sol.bonds.find? fun x => x.fid = a.fid && x.bond = b.bond).map (·.lanes)).getD 0
      let gone := b.lanes.filter fun l => !(bitOf lanes l)
      if mine && !gone.isEmpty then some (a, b, gone) else none

/-- Report what step 7 did not find. -/
def Ctl.endDiscovery (c : Ctl) : Ctl :=
  let pl := c.plan
  let live := c.liveAgents
  let missing := (pl.locations c.base).filter fun l => !(live.any fun a => locOf a.rack a.slot = l)
  let c := missing.foldl (fun (c : Ctl) l => (c.discover (aboutAgent 1 0 (planFid c.base l) l 0)).raise Ev.AGENT_MISSING) c
  let gaps := c.planGaps
  let c := gaps.foldl (fun (c : Ctl) g =>
    let (a, b, gone) := g
    let far := (planLoc pl c.base b.farFid).getD 0xFFFFFFFF
    let find (kind lane : Nat) : Finding :=
      { kind := kind, detail := 0, nearLane := lane, farLane := planFarLane pl c.base b lane, nearFid := a.fid,
        nearLoc := locOf a.rack a.slot, planned := far, farDie := 0, farFid := b.farFid, farLevel := 0 }
    if gone.length = b.lanes.length then c.discover (find 6 (gone.headD 0xFF))
    else gone.foldl (fun c l => c.discover (find 5 l)) c) c
  (c.countAgents true).countLinks

/-- What follows on a module that took over, whose mirror tells which partitions there are (R348). -/
def Ctl.discovered (c : Ctl) (found : List (Nat × Nat)) : Ctl :=
  if !c.rcv.mirrored.isEmpty ∧ !c.stepDone 10 then c.releaseOrphans found else c

/-! ### Steps 5, 6, 8, 9, 10 -/

/-- Report agents that are not aligned (R313): they receive no COURSE entries. -/
def Ctl.reportUnaligned (c : Ctl) (fids : List Nat) : Ctl :=
  let hit := c.liveAgents.filter fun a => a.unmet || fids.contains a.fid
  hit.foldl (fun (c : Ctl) a =>
    (c.modAgent a.fid fun x => { x with unmet := true }).discover (aboutAgent 0xA 0 a.fid (locOf a.rack a.slot) a.dieId)) c

/-- Step 8 ends: a warm cast-on's master leaves FOLLOW (R313). -/
def Ctl.endPlumb (c : Ctl) (fids : List Nat) : Ctl :=
  let c := c.reportUnaligned fids
  if c.die.bget Reg.CST_STATUS 6 6 = 1 then c.masterMode 0 else c

/-- Step 10 (R315). -/
def Ctl.serve (c : Ctl) : Ctl :=
  let c : Ctl := { c with adm := { c.adm with serving := true } }
  c.onDie fun d => (d.bset Reg.CST_STATUS 7 7 1).fset Fl.CTL_LOCK_tenant_rings 1

/-- The settings of the controller's own lanes that full training gave (R294). -/
def Agt.ownSettings (e : Agt) : List TrainEnt :=
  (e.fwd.lanes.filter fun p => p.2.source = 3).map fun p =>
    { lane := p.1, reach := p.2.cls, preset := 0, flags := 1, settings := slice p.2.settings 0 20, eyeHeight := p.2.eyeH,
      eyeWidth := p.2.eyeW, cycles := e.die.evr.cycles }

/-- What the work of step k found: what it changes, and the failure that follows from it. -/
def Ctl.stepWork (c : Ctl) (e : Agt) (k : Nat) (full fully : Bool) (defects : List Nat) : Ctl × Nat × Nat :=
  match k with
  | 1 => c.keystoneWork
  | 2 => c.memoryWork full fully defects
  | 3 => (c.mapWork defects, 0, 0)
  | 4 =>
    let empty : Bool := c.flash.operators.isEmpty || !c.flash.operatorsOk
    if empty && decide (c.die.fget Fl.KST_STATUS_enrol_armed = 0) then (c, 0x30, 1) else (c, 0, 0)
  | 5 => (c, if e.fwd.lanes.any fun p => p.2.trained then 0 else 0x40, 0)
  | 6 => if c.die.fget Fl.PAT_STATUS_last_result = 2 ∧ c.die.fget Fl.PAT_STATUS_state = 0 then (c, 0x50, c.die.fget Fl.PAT_STATUS_code) else (c, 0, 0)
  | 8 => (c, if e.plbState = 2 then 0 else 0x70, 0)
  | 9 => match c.cst.refusals with
    | (_, code) :: _ => (c, 0x80, code)
    | [] => (c, 0, 0)
  | _ => (c, 0, 0)

/-- What a step that ends DONE brings. -/
def Ctl.stepDoneWork (c : Ctl) (e : Agt) (k : Nat) (fully : Bool) (unaligned : List Nat) (found : List (Nat × Nat)) : Ctl :=
  match k with
  | 2 =>
    let full := (c.memu.chans.filter fun p => p.2.state = 2 && p.2.fully).map (·.1)
    ({ c with flash := { c.flash with memSaved := (c.flash.memSaved ++ full).eraseDups } } : Ctl).eventsStart
  | 5 => if fully then { c with flash := { c.flash with train := tset c.flash.train ownTrain e.ownSettings } } else c
  | 7 => c.endDiscovery.discovered found
  | 8 => c.endPlumb unaligned
  | 10 => c.serve
  | _ => c

/-- The planned agents are all READY or SERVING (R311). -/
def Ctl.allReady (c : Ctl) : Bool :=
  (c.plan.locations c.base).all fun l => c.liveAgents.any fun a => locOf a.rack a.slot = l && 5 ≤ a.state && a.state ≤ 6

/-- Whether the running step's work is still under way as the state shows (R290, R311, R313, R314): in step 6 the loader or the FULL
task, in step 7 an agent that is not READY, in step 8 the PLUMB_TREE task, in step 9 the task or an agent that has not answered. -/
def Ctl.stepBusy (c : Ctl) (k : Nat) : Bool :=
  match k with
  | 6 => c.die.fget Fl.PAT_STATUS_state ≠ 0 || (c.die.fget Fl.PAT_STATUS_last_result ≠ 2 && (c.base.isNone || c.sol.others.contains 1))
  | 7 => !c.allReady
  | 8 => c.sol.others.contains 6
  | 9 => c.cst.refusals.isEmpty && (c.sol.others.contains 1 || !c.cst.taking.isEmpty)
  | _ => false

/-- Whether step k trained something fully (R294): as the command says, as CST_CTL.full asked, or as the agents' reports show. -/
def Ctl.trainedFully (c : Ctl) (k : Nat) (full fully : Bool) : Bool :=
  match k with
  | 2 | 5 => full || fully
  | 7 => full || fully || c.cst.newSettings
  | _ => false

/-- A step's timeout passes (R292, R310, R313): step 8 ends DONE where the embedded agent is LOCKED, and PLUMB where it is not. -/
def Ctl.stepTimeout (c : Ctl) (e : Agt) (ms : Nat) (unaligned : List Nat) : Ctl :=
  match c.cst.running with
  | none => c
  | some (k, _) =>
    if k = 8 then
      if e.plbState = 2 then (c.stepDoneWork e 8 false unaligned []).endStep 8 0 0 false ms else c.endStep 8 0x70 0 false ms
    else (if k = 7 then c.endDiscovery else c).endStep k 0xF0 0 false ms

/-- The running step's work ends (R292): a failure that its own work shows comes first, then the one the command carries. While the state
shows the work under way, it does not end without a failure. -/
def Ctl.stepComplete (c : Ctl) (e : Agt) (code detail : Nat) (fully : Bool) (ms : Nat) (defects : List Nat)
    (found : List (Nat × Nat)) : Ctl :=
  match c.cst.running with
  | none => c
  | some (k, full) =>
    if code % 256 = 0 ∧ c.stepBusy k then c else
    let (late, d) := c.die.takeWait Blk.CST
    let c : Ctl := { c with die := d }
    let fully := c.trainedFully k full fully
    if late then c.stepTimeout e ms defects
    else
      let (c, own, ownDetail) := c.stepWork e k full fully defects
      let code' := if own ≠ 0 then own else code % 256
      let c := if code' = 0 then c.stepDoneWork e k fully [] found else if k = 7 then c.endDiscovery else c
      c.endStep k code' (if own ≠ 0 then ownDetail else detail) fully ms

/-- CST_STEP_COMPLETE (R292). -/
def execCstStepComplete (code detail : Nat) (fully : Bool) (ms : Nat) (defects : List Nat) (found : List (Nat × Nat)) (s : State) : Res :=
  s.ctlNext fun c => c.stepComplete s.emb code detail fully ms defects found

/-- CST_STEP_TIMEOUT (R292). -/
def execCstStepTimeout (ms : Nat) (unaligned : List Nat) (s : State) : Res :=
  s.ctlNext fun c => c.stepTimeout s.emb ms unaligned

/-- DISCOVERY_QUIET (R311): step 7 ends DONE once no agent was named for quiet_s seconds and every NAMED agent is READY. -/
def Ctl.quiet (c : Ctl) (found : List (Nat × Nat)) : Ctl :=
  match c.cst.running with
  | some (7, full) =>
    let named := c.cst.agents.filter fun p => (p.2.named || p.2.naming) && !p.2.lost
    if c.die.clk.tick < c.cst.lastNaming + 156250000 * c.die.fget Fl.CST_CFG_quiet_s ∨ named.any (fun p => p.2.state < 5) then c
    else
      let (c, ms) := c.openMs
      (c.endDiscovery.discovered found).endStep 7 0 0 (c.trainedFully 7 full false) ms
  | _ => c

/-- DISCOVERY_QUIET. -/
def execDiscoveryQuiet (found : List (Nat × Nat)) (s : State) : Res := s.ctlNext fun c => c.quiet found

end Sys2Proof.Machine
end

