-- ==== Sys2Proof/Machine/CtlRcv.lean ====
section
/-! DEFINITION. Recovery at the controller (R330, R342 to R352): commands to agents and their reports, reinitialising functions,
controller reset, takeover and the mirror, and the controller's dumps. -/

namespace Sys2Proof.Machine

/-! ## Commands to agents (R330, R343) -/

/-- RCV_CMD is written. -/
def Ctl.rcvCmd (c : Ctl) (val : Nat) : Ctl :=
  if c.die.bget Reg.RCV_CMD_STATUS 1 0 = 1 then c.raise (Ev.WRITE_IGNORED Blk.RCV)
  else
    let fid := bitsOf val 17 0
    let level := bitsOf val 20 18
    let flags := bitsOf val 33 32
    let c := (c.sendA fid 0x02 (le 1 level ++ le 1 (bitsOf val 31 24) ++ le 1 flags)).onDie fun d =>
      (d.count Reg.RCV_CNT_CMD).setN Reg.RCV_CMD_STATUS 1
    { c with rcv := { c.rcv with cmd := some (fid, level, flags, c.die.up) } }

/-- RCV_CMD. -/
def execRcvCmd (val : Word) (s : State) : Res := s.ctlNext fun c => c.written Blk.RCV fun c => c.rcvCmd val.toNat

/-- RCV_CMD_STATUS after a report, or after none. -/
def Ctl.rcvStatus (c : Ctl) (result level dumpSeq : Nat) : Ctl :=
  c.onDie (·.setN Reg.RCV_CMD_STATUS (2 + result * 2 ^ 8 + level % 8 * 2 ^ 16 + dumpSeq % 2 ^ 32 * 2 ^ 32))

/-- Flags of the command kept in rcv.cmd beside R330's: the agent has reported its start; the wait ended TIMED_OUT. -/
def cmdStarted : Nat := 4
def cmdLate : Nat := 8

/-- The partitions that an endpoint is a member of. -/
def Ctl.partsOf (c : Ctl) (fid : Nat) : List PartPlan := c.adm.parts.filter fun p => p.phase = 1 && p.members.contains fid

/-- The body of CONTEXT_LOST (R341): fid, level, target, at_ns. -/
def Ctl.contextBody (c : Ctl) (fid level target : Nat) : Bytes := le 4 fid ++ le 1 level ++ le 1 target ++ le 2 0 ++ le 8 c.die.ns

/-- ENDPOINT_RESET with a phase (R341, R342), once while the phase stands: a STARTED until the level ends, a FAILED until
another level starts or ends. -/
def Ctl.endpointReset (c : Ctl) (fid level phase : Nat) : Ctl :=
  (c.partsOf fid).foldl (fun (c : Ctl) p =>
    let key (code : Nat) := (code, p.tag, fid)
    let ended := c.rcv.standing.filter fun k => k ≠ key 2 && k ≠ key 18
    if phase ≠ 1 ∧ c.rcv.standing.contains (key (2 + 8 * phase)) then c
    else
      let l := if phase = 1 then ended else ended ++ [key (2 + 8 * phase)]
      ({ c with rcv := { c.rcv with standing := l } } : Ctl).notify p.members 2 p.tag (c.contextBody fid level phase)) c

/-- What a report of a level brings to the fabric: notices (R342), shard holdings (R211), a switch that goes down (R332). -/
def Ctl.levelReport (c : Ctl) (fid level target result : Nat) : Ctl :=
  let switch : Bool := match tget c.cst.agents fid with
    | some a => a.mode = 1
    | none => false
  if result = reportStarted then
    let c := c.modAgent fid fun a => { a with level := level, failedLevel := 0 }
    if level < 4 then { c with rcv := { c.rcv with standing := c.rcv.standing.filter fun k => !(k.1 = 18 && k.2.2 = fid) } }
    else
      let c := c.endpointReset fid level 0
      let c := ({ c with sol := { c.sol with lostHolders := c.sol.lostHolders ++ [(fid, none)] } } : Ctl).ask 7
      if switch then c.queueFailure (.agentLost fid) else c
  else if result = reportDone then
    let c := c.modAgent fid fun a => { a with level := 0, failedLevel := 0 }
    if 4 ≤ level then c.endpointReset fid level 1
    else if 1 ≤ level then (c.partsOf fid).foldl (fun (c : Ctl) p =>
      c.notify p.members 1 p.tag (c.contextBody fid level (if level = 3 then 0xFF else target))) c
    else c
  else if result = reportFailed then
    let c := c.modAgent fid fun a => { a with level := 0, failedLevel := level }
    if 4 ≤ level then c.endpointReset fid level 2 else c
  else c

/-- RECOVERY_REPORT at the controller. A report that comes after the wait for it has ended is counted, and nothing else. -/
def Ctl.recoveryReport (c : Ctl) (fid level target result origin dumpSeq : Nat) : Ctl :=
  let c := c.onDie (·.count Reg.RCV_CNT_REPORTS)
  match c.rcv.cmd with
  | some (f, l, flags, ns) =>
    let mine : Bool := f = fid && (origin = 2 || level = 0 || result = reportBusy || (result = reportFailed && origin = 0))
    if !mine then c.levelReport fid level target result
    else if bitOf flags 3 then
      ({ c with rcv := { c.rcv with cmd := none } } : Ctl).onDie (·.count Reg.RCV_CNT_LATE_ARRIVAL)
    else
      let (forced, d) := c.die.takeWait Blk.RCV
      let c : Ctl := { c with die := d }
      if (forced ∨ 1000000000 + ns < c.die.up) ∧ !(bitOf flags 2) then
        (({ c with rcv := { c.rcv with cmd := none } } : Ctl).rcvStatus 3 0 0).onDie (·.count Reg.RCV_CNT_LATE_ARRIVAL)
      else if result = reportStarted then
        ({ c with rcv := { c.rcv with cmd := some (f, l, putBits flags 2 2 1, ns) } } : Ctl).levelReport fid level target result
      else
        (({ c with rcv := { c.rcv with cmd := none } } : Ctl).rcvStatus result level dumpSeq).levelReport fid level target result
  | none => c.levelReport fid level target result

/-- RECOVERY_REPORT. -/
def execRecoveryReport (fid level target result origin dumpSeq : Nat) (s : State) : Res :=
  s.ctlNext fun c => c.works Blk.RCV fun c => (c.recoveryReport fid level target result origin dumpSeq).fdsRetry

/-- RECOVERY_REPORT_TIMEOUT (R343): no report within 1 s of the command. -/
def Ctl.reportTimeout (c : Ctl) : Ctl :=
  match c.rcv.cmd with
  | some (f, l, flags, ns) =>
    if bitOf flags 2 ∨ bitOf flags 3 ∨ c.die.up < 1000000000 + ns then c
    else ({ c with rcv := { c.rcv with cmd := some (f, l, flags % 4 + cmdLate, ns) } } : Ctl).rcvStatus 3 0 0
  | none => c

/-- RECOVERY_REPORT_TIMEOUT. -/
def execRecoveryReportTimeout (s : State) : Res := s.ctlNext fun c => c.works Blk.RCV Ctl.reportTimeout

/-! ## Functions (R344, R345) -/

/-- The functions that can be reinitialised. -/
def reinitBlocks : List Nat :=
  [Blk.SOL, Blk.PAT, Blk.ADM, Blk.SHD, Blk.TEL, Blk.FDS, Blk.DMP, Blk.GAU, Blk.WER, Blk.MBX, Blk.CVU, Blk.EVR, Blk.MNP]

/-- The state of a block in RCV_FUNC_STATUS. -/
def Ctl.funcState (c : Ctl) (k : Nat) : Nat := c.die.bget Reg.RCV_FUNC_STATUS (2 * k + 1) (2 * k)
def Ctl.setFunc (c : Ctl) (k v : Nat) : Ctl := c.onDie (·.bset Reg.RCV_FUNC_STATUS (2 * k + 1) (2 * k) v)

/-- A dump in progress ends with its unread blocks NOT_READ. -/
def Ctl.cutDump (c : Ctl) (e : Agt) : Ctl :=
  match c.rcv.dump with
  | none => c
  | some d =>
    let d := (List.range 108).foldl (fun (d : Dump) i => d.put i .notRead) d
    ({ c with rcv := { c.rcv with dump := some d } } : Ctl).endDump e

/-- RCV_FUNC_REINIT is written: each function is fenced, and the controller dump starts, also where the dump engine is the function
(R345; log entry 47). -/
def Ctl.funcReinit (c : Ctl) (e : Agt) (val : Nat) : Ctl :=
  let bits := bitList val 64
  let name (k : Nat) : Nat := c.die.part.blocks.getD k 0xFFFF
  let good := bits.filter fun k => reinitBlocks.contains (name k) && !(c.rcv.reinit.contains k)
  let c := if bits.any fun k => !(reinitBlocks.contains (name k)) then c.raise (Ev.WRITE_IGNORED Blk.RCV) else c
  if good.isEmpty then c
  else
    let c := if good.any fun k => name k = Blk.DMP then c.cutDump e else c
    let c := good.foldl (fun (c : Ctl) k =>
      ((c.setFunc k 1).onDie fun d => (d.bset Reg.RCV_FUNC_REINIT k k 1).bset Reg.FLC_FENCED k k 1)) c
    let since := good.foldl (fun t k => tset t k c.die.up) c.rcv.reinitNs
    ({ c with rcv := { c.rcv with reinit := c.rcv.reinit ++ good, reinitNs := since } } : Ctl).beginDump 4

/-- FUNC_REINIT. -/
def execFuncReinit (val : Word) (s : State) : Res := s.ctlNext fun c => c.written Blk.RCV fun c => c.funcReinit s.emb val.toNat

/-- A FAILED record of reason 0x0F (R345). -/
def Ctl.reinitFailed (c : Ctl) (requestId tag : Nat) : Ctl :=
  (c.onDie (·.count Reg.ADM_CNT_FAILED)).reply
    { kind := 3, result := 0, reason := 0x0F, detail := 0xFF, requestId := requestId, tag := tag, course := 0, reactUs := 0, batchUs := 0,
      dumpUs := 0, figs := [] }

/-- ADM: the queued requests and a running COMPILE end with FAILED records. -/
def Ctl.reinitAdm (c : Ctl) : Ctl :=
  let running := if c.taskNow = 4 then c.adm.parts.find? (fun p => p.phase = 0) else none
  let q := c.adm.queue
  let c : Ctl := { c with adm := { c.adm with queue := [] } }
  let c := q.foldl (fun (c : Ctl) r =>
    let (c, b, _) := c.memRead r.1 4
    c.reinitFailed (leNat b) 0) c
  match running with
  | none => c
  | some p =>
    let parts := c.adm.parts.filter fun x => !(x.tag = p.tag && x.inst = p.inst)
    (({ c with adm := { c.adm with parts := parts } } : Ctl).changed).reinitFailed p.requestId p.tag

/-- What the reinitialisation of a function ends (R345). Shard commands, gauge and wear computations are single commands here,
so none is in progress; a distribution goes on from the chunk bitmaps. -/
def Ctl.reinitWork (c : Ctl) (blk : Nat) : Ctl :=
  if blk = Blk.SOL then (if c.taskNow = 0 then c else c.onDie (·.count Reg.SOL_CNT_RESTART))
  else if blk = Blk.PAT then c.patAbort
  else if blk = Blk.ADM then c.reinitAdm
  else if blk = Blk.TEL then { c with tel := { c.tel with maps := [], tenant := [] } }
  else if blk = Blk.MBX then c.onDie Die.reinitB
  else if blk = Blk.CVU then c.onDie Die.cvuReinit
  else if blk = Blk.EVR then
    c.onDie fun d => ({ d with evr := { d.evr with queue := [] } } : Die).countN Reg.EVR_CNT_QUEUE_DROP d.evr.queue.length
  else if blk = Blk.FDS then { c with fds := { c.fds with next := c.fdsCount } }
  else if blk = Blk.MNP then
    let c := c.mortar.foldl (fun (c : Ctl) m => c.onDie (·.emit (.conn "mortar_reset" m.id))) c
    { c with mortar := [] }
  else c

/-- Whether a function's reinitialisation has taken longer than 50 ms (R345). -/
def Ctl.reinitLate (c : Ctl) (k : Nat) : Bool := 50000000 + tgetD c.rcv.reinitNs k 0 < c.die.up

/-- A reinitialisation ends: the fence and the bit go. -/
def Ctl.endReinit (c : Ctl) (k : Nat) : Ctl :=
  let (forced, d) := c.die.takeWait Blk.RCV
  let c : Ctl := { c with die := d }
  let c := c.onDie (·.bset Reg.RCV_FUNC_REINIT k k 0)
  if forced ∨ c.reinitLate k then (c.setFunc k 3).onDie (·.count Reg.RCV_CNT_LATE_ARRIVAL)
  else
    let c := (c.reinitWork (c.die.part.blocks.getD k 0xFFFF)).onDie fun d =>
      { (d.bset Reg.FLC_FENCED k k 0).count Reg.RCV_CNT_REINIT with
        units := d.units.map fun u => if u.block = k then { u with fenced := false } else u }
    c.setFunc k 0

/-- The controller's dump is complete (R340, R345): the reinitialisations that waited for it end; one that had timed out is a
late arrival. -/
def Ctl.dumpComplete (c : Ctl) (e : Agt) : Ctl :=
  let forReinit : Bool := match c.rcv.dump with
    | some d => d.trigger = 4
    | none => false
  let c := c.endDump e
  let ks := c.rcv.reinit
  let c : Ctl := { c with rcv := { c.rcv with reinit := [] } }
  if ks.isEmpty && forReinit then c.onDie (·.count Reg.RCV_CNT_LATE_ARRIVAL) else ks.foldl (fun c k => c.endReinit k) c

/-- DUMP_COMPLETE. -/
def execDumpComplete (pl : Place) (s : State) : Res :=
  match pl with
  | .agt w => s.agtNext w Agt.dumpComplete
  | .ctl => s.ctlNext fun c => if c.rcv.dump.isNone then c else c.dumpComplete s.emb

/-- FUNC_REINIT_TIMEOUT (R343): a reinitialisation is not complete within 50 ms; `block` is the block index. -/
def Ctl.reinitTimeout (c : Ctl) (k : Nat) : Ctl :=
  if !c.rcv.reinit.contains k ∨ c.die.up < 50000000 + tgetD c.rcv.reinitNs k 0 then c
  else
    let c : Ctl := { c with rcv := { c.rcv with reinit := c.rcv.reinit.filter (· ≠ k) } }
    (c.setFunc k 3).onDie (·.bset Reg.RCV_FUNC_REINIT k k 0)

/-- FUNC_REINIT_TIMEOUT. -/
def execFuncReinitTimeout (block : Nat) (s : State) : Res := s.ctlNext fun c => c.reinitTimeout block

/-- FUNC_HUNG (R344). -/
def execFuncHung (block : Nat) (s : State) : Res :=
  s.ctlNext fun c =>
    if c.die.part.blocks.length ≤ block ∨ c.funcState block = 2 then c else (c.setFunc block 2).raise Ev.FUNC_HUNG block

/-! ## Controller reset (R346, R427, R533) -/

/-- The recorder after a controller reset: the retained and last-gasp areas stay, operating seconds count on (R438, R445). -/
def Evr.afterReset (d : Die) : Evr :=
  { Evr.reset with retained := d.evr.retained, sinceClear := d.evr.sinceClear, lastGasp := d.evr.lastGasp, secBase := d.opsec,
                   cycles := d.evr.cycles, based := d.evr.based, savedSec := d.evr.savedSec, savedCycles := d.evr.savedCycles }

/-- The registers that show module flash and the fuses after reset: the retained records, the network address, test mode. -/
def Die.afterReset (d : Die) (f : Flash) (testEn : Bool) : Die :=
  let d := (d.bset Reg.EVR_RET_COUNT 12 0 d.evr.retained.length).fset Fl.EVR_STATUS_retained_full (b2n (d.evr.retained.length ≥ 4096))
  let d := if f.mnpAddr = 0 then d else (d.setN Reg.MNP_ADDR0 (f.mnpAddr % 2 ^ 64)).setN (Reg.MNP_ADDR0 + 8) (f.mnpAddr / 2 ^ 64 % 2 ^ 64)
  let d := d.bset Reg.MNP_CFG 15 0 f.mnpPort
  d.fset Fl.KST_STATUS_test_mode (b2n testEn)

/-- A controller after a controller reset (log entry 22). The meter island keeps its registers and its lock; Keystone, in the
standby domain, keeps the agents' keys, the tenant keys and its sequence; the admitted partitions and the sequences of the derived
Patterns are kept; outputs already made stay made. The reference clock is taken to run again (R541). -/
def Ctl.restarted (c : Ctl) (testEn : Bool) : Ctl :=
  let f := Ctl.fresh c.die.part c.dieId c.flash c.meter { c.pwr with refclk := true }
  let ring := c.die.fget Fl.CTL_LOCK_meter_ring
  let d : Die := { f.die with rf := c.die.rf.filter fun p => p.1 / 0x10000 = Blk.MTR, out := c.die.out, free := c.die.free,
                              testEn := testEn, fw := c.die.fw, evr := Evr.afterReset c.die }
  let d := (((d.afterReset c.flash testEn).setN Reg.KST_SEQ (c.die.getN Reg.KST_SEQ)).setN Reg.FAB_AGENT (c.die.getN Reg.FAB_AGENT)).fset
    Fl.CTL_LOCK_meter_ring ring
  let f : Ctl := { f with die := d, kst := { f.kst with tenant := c.kst.tenant, agentKeys := c.kst.agentKeys,
                                                        nextSession := c.kst.nextSession },
                          adm := { f.adm with parts := c.adm.parts, inst := c.adm.inst },
                          fds := { f.fds with imageId := c.fds.imageId },
                          cst := { f.cst with seqs := c.cst.seqs, nextStream := c.cst.nextStream } }
  let f := if c.die.alertN then f else f.onDie (·.emit (.pin "ALERT_N" true))
  (if testEn then f.extend 5 0x51 (Config.eventDigest 0x51 1) else f).meterResume

/-- RCV_CTL.ctrl_reset (R346): the dump goes to module flash, then the controller resets. TEST_EN stands as it was last sampled. -/
def Ctl.ctrlReset (c : Ctl) (e : Agt) (val : Nat) : Ctl :=
  if !bitOf val 0 ∨ bitsOf val 15 8 ≠ 0x5A then c
  else (((c.cutDump e).startDump 5).endDump e).restarted c.die.testEn

/-- CTRL_RESET. -/
def execCtrlReset (val : Word) (s : State) : Res := s.ctlNext fun c => c.written Blk.RCV fun c => c.ctrlReset s.emb val.toNat

/-- RCV_CLEAR_COUNTERS (R351). -/
def execRcvClearCounters (s : State) : Res := s.ctlNext fun c => c.written Blk.RCV fun c => c.onDie (·.clearCounters Blk.RCV)

/-! ## The mirror (R347, R401, R457) -/

/-- A record of the mirror: a type, and a content in the layout of this model (log entry 23). -/
def mirrorRec (t : Nat) (body : Bytes) : Bytes := le 1 t ++ le 3 0 ++ le 4 body.length ++ body

/-- The key of the wrapping between paired modules, from the session of the peer; none where none is open (R401). -/
def Ctl.pairKey (c : Ctl) : Option Bytes :=
  (c.kst.conns.find? fun x => x.peer && x.phase = 5).map fun x => Config.kmac256 x.secret [] 256 (ascii "YARULAIS PAIR")

/-- The agents' keys and wrap counters, in clear. -/
def Ctl.keyBytes (c : Ctl) : Bytes :=
  c.kst.agentKeys.flatMap fun p =>
    le 4 p.1 ++ le 8 p.2.keys.ctlDie ++ slice p.2.keys.patternKey 0 32 ++ slice p.2.keys.wrapKey 0 32 ++ slice p.2.keys.reportKey 0 32
    ++ le 16 p.2.ident ++ le 8 p.2.wrap

/-- A partition in the mirror: what was admitted for it. -/
def PartPlan.mirror (p : PartPlan) : Bytes :=
  le 2 p.tag ++ le 2 p.flags ++ le 4 p.inst ++ le 4 p.requestId ++ le 4 p.gen ++ le 4 p.cgCount ++ le 4 p.reactionUs ++ le 4 p.dumpUs
  ++ le 16 p.trafficKey ++ le 16 p.dumpKey ++ le 2 p.trafficSlot ++ le 2 p.dumpSlot ++ le 4 p.period ++ le 8 p.activateCourse
  ++ le 8 p.reactNs ++ le 8 p.batchNs ++ le 8 p.dumpNs ++ le 1 p.phase ++ le 1 (b2n p.activeNs.isSome) ++ le 8 (p.activeNs.getD 0)
  ++ le 4 p.members.length ++ le 4 p.colls.length ++ le 4 p.samples.length ++ p.members.flatMap (le 4)
  ++ (p.colls.flatMap fun k => le 4 k.id ++ le 1 k.plan ++ le 1 k.op ++ le 1 k.inFmt ++ le 1 k.outFmt ++ le 1 k.rounding ++ le 1 k.overflow
      ++ le 1 k.compiled ++ le 1 k.cause ++ le 4 k.divisor ++ le 8 k.seed ++ le 4 k.elements ++ le 4 k.root ++ le 4 k.turn ++ le 8 k.deadline
      ++ le 4 k.courses ++ le 8 k.stepNs)
  ++ (p.samples.flatMap sampleBytes)

/-- The mirrored collective of these 56 bytes. -/
def mirrorColl (b : Bytes) : Coll :=
  { id := fieldAt b 0 4, plan := byteAt b 4, op := byteAt b 5, inFmt := byteAt b 6, outFmt := byteAt b 7, rounding := byteAt b 8,
    overflow := byteAt b 9, compiled := byteAt b 10, cause := byteAt b 11, divisor := fieldAt b 12 4, seed := fieldAt b 16 8,
    elements := fieldAt b 24 4, root := fieldAt b 28 4, turn := fieldAt b 32 4, deadline := fieldAt b 36 8, courses := fieldAt b 44 4,
    stepNs := fieldAt b 48 8, atRisk := false }

/-- The partition of a mirror record's content. Its courses are compiled again by the next FULL task. -/
def mirrorPart (b : Bytes) : PartPlan :=
  let m := fieldAt b 110 4
  let k := fieldAt b 114 4
  let n := fieldAt b 118 4
  let rest := b.drop 122
  let colls := (chunksOf 56 k (rest.drop (4 * m))).map mirrorColl
  let samples := (chunksOf 24 n (rest.drop (4 * m + 56 * k))).map fun e =>
    { engine := byteAt e 1, length := fieldAt e 4 4, offset := fieldAt e 8 8, partition := fieldAt b 0 2 : Sample }
  { tag := fieldAt b 0 2, flags := fieldAt b 2 2, inst := fieldAt b 4 4, requestId := fieldAt b 8 4, gen := fieldAt b 12 4,
    cgCount := fieldAt b 16 4, reactionUs := fieldAt b 20 4, dumpUs := fieldAt b 24 4, trafficKey := fieldAt b 28 16,
    dumpKey := fieldAt b 44 16, trafficSlot := fieldAt b 60 2, dumpSlot := fieldAt b 62 2, period := fieldAt b 64 4,
    activateCourse := fieldAt b 68 8, reactNs := fieldAt b 76 8, batchNs := fieldAt b 84 8, dumpNs := fieldAt b 92 8,
    phase := byteAt b 100, activeNs := if byteAt b 101 = 1 then some (fieldAt b 102 8) else none,
    members := (chunksOf 4 m rest).map leNat, colls := colls, samples := samples, switches := [], runs := [], purls := [],
    replaces := 0, atRisk := [] }

/-- The records of a mirroring (R347). The agents' keys go only wrapped, so only while the pair has a session. -/
def Ctl.mirrorRecords (c : Ctl) : List Bytes :=
  let base := match c.base with
    | some p => [mirrorRec 1 (p.headerBytes ++ p.rows.flatMap fun r => rowBytes r.rtype r.targetKind r.target r.seq r.payload)]
    | none => []
  let parts := c.adm.parts.map fun p => mirrorRec 3 p.mirror
  let shards := c.shards.map fun p => mirrorRec 4 (le 4 p.1 ++ p.2.bytes)
  let seqs := mirrorRec 5 (c.cst.seqs.flatMap fun p => le 8 p.1 ++ le 8 p.2)
  let calib := mirrorRec 6 (c.flash.calib.flatMap fun x => le 4 x.1 ++ le 4 x.2.1 ++ le 4 (toTwos 32 x.2.2.1) ++ le 4 x.2.2.2)
  let train := c.flash.train.map fun p => mirrorRec 7 (le 4 p.1 ++ p.2.flatMap trainBytes)
  let keys := match c.pairKey with
    | some k =>
      let nonce := le 12 (c.die.getN Reg.KST_SEQ)
      let (ct, tag) := Config.gcmSeal k nonce [] c.keyBytes
      [mirrorRec 8 (nonce ++ slice tag 0 16 ++ ct)]
    | none => []
  base ++ [mirrorRec 2 (le 4 c.sol.gen ++ c.inputBytes)] ++ parts ++ shards ++ [seqs, calib] ++ train ++ keys ++ [mirrorRec 9 (le 4 c.adm.inst)]

/-- MIRROR_SEND (R347): the active module has new records for the standby. -/
def Ctl.mirrorSend (c : Ctl) : Ctl :=
  if c.die.bget Reg.RCV_ROLE 0 0 = 0 then c
  else
    ({ c with rcv := { c.rcv with mirror := c.mirrorRecords, mirrorNs := c.die.up } } : Ctl).onDie
      (·.bset Reg.RCV_MIRROR 31 0 c.sol.gen)

/-- MIRROR_SEND. -/
def execMirrorSend (s : State) : Res := s.ctlNext Ctl.mirrorSend

/-- The wrapped keys of a mirror record, where they open. -/
def Ctl.takeKeys (c : Ctl) (b : Bytes) : Ctl :=
  match c.pairKey with
  | none => c
  | some k =>
    let nonce := slice b 0 12
    let tag := slice b 12 16
    let ct := b.drop 28
    if !(Config.gcmOk k nonce [] ct tag) then c
    else
      let plain := Config.gcmOpen k nonce [] ct
      let es := chunksOf 132 (plain.length / 132) plain
      let keys := es.foldl (fun t e =>
        let k : AgentKeys := { fid := fieldAt e 0 4, ctlDie := fieldAt e 4 8, patternKey := slice e 12 32, wrapKey := slice e 44 32,
                               reportKey := slice e 76 32 }
        tset t (fieldAt e 0 4) { keys := k, ident := fieldAt e 108 16, wrap := fieldAt e 124 8 : CtlKeys }) c.kst.agentKeys
      { c with kst := { c.kst with agentKeys := keys } }

/-- What a standby takes from one mirror record (R347): the state of that record is its own from then on. -/
def Ctl.takeMirror (c : Ctl) (r : Bytes) : Ctl :=
  let b := slice r 8 (fieldAt r 4 4)
  let c : Ctl := { c with rcv := { c.rcv with mirrored := c.rcv.mirrored ++ [r] } }
  match byteAt r 0 with
  | 1 => { c with base := some (patternOf (b.take 256 ++ List.replicate (parseHeader b).authLength 0 ++ b.drop 256)) }
  | 2 =>
    ({ c with rcv := { c.rcv with mirrorNs := c.die.up }, sol := { c.sol with gen := fieldAt b 0 4 } } : Ctl).onDie
      (·.bset Reg.RCV_MIRROR 31 0 (fieldAt b 0 4))
  | 3 =>
    let p := mirrorPart b
    { c with adm := { c.adm with parts := c.adm.parts.filter (fun x => !(x.tag = p.tag && x.inst = p.inst)) ++ [p] } }
  | 4 => { c with shards := tset c.shards (fieldAt b 0 4) (shardOf (b.drop 4)) }
  | 5 => { c with cst := { c.cst with seqs := (chunksOf 16 (b.length / 16) b).foldl (fun t e => tset t (fieldAt e 0 8) (fieldAt e 8 8)) c.cst.seqs } }
  | 6 =>
    let es := (chunksOf 16 (b.length / 16) b).map fun e => (fieldAt e 0 4, fieldAt e 4 4, ofTwos 32 (fieldAt e 8 4), fieldAt e 12 4)
    { c with flash := { c.flash with calib := c.flash.calib.filter (fun x => !(es.any fun y => y.1 = x.1 && y.2.1 = x.2.1)) ++ es } }
  | 7 => { c with flash := { c.flash with train := tset c.flash.train (fieldAt b 0 4) ((chunksOf 32 ((b.length - 4) / 32) (b.drop 4)).map trainOf) } }
  | 8 => c.takeKeys b
  | 9 => { c with adm := { c.adm with inst := fieldAt b 0 4 } }
  | _ => c

/-! ## Takeover (R348, R349, R390, R391) -/

/-- RCV_ROLE.active is set: the module becomes the active one; what it takes from a mirror goes on above what the old active may
have used since. The next sequence of each kind and scope is then the mirrored one plus 2^32 (R348). -/
def Ctl.roleActive (c : Ctl) (val : Nat) : Ctl :=
  if !bitOf val 0 ∨ c.die.bget Reg.RCV_ROLE 0 0 = 1 then c
  else
    let c := (c.onDie (·.bset Reg.RCV_ROLE 0 0 1)).extend 7 0x70 (Config.eventDigest 0x70 1)
    if c.rcv.mirrored.isEmpty then c
    else
      let keys := c.kst.agentKeys.map fun p => (p.1, { p.2 with wrap := p.2.wrap + 2 ^ 32 })
      let missing := c.adm.parts.filter fun p => (bitOf p.flags 1 && !(c.kst.tenant.any fun k => k.keyId = p.trafficKey))
        || (!p.samples.isEmpty && !(c.kst.tenant.any fun k => k.keyId = p.dumpKey))
      let c : Ctl := { c with cst := { c.cst with seqs := c.cst.seqs.map fun p => (p.1, p.2 + 2 ^ 32 - 1) },
                              adm := { c.adm with inst := c.adm.inst + 65536 }, kst := { c.kst with agentKeys := keys } }
      missing.foldl (fun (c : Ctl) p => c.raise Ev.KEY_MISSING p.tag) c

/-- ROLE_ACTIVE. -/
def execRoleActive (val : Word) (s : State) : Res := s.ctlNext fun c => c.written Blk.RCV fun c => c.roleActive val.toNat

/-! ## Dumps (R339, R340, R352) -/

/-- DMP_START. -/
def execDmpStart (s : State) : Res := s.ctlNext fun c => c.written Blk.DMP fun c => c.startDump 7

/-- DMP_CLEAR_COUNTERS. -/
def execDmpClearCounters (s : State) : Res := s.ctlNext fun c => c.written Blk.DMP fun c => c.onDie (·.clearCounters Blk.DMP)

/-- Ask an agent for the chunks of a record that have not arrived (R339, R504). -/
def Ctl.fetchChunks (c : Ctl) (x : Assembly) : Ctl :=
  c.sendA x.fid 0x5E (le 4 x.sequence ++ le 2 x.count ++ le 2 0 ++ le 128 (ofBitList (x.chunks.map (·.1))))

/-- A dump chunk of an agent (R339, R464, R499). -/
def Ctl.chunkXfer (c : Ctl) (w : Worm) : Ctl :=
  let mark := wormMark w
  let fid := markFid mark
  let seq := Worm.opnd w 8 4
  let i := Worm.opnd w 12 2
  let n := Worm.opnd w 14 2
  let total := Worm.opnd w 20 4
  let size := min 2048 (total - 2048 * i)
  let data := slice w.payload 0 size
  if 2 ≤ markPriv mark then c.onDie Die.markDenied
  else if Worm.opnd w 25 1 ≠ 0x10 ∨ n ≠ ceilDiv total 2048 ∨ n ≤ i ∨ 1024 < n ∨ w.length ≠ ceilDiv size 64 ∨ crc32c data ≠ Worm.opnd w 16 4 then c
  else if c.rcv.slots.any fun p => p.2.1 = fid && p.2.2.1 = 0 && p.2.2.2.2.1 % 2 ^ 32 = seq && !(c.rcv.assemblies.any fun x => x.fid = fid && x.sequence = seq) then
    c.sendA fid 0x5F (le 4 seq)
  else
    let x := (c.rcv.assemblies.find? fun x => x.fid = fid && x.sequence = seq).getD
      { fid := fid, sequence := seq, count := n, total := total, chunks := [] }
    let x : Assembly := { x with chunks := tset x.chunks i data }
    let others := c.rcv.assemblies.filter fun y => !(y.fid = fid && y.sequence = seq)
    if x.chunks.length < n then
      let c : Ctl := { c with rcv := { c.rcv with assemblies := others ++ [x] } }
      if bitOf (Worm.opnd w 24 1) 1 then c.fetchChunks x else c
    else
      let bytes := x.chunks.flatMap (·.2)
      let c : Ctl := { c with rcv := { c.rcv with assemblies := others } }
      (c.storeDump fid 0 (byteAt bytes 7) (fieldAt bytes 16 8) bytes).sendA fid 0x5F (le 4 seq)

/-- CHUNK_XFER. -/
def execChunkXfer (wm : Worm) (s : State) : Res := s.ctlNext fun c => c.chunkXfer wm

end Sys2Proof.Machine
end

