-- ==== Sys2Proof/Machine/Telem.lean ====
section
/-! DEFINITION. Telemetry, health, gauge and wear (R353 to R372): what an agent measures and sends, and the controller's maps,
history and tenant records. -/

namespace Sys2Proof.Machine

/-! ## An agent's record (R354, R357) -/

/-- TELEMETRY_RECORD_SEND (R354). -/
def execTelemetryRecordSend (w : Who) (window : Nat) (s : State) : Res := s.agtNext w fun a => a.sendRecord window

/-- HOST_COUNTS (R357): a message decided late, or taken more than 8 µs after its window's end, is discarded and counted. -/
def execHostCounts (w : Who) (window first : Nat) (ents : List (Nat × Nat)) (late : Bool) (s : State) : Res :=
  s.agtNext w (·.hears fun a =>
    let k := ((a.tel.closed.find? fun x => x.window = window).map (·.k)).getD a.tel.k
    if late ∨ 8000 + (window + 1) * windowNs k < a.die.ns then a.count Reg.AGT_CNT_MSG_DENIED
      else
        let old := if a.tel.countsWindow = window then a.tel.counts else []
        let new := (List.range ents.length).foldl (fun (t : Tbl (Nat × Nat)) i => tset t (first + i) (ents.getD i (0, 0))) old
        { a with tel := { a.tel with counts := new, countsWindow := window } })

/-! ## Maps (R358, R359, R361) -/

/-- The length of a record by the sender's mode. -/
def recordLen (mode : Nat) : Nat := if mode = 1 then 384 else 192

/-- The kind of a record by the sender's mode. -/
def recordKind (mode : Nat) : Nat := if mode = 1 then 2 else if mode = 2 then 3 else 1

/-- TELEMETRY_RECORD (R358): a record is taken into the map of its window while that is open. -/
def execTelemetryRecord (fid : Nat) (rec : Bytes) (s : State) : Res :=
  s.ctlNext fun c => c.works Blk.TEL fun c =>
    let fits : Bool := match tget c.cst.agents fid with
      | some a => decide (rec.length = recordLen a.mode ∧ byteAt rec 0 = recordKind a.mode ∧ byteAt rec 2 ≤ 8)
      | none => false
    let k := byteAt rec 2
    let start := fieldAt rec 8 8 * 2 ^ k
    let late : Bool := match c.tel.lastClosed with
      | some (w, kl) => decide (start ≤ w * 2 ^ kl)
      | none => false
    if !fits then c.onDie (·.count Reg.TEL_CNT_MALFORMED)
    else if late then c.onDie (·.count Reg.TEL_CNT_LATE)
    else
      let key := start * 16 + k
      let m := tset (tgetD c.tel.maps key []) fid rec
      ({ c with tel := { c.tel with maps := tset c.tel.maps key m } } : Ctl).onDie (·.count Reg.TEL_CNT_RECORDS)

/-- The window that closes next and its k (R358). -/
def Ctl.nextMap (c : Ctl) : Nat × Nat :=
  match c.tel.lastClosed, c.tel.maps with
  | some (w, k), _ =>
    let start := (w + 1) * 2 ^ k
    if start < c.tel.since then (w + 1, k) else (start / 2 ^ c.tel.k, c.tel.k)
  | none, p :: _ => (p.1 / 16 / 2 ^ (p.1 % 16), p.1 % 16)
  | none, [] => ((c.die.ns - 90000) / windowNs c.tel.k - 2, c.tel.k)

/-- The record written for an agent of which none arrived (R358). -/
def missingRecord (mode k fid window missing : Nat) : Bytes :=
  slice (le 1 0 ++ le 1 0 ++ le 1 k ++ le 1 missing ++ le 4 fid ++ le 8 window) 0 (recordLen mode)

/-- The agents of a map in its order: endpoints and embedded agents, then switches, ascending FID (R359). -/
def Ctl.mapAgents (c : Ctl) : List AgentRec :=
  let named := (c.cst.agents.map (·.2)).filter (·.named)
  named.filter (fun a => a.mode ≠ 1) ++ named.filter fun a => a.mode = 1

/-- Write a slot of a level of the history (R359): header and records. The header's layout is the model's (log entry 24). -/
def Ctl.writeSlot (c : Ctl) (level window k : Nat) (m : Tbl Bytes) : Ctl :=
  let ags := c.mapAgents
  let slot := match level with
    | 0 => c.tel.next0
    | 1 => c.tel.next1
    | _ => c.tel.next2
  let ends := (ags.filter fun a => a.mode ≠ 1).length
  let hdr := le 8 window ++ le 1 level ++ le 1 k ++ le 2 0 ++ le 8 c.sol.gen ++ le 4 ends ++ le 4 (ags.length - ends)
  let body := ags.flatMap fun a => tgetD m a.fid []
  let a0 := histAddr level slot
  let c := ((c.memWrite a0 (slice hdr 0 4096)).1.memWrite (a0 + 4096) body).1
  let next := (slot + 1) % 944
  let t : TelC := { c.tel with hist := tset c.tel.hist (level * 1024 + slot) window }
  let t : TelC := match level with
    | 0 => { t with next0 := next }
    | 1 => { t with next1 := next }
    | _ => { t with next2 := next }
  { c with tel := t }

/-- A field of a record. -/
abbrev RecField := Nat × Nat

/-- Fields of a record by how a decimated record combines them (R359): the counters and event counts, which are summed, and the
busy fields and power, which are averaged. -/
def sumFields (mode : Nat) : List RecField :=
  if mode = 1 then
    (List.range 16).map (fun i => (176 + 2 * i, 2)) ++ (List.range 16).map (fun i => (208 + 4 * i, 4))
    ++ [(272 + 24, 2), (272 + 26, 2), (272 + 28, 2)] ++ (List.range 8).map fun i => (304 + 4 * i, 4)
  else
    [(80, 2), (82, 2), (84, 2)] ++ (List.range 10).map (fun i => (88 + 4 * i, 4))
    ++ [(128 + 24, 2), (128 + 26, 2), (128 + 28, 2)] ++ (List.range 8).map fun i => (160 + 4 * i, 4)
def meanFields (mode : Nat) : List RecField :=
  if mode = 1 then (List.range 80).map (fun i => (16 + 2 * i, 2)) ++ [(272 + 12, 4)]
  else (List.range 32).map (fun i => (16 + 2 * i, 2)) ++ [(128 + 12, 4)]

/-- Replace a field of a record. -/
def putField (r : Bytes) (f : RecField) (v : Nat) : Bytes := r.take f.1 ++ le f.2 v ++ r.drop (f.1 + f.2)

/-- The record of a list that ranks first. -/
def firstBy (better : Bytes → Bytes → Bool) (r : Bytes) (rs : List Bytes) : Bytes :=
  rs.foldl (fun b x => if better x b then x else b) r

/-- Combine the records of a group for one FID (R359); `missing` counts what was MISSING. The unlisted fields, fenced modules and
the two Purl sizes, take the largest value (log entry 24). -/
def combine (mode k fid window : Nat) (rs : List Bytes) (partial_ : Bool) : Bytes :=
  let missing := min 255 (sumL (rs.map fun r => if byteAt r 0 = 0 ∧ byteAt r 3 = 0 then 1 else byteAt r 3))
  match rs.filter fun r => byteAt r 0 ≠ 0 with
  | [] => missingRecord mode k fid window missing
  | r :: rest =>
    let all := r :: rest
    let h := if mode = 1 then 272 else 128
    let out := (sumFields mode).foldl (fun o f => putField o f (satU (8 * f.2) (sumL (all.map fun x => fieldAt x f.1 f.2)))) r
    let out := (meanFields mode).foldl (fun o f => putField o f (sumL (all.map fun x => fieldAt x f.1 f.2) / all.length)) out
    let hot := firstBy (fun x y => ofTwos 16 (fieldAt y h 2) < ofTwos 16 (fieldAt x h 2)) r rest
    let gau := firstBy (fun x y => fieldAt y (h + 16) 2 < fieldAt x (h + 16) 2) r rest
    let eye := firstBy (fun x y => fieldAt x (h + 18) 2 < fieldAt y (h + 18) 2) r rest
    let most (f : RecField) : Nat := maxL (all.map fun x => fieldAt x f.1 f.2)
    let least (f : RecField) : Nat := minL (2 ^ 16 - 1) (all.map fun x => fieldAt x f.1 f.2)
    let out := putField out (h, 2) (fieldAt hot h 2)
    let out := putField out (h + 2, 1) (fieldAt hot (h + 2) 1)
    let out := putField out (h + 3, 1) (fieldAt gau (h + 3) 1)
    let out := putField out (h + 4, 2) (least (h + 4, 2))
    let out := putField out (h + 6, 2) (most (h + 6, 2))
    let out := putField out (h + 8, 2) (least (h + 8, 2))
    let out := putField out (h + 10, 2) (least (h + 10, 2))
    let out := putField out (h + 16, 2) (fieldAt gau (h + 16) 2)
    let out := putField out (h + 18, 2) (fieldAt eye (h + 18) 2)
    let out := putField out (h + 20, 1) (fieldAt eye (h + 20) 1)
    let out := putField out (h + 21, 1) (most (h + 21, 1))
    let out := if mode = 1 then putField (putField out (336, 2) (most (336, 2))) (338, 2) (most (338, 2)) else out
    let flags := ofBitList ((List.range 8).filter fun i => (all.any fun x => bitOf (byteAt x 1) i) || (partial_ && i = 1))
    let out := putField (putField out (1, 1) flags) (3, 1) missing
    putField out (8, 8) window

/-- Combine the maps of a group. -/
def Ctl.combineMaps (c : Ctl) (k window : Nat) (ms : List (Tbl Bytes)) (partial_ : Bool) : Tbl Bytes :=
  c.mapAgents.foldl (fun (t : Tbl Bytes) a => tset t a.fid (combine a.mode k a.fid window (ms.filterMap fun m => tget m a.fid) partial_)) []

/-- Write the open level-1 group, and the level-2 group where it is due (R359). -/
def Ctl.closeGroups (c : Ctl) (w k : Nat) (early : Bool) : Ctl :=
  let c : Ctl := if !c.tel.group1.isEmpty && (early || w % 16 = 15) then
      let m := c.combineMaps k (w / 16 * 16) c.tel.group1 early
      let c := c.writeSlot 1 (w / 16 * 16) k m
      { c with tel := { c.tel with group1 := [], group2 := c.tel.group2 ++ [m] } }
    else c
  if !c.tel.group2.isEmpty && (early || w % 256 = 255) then
    let m := c.combineMaps k (w / 256 * 256) c.tel.group2 early
    let c := c.writeSlot 2 (w / 256 * 256) k m
    { c with tel := { c.tel with group2 := [] } }
  else c

/-- What a record adds to its sender's tenant counters (R361): flits injected and presented, REQ stalls, TIMED_OUT, missing. A
difference at full scale reads at full scale. -/
def tenantAdd (old : List Nat) (r : Bytes) : List Nat :=
  let full (v bits : Nat) : Nat := if v = 2 ^ bits - 1 then 2 ^ 64 else v
  if byteAt r 0 = 0 then [old.getD 0 0, old.getD 1 0, old.getD 2 0, old.getD 3 0, old.getD 4 0 + 1]
  else [old.getD 0 0 + full (fieldAt r 88 4) 32, old.getD 1 0 + full (fieldAt r 92 4) 32,
        old.getD 2 0 + full (fieldAt r 80 2) 16, old.getD 3 0 + full (fieldAt r 112 4) 32, old.getD 4 0]

/-- MAP_CLOSE (R358, R359), due 90 µs after the end of the window that follows: missing records are written, the map goes to the history,
the tenants' counters take it in. -/
def Ctl.mapClose (c : Ctl) : Ctl :=
  let (w, k) := c.nextMap
  if c.die.ns < 90000 + windowNs k * (w + 2) then c else
  let key := w * 2 ^ k * 16 + k
  let got := tgetD c.tel.maps key []
  let ags := c.mapAgents
  let m := ags.foldl (fun (t : Tbl Bytes) a => tset t a.fid ((tget got a.fid).getD (missingRecord a.mode k a.fid w 0))) []
  let lost := (ags.filter fun a => (tget got a.fid).isNone).length
  let c := (c.onDie (·.countN Reg.TEL_CNT_MISSING lost)).writeSlot 0 w k m
  let tw := w * 2 ^ k / 2 ^ c.tel.m
  let tenant := m.foldl (fun (t : Tbl (List Nat)) p => tset t (tw * 2 ^ 18 + p.1) (tenantAdd (tgetD t (tw * 2 ^ 18 + p.1) []) p.2)) c.tel.tenant
  let c : Ctl := { c with tel := { c.tel with maps := c.tel.maps.filter (fun p => decide (key < p.1)), lastClosed := some (w, k),
                                              group1 := c.tel.group1 ++ [m], tenant := tenant } }
  c.closeGroups w k false

/-- MAP_CLOSE. -/
def execMapClose (s : State) : Res := s.ctlNext fun c => c.works Blk.TEL fun c => c.mapClose

/-- A member's word of a tenant record (R44, R361). -/
def Ctl.tenantWord (c : Ctl) (tw fid : Nat) : Nat :=
  let n := sumL ((c.sol.bonds.filter fun b => b.fid = fid).map (·.active))
  let wt := 64000 * 2 ^ c.tel.m
  let v := tgetD c.tel.tenant (tw * 2 ^ 18 + fid) []
  let flits := n * 28 * wt / 64
  quantise6 (v.getD 0 0) flits + quantise6 (v.getD 1 0) flits * 2 ^ 6 + quantise6 (v.getD 2 0) (wt / 256) * 2 ^ 12
  + quantise6 (v.getD 3 0) (wt / 4096) * 2 ^ 18 + b2n (v.isEmpty || v.getD 4 0 ≠ 0) * 2 ^ 24

/-- A tenant record (R361), padded to whole flits of 64 bytes. -/
def Ctl.tenantRecord (c : Ctl) (tw : Nat) (p : PartPlan) : Bytes :=
  let fids := p.members.mergeSort fun x y => decide (x ≤ y)
  let ws := fids.map (c.tenantWord tw)
  let missing := ws.any fun w => bitOf w 24
  let body := le 2 p.tag ++ le 2 (b2n missing) ++ le 4 fids.length ++ le 8 tw ++ le 1 c.tel.m ++ le 15 0 ++ ws.flatMap (le 4)
  slice body 0 (64 * ceilDiv body.length 64)

/-- Write bytes into a ring at a base, with wrap-around. -/
def ringPut (m : Mem) (base size prod : Nat) (bs : Bytes) : Mem :=
  let n := min bs.length (size - prod)
  mwrite (mwrite m (base + prod) (bs.take n)) base (bs.drop n)

/-- One record into the tenant ring; a full ring loses it (R361). -/
def Ctl.putTenant (c : Ctl) (bs : Bytes) : Ctl :=
  let size := 2 ^ 26
  let prod := c.die.bget Reg.TEL_TENANT_PROD 25 0
  let free := (c.die.bget Reg.TEL_TENANT_CONS 25 0 + size - prod - 1) % size
  if bs.length > free then c.onDie (·.count Reg.TEL_CNT_TENANT_LOST)
  else
    let d := { c.die with mem := ringPut c.die.mem (c.die.getN Reg.TEL_TENANT_RING) size prod bs }
    { c with die := d.bset Reg.TEL_TENANT_PROD 25 0 ((prod + bs.length) % size) }

/-- TENANT_WINDOW_END (R361), once the window has ended: one record for each partition that has been compiled. -/
def execTenantWindowEnd (window : Nat) (s : State) : Res :=
  s.ctlNext fun c => c.works Blk.TEL fun c =>
    if c.die.ns < 64000 * 2 ^ c.tel.m * (window + 1) then c else
    let ps := (c.adm.parts.filter fun p => p.phase ≠ 0).mergeSort fun x y => decide (x.tag ≤ y.tag)
    let c := ps.foldl (fun c p => c.putTenant (c.tenantRecord window p)) c
    { c with tel := { c.tel with tenant := c.tel.tenant.filter fun p => decide ((window + 1) * 2 ^ 18 ≤ p.1) } }

/-! ## Configuration (R353, R370, R371) -/

/-- The smallest k of a variant (R353). -/
def Part.minWindow (p : Part) : Nat := if p = .pln9210 then 1 else 0

/-- Whether a value of TEL_CFG is taken (R370). -/
def Part.telCfgOk (p : Part) (val : Nat) : Bool :=
  let k := bitsOf val 3 0
  let m := bitsOf val 7 4
  decide (p.minWindow ≤ k ∧ k ≤ 8 ∧ 4 ≤ m ∧ m ≤ 14 ∧ k ≤ m)

/-- A write of TEL_CFG (R370): the change is scheduled at every agent. -/
def Ctl.writeTelCfg (c : Ctl) (val : Nat) : Ctl :=
  if !c.die.part.telCfgOk val then c.raise (Ev.WRITE_IGNORED Blk.TEL)
  else
    let k := bitsOf val 3 0
    let m := bitsOf val 7 4
    let at_ := ceilDiv (20000000 + c.die.ns) 16384000
    let c : Ctl := { c with die := c.die.setN Reg.TEL_CFG (val % 512), tel := { c.tel with change := some (k, m, bitOf val 8, at_) } }
    let fids := (c.cst.agents.map (·.2)).filter (fun a => a.named && !a.lost) |>.map (·.fid)
    fids.foldl (fun c f => c.mgmtWrite f [(Reg.AGT_TEL_CFG, k + b2n (bitOf val 8) * 2 ^ 4 + at_ % 2 ^ 48 * 2 ^ 16)]) c

/-- TEL_CFG_WRITE (R370). -/
def execTelCfgWrite (val : Word) (s : State) : Res := s.ctlNext fun c => c.written Blk.TEL (·.writeTelCfg val.toNat)

/-- The pending change takes effect at the controller at its fabric time (R353, R359, R370): groups of the old length close early. -/
def Ctl.telChange (c : Ctl) : Ctl :=
  match c.tel.change with
  | none => c
  | some (k, m, en, at_) =>
    if c.die.ns < 16384000 * at_ then c else
    let c : Ctl := if k ≠ c.tel.k then
        match c.tel.lastClosed with
        | some (w, kl) => c.closeGroups w kl true
        | none => c
      else c
    { c with tel := { c.tel with k := k, m := m, enable := en, change := none, since := if k ≠ c.tel.k then at_ * 256 else c.tel.since } }

/-- What AGT_TEL_CFG asks takes effect, from the fabric time change_at on (R353, R356, R371). -/
def Agt.telChange (a : Agt) : Agt :=
  let k := a.die.fget Fl.AGT_TEL_CFG_window_log2
  let en : Bool := decide (a.die.fget Fl.AGT_TEL_CFG_enable = 1)
  let at_ := 16384000 * a.die.fget Fl.AGT_TEL_CFG_change_at
  if (k = a.tel.k ∧ en = a.tel.enable) ∨ a.die.ns < at_ then a
  else
    -- at its own fabric time the change meets a window's start, so that no window is cut
    let cut : Bool := decide (at_ + 6 < a.die.ns)
    let was := a.tel.enable
    let a : Agt := { a with tel := { a.tel with k := k, enable := en, partialFlag := a.tel.partialFlag || cut } }
    if was then a else a.windowStart cut

/-- TEL_CONFIG_CHANGE (R353). -/
def execTelConfigChange (pl : Place) (s : State) : Res :=
  match pl with
  | .ctl => s.ctlNext fun c => c.works Blk.TEL (·.telChange)
  | .agt w => s.agtNext w (·.telChange)

/-- TEL_CLEAR_COUNTERS (R370). -/
def execTelClearCounters (s : State) : Res :=
  s.ctlNext fun c => c.written Blk.TEL fun c => c.onDie (·.clearCounters Blk.TEL)

/-! ## Health (R363) -/

/-- A health event at most once per period and monitor: whether it may be raised, and the table after it. -/
def mayEvent (last : Tbl Nat) (key ms period : Nat) : Bool × Tbl Nat :=
  if mayRaise (tget last key) ms period then (true, tset last key ms) else (false, last)

/-- The limits one health sample breaks (R363, R542, R548): the monitor's key, the event's place in the table, the instance,
and the ms between two raises. -/
def healthBreaks (p : Part) (floorMv : Nat) (h : Health) : List (Nat × Nat × Nat × Nat) :=
  let temps := (List.range h.temps.length).flatMap fun r =>
    let t := h.temps.getD r 0
    (if 760 ≤ t then [(2 ^ 20 + r, 0, r, 1000)] else []) ++ (if 840 ≤ t then [(2 * 2 ^ 20 + r, 1, r, 1000)] else [])
  let ranges : List (Nat × Nat) :=
    if p.pelron then [(600, p.vcore)] else [(max 600 floorMv, 800), (728, 772), (1140, 1260), (728, 772)]
  let rails := (List.range (min ranges.length h.rails.length)).filterMap fun i =>
    let v := h.rails.getD i 0
    let r := ranges.getD i (0, 0)
    if v < r.1 ∨ r.2 < v then some (3 * 2 ^ 20 + i, 2, i, 1000) else none
  let power := if p.power ≠ 0 ∧ p.power * 1000 < h.windowPowerMw then [(4 * 2 ^ 20, 3, 0xFFFF, 1000)] else []
  let eyes := (h.eyes.filter fun e => e.2 < 30).map fun e => (5 * 2 ^ 20 + e.1, 4, e.1, 3600000)
  temps ++ rails ++ power ++ eyes

/-- The five events of R363 on a part. -/
def healthEvents (pelron : Bool) : List Event :=
  if pelron then [Ev.THERMAL_HIGH, Ev.THERMAL_LIMIT, Ev.VOLTAGE_RANGE, Ev.POWER_LIMIT, Ev.EYE_LOW]
  else [Ev.AGT_THERMAL_HIGH, Ev.AGT_THERMAL_LIMIT, Ev.AGT_VOLTAGE_RANGE, Ev.AGT_POWER_LIMIT, Ev.AGT_EYE_LOW]

/-- Raise what a sample breaks. -/
def Die.raiseHealth (d : Die) (last : Tbl Nat) (ms : Nat) (bs : List (Nat × Nat × Nat × Nat)) : Die × Tbl Nat :=
  bs.foldl (fun (st : Die × Tbl Nat) b =>
    let (go, last) := mayEvent st.2 b.1 ms b.2.2.2
    if go then (match (healthEvents st.1.part.pelron)[b.2.1]? with
      | some e => st.1.raise e b.2.2.1
      | none => st.1, last) else st) (d, last)

/-- The index of the largest temperature. -/
def hottest (ts : List Int) : Nat :=
  ((List.range ts.length).foldl (fun (b : Nat × Int) i => if b.2 < ts.getD i 0 then (i, ts.getD i 0) else b) (0, ts.getD 0 0)).1

/-- Take a sample into the health block: a window's first sample replaces what stood, later ones widen it (R355). -/
def Agt.takeHealth (a : Agt) (h : Health) : Agt :=
  let hot := hottest h.temps
  let t := h.temps.getD hot 0
  let eye := h.eyes.foldl (fun (b : Option (Nat × Nat)) e => match b with
    | some x => if e.2 < x.2 then some e else b
    | none => some e) none
  let new : HealthAcc :=
    { fresh := true, temp := t, region := hot, coreLo := h.rails.getD 0 0, coreHi := h.rails.getD 0 0, sramLo := h.rails.getD 1 0,
      ioLo := h.rails.getD 2 0, power := h.windowPowerMw, eye := (eye.map (·.2)).getD 0,
      eyeBond := (eye.map fun e => (a.lane e.1).bond).getD 0xFF }
  let acc : HealthAcc := match a.tel.health with
    | some o =>
      if o.fresh then
        let hotter : Bool := decide (o.temp < new.temp)
        let lower : Bool := decide (new.eye < o.eye)
        { fresh := true, temp := if hotter then new.temp else o.temp, region := if hotter then new.region else o.region,
          coreLo := min o.coreLo new.coreLo, coreHi := max o.coreHi new.coreHi, sramLo := min o.sramLo new.sramLo,
          ioLo := min o.ioLo new.ioLo, power := new.power, eye := if lower then new.eye else o.eye,
          eyeBond := if lower then new.eyeBond else o.eyeBond }
      else new
    | none => new
  { a with tel := { a.tel with health := some acc } }

/-- A health sample of an agent (R363, R543); only eyes of active lanes count. -/
def Agt.healthSample (a : Agt) (h : Health) : Agt :=
  let h : Health := { h with eyes := h.eyes.filter fun e => a.fwd.bonds.any fun b => b.2.active.contains e.1 }
  let core := h.rails.getD 0 0
  let a := a.onDie fun d =>
    let d := d.fset Fl.AGT_VCORE_measured_mv core
    d.fset Fl.AGT_VCORE_lowest_mv (min (d.fget Fl.AGT_VCORE_lowest_mv) core)
  let (d, last) := a.die.raiseHealth a.tel.lastRaised h.ms (healthBreaks a.die.part (a.die.fget Fl.AGT_VCORE_floor_mv) h)
  let a : Agt := { a with die := d, tel := { a.tel with lastRaised := last } }
  a.takeHealth h

/-- A health sample of the controller's die (R363, R370). -/
def Ctl.healthSample (c : Ctl) (h : Health) : Ctl :=
  let t := h.temps.getD (hottest h.temps) 0
  let d := c.die.setN Reg.TEL_HEALTH (toTwos 16 t + satU 16 (h.rails.getD 0 0) * 2 ^ 16 + satU 32 h.powerMw * 2 ^ 32)
  let (d, last) := d.raiseHealth c.tel.lastRaised h.ms (healthBreaks d.part 0 h)
  { c with die := d, tel := { c.tel with lastRaised := last } }

/-- HEALTH_SAMPLE (R363). -/
def execHealthSample (pl : Place) (h : Health) (s : State) : Res :=
  match pl with
  | .ctl => s.ctlNext (·.healthSample h)
  | .agt w => s.agtNext w (·.healthSample h)

/-! ## Gauge (R364 to R366) -/

/-- What a measurement of a region comes to. -/
structure Gauged where
  region : Region
  /-- it enters EXCEED -/
  enters : Bool
  /-- the worst-corner delay moved by 1/64 of the value last reported, or none was (R365) -/
  moved : Bool
  deriving DecidableEq, Repr

/-- Measure a region against its GAUGE table (R61 to R65, R364, R365); none for a region without one. -/
def Die.measure (d : Die) (region dMeas mv : Nat) (temp : Int) : Option Gauged :=
  (tget d.gaugeTab region).map fun g =>
    let at_ := gaugeAt g mv temp
    let corner := worstCorner g mv temp
    let worst := gaugeReportAt g corner.1 corner.2
    let old := tget d.regions region
    let was : Bool := (old.map (·.exceed)).getD false
    let above : Bool := match at_ with
      | some v => gaugeExceeds dMeas v
      | none => false
    let within : Bool := match at_ with
      | some v => decide (16 * dMeas ≤ 17 * v)
      | none => false
    let since := (old.bind (·.within)).getD d.up
    let moved : Bool := match old with
      | some r => decide (r.delay ≤ 64 * ((worst : Int) - r.delay).natAbs)
      | none => true
    let enters := above && !was
    let reports := moved || enters
    { region := { exceed := was || above, within := if within then some since else none, dMeas := dMeas, ref := gaugeReportAt g mv temp,
                  delay := if reports then worst else ((old.map (·.delay)).getD worst),
                  outside := if reports then (gaugeAt g corner.1 corner.2).isNone else ((old.map (·.outside)).getD false),
                  latest := (worst, (gaugeAt g corner.1 corner.2).isNone) },
      enters := enters, moved := moved }

/-- Store a region. -/
def Die.setRegion (d : Die) (region : Nat) (r : Region) : Die := { d with regions := tset d.regions region r }

/-- GAUGE_REPORT to the controller (R365); its body's layout is the model's (log entry 24). -/
def Agt.gaugeReport (a : Agt) (region : Nat) : Agt :=
  match tget a.die.regions region with
  | some r => a.onDie (·.toController 0x26 (le 1 region ++ le 1 (b2n r.exceed + 2 * b2n r.outside) ++ le 2 0 ++ le 4 r.delay
      ++ le 4 r.dMeas ++ le 4 r.ref))
  | none => a

/-- A measurement at an agent. -/
def Agt.gauge (a : Agt) (region dMeas mv : Nat) (temp : Int) : Agt :=
  match a.die.measure region dMeas mv temp with
  | none => a
  | some m =>
    let a := a.onDie (·.setRegion region m.region)
    let a : Agt := if m.enters then
        ({ a with tel := { a.tel with exceedSeen := true } } : Agt).raise Ev.AGT_GAUGE_EXCEED region
      else a
    if m.enters || m.moved then a.gaugeReport region else a

/-- A measurement at the controller's own die: its GAUGE_EXCEED is a pending failure too (R366). -/
def Ctl.gauge (c : Ctl) (region dMeas mv : Nat) (temp : Int) : Ctl :=
  match c.die.measure region dMeas mv temp with
  | none => c
  | some m =>
    let c := c.onDie (·.setRegion region m.region)
    if m.enters then
      let c := (c.raise Ev.GAUGE_EXCEED region).onDie (·.count Reg.GAU_CNT_EXCEED)
      c.queueFailure (.gaugeExceed c.embFid region)
    else if m.moved then c.changed else c

/-- GAUGE_MEASURE (R364). -/
def execGaugeMeasure (pl : Place) (region dMeas mv : Nat) (temp : Int) (s : State) : Res :=
  match pl with
  | .ctl => s.ctlNext fun c => c.works Blk.GAU (·.gauge region dMeas mv temp)
  | .agt w => s.agtNext w (·.gauge region dMeas mv temp)

/-- A region leaves EXCEED: its measurements have been within the limit for 1 s (R364); what it reports then is the worst-corner delay of
now (R365). -/
def Die.leaveExceed (d : Die) (region : Nat) : Option Die :=
  match tget d.regions region with
  | some r => if r.exceed && r.within.any (fun t => decide (1000000000 + t ≤ d.up)) then some (d.setRegion region { r with exceed := false, delay := r.latest.1, outside := r.latest.2 }) else none
  | none => none

/-- GAUGE_EXCEED_EXIT (R364, R365). -/
def execGaugeExceedExit (pl : Place) (region : Nat) (s : State) : Res :=
  match pl with
  | .ctl => s.ctlNext fun c => c.works Blk.GAU fun c => match c.die.leaveExceed region with
    | some d => ({ c with die := d } : Ctl).changed
    | none => c
  | .agt w => s.agtNext w fun a => match a.die.leaveExceed region with
    | some d => ({ a with die := d } : Agt).gaugeReport region
    | none => a

/-- GAUGE_REPORT (R366): a region that enters EXCEED is a pending failure. -/
def execGaugeReport (fid region : Nat) (delay : GaugeDelay) (ratio : GaugeRatio) (exceed : Bool) (s : State) : Res :=
  s.ctlNext fun c => c.works Blk.GAU fun c =>
    let key := fid * 256 + region
    let was : Bool := ((tget c.tel.regions key).map (·.exceed)).getD false
    let r : Region := { exceed := exceed, within := none, delay := delay.worst, outside := delay.outside, latest := (delay.worst, delay.outside), dMeas := ratio.dMeas, ref := ratio.ref }
    let c := ({ c with tel := { c.tel with regions := tset c.tel.regions key r } } : Ctl).onDie (·.count Reg.GAU_CNT_REPORTS)
    if exceed && !was then c.queueFailure (.gaugeExceed fid region) else c.changed

/-- GAU_CLEAR_COUNTERS (R372). -/
def execGauClearCounters (s : State) : Res :=
  s.ctlNext fun c => c.written Blk.GAU fun c => c.onDie (·.clearCounters Blk.GAU)

/-! ## Wear (R367 to R369) -/

/-- Lists of at most n. -/
def inGroups {α : Type} (n : Nat) : Nat → List α → List (List α)
  | 0, _ => []
  | fuel + 1, l => if l.isEmpty then [] else l.take n :: inGroups n fuel (l.drop n)

/-- One wear sample's 16 bytes (R368). -/
def WearEnt.bytes (e : WearEnt) : Bytes :=
  le 1 e.kind ++ le 1 e.monitor ++ le 2 0 ++ le 4 e.sample ++ le 8 (toTwos 64 (ofTwos 48 (toTwos 48 e.value)))

/-- A monitor takes a sample: the next of its history, or the first of a new one (R368). -/
def Ctl.wearTake (c : Ctl) (fid dieId : Nat) (e : WearEnt) : Ctl :=
  let mine (m : WearMon) : Bool := m.fid = fid && m.kind = e.kind && m.monitor = e.monitor
  let fresh : WearMon := { fid := fid, kind := e.kind, monitor := e.monitor, dieId := dieId, lastIndex := e.sample,
                           samples := [e.value], first := e.value, retrained := false, warned := false }
  match c.tel.wear.find? mine with
  | none =>
    if c.tel.wear.length < 4 * 2 ^ 20 then { c with tel := { c.tel with wear := c.tel.wear ++ [fresh] } } else c
  | some m =>
    let restart : Bool := decide (e.sample ≠ m.lastIndex + 1) || m.retrained || decide (m.dieId ≠ dieId)
    let m' : WearMon := if restart then { fresh with warned := m.warned }
      else
        let all := m.samples ++ [e.value]
        { m with lastIndex := e.sample, samples := all.drop (all.length - 64) }
    let c : Ctl := { c with tel := { c.tel with wear := replaceFirst mine (fun _ => m') c.tel.wear } }
    if restart then c.onDie (·.count Reg.WER_CNT_RESTART) else c

/-- WEAR_WARNING where a monitor's condition of R369 has begun; a condition that ceased may warn again. -/
def Ctl.wearWarn (c : Ctl) (fid : Nat) (e : WearEnt) : Ctl :=
  let mine (m : WearMon) : Bool := m.fid = fid && m.kind = e.kind && m.monitor = e.monitor
  match c.tel.wear.find? mine with
  | none => c
  | some m =>
    let low : Bool := decide (wearHours m < c.die.bget Reg.WER_CFG 31 0) && decide (c.die.bget Reg.WER_CFG 39 32 ≤ wearConfidence m.samples)
    let c' : Ctl := { c with tel := { c.tel with wear := replaceFirst mine (fun x => { x with warned := low }) c.tel.wear } }
    if low && !m.warned then c'.raise Ev.WEAR_WARNING (e.kind * 256 + e.monitor) else c'

/-- The controller takes wear samples (R368, R369). -/
def Ctl.wearSamples (c : Ctl) (fid dieId : Nat) (ents : List WearEnt) : Ctl :=
  ents.foldl (fun c e => ((c.wearTake fid dieId e).onDie (·.count Reg.WER_CNT_SAMPLES)).wearWarn fid e) c

/-- WEAR_SAMPLE_TAKE (R368): an agent sends its samples, at most 15 to a message; the controller takes its own. -/
def execWearSampleTake (pl : Place) (ents : List WearEnt) (s : State) : Res :=
  match pl with
  | .ctl => s.ctlNext fun c => c.works Blk.WER fun c => c.wearSamples c.embFid c.dieId ents
  | .agt w => s.agtNext w fun a =>
    (inGroups 15 ents.length ents).foldl (fun a g => a.onDie (·.toController 0x27 (g.flatMap WearEnt.bytes))) a

/-- WEAR_SAMPLE (R369). -/
def execWearSample (fid dieId : Nat) (ents : List WearEnt) (s : State) : Res := s.ctlNext fun c => c.works Blk.WER (·.wearSamples fid dieId ents)

/-- WER_CLEAR_COUNTERS (R372). -/
def execWerClearCounters (s : State) : Res :=
  s.ctlNext fun c => c.written Blk.WER fun c => c.onDie (·.clearCounters Blk.WER)

/-- TRAIN_SAVE (R299): the settings are kept in module flash; the eye monitors of the bonds whose lanes were fully trained
restart (R368). -/
def execTrainSave (fid : Nat) (ents : List TrainEnt) (s : State) : Res :=
  s.ctlNext fun c =>
    let old := tgetD c.flash.train fid []
    let keep := old.filter fun e => !(ents.any fun x => x.lane = e.lane)
    let pl := c.plan
    let bonds : List Nat := match planLoc pl c.base fid with
      | some loc => ents.filterMap fun (e : TrainEnt) => (planLane pl c.base loc e.lane).map (·.bond)
      | none => []
    let wear := c.tel.wear.map fun (m : WearMon) => if m.fid = fid ∧ m.kind = 2 ∧ bonds.contains m.monitor then { m with retrained := true } else m
    { c with flash := { c.flash with train := tset c.flash.train fid (keep ++ ents) }, tel := { c.tel with wear := wear },
             cst := { c.cst with newSettings := true } }

end Sys2Proof.Machine
end

