-- ==== Sys2Proof/Machine/Skein.lean ====
section
/-! DEFINITION. Skein (R452 to R458): frames and credits, the link, link sessions, queue pairs and their work. -/

namespace Sys2Proof.Machine

/-! ## Sending frames (R452, R453) -/

/-- Store a port. -/
def Ctl.setPort (c : Ctl) (n : Nat) (p : Port) : Ctl := { c with ports := tset c.ports n p }

/-- Emit a frame of a port with its sequence; every frame other than LINK is encrypted in a link session (R454). -/
def Ctl.emitFrame (c : Ctl) (n : Nat) (f : TxFrame) : Ctl :=
  let p := c.port n
  let c := c.setPort n { p with txSeq := p.txSeq + 1 }
  if f.ftype = 2 then c.onDie (·.emit (.spdm f.connPort f.id f.code f.payload))
  else
    let enc : Bool := p.session.isSome && decide (f.ftype ≠ 1)
    c.onDie (·.emit (.frame n f.ftype enc f.qp p.txSeq f.id f.offset f.payload))

/-- Send a frame: it takes one of the credits that the control node granted, or waits for one. -/
def Ctl.sendFrame (c : Ctl) (n : Nat) (f : TxFrame) : Ctl :=
  let p := c.port n
  if p.link ≠ 2 then c
  else if p.grant = 0 ∨ !p.waiting.isEmpty then c.setPort n { p with waiting := p.waiting ++ [f] }
  else (c.setPort n { p with grant := p.grant - 1 }).emitFrame n f

/-- Send frames that wait, as far as credits go. -/
def Ctl.pumpFrames : Nat → Ctl → Nat → Ctl
  | 0, c, _ => c
  | fuel + 1, c, n =>
    let p := c.port n
    match p.waiting with
    | [] => c
    | f :: rest =>
      if p.grant = 0 then c
      else Ctl.pumpFrames fuel ((c.setPort n { p with grant := p.grant - 1, waiting := rest }).emitFrame n f) n

/-- The port a connection's messages travel on: its own, or for one that the control node relays the first with a link session. -/
def Ctl.connPort (c : Ctl) (k : Conn) : Nat :=
  if k.port < 2 then k.port
  else match c.ports.find? fun p => p.2.session.isSome with
    | some p => p.1
    | none => 0

/-- Send an SPDM message of a connection as a frame (R454). -/
def Ctl.sendSpdm (c : Ctl) (k : Conn) (code : Nat) (body : Bytes) : Ctl :=
  c.sendFrame (c.connPort k) { ftype := 2, qp := 0, id := k.id, offset := 0, payload := body, connPort := k.port, code := code }

/-- A frame of another type with an id. -/
def txFrame (ftype qp id offset : Nat) (payload : Bytes) : TxFrame :=
  { ftype := ftype, qp := qp, id := id, offset := offset, payload := payload, connPort := 0, code := 0 }

/-! ## Receiving frames (R453, R454) -/

/-- A frame that arrives: accepted, with its credit returned by a LINK frame, or discarded and counted. A LINK frame needs no credit
(log entry 29). -/
def Ctl.frameIn (c : Ctl) (h : FrameHdr) : Ctl × Bool :=
  let p := c.port h.port
  let link : Bool := decide (h.ftype = 1)
  if c.die.part.skeinPorts ≤ h.port then (c, false)
  else if !link ∧ p.credits = 0 then (c.onDie (·.count Reg.SKN_CNT_CREDIT_OVERRUN), false)
  else if p.link ≠ 2 then (c, false)
  else if !h.intact then (c.onDie (·.count Reg.SKN_CNT_TAG_FAIL), false)
  else if h.encrypted ∧ p.session.isNone then (c.onDie (·.count Reg.SKN_CNT_TAG_FAIL), false)
  else if !link ∧ !h.encrypted ∧ p.session.isSome then (c.onDie (·.count Reg.SKN_CNT_PLAIN_DISCARD), false)
  else if (match p.rxSeq with
    | some q => decide (h.sequence ≤ q)
    | none => false) then (c.onDie (·.count Reg.SKN_CNT_TAG_FAIL), false)
  else
    let c := (c.setPort h.port { p with rxSeq := some h.sequence }).onDie (·.count Reg.SKN_CNT_FRAMES_RX)
    (if link then c else c.emitFrame h.port (txFrame 1 0 1 0 []), true)

/-! ## The link (R452, R453) -/

/-- SKEIN_LINK_UP: the link comes up, or a second lane joins a link that is up. -/
def Ctl.linkUp (c : Ctl) (n lanes : Nat) : Ctl :=
  if c.die.part.skeinPorts ≤ n ∨ lanes = 0 ∨ 2 < lanes then c
  else
    let p := c.port n
    if p.link = 2 then c.setPort n { p with lanes := lanes }
    else c.setPort n { p with link := 2, lanes := lanes, credits := 256, grant := 256, rxSeq := none, txSeq := 0, waiting := [] }

/-- SKEIN_LINK_UP. -/
def execSkeinLinkUp (port lanes : Nat) (s : State) : Res := s.ctlNext fun c => c.linkUp port lanes

/-- A completion of a queue pair: an EVENT frame on its port (R458). -/
def Ctl.complete (c : Ctl) (q status wrId moved : Nat) : Ctl :=
  let x := c.qp q
  let c : Ctl := { c with qps := tset c.qps q { x with sent := (x.sent + 1) % 2 ^ 32 } }
  c.sendFrame x.port (txFrame 7 q 0 0 (le 4 q ++ le 1 status ++ le 3 0 ++ le 8 wrId ++ le 8 moved ++ le 8 0))

/-- The link session of a port ends (R454): the connections of the port are gone, and those relayed inside link sessions where no
other port has one; outstanding work is discarded (R458). -/
def Ctl.endLink (c : Ctl) (port : Nat) : Ctl :=
  let p := c.port port
  if p.session.isNone then c
  else
    let c := c.setPort port { p with session := none, rxSeq := none, txSeq := 0, waiting := [] }
    let relays := c.ports.any fun q => q.2.session.isSome
    let qps := c.qps.map fun (e : Nat × Qp) =>
      if e.2.port = port ∧ !e.2.work.isEmpty then (e.1, { e.2 with work := [], linkDown := e.2.work.head?.map (·.entry.wrId) }) else e
    let c : Ctl := { c with qps := qps, kst := { c.kst with conns := c.kst.conns.filter fun x => x.port ≠ port && (relays || !x.relayed) } }
    c.raise Ev.SKN_SESSION_LOST port

/-- A link session starts on a port (R453, R454): sequences start again, and each queue pair reports what the last one lost (R458). -/
def Ctl.startLink (c : Ctl) (port session : Nat) : Ctl :=
  let p := c.port port
  let c := c.setPort port { p with session := some session, rxSeq := none, txSeq := 0 }
  (c.qps.filter fun e => e.2.port = port && e.2.linkDown.isSome).foldl (fun (c : Ctl) e =>
    let c := c.complete e.1 4 (e.2.linkDown.getD 0) 0
    { c with qps := tset c.qps e.1 { c.qp e.1 with linkDown := none } }) c

/-- SKEIN_LINK_DOWN (R6, R452): a lane is left, or the link and its session are gone; the fabric goes on. -/
def Ctl.linkDown (c : Ctl) (n lanes : Nat) : Ctl :=
  let p := c.port n
  if p.link ≠ 2 ∨ p.lanes ≤ lanes then c
  else if 0 < lanes then c.setPort n { p with lanes := lanes }
  else
    let c := c.endLink n
    let c := c.setPort n { c.port n with link := 0, lanes := 0, credits := 0, grant := 0, rxSeq := none, txSeq := 0, waiting := [] }
    { c with kst := { c.kst with conns := c.kst.conns.filter fun x => x.port ≠ n } }

/-- SKEIN_LINK_DOWN. -/
def execSkeinLinkDown (port lanes : Nat) (s : State) : Res := s.ctlNext fun c => c.linkDown port lanes

/-- SKEIN_LINK_FRAME: the control node returns credits. -/
def execSkeinLinkFrame (h : FrameHdr) (s : State) : Res :=
  s.ctlNext fun c =>
    let (c, ok) := c.frameIn h
    if !ok ∨ h.ftype ≠ 1 then c
    else
      let p := c.port h.port
      (c.setPort h.port { p with grant := p.grant + h.id }).pumpFrames (p.waiting.length + 1) h.port

/-! ## Regions of controller memory (R458, R480, R481) -/

/-- Whether a range lies in a region that takes writes from outside the die. -/
def Ctl.outsideWrite (c : Ctl) (a n : Nat) : Bool :=
  decide (a + n ≤ 0x200000000) || (decide (0x34D0000000 ≤ a) && decide (a + n ≤ 0x35D0000000))
    || (decide (0x53D0000000 ≤ a) && decide (a + n ≤ c.capacity))

/-- Whether a range touches nothing that the control node may not read. -/
def Ctl.outsideRead (c : Ctl) (a n : Nat) : Bool :=
  let clear (lo hi : Nat) : Bool := decide (a + n ≤ lo) || decide (hi ≤ a)
  decide (a + n ≤ c.capacity) && clear 0x200000000 0xE40000000 && clear 0x35D0000000 0x53D0000000

/-! ## Queue pairs (R457, R458) -/

/-- Store a queue pair's work. -/
def Ctl.setWork (c : Ctl) (q : Nat) (ws : List Work) : Ctl := { c with qps := tset c.qps q { c.qp q with work := ws } }

/-- End a work entry with a status and the bytes moved. -/
def Ctl.endWork (c : Ctl) (q : Nat) (w : Work) (status moved : Nat) : Ctl :=
  (c.setWork q ((c.qp q).work.filter (· ≠ w))).complete q status w.entry.wrId moved

/-- Post one work entry (R457, R458): queue pairs that are not enabled on the port take none (log entry 29). -/
def Ctl.post (c : Ctl) (q : Nat) (e : WorkEntry) : Ctl :=
  let x := c.qp q
  let mirror : Bool := decide (e.opcode = 4 ∨ e.opcode = 5)
  let data : Bool := decide (e.opcode = 1 ∨ e.opcode = 2)
  if (!mirror && !data) || (mirror != decide (x.kind = 1)) || (data && !c.keystone) then c.complete q 2 e.wrId 0
  else if e.length = 0 ∨ 16777216 < e.length then c.complete q 7 e.wrId 0
  else if 256 ≤ x.work.length then c.complete q 3 e.wrId 0
  else c.setWork q (x.work ++ [{ entry := e, open_ := false, placed := [], lastNs := c.die.up }])

/-- DOORBELL: 1 to 64 work entries. -/
def execDoorbell (h : FrameHdr) (ents : List WorkEntry) (s : State) : Res :=
  s.ctlNext fun c =>
    let (c, ok) := c.frameIn h
    if !ok then c
    else if !h.encrypted then c.onDie (·.count Reg.SKN_CNT_PLAIN_DISCARD)
    else if ents.isEmpty ∨ 64 < ents.length ∨ !(c.qp h.qp).enable ∨ (c.qp h.qp).port ≠ h.port then c
    else ents.foldl (fun (c : Ctl) e => c.post h.qp e) c

/-- How many bytes ranges cover below n: the ranges do not overlap. -/
def covered (ranges : List (Nat × Nat)) : Nat := sumL (ranges.map (·.2))

/-- Add a range to ranges that do not overlap: only the bytes not yet covered. -/
def addRange (ranges : List (Nat × Nat)) (start len : Nat) : List (Nat × Nat) :=
  let holes := ranges.foldl (fun (hs : List (Nat × Nat)) r => hs.flatMap fun h =>
    let left := if h.1 < r.1 then [(h.1, min (h.1 + h.2) r.1 - h.1)] else []
    let lo := max h.1 (r.1 + r.2)
    let right := if lo < h.1 + h.2 then [(lo, h.1 + h.2 - lo)] else []
    if r.2 = 0 ∨ h.1 + h.2 ≤ r.1 ∨ r.1 + r.2 ≤ h.1 then [h] else left ++ right) [(start, len)]
  ranges ++ holes.filter fun h => 0 < h.2

/-- Take up a WRITE (R457, R458, R481): it is open for its DATA frames, or it ends at once. -/
def Ctl.openWrite (c : Ctl) (q : Nat) (w : Work) : Ctl :=
  if c.die.safe then c.endWork q w 6 0
  else if !c.outsideWrite w.entry.addr w.entry.length then c.endWork q w 1 0
  else c.setWork q ((c.qp q).work.map fun x => if x = w then { x with open_ := true, lastNs := c.die.up } else x)

/-- QP_WRITE. -/
def execQpWrite (qp : Nat) (s : State) : Res :=
  s.ctlNext fun c => match (c.qp qp).work.find? fun w => w.entry.opcode = 1 && !w.open_ with
    | some w => c.openWrite qp w
    | none => c

/-- Send bytes as DATA frames in ascending offset. -/
def Ctl.sendData (c : Ctl) (q : Nat) (w : Work) (bs : Bytes) : Ctl :=
  (List.range (ceilDiv bs.length 4096)).foldl (fun (c : Ctl) i =>
    c.sendFrame (c.qp q).port (txFrame 6 q w.entry.wrId (4096 * i) (slice bs (4096 * i) (min 4096 (bs.length - 4096 * i))))) c

/-- Run a READ (R457, R458, R483). -/
def Ctl.qpRead (c : Ctl) (q : Nat) : Ctl :=
  match (c.qp q).work.find? fun w => w.entry.opcode = 2 with
  | none => c
  | some w =>
    if !c.outsideRead w.entry.addr w.entry.length then c.endWork q w 1 0
    else
      let (c, bs, bad) := c.memRead w.entry.addr w.entry.length
      (c.sendData q w bs).endWork q w (if bad then 8 else 0) bs.length

/-- QP_READ. -/
def execQpRead (qp : Nat) (s : State) : Res := s.ctlNext fun c => c.qpRead qp

/-- MIRROR_OUT on the active module (R347, R457): the posted length is filled with the next mirror record, zeros after it; while none
waits the entry stays outstanding (log entry 29). -/
def Ctl.mirrorOut (c : Ctl) (q : Nat) : Ctl :=
  if c.die.bget Reg.RCV_ROLE 0 0 = 0 then c
  else match (c.qp q).work.find? fun w => w.entry.opcode = 4, c.rcv.mirror with
  | some w, r :: rest =>
    if w.entry.length < r.length then c.endWork q w 7 0
    else
      let c : Ctl := { c with rcv := { c.rcv with mirror := rest } }
      (c.sendData q w (r ++ List.replicate (w.entry.length - r.length) 0)).endWork q w 0 w.entry.length
  | _, _ => c

/-- MIRROR_OUT. -/
def execMirrorOut (qp : Nat) (s : State) : Res := s.ctlNext fun c => c.mirrorOut qp

/-- MIRROR_IN on the standby (R347, R457, R458): the record goes into controller memory and is taken over. -/
def Ctl.mirrorIn (c : Ctl) (q : Nat) (rec : Bytes) : Ctl :=
  if c.die.bget Reg.RCV_ROLE 0 0 = 1 then c
  else match (c.qp q).work.find? fun w => w.entry.opcode = 5 with
  | none => c
  | some w =>
    if c.die.safe then c.endWork q w 6 0
    else if !c.outsideWrite w.entry.addr w.entry.length then c.endWork q w 1 0
    else if w.entry.length < rec.length then c.endWork q w 7 0
    else ((c.memWrite w.entry.addr rec).1.takeMirror rec).endWork q w 0 rec.length

/-- MIRROR_IN. -/
def execMirrorIn (qp : Nat) (rec : Bytes) (s : State) : Res := s.ctlNext fun c => c.mirrorIn qp rec

/-- Place a DATA frame's bytes. -/
def Ctl.place (c : Ctl) (q : Nat) (w : Work) (offset : Nat) (data : Bytes) : Ctl :=
  let moved := covered w.placed
  if c.die.safe then c.endWork q w 6 moved
  else if w.entry.length < offset + data.length then c.endWork q w 7 moved
  else
    let c := (c.memWrite (w.entry.addr + offset) data).1
    let w' : Work := { w with placed := addRange w.placed offset data.length, lastNs := c.die.up }
    let c := c.setWork q ((c.qp q).work.map fun x => if x = w then w' else x)
    if covered w'.placed = w.entry.length then c.endWork q w' 0 w.entry.length else c

/-- Whether a WRITE has had no DATA frame for more than 100 ms (R458). -/
def Work.stale (w : Work) (now : Nat) : Bool := 100000000 + w.lastNs < now

/-- SKEIN_DATA: the WRITE of the frame's wr_id takes it, unless its wait is over. -/
def Ctl.skeinData (c : Ctl) (h : FrameHdr) (data : Bytes) : Ctl :=
  let (c, ok) := c.frameIn h
  if !ok then c
  else if !h.encrypted then c.onDie (·.count Reg.SKN_CNT_PLAIN_DISCARD)
  else
    let find (c : Ctl) (open_ : Bool) : Option Work :=
      (c.qp h.qp).work.find? fun w => w.entry.opcode = 1 && w.entry.wrId = h.id && (w.open_ || !open_)
    let c := match find c false with
      | some w => if w.open_ || w.stale c.die.up then c else c.openWrite h.qp w
      | none => c
    match find c false with
    | some w =>
      let (forced, d) := c.die.takeWait Blk.SKN
      let c : Ctl := { c with die := d }
      if forced ∨ w.stale c.die.up then (c.onDie (·.count Reg.SKN_CNT_LATE_ARRIVAL)).endWork h.qp w 5 (covered w.placed)
      else c.place h.qp w h.offset data
    | none => c.onDie (·.count Reg.SKN_CNT_LATE_ARRIVAL)

/-- SKEIN_DATA. -/
def execSkeinData (h : FrameHdr) (data : Bytes) (s : State) : Res := s.ctlNext fun c => c.skeinData h data

/-- QP_WRITE_TIMEOUT: 100 ms without DATA; the placed bytes stand. -/
def execQpWriteTimeout (qp wrId : Nat) (s : State) : Res :=
  s.ctlNext fun c => match (c.qp qp).work.find? fun w => w.entry.opcode = 1 && w.entry.wrId = wrId with
    | some w => if c.die.up < 100000000 + w.lastNs then c else c.endWork qp w 5 (covered w.placed)
    | none => c

/-- SKN_CLEAR_COUNTERS. -/
def execSknClearCounters (s : State) : Res := s.ctlNext fun c => c.written Blk.SKN fun c => c.onDie (·.clearCounters Blk.SKN)

end Sys2Proof.Machine
end

