-- ==== Sys2Proof/Machine/Spdm.lean ====
section
/-! DEFINITION. The SPDM responder (R399, R454): connections, sessions, certificates, measurements, chunks. The spec names the
requests and what their answers say; response codes, error codes and bodies follow the SPDM standard's numbering (log entry
25). -/

namespace Sys2Proof.Machine

/-! ## Connections -/

/-- A connection before its first request. -/
def Spdm.fresh (k : Conn) : Spdm :=
  { port := k.port, id := k.id, phase := 0, fast := true, session := 0, mutualAuth := false, operator := false, owner := 0,
    rootKey := [], peer := false, relayed := decide (2 ≤ k.port), transcript := [], secret := [], keyGen := (0, 0), missed := 0, beatNs := 0,
    rxChunk := none, txChunk := none }

/-- A connection's state. -/
def Ctl.spdm (c : Ctl) (k : Conn) : Spdm :=
  (c.kst.conns.find? fun x => x.port = k.port && x.id = k.id).getD (Spdm.fresh k)

/-- Store a connection's state. -/
def Ctl.setSpdm (c : Ctl) (x : Spdm) : Ctl :=
  { c with kst := { c.kst with conns := c.kst.conns.filter (fun y => !(y.port = x.port && y.id = x.id)) ++ [x] } }

/-- Forget a connection. -/
def Ctl.dropSpdm (c : Ctl) (k : Conn) : Ctl :=
  { c with kst := { c.kst with conns := c.kst.conns.filter fun y => !(y.port = k.port && y.id = k.id) } }

/-- Whether a message over a connection reaches the responder: its port is up, or a link session relays it (R454). -/
def Ctl.hears (c : Ctl) (k : Conn) : Bool :=
  if k.port < 2 then decide (k.port < c.die.part.skeinPorts) && (c.port k.port).link = 2
  else c.ports.any fun p => p.2.session.isSome

/-- A number as the 32 little-endian bytes of a nonce. -/
def nonceBytes (n : Nat) : Bytes := le 32 n

/-- Emit a response; one that no frame holds is kept for CHUNK_GET and announced by ERROR LargeResponse. -/
def Ctl.answer (c : Ctl) (k : Conn) (code : Nat) (body : Bytes) : Ctl :=
  if body.length ≤ 4092 then c.sendSpdm k code body
  else
    let x := c.spdm k
    let handle := ((x.txChunk.map (·.1)).getD 0 + 1) % 256
    let c := c.setSpdm { x with txChunk := some (handle, 0, le 1 code ++ body) }
    c.sendSpdm k 0x7F (le 1 0x0F ++ le 1 0 ++ le 1 handle)

/-- An ERROR response. -/
def Ctl.spdmError (c : Ctl) (k : Conn) (code data : Nat) : Ctl := c.sendSpdm k 0x7F (le 1 code ++ le 1 data)

/-- Answer a request that a phase allows, with the request and the answer in the transcript. -/
def Ctl.advance (c : Ctl) (k : Conn) (x : Spdm) (request : Bytes) (code : Nat) (body : Bytes) : Ctl :=
  (c.setSpdm { x with transcript := x.transcript ++ request ++ le 1 code ++ body }).answer k code body

/-- Run a request that needs a phase; before it the request is unexpected. -/
def Ctl.request (c : Ctl) (k : Conn) (phase : Nat) (f : Ctl → Spdm → Ctl) : Ctl :=
  if !c.hears k then c
  else
    let x := c.spdm k
    if x.phase < phase then c.spdmError k 0x04 0 else f c x

/-- Run a request inside an established session. -/
def Ctl.inSession (c : Ctl) (k : Conn) (session : Nat) (f : Ctl → Spdm → Ctl) : Ctl :=
  if !c.hears k then c
  else
    let x := c.spdm k
    if x.phase = 5 ∧ x.session = session then f c x else c.spdmError k 0x02 0

/-- The responder's signature over a transcript (R399: SLH-DSA-SHAKE-256s, the identity key of R380). -/
def kstSign (b : Bytes) : Bytes := slice (Config.slhSign false 1 b) 0 29792

/-! ## Version, capabilities, algorithms -/

/-- GET_VERSION: only version 0x13. -/
def execGetVersion (c : Conn) (s : State) : Res :=
  s.ctlNext fun t =>
    if !t.hears c then t
    else if (t.spdm c).phase ≥ 4 then t.spdmError c 0x04 0
    else t.advance c { Spdm.fresh c with phase := 1 } (le 1 0x84) 0x04 (le 1 0 ++ le 1 1 ++ le 2 0x1300)

/-- The responder's capability flags: certificates, challenge, signed measurements, encryption, mutual authentication, key
exchange, heartbeat, key update and chunks. -/
def spdmFlags : Nat := 2 ^ 1 + 2 ^ 2 + 2 ^ 4 + 2 ^ 6 + 2 ^ 7 + 2 ^ 8 + 2 ^ 9 + 2 ^ 13 + 2 ^ 14 + 2 ^ 17

/-- GET_CAPABILITIES. -/
def execGetCapabilities (c : Conn) (version flags : Nat) (s : State) : Res :=
  s.ctlNext fun t => t.request c 1 fun t x =>
    if version ≠ 0x13 then t.spdmError c 0x41 0
    else t.advance c { x with phase := max x.phase 2 } (le 1 0xE1 ++ le 4 flags) 0x61 (le 4 spdmFlags)

/-- NEGOTIATE_ALGORITHMS: the responder needs its own signature and key exchange offered; the requester signs with the 256f set,
or with the 256s set of a device key (R399, R526). -/
def execNegotiateAlgorithms (c : Conn) (version : Nat) (algs : List Nat) (s : State) : Res :=
  s.ctlNext fun t => t.request c 2 fun t x =>
    if version ≠ 0x13 then t.spdmError c 0x41 0
    else if !(algs.contains 1) ∨ !(algs.contains 3) then t.spdmError c 0x01 0
    else
      let fast := algs.contains 2
      t.advance c { x with phase := max x.phase 3, fast := fast } (le 1 0xE3 ++ algs.flatMap (le 2)) 0x63
        (le 2 1 ++ le 2 3 ++ le 2 (if fast then 2 else 1))

/-! ## Certificates and measurements -/

/-- GET_DIGESTS. -/
def execGetDigests (c : Conn) (s : State) : Res :=
  s.ctlNext fun t => t.request c 3 fun t x =>
    t.advance c x (le 1 0x81) 0x01 (le 1 1 ++ digestBytes (Config.sha3 (Config.deviceCert t.dieId)))

/-- GET_CERTIFICATE: a portion of the chain of slot 0 and what remains after it. -/
def execGetCertificate (c : Conn) (slot offset length : Nat) (s : State) : Res :=
  s.ctlNext fun t => t.request c 3 fun t x =>
    let chain := Config.deviceCert t.dieId
    if slot ≠ 0 ∨ chain.length ≤ offset then t.spdmError c 0x01 0
    else
      let part := (chain.drop offset).take (min length 4080)
      t.advance c x (le 1 0x82 ++ le 2 offset ++ le 2 length) 0x02
        (le 1 slot ++ le 2 part.length ++ le 2 (chain.length - offset - part.length) ++ part)

/-- CHALLENGE: the responder signs its transcript with its own nonce (log entry 3). -/
def execChallenge (c : Conn) (nonce : Nat) (s : State) : Res :=
  s.ctlNext fun t => t.request c 3 fun t x =>
    let (own, d) := Die.freeBytes 4 t.die
    let t : Ctl := { t with die := d }
    let body := digestBytes (Config.sha3 (Config.deviceCert t.dieId)) ++ own
    let req := le 1 0x83 ++ nonceBytes nonce
    t.advance c x req 0x03 (body ++ kstSign (x.transcript ++ req ++ body))

/-- The digest of the image with a version, where module flash holds one; the image a module came with is not held (log entry
8). -/
def Ctl.agentImageDigest (c : Ctl) (version : Nat) : Digest :=
  match [tget c.flash.running 3, tget c.flash.staged 3].filterMap id |>.find? fun b => (imageHdr b).version = version with
  | some b => digestOf (imageHdr b).bodyDigest
  | none => Config.eventDigest 3 version

/-- The version of agent firmware most widely active in the fabric; the highest of equals. -/
def Ctl.widestVersion (c : Ctl) : Nat :=
  let vs := ((c.cst.agents.map (·.2)).filter (·.named)).map (·.fwVersion)
  (vs.foldl (fun (b : Nat × Nat) v =>
    let n := (vs.filter (· = v)).length
    if b.2 < n ∨ (b.2 = n ∧ b.1 < v) then (v, n) else b) (0, 0)).1

/-- A measurement block (R399): Keystone's registers, and the agent firmware most widely active. -/
def Ctl.measurement (c : Ctl) (block : Nat) : Digest :=
  if block ≤ 8 then ((tget c.kst.meas (block - 1)).map (·.value)).getD 0 else c.agentImageDigest c.widestVersion

/-- GET_MEASUREMENTS: block 0 asks for their number, 0xFF for all nine. -/
def execGetMeasurements (c : Conn) (block : Nat) (signed : Bool) (nonce : Nat) (s : State) : Res :=
  s.ctlNext fun t => t.request c 3 fun t x =>
    if 9 < block ∧ block ≠ 0xFF then t.spdmError c 0x01 0
    else
      let which := if block = 0 then [] else if block = 0xFF then (List.range 9).map (· + 1) else [block]
      let body := le 1 (if block = 0 then 9 else which.length) ++ which.flatMap fun b => le 1 b ++ le 1 1 ++ le 2 64 ++ digestBytes (t.measurement b)
      let req := le 1 0xE0 ++ le 1 block ++ le 1 (b2n signed) ++ nonceBytes nonce
      t.advance c x req 0x60 (body ++ if signed then kstSign (x.transcript ++ req ++ body) else [])

/-! ## Sessions -/

/-- KEY_EXCHANGE: ML-KEM-1024 to the requester's key. -/
def execKeyExchange (c : Conn) (reqSession : Nat) (ek : Bytes) (s : State) : Res :=
  s.ctlNext fun t => t.request c 3 fun t x =>
    if x.phase = 5 then t.spdmError c 0x04 0
    else
      let (ct, shared) := Config.kemEncaps ek t.die.free
      let t := t.onDie fun d => { d with free := d.free + 1 }
      let id := reqSession % 65536 + t.kst.nextSession % 65536 * 65536
      let req := le 1 0xE4 ++ le 2 reqSession ++ ek
      let body := le 2 t.kst.nextSession ++ slice ct 0 1568
      let sig := kstSign (x.transcript ++ req ++ body)
      let secret := Config.spdmSecret shared (x.transcript ++ req ++ body ++ sig)
      let t : Ctl := { t with kst := { t.kst with nextSession := t.kst.nextSession + 1 } }
      t.advance c { x with phase := 4, session := id, secret := secret } req 0x64
        (body ++ sig ++ Config.spdmFinished true secret (x.transcript ++ req ++ body ++ sig))

/-- Whether a chain of certificates verifies from a root key, each under the one before it. -/
def chainOk (root : Bytes) : List Bytes → Bool
  | [] => true
  | x :: rest => Config.certOk root x && chainOk (Config.certKey x) rest

/-- The operator keys Keystone takes: none where the store failed its tag, and none in test mode (R379, R383). -/
def Ctl.operatorStore (c : Ctl) : List Bytes :=
  if !c.flash.operatorsOk || c.die.fget Fl.KST_STATUS_test_mode = 1 then [] else c.flash.operators

/-- The operator store changes (R383): register 5 is extended with the event (R377). -/
def Ctl.setOperators (c : Ctl) (ks : List Bytes) : Ctl :=
  let c : Ctl := { c with flash := { c.flash with operators := ks, operatorsOk := true } }
  (c.onDie (·.fset Fl.KST_STATUS_store_valid 1)).extend 5 0x53 (Config.shake256 (ks.flatMap id))

/-- A requester that authenticates itself (R399, R401, R454): what its chain makes of it, or none where it does not verify. A
device certificate is admitted in the pairing session only. -/
def Ctl.authenticate (c : Ctl) (x : Spdm) (chain : List Bytes) (signature : Bytes) : Option Spdm :=
  let root := chain.headD []
  match (chain.drop 1).getLast? with
  | none => none
  | some leaf =>
    if !(chainOk root (chain.drop 1)) || !(Config.slhVerify x.fast (Config.certKey leaf) x.transcript signature) then none
    else if !x.fast then
      if x.relayed ∧ root = Config.publicKey 5 then some { x with mutualAuth := true, peer := true, rootKey := root } else none
    else some { x with mutualAuth := true, operator := c.operatorStore.contains root, rootKey := root,
                       owner := leNat ((digestBytes (Config.shake256 leaf)).take 16) }

/-- Enrolment (R383): the root of the first mutually authenticated session of step 4 becomes entry 0 of an empty store. -/
def Ctl.enrolRoot (c : Ctl) (x : Spdm) : Ctl × Spdm :=
  let armed : Bool := c.die.fget Fl.KST_STATUS_enrol_armed = 1 && decide (c.die.fget Fl.KST_STATUS_test_mode = 0)
  let empty : Bool := c.flash.operators.isEmpty || !c.flash.operatorsOk
  let step4 : Bool := (c.cst.running.map (·.1)) = some 4
  if armed && empty && step4 && x.mutualAuth && !x.peer then
    ((c.setOperators [x.rootKey]).onDie (·.fset Fl.KST_STATUS_enrol_armed 0), { x with operator := true })
  else (c, x)

/-- A session that fails: counted, the connection back at its algorithms. -/
def Ctl.sessionFail (c : Ctl) (k : Conn) (x : Spdm) : Ctl :=
  ((c.setSpdm { x with phase := 3, session := 0, secret := [] }).onDie (·.count Reg.KST_CNT_SESSION_FAIL)).spdmError k 0x06 0

/-- FINISH (R454): the first session completed on a port is its link session; its frames' sequences start again at 0. A pairing
extends register 7 (R377). -/
def Ctl.finish (c : Ctl) (k : Conn) (session : Nat) (chain : List Bytes) (signature verify : Bytes) : Ctl :=
  c.request k 4 fun c x =>
    let req := le 1 0xE5 ++ signature
    if x.phase ≠ 4 then c.spdmError k 0x04 0
    else if x.session ≠ session ∨ verify ≠ Config.spdmFinished false x.secret (x.transcript ++ req) then c.sessionFail k x
    else
      match if chain.isEmpty then some x else c.authenticate x chain signature with
      | none => c.sessionFail k x
      | some x =>
        let (c, x) := c.enrolRoot x
        let c := if x.peer then c.extend 7 0x71 (Config.shake256 (chain.flatMap id)) else c
        let c := c.advance k { x with phase := 5, keyGen := (0, 0), missed := 0, beatNs := c.die.up } req 0x65 []
        let p := c.port k.port
        if x.relayed || p.session.isSome then c
        else c.startLink k.port x.session

/-- FINISH. -/
def execFinish (c : Conn) (session : Nat) (chain : List Bytes) (signature verify : Bytes) (s : State) : Res :=
  s.ctlNext fun t => t.finish c session chain signature verify

/-- KEY_UPDATE: operation 1 changes the keys of the requester's direction, 2 those of both, 3 verifies. -/
def execKeyUpdate (c : Conn) (session tagOp : Nat) (s : State) : Res :=
  s.ctlNext fun t => t.inSession c session fun t x =>
    let g := match tagOp % 256 with
      | 1 => (x.keyGen.1 + 1, x.keyGen.2)
      | 2 => (x.keyGen.1 + 1, x.keyGen.2 + 1)
      | _ => x.keyGen
    if tagOp % 256 = 0 ∨ 3 < tagOp % 256 then t.spdmError c 0x01 0
    else (t.setSpdm { x with keyGen := g }).answer c 0x69 (le 1 (tagOp % 256) ++ le 1 (tagOp / 256))

/-- HEARTBEAT from the requester: the session is alive. -/
def execSpdmHeartbeat (c : Conn) (session : Nat) (s : State) : Res :=
  s.ctlNext fun t => t.inSession c session fun t x => (t.setSpdm { x with missed := 0 }).answer c 0x68 []

/-- SPDM_HEARTBEAT_SEND (R454): the heartbeat of each second; after three unanswered the session ends, a second after the third. -/
def Ctl.heartbeatSend (c : Ctl) (port : Nat) : Ctl :=
  match (c.port port).session, c.kst.conns.find? fun x => x.port = port && x.phase = 5 && (c.port port).session = some x.session with
  | some _, some x =>
    if c.die.up < 1000000000 + x.beatNs then c
    else if 3 ≤ x.missed then c.endLink port
    else (c.setSpdm { x with missed := x.missed + 1, beatNs := c.die.up }).sendSpdm { port := port, id := x.id } 0xE8 []
  | _, _ => c

/-- SPDM_HEARTBEAT_SEND. -/
def execSpdmHeartbeatSend (port : Nat) (s : State) : Res := s.ctlNext (·.heartbeatSend port)

/-- END_SESSION: a link session ends with SKN_SESSION_LOST. -/
def execEndSession (c : Conn) (session : Nat) (s : State) : Res :=
  s.ctlNext fun t => t.inSession c session fun t x =>
    let t := t.answer c 0x6C []
    if (t.port c.port).session = some x.session ∧ !x.relayed then t.endLink c.port else t.dropSpdm c

/-! ## Chunks -/

/-- CHUNK_SEND: chunks of one handle in order; the request they make up is the command of its own row. -/
def execChunkSend (c : Conn) (handle seq : Nat) (last : Bool) (data : Bytes) (s : State) : Res :=
  s.ctlNext fun t => t.request c 2 fun t x =>
    let held : Option Bytes := match x.rxChunk with
      | some (h, n, b) => if h = handle ∧ n = seq then some b else none
      | none => none
    let start : Option Bytes := if seq = 0 then some [] else held
    match start with
    | none => (t.setSpdm { x with rxChunk := none }).spdmError c 0x01 0
    | some b => (t.setSpdm { x with rxChunk := if last then none else some (handle, seq + 1, b ++ data) }).answer c 0x05
        (le 1 handle ++ le 2 seq)

/-- Bytes of a response that one chunk carries. -/
def chunkBytes : Nat := 4080

/-- CHUNK_GET: the chunks of the response that waits, in order; the last ends it. -/
def execChunkGet (c : Conn) (handle seq : Nat) (s : State) : Res :=
  s.ctlNext fun t => t.request c 2 fun t x =>
    match x.txChunk with
    | none => t.spdmError c 0x04 0
    | some (h, n, b) =>
      if h ≠ handle ∨ n ≠ seq then t.spdmError c 0x01 0
      else
        let part := b.take chunkBytes
        let rest := b.drop chunkBytes
        (t.setSpdm { x with txChunk := if rest.isEmpty then none else some (h, n + 1, rest) }).answer c 0x06
          (le 1 handle ++ le 1 (b2n rest.isEmpty) ++ le 2 seq ++ part)

/-- PSK_EXCHANGE, GET_CSR, SET_CERTIFICATE: ERROR UnsupportedRequest with the request's code. -/
def execUnsupportedRequest (c : Conn) (code : Nat) (s : State) : Res :=
  s.ctlNext fun t => if t.hears c then t.spdmError c 0x07 code else t

/-! ## Vendor requests -/

/-- A vendor response (R526): standard, vendor, request and what it carries. -/
def Ctl.vendor (c : Ctl) (k : Conn) (req : Nat) (body : Bytes) : Ctl :=
  c.answer k 0x7E (le 2 4 ++ le 1 4 ++ le 4 0x0000C7A5 ++ le 1 req ++ body)

/-- ERROR with the vendor status DENIED (R400). -/
def Ctl.vendorDenied (c : Ctl) (k : Conn) : Ctl := c.spdmError k 0xFF 0x07

/-- The key_id of a tenant key (R386). -/
def keyIdOf (key : Bytes) : Nat := leNat ((digestBytes (Config.shake256 (ascii "YARULAIS KEY ID" ++ key))).take 16)

/-- KEY_DELIVER (R387): the status, and the key stored where it is OK. A use that R387 does not give is an invalid request. -/
def Ctl.keyDeliver (c : Ctl) (k : Conn) (x : Spdm) (key : Bytes) (use flags : Nat) (member : Digest) : Ctl :=
  let key := slice key 0 32
  let id := keyIdOf key
  let status :=
    if !x.mutualAuth then 3
    else if c.die.fget Fl.KST_STATUS_test_mode = 1 then 4
    else if (c.kst.tenant.any fun t => t.keyId = id) ∨ c.flash.consumed.contains id then 2
    else if 8192 ≤ c.kst.tenant.length then 1
    else 0
  if 1 < use then c.spdmError k 0x01 0
  else
    let c : Ctl := if status ≠ 0 then c.onDie (·.count Reg.KST_CNT_KEYS_REFUSED)
      else
        let t : TKey := { keyId := id, key := key, use := use, owner := x.owner, member := if bitOf flags 0 then some member else none,
                          bound := none }
        let c := (c.extend 6 0x60 (BitVec.ofNat 512 id)).onDie (·.count Reg.KST_CNT_KEYS_ACCEPTED)
        { c with kst := { c.kst with tenant := c.kst.tenant ++ [t] } }
    c.vendor k 1 (le 16 id ++ le 1 status)

/-- KEY_DELIVER. -/
def execKeyDeliver (c : Conn) (session : Nat) (key : Bytes) (use flags : Nat) (member : Digest) (s : State) : Res :=
  s.ctlNext fun t => t.inSession c session fun t x => t.keyDeliver c x key use flags member

/-- KEY_DESTROY (R387): an unconsumed key of the same owner. -/
def execKeyDestroy (c : Conn) (session keyId : Nat) (s : State) : Res :=
  s.ctlNext fun t => t.inSession c session fun t x =>
    let mine (k : TKey) : Bool := k.keyId = keyId && k.bound.isNone && k.owner = x.owner && x.mutualAuth
    if t.kst.tenant.any mine then
      ({ t with kst := { t.kst with tenant := t.kst.tenant.filter fun k => !(mine k) } } : Ctl).vendor c 2 (le 1 0)
    else t.vendorDenied c

/-- OPERATOR_KEYS (R383): in a session that a chain to an entry authenticated; that entry stays. -/
def execOperatorKeys (c : Conn) (session op : Nat) (key : Bytes) (s : State) : Res :=
  s.ctlNext fun t => t.inSession c session fun t x =>
    let store := t.flash.operators
    if !x.operator then t.vendorDenied c
    else if op = 0 then
      if store.contains key ∨ 16 ≤ store.length then t.vendorDenied c else (t.setOperators (store ++ [key])).vendor c 5 (le 1 0)
    else if op = 1 then
      if key = x.rootKey ∨ !(store.contains key) then t.vendorDenied c
      else (t.setOperators (store.filter (· ≠ key))).vendor c 5 (le 1 0)
    else t.spdmError c 0x01 0

end Sys2Proof.Machine
end

