-- ==== Sys2Proof/Machine/Keystone.lean ====
section
/-! DEFINITION. Keystone and the agents' keys (R374 to R405): its register commands, key slots, measurements of agents, reports,
debug attach. -/

namespace Sys2Proof.Machine

/-! ## KST_CTL (R376, R380, R383, R404) -/

/-- The certificates of a concatenated DER bundle: each a SEQUENCE with its length; what does not parse is one bad certificate. -/
def derSplit : Nat → Bytes → List Bytes
  | 0, _ => []
  | fuel + 1, b =>
    if b.isEmpty then []
    else
      let l := byteAt b 1
      let n := if l < 0x80 then 2 + l
        else if l = 0x81 then 3 + byteAt b 2
        else if l = 0x82 then 4 + byteAt b 2 * 256 + byteAt b 3
        else if l = 0x83 then 5 + byteAt b 2 * 65536 + byteAt b 3 * 256 + byteAt b 4
        else 0
      if byteAt b 0 ≠ 0x30 ∨ n = 0 ∨ b.length < n then [b] else b.take n :: derSplit fuel (b.drop n)

/-- Load the bundle at KST_CERT_ADDR: valid certificates are kept by die_id, the others counted. -/
def Ctl.loadCerts (c : Ctl) : Ctl :=
  let (c, b, bad) := c.memRead (c.die.getN Reg.KST_CERT_ADDR) (c.die.bget Reg.KST_CERT_LEN 27 0)
  if bad then c
  else (derSplit b.length b).foldl (fun c x =>
    if Config.certOk (Config.publicKey 5) x then
      { c with flash := { c.flash with certs := tset c.flash.certs (Config.certSubject x) x } }
    else c.onDie (·.count Reg.KST_CNT_CERT_BAD)) c

/-- KST_LOAD_CERTS. -/
def execKstLoadCerts (s : State) : Res := s.ctlNext fun c => c.written Blk.KST (·.loadCerts)

/-- KST_ENROL: armed while the operator store is empty. -/
def execKstEnrol (s : State) : Res :=
  s.ctlNext fun c => c.written Blk.KST fun c =>
    if c.flash.operators.isEmpty || !c.flash.operatorsOk then c.onDie (·.fset Fl.KST_STATUS_enrol_armed 1) else c

/-- The fuses of the fields of R376. -/
def fuseCaps : List Nat := [64, 128, 128, 64]

/-- The index that rollback_commit raises a field to: that of the running image, or one more for the BASE floor. -/
def Ctl.runningIndex (c : Ctl) (field : Nat) : Nat :=
  match field with
  | 3 => c.flash.fuses.getD 3 0 + 1
  | f => match tget c.flash.running (f + 1) with
    | some b => (imageHdr b).rollback
    | none => 0

/-- ROLLBACK_COMMIT (R376): fuses are only ever blown. -/
def Ctl.rollbackCommit (c : Ctl) (val : Nat) : Ctl :=
  let f := bitsOf val 6 4
  if !bitOf val 3 ∨ bitsOf val 15 8 ≠ 0xC3 ∨ 3 < f then c
  else
    let n := max (c.flash.fuses.getD f 0) (min (fuseCaps.getD f 0) (c.runningIndex f))
    { c with flash := { c.flash with fuses := c.flash.fuses.set f n } }

/-- ROLLBACK_COMMIT. -/
def execRollbackCommit (val : Word) (s : State) : Res := s.ctlNext fun c => c.written Blk.KST fun c => c.rollbackCommit val.toNat

/-- KST_CLEAR_COUNTERS (R404). -/
def execKstClearCounters (s : State) : Res := s.ctlNext fun c => c.written Blk.KST fun c => c.onDie (·.clearCounters Blk.KST)

/-! ## Key slots at an agent (R391, R392) -/

/-- What an agent answers to a KEY_WRAP (R391): the status. Where several hold, test mode comes first, then a replay, the tag, the
fields and the slot (log entry 26). -/
def Agt.wrapStatus (a : Agt) (p : Bytes) : Nat :=
  let n := fieldAt p 32 8
  let key := (a.gcm.keys.map (·.wrapKey)).getD []
  if a.die.testEn then 5
  else if n ≤ a.die.getN Reg.GCM_WRAP_SEQ then 2
  else if a.gcm.keys.isNone || !(Config.gcmOk key (le 4 0 ++ be 8 n) (p.take 40 ++ le 4 a.fid) (slice p 40 32) (slice p 72 16)) then 1
  else if 2 < byteAt p 1 ∨ fieldAt p 2 2 = 0 ∨ 4095 < fieldAt p 2 2 ∨ fieldAt p 12 4 ≠ 0 then 4
  else if (a.keySlot (byteAt p 0)).isSome then 3
  else 0

/-- Load a slot: register 3 is extended with what was loaded (R378). -/
def Agt.loadSlot (a : Agt) (p : Bytes) : Agt :=
  let n := fieldAt p 32 8
  let key := (a.gcm.keys.map (·.wrapKey)).getD []
  let k : KeySlot :=
    { state := 1, use := byteAt p 1, partition := fieldAt p 2 2, keyId := fieldAt p 16 16,
      key := slice (Config.gcmOpen key (le 4 0 ++ be 8 n) (p.take 40 ++ le 4 a.fid) (slice p 40 32)) 0 32,
      inst := fieldAt p 4 4, gen := fieldAt p 8 4, loadedNs := a.die.up, activeNs := none, retireNs := none }
  let a : Agt := { a with gcm := { a.gcm with slots := tset a.gcm.slots (byteAt p 0) k } }
  let a := a.extendMsr 3 0x20 0 (slice p 16 16 ++ slice p 0 2 ++ slice p 4 8)
  a.onDie (·.setN Reg.GCM_WRAP_SEQ n)

/-- KEY_WRAP (R391, R464): the load and its KEY_RESULT. -/
def Agt.keyWrap (a : Agt) (w : Worm) : Agt :=
  if markPriv (wormMark w) ≠ 2 then a.onDie Die.markDenied
  else
    let p := slice w.payload 0 128
    let st := a.wrapStatus p
    let a := if st = 0 then a.loadSlot p else a.count Reg.GCM_CNT_WRAP_REFUSED
    a.onDie fun d => d.sendA w.srcFid 0x42 0 (slice p 0 1 ++ le 1 st ++ le 6 0 ++ slice p 32 8)

/-- KEY_WRAP. -/
def execKeyWrap (w : Who) (_inBond : Nat) (wm : Worm) (s : State) : Res := s.agtNext w fun a => a.keyWrap wm

/-- KEY_RESULT (R391): the load it answers is no longer awaited. -/
def execKeyResult (fid slot _status wrapCounter : Nat) (s : State) : Res :=
  s.ctlNext fun c => { c with kst := { c.kst with wraps := c.kst.wraps.filter fun x => x ≠ (fid, slot, wrapCounter) } }

/-- KEY_SLOT_UNUSED_TIMEOUT (R391): 60 s in LOADED without activation. -/
def execKeySlotUnusedTimeout (w : Who) (slot : Nat) (s : State) : Res :=
  s.agtNext w fun a => match a.keySlot slot with
    | some k => if k.state = 1 ∧ 60000000000 + k.loadedNs ≤ a.die.up then (a.emptySlot slot).raise Ev.KEY_UNUSED slot else a
    | none => a

/-- KEY_SLOT_RETIRE (R391): the retire time has passed. -/
def execKeySlotRetire (w : Who) (slot : Nat) (s : State) : Res :=
  s.agtNext w fun a => match a.keySlot slot with
    | some k => match k.state, k.retireNs with
      | 3, some t => if t ≤ a.die.ns then a.emptySlot slot else a
      | _, _ => a
    | none => a

/-- KEY_EXPIRE (R392): a traffic slot too old to encrypt under. -/
def execKeyExpire (w : Who) (slot : Nat) (s : State) : Res :=
  s.agtNext w fun a => match a.keySlot slot with
    | some k => if k.use = 0 ∧ a.keyExpired slot then a.noteExpired else a
    | none => a

/-- GCM_CLEAR_COUNTERS (R405). -/
def execGcmClearCounters (w : Who) (s : State) : Res := s.agtNext w fun a => a.written Blk.GCM (·.onDie (·.clearCounters Blk.GCM))

/-- Rekey a partition (R392): the next generation in the lowest slot free at its agents, then a JOB Pattern that names it. -/
def Ctl.rekey (c : Ctl) (tag : Nat) : Ctl :=
  match c.adm.parts.find? fun p => p.tag = tag && p.phase = 1 with
  | none => c
  | some p =>
    let due : Bool := match p.activeNs with
      | some t => decide (2 ^ 49 + t ≤ c.die.ns)
      | none => false
    let held := c.kst.tenant.any fun k => k.keyId = p.trafficKey
    if !bitOf p.flags 1 ∨ !due ∨ !held then c
    else match freeSlot c.adm.parts (p.members ++ p.switches) with
      | none => c
      | some slot =>
        let c := c.loadKeys p slot (p.gen + 1)
        let p' : PartPlan := { p with trafficSlot := slot, gen := p.gen + 1 }
        let old := c.adm.parts.filter fun x => x.phase = 1
        let ps := old.map fun x => if x.tag = tag then p' else x
        let (c, course) := c.install old ps false (some p') p.period
        if course = 0 then c
        else
          let p' : PartPlan := { p' with activateCourse := course, activeNs := some (course * c.courseNs) }
          { c with adm := { c.adm with parts := c.adm.parts.map fun x => if x.tag = tag ∧ x.inst = p.inst then p' else x } }

/-- REKEY. -/
def execRekey (tag : Nat) (s : State) : Res := s.ctlNext (·.rekey tag)

/-! ## Measurements of agents (R401, R403) -/

/-- Bytes 0 to 119 of a MEASURE_REPORT. -/
def measureBytes (register state lastSeq extendSeq nonce : Nat) (value : Digest) : Bytes :=
  le 1 register ++ le 1 state ++ le 6 0 ++ le 8 lastSeq ++ le 8 extendSeq ++ nonceBytes nonce ++ digestBytes value

/-- The tag of a MEASURE_REPORT. -/
def measureTag (reportKey : Bytes) (body : Bytes) (fid : Nat) : Bytes :=
  Config.kmac256 reportKey (body ++ le 4 fid) 512 (ascii "YARULAIS MEASURE")

/-- MEASURE_REQ (R401): one report for each register asked. -/
def execMeasureReq (w : Who) (nonce mask : Nat) (s : State) : Res :=
  s.agtNext w fun a => match a.gcm.keys with
    | none => a
    | some k => (bitList mask 16).foldl (fun a r =>
        let m := (tget a.msr r).getD { value := 0, lastSeq := 0, count := 0 }
        let st := a.castState % 16 + a.die.fget Fl.WCH_STATUS_level % 8 * 16
        let body := measureBytes r st m.lastSeq (a.die.getN Reg.MSR_SEQ) nonce m.value
        a.onDie (·.toController 0x41 (body ++ slice (measureTag k.reportKey body a.fid) 0 64))) a

/-! ## Reports (R400, R402, R403) -/

/-- The partition a report is about. -/
def Ctl.partOf (c : Ctl) (tag : Nat) : Option PartPlan := (c.adm.parts.filter fun p => p.tag = tag && decide (1 ≤ p.phase)).getLast?

/-- The agents of a PARTITION report: members (1) and the transit switches that hold a key (2), ascending FID. -/
def Ctl.reportAgents (c : Ctl) (tag : Nat) : List (Nat × Nat) :=
  match c.partOf tag with
  | none => []
  | some p =>
    let sws := if bitOf p.flags 1 then p.switches.map fun f => (f, 2) else []
    (p.members.map (fun f => (f, 1)) ++ sws).mergeSort fun x y => decide (x.1 ≤ y.1)

/-- Whether an agent is asked (R403): not at recovery level 2 to 5, in the cast-on regime or in RESET. -/
def Ctl.asks (c : Ctl) (fid : Nat) : Bool := match tget c.cst.agents fid with
  | some a => !(decide (2 ≤ a.level ∧ a.level ≤ 5)) && !a.castOn && decide (a.state ≠ 0)
  | none => false

/-- An image entry (R400). -/
def imageEntry (kind state version : Nat) (digest : Digest) : Bytes :=
  le 1 kind ++ le 1 state ++ le 2 0 ++ le 4 version ++ le 8 0 ++ digestBytes digest

/-- The image list (R400): what runs of each kind, with what is staged beside it. -/
def Ctl.imageList (c : Ctl) : List Bytes :=
  let running (kind : Nat) : Bytes := match tget c.flash.running kind with
    | some b => imageEntry kind 1 (imageHdr b).version (digestOf (imageHdr b).bodyDigest)
    | none => imageEntry kind 1 (if kind = 2 then c.die.fw.version else 0) (Config.eventDigest kind 0)
  let staged (kind : Nat) : List Bytes := match tget c.flash.staged kind with
    | some b => [imageEntry kind 2 (imageHdr b).version (digestOf (imageHdr b).bodyDigest)]
    | none => []
  [running 1] ++ staged 1 ++ [running 2] ++ staged 2
  ++ [imageEntry 3 1 c.widestVersion (c.agentImageDigest c.widestVersion)] ++ staged 3
  ++ (if c.sealed then [imageEntry 4 1 c.meter.version c.meter.fwDigest] else [])

/-- An agent's entry (R400, R403): the last verified values, whatever its state. -/
def Ctl.agentEntry (c : Ctl) (j : ReportJob) (fid role : Nat) : Bytes :=
  let v := c.kst.verified.find? fun x => x.fid = fid
  let pending : Bool := (c.fdsAgent fid).state = 3
  let value (r : Nat) : Bytes := digestBytes ((v.bind fun x => tget x.values r).getD 0)
  le 4 fid ++ le 1 role ++ le 1 (tgetD j.states fid 1) ++ le 2 (b2n v.isSome + 2 * b2n pending)
  ++ le 8 ((v.map (·.seq)).getD 0) ++ le 8 ((v.map (·.time)).getD 0)
  ++ ((List.range 4).flatMap value)
  ++ (if role = 1 then (List.range 8).flatMap fun i => value (8 + i) else List.replicate 512 0) ++ le 8 0

/-- The signed record of a report (R400). -/
def Ctl.reportRecord (c : Ctl) (j : ReportJob) : Bytes :=
  let ags := if j.kind = 2 then c.reportAgents j.tag else []
  let flags := c.die.fget Fl.KST_STATUS_test_mode + 2 * c.die.fget Fl.KST_STATUS_debug_attached + 4 * b2n (!c.sealed)
  let hdr := ascii "YATT" ++ le 2 0x0100 ++ le 1 j.kind ++ le 1 flags ++ le 8 (c.die.getN Reg.KST_SEQ) ++ le 8 c.die.ns
    ++ le 2 (if j.kind = 2 then j.tag else 0) ++ le 2 0 ++ le 4 ags.length ++ nonceBytes j.nonce ++ List.replicate 64 0
  let meas := (List.range 8).flatMap fun r => digestBytes (((tget c.kst.meas r).map (·.value)).getD 0)
  let b := hdr ++ meas ++ c.imageList.flatMap id ++ ags.flatMap fun a => c.agentEntry j a.1 a.2
  b ++ kstSign (digestBytes (Config.shake256 b))

/-- Whether an activation course already chosen is still to come, which holds every report back (R402). -/
def Ctl.activationAhead (c : Ctl) : Bool := match c.fds.course with
  | some k => decide (c.courseNow ≤ k)
  | none => false

/-- Start gathering for a report: the agents that may be asked are, with a fresh nonce. -/
def Ctl.startJob (c : Ctl) (j : ReportJob) : Ctl × ReportJob :=
  let ags := if j.kind = 2 then c.reportAgents j.tag else []
  let (bs, d) := Die.freeBytes 4 c.die
  let c : Ctl := { c with die := d }
  let n := leNat bs
  let mask (role : Nat) : Nat := if role = 1 then 0xFF0F else 0x000F
  let ask := ags.filter fun a => c.asks a.1
  let c := ask.foldl (fun c a => c.sendA a.1 0x40 (nonceBytes n ++ le 2 (mask a.2))) c
  (c, { j with started := true, askNonce := n, askedNs := c.die.up, waiting := ask.map fun a => { fid := a.1, mask := mask a.2, values := [] } })

/-- Run the reports that can run, in order (R402). -/
def Ctl.pumpJobs : Nat → Ctl → Ctl
  | 0, c => c
  | n + 1, c =>
    match c.kst.jobs with
    | [] => ((c.onDie (·.fset Fl.KST_STATUS_report_busy 0)).fdsResume).meterResume.patActivate
    | j :: rest =>
      if !j.started && c.activationAhead then c
      else
        let (c, j) := if j.started then (c, j) else c.startJob j
        if !j.waiting.isEmpty then { c with kst := { c.kst with jobs := j :: rest } }
        else
          let b := c.reportRecord j
          let c := (c.onDie (·.count Reg.KST_CNT_REPORTS)).vendor j.conn (if j.kind = 2 then 4 else 3) b
          Ctl.pumpJobs n { c with kst := { c.kst with jobs := rest } }

/-- Queue a report. -/
def Ctl.addJob (c : Ctl) (k : Conn) (kind tag nonce : Nat) : Ctl :=
  let j : ReportJob := { kind := kind, tag := tag, nonce := nonce, conn := k, started := false, waiting := [], askNonce := 0, askedNs := 0, states := [] }
  let c : Ctl := { c with kst := { c.kst with jobs := c.kst.jobs ++ [j] } }
  Ctl.pumpJobs c.kst.jobs.length.succ (c.onDie (·.fset Fl.KST_STATUS_report_busy 1))

/-- FABRIC_REPORT (R400). -/
def execFabricReport (c : Conn) (session nonce : Nat) (s : State) : Res :=
  s.ctlNext fun t => t.inSession c session fun t _ => t.addJob c 1 0 nonce

/-- PARTITION_REPORT (R400): for the owner of the partition's traffic key, or an operator. -/
def execPartitionReport (c : Conn) (session tag nonce : Nat) (s : State) : Res :=
  s.ctlNext fun t => t.inSession c session fun t x =>
    let owner : Bool := match t.partOf tag with
      | some p => x.mutualAuth && t.kst.tenant.any fun k => k.keyId = p.trafficKey && k.owner = x.owner
      | none => false
    if (t.partOf tag).isSome && (owner || x.operator) then t.addJob c 2 tag nonce else t.vendorDenied c

/-- An awaited agent ends with a state: its values are taken where they verified. -/
def Ctl.settleAgent (c : Ctl) (fid state : Nat) (v : Option Verified) : Ctl :=
  match c.kst.jobs with
  | [] => c
  | j :: rest =>
    let j : ReportJob := { j with waiting := j.waiting.filter (fun x => x.fid ≠ fid), states := tset j.states fid state }
    let ver := match v with
      | some x => c.kst.verified.filter (fun y => y.fid ≠ fid) ++ [x]
      | none => c.kst.verified
    let c : Ctl := { c with kst := { c.kst with jobs := j :: rest, verified := ver } }
    Ctl.pumpJobs c.kst.jobs.length.succ c

/-- The agent's awaited entry in the report that runs. -/
def Ctl.awaited (c : Ctl) (fid : Nat) : Option (ReportJob × Awaited) :=
  match c.kst.jobs with
  | [] => none
  | j :: _ => (j.waiting.find? fun x => x.fid = fid).map fun x => (j, x)

/-- MEASURE_REPORT (R401): a register's value, verified under the agent's report key. -/
def Ctl.measureReport (c : Ctl) (fid register state lastSeq extendSeq nonce : Nat) (value tag : Digest) : Ctl :=
  match c.awaited fid with
  | none => c
  | some (j, w) =>
    if nonce ≠ j.askNonce ∨ !bitOf w.mask register then c
    else
      let (forced, d) := c.die.takeWait Blk.KST
      let c : Ctl := { c with die := d }
      if forced ∨ 1000000000 + j.askedNs < c.die.up then c.settleAgent fid (if w.values.isEmpty then 3 else 1) none
      else
        let key := ((tget c.kst.agentKeys fid).map (·.keys.reportKey)).getD []
        let good := digestOf (measureTag key (measureBytes register state lastSeq extendSeq nonce value) fid)
        if tag ≠ good then
          ((c.onDie (·.count Reg.KST_CNT_BAD_MAC)).raise Ev.MEASURE_BAD_MAC).settleAgent fid 2 none
        else
          let w : Awaited := { w with mask := putBits w.mask register register 0, values := tset w.values register value }
          if w.mask = 0 then c.settleAgent fid 0 (some { fid := fid, values := w.values, seq := extendSeq, time := c.die.ns })
          else
            let j : ReportJob := { j with waiting := j.waiting.map fun x => if x.fid = fid then w else x }
            { c with kst := { c.kst with jobs := j :: c.kst.jobs.drop 1 } }

/-- MEASURE_REPORT. -/
def execMeasureReport (fid register agentState lastSeq extendSeq nonce : Nat) (value tag : Digest) (s : State) : Res :=
  s.ctlNext fun c => c.measureReport fid register agentState lastSeq extendSeq nonce value tag

/-- MEASURE_TIMEOUT (R401): no report within 1 s is UNREACHABLE; one that sent some of its reports is incomplete. -/
def execMeasureTimeout (fid : Nat) (s : State) : Res :=
  s.ctlNext fun c => match c.awaited fid with
    | none => c
    | some (j, w) => if c.die.up < 1000000000 + j.askedNs then c else c.settleAgent fid (if w.values.isEmpty then 3 else 1) none

/-! ## Debug attach (R397) -/

/-- A debug attach at the controller: it extends its measurement and raises. -/
def Ctl.attach (c : Ctl) : Ctl :=
  ((c.onDie fun d => { d.fset Fl.KST_STATUS_debug_attached 1 with attached := true }).extend 5 0x52 (Config.eventDigest 0x52 1)).raise
    Ev.DEBUG_ATTACHED

/-- A debug attach at an agent. -/
def Agt.attach (a : Agt) : Agt :=
  ((a.onDie fun d => { d with attached := true }).extendMsr 3 0x21 0 (digestBytes (Config.eventDigest 0x21 1))).raise Ev.AGT_DEBUG_ATTACHED

/-- DEBUG_ATTACH: the start of a debug session, or the attach that comes before the first JTAG access. -/
def execDebugAttach (pl : Place) (s : State) : Res :=
  match pl with
  | .ctl => s.ctlNext Ctl.attach
  | .agt w => s.agtNext w Agt.attach

/-- The first JTAG access after reset is a debug attach (R397), unless one has come before it. -/
def State.jtagAttach (s : State) (pl : Place) (path : Path) : State :=
  if path ≠ .jtag ∨ (s.die pl).attached then s
  else match pl with
    | .ctl => s.onCtl Ctl.attach
    | .agt w => s.onAgt w Agt.attach

end Sys2Proof.Machine
end

