-- ==== Sys2Proof/Machine/MeterExec.lean ====
section
/-! DEFINITION. The commands of the Sealed Meter (R407 to R430) and METER_ENCAPS at an agent. -/

namespace Sys2Proof.Machine

/-- The next state after an effect at the meter, whose island stays up through a controller reset (R427). -/
def State.meterNext (s : State) (f : Ctl → Ctl) : Res := .next (if s.ctl.running || s.ctl.meter.powered then s.onCtl f else s)

/-- Check the deadlines again where a METER row came into force (R230). -/
def Ctl.rowInForce (c : Ctl) (was : MeterEnt) : Ctl := if c.meter.pattern = was then c else (c.recheckAll 5).writeFloors

/-- METER_LOAD_FW (R409). -/
def execMeterLoadFw (val : Word) (s : State) : Res := s.ctlNext fun c => c.written Blk.MTR fun c => (c.meterLoadFw val.toNat).rowInForce c.meter.pattern

/-- METER_LOAD_PATTERN (R410). -/
def execMeterLoadPattern (s : State) : Res := s.ctlNext fun c => c.written Blk.MTR Ctl.meterLoadPattern

/-- MTR_CLEAR_COUNTERS (R430). -/
def execMtrClearCounters (s : State) : Res := s.ctlNext fun c => c.written Blk.MTR fun c => c.onDie (·.clearCounters Blk.MTR)

/-- METER_START (R425): the meter starts when its island has power. -/
def execMeterStart (s : State) : Res := .next (if decide (1 ≤ s.ctl.pwr.phase ∧ s.ctl.pwr.phase ≤ 3) then s.onCtl (fun c => c.meterStart.rowInForce c.meter.pattern) else s)

/-- The slot a tap key goes to (R411, R412): the lowest EMPTY one, else the lowest whose key the active METER row does not name. -/
def Tap.target (t : Tap) : Option Nat :=
  let free (i : Nat) : Bool := !(t.cfg.any fun e => e.tapKeyId = (t.slot i).keyId)
  match [0, 1].find? fun i => !(t.slot i).held with
  | some i => some i
  | none => [0, 1].find? free

/-- METER_ENCAPS at an agent (R411, R412, R464). -/
def Agt.meterEncaps (a : Agt) (w : Worm) : Agt :=
  if markPriv (wormMark w) ≠ 3 then a.onDie Die.markDenied
  else match if a.die.testEn then none else a.tap.target with
    | none => a.count Reg.MTP_CNT_ENCAPS_REFUSED
    | some i =>
      let ct := slice w.payload 0 1568
      let id := tapKeyId ct
      let sl : TapSlot :=
        { held := true, keyId := id, fid := markFid (wormMark w),
          key := tapKey (Config.kemDecaps (agentKeyName a.dieId) ct) a.dieId a.fid (fieldAt w.payload 1568 8), seq := 0,
          sending := a.tap.cfg.any fun e => e.tapKeyId = id }
      { a with tap := a.tap.setSlot i sl }

/-- METER_ENCAPS. -/
def execMeterEncaps (w : Who) (_inBond : Nat) (wm : Worm) (s : State) : Res := s.agtNext w fun a => a.works Blk.MTP fun a => a.meterEncaps wm

/-- METER_ENCAPS_RETRY (R412). -/
def execMeterEncapsRetry (s : State) : Res := s.meterNext fun c => c.works Blk.MTR (·.meterRetry)

/-- METER_TAP (R417): a worm that reaches the controller; one whose intake is down is lost (R427). -/
def execMeterTap (wm : Worm) (s : State) : Res := s.ctlNext fun c => c.works Blk.MTR fun c => c.takeTap wm

/-- METER_INTERVAL_CLOSE (R418). -/
def execMeterIntervalClose (interval : Nat) (energy : Energy) (s : State) : Res := s.meterNext fun c => c.works Blk.MTR fun c => c.intervalClose interval energy

/-- METER_OPEN (R419). -/
def execMeterOpen (tag inst course : Nat) (s : State) : Res := s.meterNext fun c => c.works Blk.MTR fun c => c.meterOpen tag inst course

/-- METER_CLOSE (R419). -/
def execMeterClose (tag inst course : Nat) (s : State) : Res := s.meterNext fun c => c.works Blk.MTR fun c => c.meterClose tag inst course

/-- METER_BATCH_CLOSE (R422). -/
def execMeterBatchClose (s : State) : Res := s.meterNext fun c => c.works Blk.MTR fun c => c.batchClose.rowInForce c.meter.pattern

/-- METER_BATCH_SIGNED (R424). -/
def execMeterBatchSigned (s : State) : Res := s.meterNext fun c => c.works Blk.MTR fun c => c.signerDone.rowInForce c.meter.pattern

/-- MTR_RING_CONS_WRITE (R423). -/
def execMtrRingConsWrite (val : Word) (s : State) : Res := s.ctlNext fun c => c.written Blk.MTR fun c => c.ringCons val.toNat

end Sys2Proof.Machine
end

