-- ==== Sys2Proof/Machine/Faults.lean ====
section
/-! DEFINITION. The event recorder and the Fault Collector (chapter "Event Recorder and Faults", R433 to R451): raises, snapshots,
fault reports, the safe state, fault injection, forwarded records, the fall-back, operating seconds. -/

namespace Sys2Proof.Machine

/-! ## Snapshots (R437) -/

/-- The registers of a snapshot list: of block `blk` where the list names the raising block. -/
def Part.snapRegs (p : Part) (list blk : Nat) : List Nat :=
  let of_ (k : Nat) : List Nat := match p.blocks[k]? with
    | some b => p.defined b
    | none => []
  if list = 0xFFFF then (of_ blk).take 58
  else if list / 256 = 1 then (of_ (list % 256)).take 58
  else if list / 256 = 2 then ((of_ (list % 256)).drop 58).take 58
  else []

/-- Whether a register reads through to the storage of its unit, which a fence closes (R440). -/
def storageReg (key : Nat) : Bool :=
  decide (Reg.EVR_RD_DATA0 ≤ key ∧ key < Reg.EVR_RD_DATA0 + 512) || decide (key = Reg.PRL_STO_DATA)
    || (decide (key / 0x10000 = Blk.MBX ∧ 0x1000 ≤ key % 0x10000) && decide (0x80 ≤ key % 0x100 ∧ key % 0x100 < 0xC0))

/-- The registers of a snapshot as they answered, with the validity of each; a register that timed out reads zero. -/
def snapRead (read : Nat → Word) (lost : List Nat) (keys : List Nat) : Nat × List Word :=
  let vals := keys.zipIdx.map fun (p : Nat × Nat) => if lost.contains p.2 then (0 : Word) else read p.1
  let valid := sumL (keys.zipIdx.map fun (p : Nat × Nat) => if lost.contains p.2 then 0 else 2 ^ p.2)
  (valid, vals)

/-- The first raise that waits gets its record (R435 to R437); a wait that FLC_INJECT made time out costs its first register. -/
def Die.snapshot (d : Die) (read : Nat → Word) : Die :=
  match d.evr.queue with
  | [] => d
  | ra :: rest =>
    let (lost, d) := d.takeWait Blk.EVR
    let d : Die := { d with evr := { d.evr with queue := rest } }
    let seen := if lost ∧ !(ra.timedOut.contains 0) then 0 :: ra.timedOut else ra.timedOut
    let d := if seen.length = ra.timedOut.length then d else d.count Reg.EVR_CNT_SNAP_TIMEOUT
    let keys := d.part.snapRegs ra.snapList (ra.code / 256)
    let shown (k : Nat) : Word := if storageReg k && d.blockFenced (k / 0x10000) then 0 else read k
    let (valid, regs) := snapRead shown seen keys
    d.writeRecord ra false valid regs

/-- SNAPSHOT_COMPLETE. -/
def execSnapshotComplete (pl : Place) (s : State) : Res :=
  match pl with
  | .ctl => s.ctlNext fun c => c.works Blk.EVR fun c => c.onDie (·.snapshot (c.regNow s.emb .jtag))
  | .agt w => s.agtNext w fun a => a.works Blk.EVR fun a => a.onDie (·.snapshot (a.regNow .jtag))

/-- A read of the first waiting raise's snapshot times out (R437), no sooner than 2 µs after the raise. -/
def Die.snapTimeout (d : Die) (index : Nat) : Die :=
  match d.evr.queue with
  | [] => d
  | ra :: rest =>
    if d.up < 2000 + ra.atNs ∨ ra.timedOut.contains index ∨ (d.part.snapRegs ra.snapList (ra.code / 256)).length ≤ index then d
    else
      let ra : Raise := { ra with timedOut := ra.timedOut ++ [index] }
      ({ d with evr := { d.evr with queue := ra :: rest } } : Die).count Reg.EVR_CNT_SNAP_TIMEOUT

/-- SNAPSHOT_READ_TIMEOUT. -/
def execSnapshotReadTimeout (pl : Place) (index : Nat) (s : State) : Res := s.dieNext pl (·.works Blk.EVR (·.snapTimeout index))

/-! ## Fault reports (R440 to R442) -/

/-- A unit fault of a unit with a degraded form in a block that lists no own event for it; 0xFFFF is the whole block. -/
def Die.unitFault (d : Die) (blk inst : Nat) : Die :=
  let d := if inst = 0xFFFF then d.fenceBlock blk else d
  d.raiseFence (Ev.UNIT_FAULT blk) inst

/-- How many management cores are fenced (R441). -/
def Ctl.coresFenced (c : Ctl) : Nat := ((List.range 16).filter fun k => c.die.fenced Blk.CTL k).length

/-- A fault report at the controller. -/
def Ctl.faultReport (c : Ctl) (blk inst : Nat) : Ctl :=
  if blk = Blk.KST then c.onDie (·.raiseFence Ev.KEYSTONE_FAULT inst)
  else if blk = Blk.FLC then c.raise Ev.FLC_SELF_FAULT inst
  else if blk = Blk.MEM ∧ inst < c.die.part.memChannels then c.fenceChannel inst
  else if blk = Blk.SOL ∧ inst < c.sol.map.length then c.dropTile inst
  else if blk = Blk.CTL ∧ inst < 16 then
    let more := c.coresFenced + b2n (!c.die.fenced Blk.CTL inst)
    c.onDie fun d => d.raiseCode (d.part.codeOf (Ev.UNIT_FAULT Blk.CTL)) inst (if 8 < more then 4 else 2) true
  else c.onDie (·.unitFault blk inst)

/-- A fault in a unit of the agent without a degraded form (R441). -/
def Agt.fenceWhole (a : Agt) (blk : Option Nat) : Agt :=
  let a := match blk with
    | some b => a.onDie (·.fenceBlock b)
    | none => a
  a.fence 0xFFFF

/-- A fault report at an agent. -/
def Agt.faultReport (a : Agt) (blk inst : Nat) : Agt :=
  if blk = Blk.FLC then a.raise Ev.FLC_SELF_FAULT inst
  else if [Blk.LKP, Blk.GCM, Blk.PAT].contains blk then a.fenceWhole (some blk)
  else if blk = Blk.PRL then a.purlFence (if inst < a.purl.map.length then some inst else none)
  else if blk = Blk.AGT then
    if inst < 8 then
      let control := decide (a.die.resource.ucie.getD inst 0 = 3)
      let a := a.moduleFail inst
      if control then a.fenceWhole none else a
    else a.fenceWhole none
  else if blk = Blk.BLK then a.onDie fun d => (d.unitFault blk inst).fset Fl.EVR_STATUS_mode 1
  else a.onDie (·.unitFault blk inst)

/-- FAULT_REPORT: the block by its index. -/
def execFaultReport (pl : Place) (block inst : Nat) (s : State) : Res :=
  match pl with
  | .ctl => s.ctlNext fun c => match c.die.part.blocks[block]? with
    | some b => c.faultReport b inst
    | none => c
  | .agt w => s.agtNext w fun a => match a.die.part.blocks[block]? with
    | some b => a.faultReport b inst
    | none => a

/-! ## Raises (R433 to R435) -/

/-- The event of a code on a part. -/
def Part.event (p : Part) (code : Nat) : Option Event := eventOf p.blocks p.events code

/-- A raise at the controller; the events of fault reports fence what they name. -/
def Ctl.takeRaise (c : Ctl) (e : Event) (inst : Nat) : Ctl :=
  if e = Ev.MEM_CHANNEL_FENCED then c.fenceChannel inst
  else if e = Ev.KEYSTONE_FAULT then c.onDie (·.raiseFence e inst)
  else if e.low = 0xF4 then c.onDie (·.unitFault e.blk inst)
  else c.raise e inst

/-- A raise at an agent. -/
def Agt.takeRaise (a : Agt) (e : Event) (inst : Nat) : Agt :=
  if e = Ev.PURL_LANE_FENCED then a.purlFence (some inst)
  else if e = Ev.PURL_ENGINE_FENCED then a.purlFence none
  else if e = Ev.UCIE_MODULE_DOWN ∨ e = Ev.UCIE_CONTROL_DOWN then a.moduleFail inst
  else if e = Ev.AGENT_FENCED then a.fence inst
  else if e.low = 0xF4 then a.onDie (·.unitFault e.blk inst)
  else a.raise e inst

/-- EVENT_RAISE: a code that the part does not list is none of its events. -/
def execEventRaise (pl : Place) (code inst : Nat) (s : State) : Res :=
  match pl with
  | .ctl => s.ctlNext fun c => match c.die.part.event code with
    | some e => c.takeRaise e inst
    | none => c
  | .agt w => s.agtNext w fun a => match a.die.part.event code with
    | some e => a.takeRaise e inst
    | none => a

/-! ## The safe state (R443) -/

/-- ENTER_SAFE: FLC_CTL is written; its other command is the counters' (R451). -/
def execEnterSafe (pl : Place) (val : Word) (s : State) : Res :=
  s.dieNext pl fun d => d.written Blk.FLC fun d =>
    let d := if bitOf val.toNat 0 then d.clearCounters Blk.FLC else d
    if bitOf val.toNat 1 ∧ bitsOf val.toNat 15 8 = 0xA5 then d.enterSafe 0xFFFF else d

/-- FLC_SELF_CHECK. -/
def execFlcSelfCheck (pl : Place) (mismatch : Bool) (s : State) : Res :=
  s.dieNext pl fun d => if mismatch then d.raise Ev.FLC_SELF_FAULT else d

/-! ## Injection (R444, R451) -/

/-- A write of FLC_INJECT. -/
def Die.flcInject (d : Die) (val : Nat) : Die :=
  if !d.testEn then d.raise Ev.INJECT_DENIED
  else d.setN Reg.FLC_INJECT (bitsOf val 26 0 + bitsOf val 47 32 * 2 ^ 32)

/-- FLC_INJECT. -/
def execFlcInject (pl : Place) (val : Word) (s : State) : Res := s.dieNext pl fun d => d.written Blk.FLC (·.flcInject val.toNat)

/-- The corrected or uncorrectable error that a block lists as its own, or the common one (R442). -/
def dataError (blk : Nat) (corrected : Bool) : Event :=
  if blk = Blk.MEM then (if corrected then Ev.MEM_CORRECTED else Ev.MEM_UNCORRECTABLE)
  else if corrected then Ev.CORRECTED_ERROR blk else Ev.STORED_DATA_ERROR blk

/-- The injected fault of this microsecond at the units both dies have; kind 4, a unit fault, is the die's own. -/
def Die.injectOne (d : Die) (k blk inst kind : Nat) : Die :=
  match kind with
  | 1 => d.raise (dataError blk true) inst
  | 2 => d.raise (dataError blk false) inst
  | 3 => { d with injected := d.injected ++ [(k, inst)] }
  | 5 => d.raise Ev.FLC_SELF_FAULT
  | _ => d

/-- The fault that FLC_INJECT raises now, with the count one lower: block index, instance, kind; none while nothing is armed, and before
a microsecond has passed since the last. -/
def Die.injectNext (d : Die) : Option (Nat × Nat × Nat × Die) :=
  let n := d.fget Fl.FLC_INJECT_count
  if !d.testEn ∨ n = 0 ∨ !(mayRaise d.injectNs d.up 1000) then none
  else some (d.fget Fl.FLC_INJECT_block, d.fget Fl.FLC_INJECT_instance, d.fget Fl.FLC_INJECT_kind,
             { (d.fset Fl.FLC_INJECT_count (n - 1)) with injectNs := some d.up })

/-- FLC_INJECT_TICK. -/
def execFlcInjectTick (pl : Place) (s : State) : Res :=
  match pl with
  | .ctl => s.ctlNext fun c => match c.die.injectNext with
    | none => c
    | some (k, inst, kind, d) =>
      let c : Ctl := { c with die := d }
      match d.part.blocks[k]? with
      | none => c
      | some b => if kind = 4 then c.faultReport b inst else c.onDie (·.injectOne k b inst kind)
  | .agt w => s.agtNext w fun a => match a.die.injectNext with
    | none => a
    | some (k, inst, kind, d) =>
      let a : Agt := { a with die := d }
      match d.part.blocks[k]? with
      | none => a
      | some b => if kind = 4 then a.faultReport b inst else a.onDie (·.injectOne k b inst kind)

/-! ## Other commands of the collector and the recorder -/

/-- A W1C write of FLC_ALERT: ALERT_N is released when no bit is left (R451), unless MODE_INVALID asserts it (R5). -/
def Die.alertClear (d : Die) (val : Nat) : Die :=
  let left := (List.range 5).filter fun k => bitOf (d.getN Reg.FLC_ALERT) k && !bitOf val k
  let d := d.setN Reg.FLC_ALERT (sumL (left.map fun k => 2 ^ k))
  let invalid : Bool := !d.part.pelron && d.fget Fl.AGT_IDENT_mode_invalid = 1
  if left.isEmpty ∧ !invalid then d.driveAlert true else d

/-- FLC_ALERT_CLEAR. -/
def execFlcAlertClear (pl : Place) (val : Word) (s : State) : Res := s.dieNext pl fun d => d.written Blk.FLC (·.alertClear val.toNat)

/-- FLC_CLEAR_COUNTERS. -/
def execFlcClearCounters (pl : Place) (s : State) : Res := s.dieNext pl fun d => d.written Blk.FLC (·.clearCounters Blk.FLC)

/-- Empty the retained area (R445, R450). -/
def Die.retainedClear (d : Die) : Die :=
  let d : Die := { d with evr := { d.evr with retained := [], sinceClear := 0 } }
  (d.bset Reg.EVR_RET_COUNT 12 0 0).fset Fl.EVR_STATUS_retained_full 0

/-- A write of EVR_CTL at the controller. -/
def Die.evrCtl (d : Die) (val : Nat) : Die :=
  let d := if bitOf val 0 then d.clearCounters Blk.EVR else d
  if bitOf val 1 ∧ bitsOf val 15 8 = 0xE7 ∧ d.part.pelron then d.retainedClear else d

/-- EVR_RETAINED_CLEAR. -/
def execEvrRetainedClear (val : Word) (s : State) : Res := s.ctlNext fun c => c.written Blk.EVR fun c => c.onDie (·.evrCtl val.toNat)

/-- EVR_CLEAR_COUNTERS. -/
def execEvrClearCounters (pl : Place) (s : State) : Res := s.dieNext pl fun d => d.written Blk.EVR (·.clearCounters Blk.EVR)

/-! ## Forwarded records (R446) -/

/-- Records asked for again: EVR_FETCH with the first fwd_seq and a count (R446, R465). -/
def Die.fetchRecords (d : Die) (fid first count : Nat) : Die :=
  ({ d with evr := { d.evr with fwdMissing := d.evr.fwdMissing ++ [(fid, first, first + count)] } } : Die).sendA fid 0x03 0
    (le 4 first ++ le 4 count)

/-- What an arriving fwd_seq tells: the next expected, a gap, or a record that was missing; the missing ones before it are lost, since
an agent sends again in order (log entry 28). -/
def Die.trackForward (d : Die) (fid seq : Nat) : Die :=
  let next := tgetD d.evr.fwdExpect fid 1
  if next ≤ seq then
    let d : Die := { d with evr := { d.evr with fwdExpect := tset d.evr.fwdExpect fid (seq + 1) } }
    if next = seq then d else d.fetchRecords fid next (seq - next)
  else
    match d.evr.fwdMissing.find? fun m => m.1 = fid && decide (m.2.1 ≤ seq) && decide (seq < m.2.2) with
    | none => d
    | some m =>
      let rest := d.evr.fwdMissing.filter (· ≠ m)
      let left := if seq + 1 < m.2.2 then [(fid, seq + 1, m.2.2)] else []
      ({ d with evr := { d.evr with fwdMissing := left ++ rest } } : Die).countN Reg.EVR_CNT_FWD_LOST (seq - m.2.1)

/-- An S3 or S4 record is taken into the controller's own collector (R446). -/
def Die.takeForeign (d : Die) (sev : Nat) : Die :=
  if sev < 3 ∨ 4 < sev then d
  else
    let d := d.count (Reg.FLC_CNT_S0 + 8 * sev)
    let d := if d.fget Fl.FLC_STATUS_worst < sev then d.fset Fl.FLC_STATUS_worst sev else d
    d.alert sev

/-- The level that left an agent EXHAUSTED (R328): the one it reported FAILED, or the one it is at while that report is on its way. -/
def Ctl.lastLevel (c : Ctl) (fid : Nat) : Nat := match tget c.cst.agents fid with
  | some a => if a.failedLevel = 0 then a.level else a.failedLevel
  | none => 5

/-- What the controller does on an event of an agent (R185, R222, R230, R236, R322, R333, R364, R443): after a PLUMB_DELAY_DRIFT it reads
the delays anew, and checks R183 once it has them. -/
def Ctl.agentEvent (c : Ctl) (fid code sev inst : Nat) : Ctl :=
  let is (e : Event) : Bool := Part.codeOf .twd210 e = code
  let c := if is Ev.PURL_ENGINE_FENCED then c.queueFailure (.purlFenced fid none) else c
  let c := if is Ev.PURL_LANE_FENCED then c.queueFailure (.purlFenced fid (some inst)) else c
  let c := if is Ev.AGT_GAUGE_EXCEED then c.onDie (·.count Reg.GAU_CNT_EXCEED) else c
  let c := if is Ev.PLUMB_DELAY_DRIFT then c.readLinks fid 3 else c
  let c := if is Ev.RECOVERY_EXHAUSTED then c.endpointReset fid (c.lastLevel fid) 2 else c
  if sev = 4 ∨ is Ev.AGENT_FENCED then c.queueFailure (.agentLost fid) else c

/-- EVENT_RECORD at the controller: the record goes into the fabric ring as received. -/
def Ctl.eventRecord (c : Ctl) (w : Worm) : Ctl :=
  let mark := wormMark w
  if 2 ≤ markPriv mark then c.onDie Die.markDenied
  else
    let fid := markFid mark
    let r := slice w.payload 0 512
    let code := fieldAt r 0 2
    let sev := fieldAt r 2 1
    let seq := c.die.getN Reg.EVR_WR_SEQ1
    let c := (c.memWrite (fabricRingBase + 512 * (seq % 16777216)) r).1.onDie fun d =>
      ((d.setN Reg.EVR_WR_SEQ1 (seq + 1)).trackForward fid (fieldAt r 12 4)).takeForeign sev
    c.agentEvent fid code sev (fieldAt r 10 2)

/-- EVENT_RECORD. -/
def execEventRecord (wm : Worm) (s : State) : Res := s.ctlNext fun c => c.eventRecord wm

/-- The records an agent still holds, by fwd_seq. -/
def Evr.forwarded (e : Evr) : List Record :=
  let all := e.retained ++ e.circ.map (·.2) ++ e.fallback
  (all.foldl (fun (t : Tbl Record) r => if r.fwdSeq = 0 then t else tset t r.fwdSeq r) []).map (·.2)

/-- EVR_FETCH at an agent: what it still holds of the range goes out again, in order. -/
def Die.evrFetch (d : Die) (first count : Nat) : Die :=
  if d.safe then d
  else
    let rs := d.evr.forwarded.filter fun r => decide (first ≤ r.fwdSeq) && decide (r.fwdSeq < first + count)
    rs.foldl (fun (d : Die) r =>
      d.sendFwd { dst := d.controllerFid, op := 0x8D, mcast := 0, root := 0, bond := 0xFF, operand := [], payload := r.bytes,
                  block := d.part.blockIndex Blk.EVR, privilege := 0 }) d

/-- EVR_FETCH. -/
def execEvrFetch (w : Who) (first count : Nat) (s : State) : Res := s.agtNext w fun a => a.onDie (·.evrFetch first count)

/-! ## The fall-back and operating seconds (R438, R447, R448) -/

/-- Whether the controller's circulating area can be used: step 2 is DONE and no channel of the memory is fenced. -/
def Ctl.circReady (c : Ctl) : Bool := c.stepDone 2 && !(c.memu.usable.any fun p => (c.chan p).state = 3)

/-- FALLBACK_COPY. At an agent a circulating area that a dump has frozen stays frozen. -/
def execFallbackCopy (pl : Place) (s : State) : Res :=
  match pl with
  | .ctl => s.ctlNext fun c => c.works Blk.EVR fun c =>
    if c.die.fget Fl.EVR_STATUS_mode = 1 ∧ c.circReady then c.onDie fun d => (d.fset Fl.EVR_STATUS_mode 0).drainFallback else c
  | .agt w => s.agtNext w fun a => a.works Blk.EVR fun a =>
    if a.die.fget Fl.EVR_STATUS_mode ≠ 1 ∨ a.castState < 2 ∨ a.castState = 0xF ∨ a.die.blockFenced Blk.BLK then a
    else if a.rcv.dump.isSome ∨ !a.rcv.records.isEmpty then a.onDie fun d => d.fset Fl.EVR_STATUS_mode 2
    else a.onDie fun d => (d.fset Fl.EVR_STATUS_mode 0).drainFallback

/-- Operating seconds and power cycles into module flash. -/
def Die.saveOpsec (d : Die) : Die := { d with evr := { d.evr with savedSec := d.opsec, savedCycles := d.evr.cycles, savedNs := d.up } }

/-- OPSEC_SAVE: every 60 s. -/
def execOpsecSave (s : State) : Res :=
  s.ctlNext fun c => c.onDie fun d => if d.up < 60000000000 + d.evr.savedNs then d else d.saveOpsec

/-- AGENT_OPSEC_SAVE: the agent's EVR_OPSEC, seconds and power cycles, every hour. -/
def execAgentOpsecSave (dieId opsec : Nat) (s : State) : Res :=
  s.ctlNext fun c =>
    if (match tget c.cst.opsecNs dieId with
        | some t => decide (c.die.up < 3600000000000 + t)
        | none => false) then c
    else
      { c with flash := { c.flash with agentOpsec := tset c.flash.agentOpsec dieId (opsec % 2 ^ 40, opsec / 2 ^ 40 % 2 ^ 24) },
               cst := { c.cst with opsecNs := tset c.cst.opsecNs dieId c.die.up } }

end Sys2Proof.Machine
end

