-- ==== Sys2Proof/Machine/Mortar.lean ====
section
/-! DEFINITION. The management network (R459 to R462, R473): Mortar connections, the handshake, records that need no register
access; and the controller's side of management operations (R470, R474). -/

namespace Sys2Proof.Machine

/-! ## Connections and the handshake (R459, R460) -/

/-- A connection by its number. -/
def Ctl.mortarOf (c : Ctl) (id : Nat) : Option Mortar := c.mortar.find? fun m => m.id = id

/-- Store a connection. -/
def Ctl.setMortar (c : Ctl) (m : Mortar) : Ctl := { c with mortar := c.mortar.map fun x => if x.id = m.id then m else x }

/-- Close a connection. -/
def Ctl.closeMortar (c : Ctl) (id : Nat) : Ctl :=
  ({ c with mortar := c.mortar.filter fun m => m.id ≠ id } : Ctl).onDie (·.emit (.conn "closed" id))

/-- MORTAR_CONNECT: accepted, or reset and counted. -/
def Ctl.mortarConnect (c : Ctl) : Ctl :=
  if (c.keystone && c.stepDone 4) ∨ 8 ≤ c.mortar.length ∨ c.die.blockFenced Blk.MNP then
    c.onDie fun d => (d.count Reg.MNP_CNT_REFUSED).emit (.conn "reset" 0)
  else
    let m : Mortar := { id := c.nextMortar, phase := 0, rxSeq := 0, txSeq := 0, lastNs := c.die.up, transcript := [], secret := [],
                        leaf := [], rootKey := [] }
    ({ c with mortar := c.mortar ++ [m], nextMortar := c.nextMortar + 1 } : Ctl).onDie (·.emit (.conn "accepted" m.id))

/-- MORTAR_CONNECT. -/
def execMortarConnect (s : State) : Res := s.ctlNext Ctl.mortarConnect

/-- A handshake that fails (R460). -/
def Ctl.authFail (c : Ctl) (id : Nat) : Ctl := ((c.closeMortar id).onDie (·.count Reg.MNP_CNT_AUTH_FAIL)).raise Ev.MNP_AUTH_FAIL

/-- Whether enrolment is armed for an empty store while step 4 runs (R383). -/
def Ctl.enrolling (c : Ctl) : Bool :=
  decide (c.die.fget Fl.KST_STATUS_enrol_armed = 1) && decide (c.die.fget Fl.KST_STATUS_test_mode = 0)
    && (c.flash.operators.isEmpty || !c.flash.operatorsOk) && decide ((c.cst.running.map (·.1)) = some 4)

/-- The leaf certificate of a chain that leads to the operator store, or that enrolment takes. -/
def Ctl.mortarLeaf (c : Ctl) (chain : List Bytes) : Option Bytes :=
  let root := chain.headD []
  if !chainOk root (chain.drop 1) ∨ !(c.operatorStore.contains root || c.enrolling) then none else (chain.drop 1).getLast?

/-- CLIENT_HELLO: SERVER_HELLO answers it. Under KEYSTONE the network carries PRELUDE_REG alone (R382, R459). -/
def Ctl.clientHello (c : Ctl) (id : Nat) (chain : List Bytes) (ek nonce : Bytes) : Ctl :=
  match c.mortarOf id with
  | none => c
  | some m =>
    if m.phase ≠ 0 then c
    else if c.keystone then (c.closeMortar id).onDie (·.count Reg.MNP_CNT_REFUSED)
    else match c.mortarLeaf chain with
      | none => c.authFail id
      | some leaf =>
        let (ct, secret) := Config.kemEncaps ek c.die.free
        let (own, d) := Die.freeBytes 4 { c.die with free := c.die.free + 1 }
        let c : Ctl := { c with die := d }
        let body := ct ++ Config.deviceCert c.dieId ++ own
        let seen := chain.flatten ++ ek ++ nonce ++ body
        let sig := kstSign (digestBytes (Config.shake256 seen))
        let m : Mortar := { m with phase := 1, rxSeq := m.rxSeq + 1, lastNs := c.die.up, transcript := seen ++ sig, secret := secret,
                                   leaf := leaf, rootKey := chain.headD [] }
        (c.setMortar m).mortarSend m 0x02 (body ++ sig)

/-- CLIENT_HELLO. -/
def execClientHello (session : Nat) (chain : List Bytes) (ek : Bytes) (nonce : Bytes) (s : State) : Res :=
  s.ctlNext fun c => c.clientHello session chain ek nonce

/-- The session's keys and IVs (R460): client key, server key, client IV, server IV. -/
def mortarKeys (secret transcript : Bytes) : Bytes :=
  Config.kmac256 secret (digestBytes (Config.shake256 transcript)) 704 (ascii "YARULAIS MORTAR")

/-- CLIENT_FINISH: the session is open, unless its 5 s have passed. -/
def Ctl.clientFinish (c : Ctl) (id : Nat) (signature : Bytes) : Ctl :=
  match c.mortarOf id with
  | none => c
  | some m =>
    if m.phase ≠ 1 then c
    else
      let (forced, d) := c.die.takeWait Blk.MNP
      let c : Ctl := { c with die := d }
      if forced ∨ 5000000000 + m.lastNs < c.die.up then c.authFail id
      else if !Config.slhVerify true (Config.certKey m.leaf) (digestBytes (Config.shake256 m.transcript)) signature then c.authFail id
      else
        let c : Ctl := if c.enrolling then (c.setOperators [m.rootKey]).onDie (·.fset Fl.KST_STATUS_enrol_armed 0) else c
        let m : Mortar := { m with phase := 2, rxSeq := m.rxSeq + 1, lastNs := c.die.up,
                                   secret := mortarKeys m.secret (m.transcript ++ signature) }
        (c.setMortar m).onDie fun d => (d.count Reg.MNP_CNT_ACCEPTED).emit (.conn "session" m.id)

/-- CLIENT_FINISH. -/
def execClientFinish (session : Nat) (signature : Bytes) (s : State) : Res := s.ctlNext fun c => c.clientFinish session signature

/-- MORTAR_HANDSHAKE_TIMEOUT: 5 s without an open session. -/
def execMortarHandshakeTimeout (session : Nat) (s : State) : Res :=
  s.ctlNext fun c => match c.mortarOf session with
    | some m => if m.phase ≠ 1 ∨ c.die.up < 5000000000 + m.lastNs then c else c.authFail session
    | none => c

/-! ## Records (R460, R461) -/

/-- A record that arrives in an open session: one that fails its tag or its sequence closes the session, and so does reaching
sequence 2^32, or a record after more than 60 s without one. -/
def Ctl.mortarIn (c : Ctl) (id sequence : Nat) (intact : Bool) : Ctl × Option Mortar :=
  match c.mortarOf id with
  | none => (c, none)
  | some m =>
    if m.phase ≠ 2 then (c, none)
    else if !intact ∨ sequence ≠ m.rxSeq ∨ 2 ^ 32 ≤ sequence ∨ 60000000000 + m.lastNs < c.die.up then (c.closeMortar id, none)
    else
      let m : Mortar := { m with rxSeq := m.rxSeq + 1, lastNs := c.die.up }
      (c.setMortar m, some m)

/-- A status under R458 and data in a MEM_DONE or MEM_DATA record. -/
def Ctl.memAnswer (c : Ctl) (m : Mortar) (status : Nat) (data : Bytes) : Ctl := c.mortarSend m 0x13 (le 1 status ++ data)

/-- MORTAR_MEM_WRITE (R458, R481). -/
def execMortarMemWrite (session sequence : Nat) (intact : Bool) (addr : Nat) (data : Bytes) (s : State) : Res :=
  s.ctlNext fun c => match c.mortarIn session sequence intact with
    | (c, none) => c
    | (c, some m) =>
      if data.isEmpty ∨ 65528 < data.length then c.memAnswer m 7 []
      else if c.die.safe then c.memAnswer m 6 []
      else if !c.outsideWrite addr data.length then c.memAnswer m 1 []
      else (c.memWrite addr data).1.memAnswer m 0 []

/-- MORTAR_MEM_READ (R458, R481, R483). -/
def execMortarMemRead (session sequence : Nat) (intact : Bool) (addr length : Nat) (s : State) : Res :=
  s.ctlNext fun c => match c.mortarIn session sequence intact with
    | (c, none) => c
    | (c, some m) =>
      if length = 0 ∨ 65528 < length then c.memAnswer m 7 []
      else if !c.outsideRead addr length then c.memAnswer m 1 []
      else
        let (c, bs, bad) := c.memRead addr length
        c.memAnswer m (if bad then 8 else 0) bs

/-- MORTAR_KEEPALIVE: the record alone keeps the session. -/
def execMortarKeepalive (session sequence : Nat) (intact : Bool) (s : State) : Res :=
  s.ctlNext fun c => (c.mortarIn session sequence intact).1

/-- MORTAR_CLOSE. -/
def execMortarClose (session sequence : Nat) (intact : Bool) (s : State) : Res :=
  s.ctlNext fun c => match c.mortarIn session sequence intact with
    | (c, none) => c
    | (c, some m) => c.closeMortar m.id

/-- MORTAR_IDLE_TIMEOUT: 60 s without a record. -/
def execMortarIdleTimeout (session : Nat) (s : State) : Res :=
  s.ctlNext fun c => match c.mortarOf session with
    | some m => if m.phase ≠ 2 ∨ c.die.up < 60000000000 + m.lastNs then c else c.closeMortar session
    | none => c

/-! ## Registers of the block (R473) -/

/-- MNP_CLOSE_ALL. -/
def execMnpCloseAll (s : State) : Res :=
  s.ctlNext fun c => c.written Blk.MNP fun c => c.mortar.foldl (fun (c : Ctl) m => c.closeMortar m.id) c

/-- MNP_CFG is written: the port; with save, the address and the port go to module flash. -/
def Ctl.mnpCfg (c : Ctl) (val : Nat) : Ctl :=
  let c := c.onDie (·.setN Reg.MNP_CFG (bitsOf val 15 0))
  if !bitOf val 16 then c
  else
    let addr := c.die.getN Reg.MNP_ADDR0 + c.die.getN (Reg.MNP_ADDR0 + 8) * 2 ^ 64
    { c with flash := { c.flash with mnpAddr := addr, mnpPort := bitsOf val 15 0 } }

/-- MNP_SAVE. -/
def execMnpSave (val : Word) (s : State) : Res := s.ctlNext fun c => c.written Blk.MNP fun c => c.mnpCfg val.toNat

/-- MNP_CLEAR_COUNTERS. -/
def execMnpClearCounters (s : State) : Res := s.ctlNext fun c => c.written Blk.MNP fun c => c.onDie (·.clearCounters Blk.MNP)

/-- MGMT_PORT_LINK_CHANGE. -/
def execMgmtPortLinkChange (port link : Nat) (s : State) : Res :=
  s.ctlNext fun c => if 2 ≤ port then c else c.onDie (·.bset Reg.MNP_STATUS (2 * port + 1) (2 * port) (link % 4))

/-! ## Management operations at the controller (R470, R474) -/

/-- MBX_RMT_STATUS: 0 IDLE, 1 BUSY, 2 DONE with a result. -/
def Ctl.rmtStatus (c : Ctl) (st result : Nat) : Ctl :=
  c.onDie fun d => (d.bset Reg.MBX_RMT_STATUS 1 0 st).bset Reg.MBX_RMT_STATUS 10 8 result

/-- Whether control software's operation runs. -/
def Ctl.rmtBusy (c : Ctl) : Bool := c.ops.any (·.soft)

/-- The bytes of a request that reads only: every entry's kind is 0. -/
def readsOnly (request : Bytes) : Bool := (chunksOf 16 (byteAt request 4) (request.drop 16)).all fun e => byteAt e 4 = 0

/-- MBX_RMT_GO: MBX_RMT_CMD is written. -/
def Ctl.rmtGo (c : Ctl) (val : Nat) : Ctl :=
  let fid := bitsOf val 17 0
  if c.rmtBusy then c.raise (Ev.WRITE_IGNORED Blk.MBX)
  else if !bitOf val 32 then c
  else if !(match tget c.cst.agents fid with
    | some a => a.named && !a.lost
    | none => false) then c.rmtStatus 2 3
  else
    let addr := c.die.getN Reg.MBX_RMT_ADDR
    let (c, hdr, _) := c.memRead addr 16
    let (c, req, _) := c.memRead addr (16 + 16 * byteAt hdr 4)
    let op : Rmt := { soft := true, fid := fid, addr := addr, opId := fieldAt req 0 4, attempts := 1, startNs := c.die.up,
                      reads := readsOnly req, request := req }
    let c : Ctl := { c with ops := c.ops ++ [op] }
    (c.rmtStatus 1 0).sendMgmt fid req

/-- MBX_RMT_GO. -/
def execMbxRmtGo (val : Word) (s : State) : Res := s.ctlNext fun c => c.written Blk.MBX fun c => c.rmtGo val.toNat

/-- An operation ends. -/
def Ctl.endOp (c : Ctl) (op : Rmt) (result : Nat) : Ctl :=
  let c : Ctl := { c with ops := c.ops.filter (· ≠ op) }
  if op.soft then c.rmtStatus 2 result else c

/-- An attempt of an operation has timed out: it is sent again, or the operation ends after the fourth attempt; in the safe state it
ends FROZEN. -/
def Ctl.retryOp (c : Ctl) (op : Rmt) : Ctl :=
  if c.die.safe then c.endOp op 4
  else if 4 ≤ op.attempts then c.endOp op (if op.reads then 1 else 2)
  else
    let next : Rmt := { op with attempts := op.attempts + 1, startNs := c.die.up }
    ({ c with ops := c.ops.map fun o => if o = op then next else o } : Ctl).sendMgmt op.fid op.request

/-- What an operation of the controller's own brings (R192): after a PLUMB_DELAY_DRIFT the partitions that cross the agent's bonds are
checked again (R185, R230). -/
def Ctl.tookOwn (c : Ctl) (op : Rmt) (p : Bytes) : Ctl := match op.about with
  | 0 => if op.reads then c.tookActive op.fid p else c
  | 1 => c.tookFigures op.fid p
  | 2 => c.tookLinks op.fid op.request p
  | _ => ((c.tookLinks op.fid op.request p).recheckAll 4 fun x => x.runs.any fun r => r.fid = op.fid).writeFloors

/-- MGMT_OP_RESPONSE: the response overwrites the request in controller memory, or brings what the controller itself read; one that
nothing awaits is counted (R343; log entry 30). -/
def Ctl.mgmtResponse (c : Ctl) (w : Worm) : Ctl :=
  let fid := markFid (wormMark w)
  let p := w.payload
  if !bitOf (byteAt p 5) 0 then c
  else match c.ops.find? fun o => o.fid = fid && o.opId = fieldAt p 0 4 with
    | none => c.onDie (·.count Reg.MBX_CNT_LATE_ARRIVAL)
    | some op =>
      let (forced, d) := c.die.takeWait Blk.MBX
      let c : Ctl := { c with die := d }
      if forced ∨ 1000000 + op.startNs < c.die.up then (c.onDie (·.count Reg.MBX_CNT_LATE_ARRIVAL)).retryOp op
      else
        let c : Ctl := if op.soft then (c.memWrite op.addr (slice p 0 (min p.length (16 + 16 * byteAt p 4)))).1
          else c.tookOwn op p
        c.endOp op 0

/-- MGMT_OP_RESPONSE. -/
def execMgmtOpResponse (wm : Worm) (s : State) : Res := s.ctlNext fun c => c.mgmtResponse wm

/-- MGMT_OP_TIMEOUT: of the operation whose attempt is 1 ms old. -/
def Ctl.mgmtTimeout (c : Ctl) : Ctl :=
  match c.ops.find? fun o => 1000000 + o.startNs ≤ c.die.up with
  | none => c
  | some op => c.retryOp op

/-- MGMT_OP_TIMEOUT. -/
def execMgmtOpTimeout (s : State) : Res := s.ctlNext Ctl.mgmtTimeout

end Sys2Proof.Machine
end

