-- ==== Sys2Proof/Machine/Firmware.lean ====
section
/-! DEFINITION. Firmware images and their distribution (R495 to R512): staging, passes and repair at the controller; reception,
verification, banks and activation at an agent; and the counters of the bulk buffer and the tray interface (R523). -/

namespace Sys2Proof.Machine

/-! ## Staging (R496) -/

/-- The variants bit of a part (R495). The embedded agents take the images of a TWD-200, whose capabilities they report (log entry
31). -/
def Part.variantBit : Part → Nat
  | .pln9400 => 0 | .pln9320 => 1 | .pln9210 => 2 | .twd210 => 3 | .twd200 => 4 | .embedded => 4

/-- The key that an image of a kind is verified against (R375, R378). -/
def imageKey (kind : Nat) : Nat := if kind = 3 then 4 else 3

/-- Whether a distribution runs (R498): from FDS_CTL.distribute until the image is activated or abandoned. -/
def Ctl.distributing (c : Ctl) : Bool := !c.fds.image.isEmpty && !c.fds.activated

/-- The result of the checks of R496 on an image: 0 OK, 1 LENGTH, 2 KIND, 3 SIGNATURE, 4 ROLLBACK, 5 LEVEL, 6 BUSY, 7 SAFE_STATE. -/
def Ctl.stageCheck (c : Ctl) (len : Nat) (b : Bytes) : Nat :=
  let h := imageHdr b
  if len ≠ 30048 + h.bodyLength ∨ !h.formOk ∨ (if h.kind = 3 then 1048576 < len else 67108864 < len) then 1
  else if h.kind = 0 ∨ 3 < h.kind then 2
  else if !(if h.kind = 3 then bitOf h.variants 3 || bitOf h.variants 4 else bitOf h.variants c.die.part.variantBit) then 2
  else if !(imageOk [imageKey h.kind] b) then 3
  else if h.rollback < c.flash.fuses.getD (h.kind - 1) 0 then 4
  else if h.kind = 3 ∧ !(c.liveAgents.all fun a => levelsMeet a.linkLevel h.linkLevel) then 5
  else if c.distributing then 6
  else if c.die.safe then 7
  else 0

/-- FDS_CTL.stage. -/
def Ctl.fdsStage (c : Ctl) : Ctl :=
  let len := c.die.bget Reg.FDS_SRC_LEN 25 0
  let (c, b, _) := c.memRead (c.die.getN Reg.FDS_SRC_ADDR) len
  let r := c.stageCheck len b
  let c := c.onDie (·.fset Fl.FDS_STATUS_result r)
  if r ≠ 0 then c
  else
    let h := imageHdr b
    let c := c.extend 4 0x40 (digestOf h.bodyDigest)
    let c : Ctl := { c with flash := { c.flash with staged := tset c.flash.staged h.kind b } }
    let fds : Fds := if h.kind = 3 then { c.fds with image := [], agents := [], course := none, want := none, activated := false } else c.fds
    (({ c with fds := fds } : Ctl).setFds 2).raise Ev.FW_STAGED

/-- FDS_STAGE. -/
def execFdsStage (s : State) : Res := s.ctlNext fun c => c.written Blk.FDS Ctl.fdsStage

/-! ## Distribution (R498, R500, R505, R506) -/

/-- FDS_CTL.distribute: the staged agent image goes to every named agent under a new image id. -/
def Ctl.fdsDistribute (c : Ctl) : Ctl :=
  match tget c.flash.staged 3 with
  | none => c
  | some b =>
    if c.distributing then c
    else
      let id := (c.fds.imageId + 1) % 2 ^ 32
      let agents : Tbl FdsAgent := c.liveAgents.foldl (fun t a => tset t a.fid { state := 0, bitmap := 0, reported := false }) []
      let fds : Fds := { imageId := id, image := b, next := 0, agents := agents, course := none, want := none, activated := false }
      let count := ceilDiv b.length 2048
      (({ c with fds := fds } : Ctl).setFds 3).onDie (·.setN Reg.FDS_IMAGE (id + 3 * 2 ^ 32 + count % 2 ^ 10 * 2 ^ 40))

/-- FDS_DISTRIBUTE. -/
def execFdsDistribute (s : State) : Res := s.ctlNext fun c => c.written Blk.FDS Ctl.fdsDistribute

/-- The next chunk of the pass, chunk_ns after the one before it (R500). -/
def Ctl.fwPassChunk (c : Ctl) : Ctl :=
  if !c.distributing ∨ c.fdsCount ≤ c.fds.next
    ∨ (0 < c.fds.next ∧ c.die.up < c.fds.sentNs + c.die.fget Fl.FDS_CFG_chunk_ns) then c
  else
    let c' := c.passChunk c.fds.next
    { c' with fds := { c'.fds with next := c.fds.next + 1, sentNs := c.die.up, queried := false } }

/-- FW_PASS_CHUNK. -/
def execFwPassChunk (s : State) : Res := s.ctlNext fun c => c.works Blk.FDS Ctl.fwPassChunk

/-- FW_QUERY_SEND: to every target from which no report is held, quiet_us and 4 ms after the end of the pass or round. -/
def Ctl.fwQuerySend (c : Ctl) : Ctl :=
  if !c.distributing ∨ c.fds.next < c.fdsCount ∨ c.fds.queried
    ∨ c.die.up < 4000000 + c.fds.sentNs + 1000 * c.die.fget Fl.FDS_CFG_quiet_us then c
  else
    let c : Ctl := { c with fds := { c.fds with queried := true } }
    let open_ := c.fds.agents.filter fun p => !p.2.reported && decide (p.2.state < 2)
    open_.foldl (fun (c : Ctl) p => (c.sendA p.1 0x50 (le 4 c.fds.imageId)).onDie (·.count Reg.FDS_CNT_QUERIES)) c

/-- FW_QUERY_SEND. -/
def execFwQuerySend (s : State) : Res := s.ctlNext fun c => c.works Blk.FDS Ctl.fwQuerySend

/-- FW_STITCHES at the controller: an agent that holds every chunk is complete. -/
def Ctl.fwStitches (c : Ctl) (fid imageId state bitmap : Nat) : Ctl :=
  if imageId ≠ c.fds.imageId then c
  else match tget c.fds.agents fid with
    | none => c
    | some x =>
      if 2 < x.state then c
      else c.setFdsAgent fid (if 2 ≤ state ∧ state ≤ 5 then { x with state := 2, reported := true }
        else { state := 1, bitmap := if state = 1 then bitmap else 0, reported := true })

/-- FW_STITCHES. -/
def execFwStitches (fid imageId _count _missing state : Nat) (bitmap : Nat) (s : State) : Res :=
  s.ctlNext fun c => c.works Blk.FDS fun c => c.fwStitches fid imageId state bitmap

/-- How many chunks an agent lacks. -/
def Ctl.fdsMissing (c : Ctl) (x : FdsAgent) : Nat := c.fdsCount - (bitList x.bitmap c.fdsCount).length

/-- An agent still incomplete after the last round: its image is abandoned. -/
def Ctl.giveUp (c : Ctl) (fid : Nat) : Ctl :=
  ((c.setFdsAgent fid { c.fdsAgent fid with state := 6 }).raise Ev.FW_INCOMPLETE).sendA fid 0x57 (le 4 c.fds.imageId)

/-- The rows that get a re-multicast: each with the lowest rack that holds such an agent, and the union of the chunks missing. -/
def Ctl.repairRows (c : Ctl) (fids : List Nat) : List (Nat × List Nat) :=
  let at_ (f : Nat) : Nat := ((tget c.cst.agents f).map (·.rack)).getD 0
  (List.range 32).filterMap fun row =>
    let mine := fids.filter fun f => at_ f / 64 = row
    if mine.isEmpty then none
    else
      let lacking := (List.range c.fdsCount).filter fun i => mine.any fun f => !(bitOf (c.fdsAgent f).bitmap i)
      some (minL 2047 (mine.map at_), lacking)

/-- FW_REPAIR_ROUND (R506): the reported agents are sorted. While none has reported, and before an agent is given up after the last round,
it waits for the reports: an agent without one has had its query (R505). -/
def Ctl.repairRound (c : Ctl) : Ctl :=
  let rounds := c.die.bget Reg.FDS_IMAGE 63 56
  let short := (c.fds.agents.filter fun p => decide (p.2.state < 2)).map (·.1)
  if !c.distributing ∨ c.fds.next < c.fdsCount ∨ short.isEmpty then c
  else if !c.fds.queried ∧ (if c.die.fget Fl.FDS_CFG_rounds ≤ rounds then short.any fun f => !(c.fdsAgent f).reported
      else short.all fun f => !(c.fdsAgent f).reported) then c
  else if c.die.fget Fl.FDS_CFG_rounds ≤ rounds then short.foldl (fun (c : Ctl) f => c.giveUp f) c
  else
    let known := short.filter fun f => (c.fdsAgent f).reported
    let few := known.filter fun f => decide (100 * c.fdsMissing (c.fdsAgent f) ≤ c.fdsCount)
    let many := known.filter fun f => decide (c.fdsCount < 100 * c.fdsMissing (c.fdsAgent f))
    let rows := c.repairRows many
    let c := few.foldl (fun (c : Ctl) f => c.unicastMissing f (c.fdsAgent f).bitmap) c
    let c := rows.foldl (fun (c : Ctl) r => r.2.foldl (fun (c : Ctl) i =>
      c.sendRow r.1 4 i fun c => c.onDie (·.count Reg.FDS_CNT_ROW_REPAIR)) c) c
    let c := known.foldl (fun (c : Ctl) f => c.setFdsAgent f { c.fdsAgent f with reported := false }) c
    let c : Ctl := { c with fds := { c.fds with sentNs := c.die.up, queried := false } }
    (c.setFds 4).onDie (·.bset Reg.FDS_IMAGE 63 56 (rounds + 1))

/-- FW_REPAIR_ROUND. -/
def execFwRepairRound (s : State) : Res := s.ctlNext fun c => c.works Blk.FDS Ctl.repairRound

/-- FW_READY: an agent that took the image after the activation gets a course of its own (R509). -/
def Ctl.fwReady (c : Ctl) (fid imageId : Nat) : Ctl :=
  if imageId ≠ c.fds.imageId ∨ (tget c.fds.agents fid).isNone then c
  else
    let c := c.setFdsAgent fid { c.fdsAgent fid with state := 3, reported := true }
    if c.fds.activated then c.fdsChoose c.fdsLead else c

/-- FW_READY. -/
def execFwReady (fid imageId _version : Nat) (_digest : Digest) (s : State) : Res := s.ctlNext fun c => c.works Blk.FDS fun c => c.fwReady fid imageId

/-- FW_REFUSED. -/
def execFwRefused (fid imageId _reason : Nat) (s : State) : Res :=
  s.ctlNext fun c => c.works Blk.FDS fun c =>
    if imageId ≠ c.fds.imageId ∨ (tget c.fds.agents fid).isNone then c
    else c.setFdsAgent fid { c.fdsAgent fid with state := 5, reported := true }

/-! ## Activation, commit, abandonment (R402, R507 to R510) -/

/-- FDS_ACTIVATE: the image must be STAGED at an agent. -/
def execFdsActivate (s : State) : Res :=
  s.ctlNext fun c => c.written Blk.FDS fun c => if c.fds.image.isEmpty then c else c.fdsChoose c.fdsLead

/-- The first activation course of the image has passed: register 4 is extended, the staged image becomes the running one, and reports
that waited go on (R402, R497, R509). -/
def Ctl.fdsPassed (c : Ctl) : Ctl :=
  match c.fds.course with
  | none => c
  | some k =>
    if c.fds.activated ∨ c.courseNow < k then c
    else
      let digest := digestOf (imageHdr c.fds.image).bodyDigest
      let flash : Flash := { c.flash with running := tset c.flash.running 3 c.fds.image, staged := tdel c.flash.staged 3 }
      let c : Ctl := { c with flash := flash, fds := { c.fds with activated := true } }
      ((c.extend 4 0x41 digest).setFds 6).raise Ev.FW_ACTIVATED

/-- Reports that an activation course held back go on (R402). -/
def Ctl.resumeJobs (c : Ctl) : Ctl := if c.kst.jobs.isEmpty then c else Ctl.pumpJobs c.kst.jobs.length.succ c

/-- FW_RESULT: 1 ACTIVATED, 2 LATE, 3 DEFERRED. -/
def Ctl.fwResult (c : Ctl) (fid imageId result version : Nat) : Ctl :=
  if imageId ≠ c.fds.imageId ∨ (tget c.fds.agents fid).isNone then c
  else
    let c := c.fdsPassed
    let c := c.setFdsAgent fid { c.fdsAgent fid with state := if result = 1 then 4 else 7 }
    let c := if result = 1 then c.modAgent fid fun a => { a with fwVersion := version, linkLevel := (imageHdr c.fds.image).linkLevel } else c
    c.fdsRetry.resumeJobs

/-- FW_RESULT. -/
def execFwResult (fid imageId result _course version : Nat) (s : State) : Res :=
  s.ctlNext fun c => c.works Blk.FDS fun c => c.fwResult fid imageId result version

/-- FDS_COMMIT: to every agent that reported ACTIVATED. -/
def execFdsCommit (s : State) : Res :=
  s.ctlNext fun c => c.written Blk.FDS fun c =>
    (c.fds.agents.filter fun p => p.2.state = 4).foldl (fun (c : Ctl) p => c.sendA p.1 0x56 (le 4 c.fds.imageId)) c

/-- FDS_CTL.abandon: to every target; the distribution ends, and the image is no longer STAGED (R496). -/
def Ctl.fdsAbandon (c : Ctl) : Ctl :=
  let c := c.fds.agents.foldl (fun (c : Ctl) p => c.sendA p.1 0x57 (le 4 c.fds.imageId)) c
  let fds : Fds := { c.fds with image := [], agents := [], course := none, want := none, activated := false }
  let c : Ctl := { c with fds := fds, flash := { c.flash with staged := tdel c.flash.staged 3 } }
  (c.setFds 0).resumeJobs

/-- FDS_ABANDON. -/
def execFdsAbandon (s : State) : Res := s.ctlNext fun c => c.written Blk.FDS Ctl.fdsAbandon

/-- FDS_CLEAR_COUNTERS. -/
def execFdsClearCounters (s : State) : Res := s.ctlNext fun c => c.written Blk.FDS fun c => c.onDie (·.clearCounters Blk.FDS)

/-! ## Reception at an agent (R500 to R505) -/

/-- AGT_FW_STATUS.state (R502): 0 IDLE, 1 RECEIVING, 2 VERIFYING, 3 PROGRAMMING, 4 STAGED, 5 ACTIVATING. -/
def Agt.fwState (a : Agt) : Nat := a.die.fget Fl.AGT_FW_STATUS_state
def Agt.setFw (a : Agt) (st : Nat) : Agt := a.onDie (·.fset Fl.AGT_FW_STATUS_state st)

/-- The image is dropped: the share is empty, and AGT_FW_STATUS shows the image last activated. -/
def Agt.fwIdle (a : Agt) : Agt :=
  let a : Agt := { a with fwrx := { a.fwrx with chunks := [], count := 0, total := 0, course := none, imageId := a.fwrx.activated } }
  (a.setFw 0).onDie fun d => (d.fset Fl.AGT_FW_STATUS_received 0).fset Fl.AGT_FW_STATUS_image_id a.fwrx.activated

/-- FW_REFUSED for an image with a reason of R503. -/
def Agt.refuseFw (a : Agt) (imageId reason : Nat) : Agt :=
  (a.onDie (·.fset Fl.AGT_FW_STATUS_reason reason)).onDie (·.toController 0x53 (le 4 imageId ++ le 1 reason))

/-- The column multicast of a chunk that a switch takes with RELAY_COLUMN (R468, R500): dropped and counted where the relay share is full. How
much of the share the worms in front of the agent input take is open: a free value decides (log entry 64). -/
def Agt.relayColumn (a : Agt) (w : Worm) : Agt :=
  if !a.isSwitch ∨ !bitOf (Worm.opnd w 24 1) 0 ∨ a.fid = 0x3FFFF then a
  else
    let (full, d) := a.die.freeVal
    let a : Agt := { a with die := d }
    if full.toNat % 2 = 1 then a.count Reg.LKP_CNT_FWD_DROP
    else
      let flags := Worm.opnd w 24 1 - 1
      let operand := slice w.operand 8 16 ++ le 1 flags ++ slice w.operand 25 7
      a.originate { dst := 0x3FFFF, op := 0x86, mcast := 3, root := a.rack, bond := 0xFF, operand := operand, payload := w.payload,
                    block := 0, privilege := 0, mark := some (relayMark (wormMark w) a.fid) }

/-- The bytes of the image's chunks held, in order. -/
def FwRx.image (f : FwRx) : Bytes := (f.chunks.flatMap (·.2)).take f.total

/-- Keep a chunk that passed its checks (R501), with the times of R505. -/
def Agt.keepChunk (a : Agt) (i : Nat) (data : Bytes) (last : Bool) : Agt :=
  let f := a.fwrx
  if (tget f.chunks i).isSome then a.count Reg.AGT_CNT_FW_DUPLICATE
  else
    let f : FwRx := { f with chunks := tset f.chunks i data, acceptedNs := a.die.up, reported := false,
                             lastNs := if last then some a.die.up else f.lastNs }
    let a : Agt := { a with fwrx := f }
    let a := a.onDie (·.fset Fl.AGT_FW_STATUS_received f.chunks.length)
    if f.chunks.length = f.count then a.setFw 2 else a

/-- Start on an image (R501). -/
def Agt.startImage (a : Agt) (imageId count total : Nat) : Agt :=
  let a : Agt := { a with fwrx := { a.fwrx with chunks := [], count := count, total := total, imageId := imageId, course := none, lastNs := none } }
  (a.setFw 1).onDie fun d => (d.fset Fl.AGT_FW_STATUS_image_id imageId).fset Fl.AGT_FW_STATUS_received 0

/-- FW_CHUNK: the checks of R501 in order, then what the image id decides; an IDLE agent holds no image and starts on any (log entry
75). -/
def Agt.fwChunk (a : Agt) (w : Worm) : Agt :=
  let id := Worm.opnd w 8 4
  let i := Worm.opnd w 12 2
  let n := Worm.opnd w 14 2
  let total := Worm.opnd w 20 4
  let size := min 2048 (total - 2048 * i)
  let data := slice w.payload 0 size
  let last := bitOf (Worm.opnd w 24 1) 1
  let share := (a.die.resource.shares.getD 0 (0, 0)).2 * 4096
  if markPriv (wormMark w) ≠ 2 ∨ w.partition ≠ 0 ∨ Worm.opnd w 25 1 ≠ 3 then a.onDie Die.markDenied
  else
    let a := a.relayColumn w
    if 512 < n ∨ n ≠ ceilDiv total 2048 ∨ n ≤ i ∨ w.length ≠ ceilDiv size 64 ∨ share < total then
      let a := if share < total then a.count Reg.BLK_CNT_FULL else a
      let a := if a.fwrx.imageId = id ∧ a.fwState ≠ 0 ∧ a.fwState < 4 then a.fwIdle else a
      a.refuseFw id 4
    else if crc32c data ≠ Worm.opnd w 16 4 then a.count Reg.AGT_CNT_FW_CHUNK_BAD
    else if a.fwState ≠ 0 ∧ a.fwrx.imageId = id then
      if a.fwState = 1 ∧ a.fwrx.count = n then a.keepChunk i data last else a.count Reg.AGT_CNT_FW_DUPLICATE
    else if a.fwState = 0 ∨ (a.fwrx.imageId < id ∧ a.fwState < 4) then (a.startImage id n total).keepChunk i data last
    else a

/-- FW_CHUNK. -/
def execFwChunk (w : Who) (_inBond : Nat) (wm : Worm) (s : State) : Res := s.agtNext w fun a => a.fwChunk wm

/-- The received bitmap. -/
def FwRx.bitmap (f : FwRx) : Nat := ofBitList (f.chunks.map (·.1))

/-- FW_STITCHES for an image: the bitmap is zero outside RECEIVING. -/
def Agt.stitches (a : Agt) (imageId : Nat) : Agt :=
  let mine := decide (a.fwState ≠ 0 ∧ a.fwrx.imageId = imageId)
  let st := if mine then a.fwState else 0
  let n := if mine then a.fwrx.count else 0
  let got := if st = 1 then a.fwrx.chunks.length else if mine then n else 0
  let map := if st = 1 then a.fwrx.bitmap else 0
  a.onDie (·.toController 0x51 (le 4 imageId ++ le 2 n ++ le 2 (n - got) ++ le 1 st ++ le 3 0 ++ le 64 map))

/-- Whether a report of missing chunks is due (R505): after a chunk with LAST_OF_PASS, or the quiet time after the last accepted one, and
the agent's own share of 2 µs steps after that. The quiet time is the reset value of FDS_CFG.quiet_us (log entry 75). -/
def Agt.stitchesDue (a : Agt) : Bool :=
  let wait := a.fid % 1024 * 2000
  a.fwState = 1 && !a.fwrx.reported && (a.fwrx.lastNs.any (fun t => decide (t + wait ≤ a.die.up))
    || decide (1000000 + a.fwrx.acceptedNs + wait ≤ a.die.up))

/-- FW_STITCHES_SEND: while RECEIVING, when it is due. -/
def execFwStitchesSend (w : Who) (s : State) : Res :=
  s.agtNext w fun a =>
    if a.stitchesDue then
      ({ a with fwrx := { a.fwrx with reported := true, lastNs := none } } : Agt).stitches a.fwrx.imageId
    else a

/-- FW_QUERY. -/
def execFwQuery (w : Who) (imageId : Nat) (s : State) : Res := s.agtNext w fun a => a.stitches imageId

/-- The reason the verification of R503 ends with, 0 where it passes. -/
def Agt.fwVerify (a : Agt) (b : Bytes) : Nat :=
  let h := imageHdr b
  if a.die.testEn then 6
  else if !h.formOk ∨ h.kind ≠ 3 ∨ !bitOf h.variants a.die.part.variantBit then 3
  else if !(imageOk [4] b) then 1
  else if h.rollback < a.fwrx.rollback then 2
  else 0

/-- FW_VERIFY_DONE. -/
def Agt.verifyDone (a : Agt) : Agt :=
  if a.fwState ≠ 2 then a
  else
    let b := a.fwrx.image
    let r := a.fwVerify b
    if r ≠ 0 then (a.refuseFw a.fwrx.imageId r).fwIdle
    else
      let h := imageHdr b
      ({ a with fwrx := { a.fwrx with version := h.version, digest := digestOf h.bodyDigest } } : Agt).setFw 3

/-- FW_VERIFY_DONE. -/
def execFwVerifyDone (w : Who) (s : State) : Res := s.agtNext w Agt.verifyDone

/-- Write a bank. -/
def FwRx.program (f : FwRx) (bank : Nat) (b : Bytes) (good : Bool) : FwRx :=
  if bank = 0 then { f with bank0 := b, bankVersion0 := f.version, bankGood0 := good }
  else { f with bank1 := b, bankVersion1 := f.version, bankGood1 := good }

/-- FW_PROGRAM_DONE (R502, R504): the inactive bank holds the image, and the share is empty; a write that failed leaves a bank that
does not pass. -/
def Agt.programDone (a : Agt) (ok : Bool) : Agt :=
  if a.fwState ≠ 3 then a
  else
    let f := a.fwrx.program (1 - a.die.fget Fl.AGT_FW_STATUS_active_bank) a.fwrx.image ok
    if !ok then (({ a with fwrx := f } : Agt).refuseFw f.imageId 5).fwIdle
    else
      let a : Agt := { a with fwrx := { f with chunks := [] } }
      (a.setFw 4).onDie (·.toController 0x52 (le 4 f.imageId ++ le 4 f.version ++ digestBytes f.digest))

/-- FW_PROGRAM_DONE. -/
def execFwProgramDone (w : Who) (ok : Bool) (s : State) : Res := s.agtNext w fun a => a.programDone ok

/-! ## Activation at an agent (R507 to R510) -/

/-- FW_RESULT. -/
def Agt.fwReport (a : Agt) (result course : Nat) : Agt :=
  a.onDie (·.toController 0x55 (le 4 a.fwrx.imageId ++ le 1 result ++ le 3 0 ++ le 8 course ++ le 4 a.die.fw.version))

/-- Whether a course has started, under the geometry in force; without one, no course is ahead. -/
def Agt.courseStarted (a : Agt) (course : Nat) : Bool := match a.fwd.geom with
  | some g => decide (course * g.courseNs ≤ a.die.ns)
  | none => true

/-- FW_ACTIVATE: ON_TIME, or LATE. -/
def Agt.fwActivate (a : Agt) (imageId course : Nat) : Agt :=
  if a.die.safe ∨ a.fwState ≠ 4 ∨ a.fwrx.imageId ≠ imageId then a
  else if a.courseStarted course then a.fwReport 2 course
  else { a with fwrx := { a.fwrx with course := some course } }

/-- FW_ACTIVATE. -/
def execFwActivate (w : Who) (imageId course : Nat) (s : State) : Res := s.agtNext w fun a => a.fwActivate imageId course

/-- The activation course at an agent: deferred, or the programmed bank is the active one and the core restarts. -/
def Agt.fwCourse (a : Agt) : Agt :=
  match a.fwrx.course with
  | none => a
  | some k =>
    if a.fwState ≠ 4 ∨ !a.courseStarted k then a
    else if (2 ≤ a.recLevel ∧ a.recLevel ≤ 5) ∨ a.regime ∨ a.die.safe then
      ({ a with fwrx := { a.fwrx with course := none } } : Agt).fwReport 3 k
    else
      let a := a.onDie (·.fset Fl.AGT_FW_STATUS_active_bank (1 - a.die.fget Fl.AGT_FW_STATUS_active_bank))
      (a.setFw 5).extendOwn 0 2 (digestBytes a.fwrx.digest)

/-- FW_ACTIVATION_COURSE: the agent's, and the controller's own part where the course is the first of its image (R509). -/
def execFwActivationCourse (w : Who) (s : State) : Res :=
  match s.agtNext w Agt.fwCourse with
  | .next s => s.ctlNext fun c => c.fdsPassed.resumeJobs
  | r => r

/-- FW_CORE_RESTART_DONE: the new firmware runs; expiries that waited for it take effect (R508). -/
def Agt.restartDone (a : Agt) : Agt :=
  if a.fwState ≠ 5 then a
  else
    let a := a.onDie fun d => { d with fw := a.fwrx.firmware (d.fget Fl.AGT_FW_STATUS_active_bank) }
    let course := a.fwrx.course.getD 0
    let a : Agt := { a with fwrx := { a.fwrx with course := none, activated := a.fwrx.imageId, count := 0, total := 0 } }
    let a := ((a.setFw 0).onDie (·.fset Fl.AGT_FW_STATUS_received 0)).fwReport 1 course
    let late := a.rcv.deferred
    late.foldl (fun (a : Agt) k => a.ownerAction k) { a with rcv := { a.rcv with deferred := [] } }

/-- FW_CORE_RESTART_DONE. -/
def execFwCoreRestartDone (w : Who) (s : State) : Res := s.agtNext w Agt.restartDone

/-- FW_COMMIT: the rollback fuses rise to the index of the image activated. -/
def execFwCommit (w : Who) (imageId : Nat) (s : State) : Res :=
  s.agtNext w fun a =>
    if a.die.safe ∨ a.fwrx.activated ≠ imageId ∨ imageId = 0 then a
    else { a with fwrx := { a.fwrx with rollback := max a.fwrx.rollback (min 128 a.die.fw.index) } }

/-- FW_ABANDON: an image from RECEIVING to STAGED is discarded; both banks stay as they stand. -/
def execFwAbandon (w : Who) (imageId : Nat) (s : State) : Res :=
  s.agtNext w fun a =>
    if a.die.safe ∨ a.fwState = 0 ∨ 4 < a.fwState ∨ a.fwrx.imageId ≠ imageId then a else a.fwIdle

/-! ## The bulk buffer and the tray interface (R523) -/

/-- BLK_CLEAR_COUNTERS. -/
def execBlkClearCounters (w : Who) (s : State) : Res := s.agtNext w fun a => a.written Blk.BLK (·.onDie (·.clearCounters Blk.BLK))

/-- TRY_CLEAR_COUNTERS. -/
def execTryClearCounters (w : Who) (s : State) : Res := s.agtNext w fun a => a.written Blk.TRY (·.onDie (·.clearCounters Blk.TRY))

end Sys2Proof.Machine
end

