-- ==== Sys2Proof/Machine/Power.lean ====
section
/-! DEFINITION. Power and reset pins of Pelron (R529 to R536, R549) and the core-voltage floor of an agent (R543). -/

namespace Sys2Proof.Machine

/-! ## Power-up and reset (R532, R533) -/

/-- MOD_EN_ASSERT: from the off state the rails come up, and the power-cycle count rises (R438); the condition of step 2 holds, and
MOD_EN was low for 100 ms (log entry 32). While a sequence runs the pin alone changes (R536). -/
def Ctl.modEnAssert (c : Ctl) : Ctl :=
  if c.pwr.modEn then c
  else if c.pwr.phase ≠ 0 then { c with pwr := { c.pwr with modEn := true } }
  else
    let evr : Evr := { c.die.evr with secBase := c.die.evr.savedSec, cycles := (c.die.evr.savedCycles + 1) % 2 ^ 24 }
    { c with pwr := { c.pwr with modEn := true, pwrFailN := true, phase := 1 }, die := { c.die with evr := evr } }

/-- MOD_EN_ASSERT. -/
def execModEnAssert (s : State) : Res := .next (s.onCtl Ctl.modEnAssert)

/-- CONTROLLER_LEAVE_RESET: at power good with RST_N high; TEST_EN is sampled (R379). -/
def Ctl.leaveReset (c : Ctl) (testEn : Bool) : Ctl :=
  if c.pwr.phase ≠ 1 then c
  else
    let c := c.restarted testEn
    { c with pwr := { c.pwr with phase := 2, rstN := true } }

/-- CONTROLLER_LEAVE_RESET. -/
def execControllerLeaveReset (testEn : Bool) (s : State) : Res := .next (s.onCtl fun c => c.leaveReset testEn)

/-- CONTROLLER_RST_N (R346, R533): a pulse of at least 10 µs resets the die but the meter's island, without a dump; whether a shorter
one does is a free value (log entry 3). -/
def Ctl.rstPulse (c : Ctl) (ns : Nat) : Ctl :=
  if c.pwr.phase ≠ 2 then c
  else
    let (w, d) := c.die.freeVal
    let c : Ctl := { c with die := d }
    if ns < 10000 ∧ w.toNat % 2 = 0 then c
    else
      let c := c.restarted false
      { c with pwr := { c.pwr with phase := 1, rstN := false } }

/-- CONTROLLER_RST_N. -/
def execControllerRstN (ns : Nat) (s : State) : Res := .next (s.onCtl fun c => c.rstPulse ns)

/-! ## Power-down (R445, R534 to R536) -/

/-- Raises that wait get their records at once. -/
def Ctl.flushQueue (c : Ctl) (e : Agt) : Ctl :=
  (List.range c.die.evr.queue.length).foldl (fun (c : Ctl) _ => c.onDie (·.snapshot (c.regNow e .jtag))) c

/-- The newest 256 records, oldest first. -/
def Die.newest (d : Die) : List Bytes :=
  let n := d.getN Reg.EVR_WR_SEQ0
  let circ := (List.range (min 256 n)).map fun i => d.recordAt 0 (n - min 256 n + i)
  let l := circ ++ d.evr.fallback.map (·.bytes)
  l.drop (l.length - 256)

/-- The recorder at a power failure (R445). -/
def Ctl.powerFailRecord (c : Ctl) (e : Agt) : Ctl :=
  let c := (c.raise Ev.POWER_FAIL).flushQueue e
  c.onDie fun d => { d.saveOpsec with evr := { d.saveOpsec.evr with lastGasp := d.newest } }

/-- What a trigger shows at the pins. -/
def Pwr.trigger (p : Pwr) : PowerTrigger → Pwr
  | .pwrFail => { p with pwrFailN := false }
  | .modEn => { p with modEn := false }
  | .input42 | .standby | .thermal => p

/-- The power-down sequence up to the end of the module-flash writes (R535). -/
def Ctl.powerDown (c : Ctl) (e : Agt) : Ctl :=
  let c : Ctl := { c with ports := [], mortar := [], kst := { c.kst with conns := [] } }
  let c := (c.onDie (·.driveAlert false)).meterSnapshot.powerFailRecord e
  { c with pwr := { c.pwr with phase := 3 } }

/-- POWER_DOWN_TRIGGER: the sequence starts; the embedded agent's lanes stop with it. A sequence that runs ignores triggers, and a
module that is off sees the pins alone. -/
def State.powerTrigger (s : State) (t : PowerTrigger) : State :=
  let s := s.onCtl fun c => { c with pwr := c.pwr.trigger t }
  match s.ctl.pwr.phase with
  | 2 => (s.onCtl fun c => c.powerDown s.emb).onAgt .emb Agt.withdrawAll
  | 1 => s.onCtl fun c => { (c.onDie (·.driveAlert false)).meterSnapshot with pwr := { c.pwr with phase := 3 } }
  | 4 => s.onCtl fun c => { c with pwr := { c.pwr with phase := if c.pwr.modEn then 4 else 0 } }
  | _ => s

/-- POWER_DOWN_TRIGGER. -/
def execPowerDownTrigger (t : PowerTrigger) (s : State) : Res := .next (s.powerTrigger t)

/-- The controller without main power (R530): the whole die is reset, controller memory is lost; module flash and what the standby domain
keeps of identifiers stay (log entry 22). -/
def Ctl.powerOff (c : Ctl) : Ctl :=
  let f := Ctl.fresh c.die.part c.dieId c.flash c.meter { c.pwr with phase := if c.pwr.modEn then 4 else 0, refclk := true }
  let d : Die := { f.die with out := c.die.out, free := c.die.free, evr := Evr.afterReset c.die }
  let d := if c.die.alertN then d else d.emit (.pin "ALERT_N" true)
  { f with die := d, adm := { f.adm with inst := c.adm.inst }, fds := { f.fds with imageId := c.fds.imageId },
           cst := { f.cst with seqs := c.cst.seqs, nextStream := c.cst.nextStream } }

/-- POWER_DOWN_END: the main rails are off, the embedded agent's with them. -/
def execPowerDownEnd (s : State) : Res :=
  .next (if s.ctl.pwr.phase = 3 then (s.onCtl Ctl.powerOff).onAgt .emb fun a => a.resetAssert false else s)

/-! ## The core-voltage floor (R543) -/

/-- A write of AGT_VCORE: a floor outside 600 to 800 mV is ignored; lowest_mv starts anew. -/
def Die.vcoreFloor (d : Die) (val : Nat) : Die :=
  let mv := bitsOf val 11 0
  if mv < 600 ∨ 800 < mv then d else (d.bset Reg.AGT_VCORE 11 0 mv).bset Reg.AGT_VCORE 43 32 0xFFF

/-- VCORE_FLOOR_WRITE. -/
def execVcoreFloorWrite (w : Who) (val : Word) (s : State) : Res :=
  s.agtNext w fun a => a.written Blk.AGT (·.onDie (·.vcoreFloor val.toNat))

end Sys2Proof.Machine
end

