-- ==== Sys2Proof/Machine/Access.lean ====
section
/-! DEFINITION. Register accesses (R3, R10 to R14, R440, R443, R456, R520, R524): one access as its block completes it, the command
that a write of a command register is, and the paths that carry accesses (R279, R293, R455, R461, R462, R470). -/

namespace Sys2Proof.Machine

/-! ## Values wider than 64 bits (R13) -/

/-- The values that occupy consecutive registers of a block whose read latches: first register and words. CVU_RUN latches CVU_COUNT
(R490), PLB_TRIG_LO the word above it. -/
def wideGroups : List (Nat × Nat) := [
  (Reg.PAT_ACTIVE_DIGEST0, 8), (Reg.PAT_STAGED_DIGEST0, 8), (Reg.PLB_TIME_LO, 2), (Reg.PLB_TRIG_LO, 2),
  (Reg.PLB_MASTER_LOAD_LO, 2), (Reg.SOL_INPUT_DIGEST0, 8), (Reg.SHD_ENTRY0, 8), (Reg.MSR_VALUE0, 8), (Reg.LNK_FAR_ID0, 8),
  (Reg.KST_MEAS0, 8), (Reg.GCM_SLOT_KEY_ID0, 2), (Reg.MTR_KEY_ID0, 2), (Reg.EVR_RD_DATA0, 64), (Reg.MNP_ADDR0, 2),
  (Reg.MBX_B_TX0, 8), (Reg.MBX_B_RX0, 8), (Reg.AGT_CG_CTX0, 2), (Reg.CVU_RUN, 2)]

/-- The wide value a register belongs to: its first register, its words and the register's place among them. -/
def wideOf (key : Nat) : Option (Nat × Nat × Nat) :=
  let k := normKey key
  (wideGroups.find? fun g => decide (g.1 ≤ k) && decide (k < g.1 + 8 * g.2)).map fun g =>
    (key - (k - g.1), g.2, (k - g.1) / 8)

/-- Whether a wide value's writes are held until its highest word is written. CVU_RUN and CVU_COUNT are two values (R490). -/
def heldUntil (base : Nat) : Bool := normKey base ≠ Reg.CVU_RUN

/-! ## Locks and absent units -/

/-- The lock of an RWL register (R520). -/
def lockOf (pelron : Bool) (key : Nat) : Option Fld :=
  if pelron then
    if key = Reg.CST_CFG ∨ key = Reg.CST_REPORT_BASE ∨ key = Reg.KST_MGMT_AUTH then some Fl.CTL_LOCK_cast_on
    else if key = Reg.PLB_MASTER_LOAD_LO ∨ key = Reg.PLB_MASTER_LOAD_HI ∨ key = Reg.PLB_IO_CFG then some Fl.CTL_LOCK_plumb
    else if key = Reg.ADM_RING_BASE then some Fl.CTL_LOCK_admission
    else if key = Reg.TEL_TENANT_RING ∨ key = Reg.TEL_METER_RING then some Fl.CTL_LOCK_tenant_rings
    else if key = Reg.MTR_RING_BASE then some Fl.CTL_LOCK_meter_ring
    else if key = Reg.MBX_A_CFG then some Fl.CTL_LOCK_mailboxes
    else none
  else if key = Reg.LKP_HOP_INIT ∨ key = Reg.LKP_REQ_TIMEOUT ∨ key = Reg.LKP_RSP_SPACE then some Fl.LKP_STATUS_locked
  else if key = Reg.PLB_WINDOW ∨ key = Reg.PLB_HOST_SKEW0 ∨ key = Reg.PLB_HOST_SKEW1 ∨ key = Reg.PLB_IO_CFG then
    some Fl.AGT_LOCK_plumb
  else if key = Reg.WCH_LIMIT then some Fl.AGT_LOCK_watch
  else if key = Reg.EVR_TIME_BASE then some Fl.AGT_LOCK_time_base
  else if key = Reg.MBX_A_CFG then some Fl.AGT_LOCK_mailboxes
  else none

/-- Whether a register's lock is set. -/
def Die.locked (d : Die) (key : Nat) : Bool :=
  match lockOf d.part.pelron key with
  | some f => decide (d.fget f = 1)
  | none => false

/-! ## Writes of plain registers -/

/-- Replace the writable bits of a register. -/
def Die.setMasked (d : Die) (key mask val : Nat) : Die :=
  d.set key ((d.get key &&& ~~~(BitVec.ofNat 64 mask)) ||| (BitVec.ofNat 64 val &&& BitVec.ofNat 64 mask))

/-- Write one field while its value lies in its range; a field outside its range is ignored (log entry 34). -/
def Die.ranged (d : Die) (key val hi lo low high : Nat) : Die :=
  let v := bitsOf val hi lo
  if v < low ∨ high < v then d else d.bset key hi lo v

/-- A write of a register of either part whose fields have ranges, or of a plain register. -/
def Die.plainWrite (d : Die) (key mask val : Nat) : Die :=
  if key = Reg.MBX_A_CFG then
    ((d.ranged key val 15 0 50 65535).ranged key val 19 16 1 15).ranged key val 24 20 1 16
  else if key = Reg.FDS_CFG then
    (((d.ranged key val 15 0 1000 65535).ranged key val 23 16 1 255).ranged key val 39 24 100 65535).ranged key val 55 40 10 65535
  else if key = Reg.MEM_CFG then
    ((d.ranged key val 7 0 1 255).ranged key val 15 8 1 255).bset key 16 16 (bitsOf val 16 16)
  else if key = Reg.KST_MGMT_AUTH then d.ranged key val 1 0 1 2
  else if key = Reg.LKP_HOP_INIT then d.ranged key val 5 0 8 63
  else if key = Reg.LKP_RSP_SPACE then d.ranged key val 19 0 34 1048575
  else d.setMasked key mask val

/-- Write a queue pair's configuration (R457, R472). -/
def Ctl.writeQpCfg (c : Ctl) (val : Nat) : Ctl :=
  let q := c.die.bget Reg.SKN_QP_SEL 9 0
  { c with qps := tset c.qps q { c.qp q with enable := bitOf val 0, port := bitsOf val 1 1, kind := bitsOf val 2 2 } }

/-- Write the asymmetry of the selected bond's link (R172, R188). -/
def Agt.writeAsym (a : Agt) (val : Nat) : Agt :=
  let b := a.die.bget Reg.PLB_LINK_SEL 7 0
  match tget a.fwd.bonds b with
  | none => a
  | some x =>
    let x : Bond := { x with link := { x.link with w := ofTwos 32 (bitsOf val 31 0), uw := bitsOf val 47 32 } }
    { a with fwd := { a.fwd with bonds := tset a.fwd.bonds b x } }

/-- Write the base of an agent's operating seconds (R438). -/
def Agt.writeTimeBase (a : Agt) (val : Nat) : Agt :=
  a.onDie fun d => { d with evr := { d.evr with secBase := bitsOf val 39 0, cycles := bitsOf val 63 40, based := true } }

/-- A write of an agent register that is no command register. -/
def Agt.plainWrite (a : Agt) (key mask val : Nat) : Agt :=
  if key = Reg.PLB_PARENT then a.writeParent val
  else if key = Reg.PLB_BOUND then a.writeBound val
  else if key = Reg.PLB_WINDOW then a.writeWindow val
  else if key = Reg.PLB_LINK_ASYM then a.writeAsym val
  else if key = Reg.EVR_TIME_BASE then a.writeTimeBase val
  else if key = Reg.AGT_VCORE then a.onDie (·.vcoreFloor val)
  else if key = Reg.LKP_REQ_TIMEOUT then a.onDie fun d => d.ranged key val 31 0 (2 * drainBound a.hopInit) (2 ^ 32 - 1)
  else a.onDie fun d => d.plainWrite key mask val

/-! ## Command registers: each bit is the command of its own row -/

/-- The state a command leaves. -/
def State.after (s : State) (r : Res) : State :=
  match r with
  | .next t => t
  | .fault _ | .refused _ => s

/-- Run a command where a bit is written 1. -/
def State.onBit (s : State) (val k : Nat) (f : State → Res) : State := if bitOf val k then s.after (f s) else s

/-- A write of a register that both parts have and that is a command or has an effect of its own; none for other registers. -/
def State.commonWrite (s : State) (pl : Place) (path : Path) (key val : Nat) : Option State :=
  let w := BitVec.ofNat 64 val
  let off := key % 0x10000
  if key = Reg.FLC_CTL then some (s.after (execEnterSafe pl w s))
  else if key = Reg.FLC_ALERT then some (s.after (execFlcAlertClear pl w s))
  else if key = Reg.FLC_INJECT then some (s.after (execFlcInject pl w s))
  else if key = Reg.EVR_CTL then some (s.onDie pl (·.evrCtl val))
  else if key = Reg.MBX_CTL then some (s.onBit val 0 (execMbxClearCounters pl))
  else if key = Reg.PAT_CTL then some ((s.onBit val 0 (execPatStart pl)).onBit val 1 (execPatAbort pl))
  else if key / 0x10000 = Blk.MBX ∧ normKey key = Reg.MBX_B_CMD then
    let c := (off - 0x1000) / 0x100
    some ((s.onBit val 0 (execMbxBSend pl c path)).onBit val 1 (execMbxBPop pl c path))
  else if key / 0x10000 = Blk.CVU then
    let u := off / 0x100
    if normKey key = Reg.CVU_CTL then some ((s.onBit val 0 (execCvuStart pl u w)).onBit val 1 (execCvuAbort pl u))
    else if normKey key = Reg.CVU_RUN then some (s.after (execCvuContextWrite pl u 0 w s))
    else if normKey key = Reg.CVU_COUNT then some (s.after (execCvuContextWrite pl u 1 w s))
    else none
  else none

/-- A write of the entry commands of the shard directory (R216). -/
def State.shdCmd (s : State) (val : Nat) : State :=
  let i := bitsOf val 21 0
  match bitsOf val 23 22 with
  | 0 => s.after (execShdRead i s)
  | 1 => s.after (execShdWrite i s)
  | 2 => s.after (execShdDelete i s)
  | _ => s

/-- A write of a controller register. -/
def State.ctlWrite (s : State) (path : Path) (key mask val : Nat) : State :=
  let w := BitVec.ofNat 64 val
  match s.commonWrite .ctl path key val with
  | some t => t
  | none =>
    if key = Reg.CST_CTL then (s.onBit val 4 (execCstRun w)).onBit val 5 execCstAbort
    else if key = Reg.KST_CTL then
      (((s.onBit val 0 execKstClearCounters).onBit val 1 execKstLoadCerts).onBit val 2 execKstEnrol).onBit val 3 (execRollbackCommit w)
    else if key = Reg.SOL_CTL then s.after (execSolTileEn w s)
    else if key = Reg.TEL_CTL then s.onBit val 0 execTelClearCounters
    else if key = Reg.TEL_CFG then s.after (execTelCfgWrite w s)
    else if key = Reg.PLB_CTL then s.onBit val 1 (execPlbClearCounters .ctl)
    else if key = Reg.PLB_MASTER_CTL then (s.after (execMasterModeWrite w s)).onBit val 8 execMasterLock
    else if key = Reg.PLB_MASTER_LOAD_HI then s.onCtl (·.masterLoadOver (some path) val)
    else if key = Reg.PLB_MASTER_RATE then s.after (execMasterRateWrite w s)
    else if key = Reg.MTR_CTL then
      ((s.onBit val 0 (execMeterLoadFw w)).onBit val 1 execMeterLoadPattern).onBit val 2 execMtrClearCounters
    else if key = Reg.MTR_RING_CONS then s.after (execMtrRingConsWrite w s)
    else if key = Reg.TEL_METER_CONS then s.onCtl (·.ringCons val)
    else if key = Reg.MBX_RMT_CMD then s.after (execMbxRmtGo w s)
    else if key = Reg.MEM_CTL then s.onBit val 0 execMemClearCounters
    else if key = Reg.SKN_CTL then s.onBit val 0 execSknClearCounters
    else if key = Reg.SKN_QP_CFG then s.onCtl (·.writeQpCfg val)
    else if key = Reg.MNP_CTL then (s.onBit val 0 execMnpClearCounters).onBit val 1 execMnpCloseAll
    else if key = Reg.MNP_CFG then s.after (execMnpSave w s)
    else if key = Reg.FAB_CTL then (s.onBit val 0 execFabClearCounters).onBit val 1 execFabRetrain
    else if key = Reg.RCV_CTL then (s.onBit val 1 execRcvClearCounters).onBit val 0 (execCtrlReset w)
    else if key = Reg.RCV_ROLE then s.after (execRoleActive w s)
    else if key = Reg.RCV_FUNC_REINIT then s.after (execFuncReinit w s)
    else if key = Reg.RCV_CMD then s.after (execRcvCmd w s)
    else if key = Reg.DMP_CTL then (s.onBit val 0 execDmpStart).onBit val 1 execDmpClearCounters
    else if key = Reg.GAU_CTL then s.onBit val 0 execGauClearCounters
    else if key = Reg.WER_CTL then s.onBit val 0 execWerClearCounters
    else if key = Reg.FDS_CTL then
      (((((s.onBit val 0 execFdsStage).onBit val 1 execFdsDistribute).onBit val 2 execFdsActivate).onBit val 3 execFdsCommit).onBit
        val 4 execFdsAbandon).onBit val 5 execFdsClearCounters
    else if key = Reg.SHD_CMD then s.shdCmd val
    else if key = Reg.ADM_CTL then
      ((s.onBit val 0 execAdmSubmit).onBit val 1 execAdmRelease).onBit val 2 execAdmClearCounters
    else if key = Reg.ADM_RING_CONS then s.after (execAdmRingConsWrite w s)
    else s.onCtl fun c => c.onDie fun d => d.plainWrite key mask val

/-- A write of an agent register. -/
def State.agtWrite (s : State) (w : Who) (path : Path) (key mask val : Nat) : State :=
  match s.commonWrite (.agt w) path key val with
  | some t => t
  | none =>
    if key = Reg.AGT_HIF_CTL then s.onBit val 0 (execAgtHifClearCounters w)
    else if key = Reg.LKP_CTL then (s.onBit val 0 (execLkpClearCounters w)).onBit val 1 (execLkpLock w)
    else if key = Reg.PRL_CTL then s.onBit val 0 (execPrlClearCounters w)
    else if key = Reg.GCM_CTL then s.onBit val 0 (execGcmClearCounters w)
    else if key = Reg.PLB_CTL then (s.onBit val 0 (execPlbReload w)).onBit val 1 (execPlbClearCounters (.agt w))
    else if key = Reg.MTP_CTL then s.onBit val 0 (execMtpClearCounters w)
    else if key = Reg.BLK_CTL then s.onBit val 0 (execBlkClearCounters w)
    else if key = Reg.LNK_CTL then (s.onBit val 0 (execLnkRetrain w)).onBit val 1 (execLnkClearCounters w)
    else if key = Reg.WCH_CTL then s.onBit val 0 (execWchClearCounters w)
    else if key = Reg.TRY_CTL then s.onBit val 0 (execTryClearCounters w)
    else s.onAgt w fun a => a.plainWrite key mask val

/-- A write of one 64-bit register. -/
def State.writeOne (s : State) (pl : Place) (path : Path) (key mask val : Nat) : State :=
  match pl with
  | .ctl => s.ctlWrite path key mask val
  | .agt w => s.agtWrite w path key mask val

/-! ## Class B registers (R471, R474) -/

/-- The channel of a class B register. -/
def chanOfKey (key : Nat) : Nat := (key % 0x10000 - 0x1000) / 0x100

/-- Whether a register is one of a channel's. -/
def isChanReg (key : Nat) : Bool := decide (key / 0x10000 = Blk.MBX ∧ 0x1000 ≤ key % 0x10000)

/-- Whether the master behind a path is one of a channel's. -/
def Die.boundTo (d : Die) (c : Nat) (path : Path) : Bool :=
  ((d.chan c).bind fun ch => ch.side d.part.pelron (masterOf path)).isSome

/-- Replace words of a master's staging. -/
def Die.stageB (d : Die) (c : Nat) (path : Path) (ws : List (Nat × Word)) : Die :=
  let v := d.viewB c (masterOf path)
  d.setViewB { v with staging := ws.foldl (fun l p => l.set p.1 p.2) v.staging }

/-! ## One access -/

/-- What a register reads now, with what the read itself does: PLB_TRIG_HI removes its entry (R188). -/
def State.readNow (s : State) (pl : Place) (path : Path) (key : Nat) : Word :=
  match pl with
  | .ctl => s.ctl.regNow s.emb path key
  | .agt w => (s.agt w).regNow path key

/-- Set the latch of a wide value over a path; without words it is gone. -/
def Die.setLatch (d : Die) (path : Path) (base : Nat) (ws : List (Nat × Word)) : Die :=
  let l := d.latches.filter fun x => !(x.path = path && x.base = base)
  { d with latches := if ws.isEmpty then l else l ++ [{ path := path, base := base, words := ws }] }

/-- The latched words of a wide value over a path. -/
def Die.latched (d : Die) (path : Path) (base : Nat) : List (Nat × Word) :=
  ((d.latches.find? fun x => x.path = path && x.base = base).map (·.words)).getD []

/-- A read with its latch (R13). -/
def State.readLatched (s : State) (pl : Place) (path : Path) (key : Nat) : State × Word :=
  match wideOf key with
  | none => (s, s.readNow pl path key)
  | some (base, n, i) =>
    if i = 0 then
      let ws := (List.range (n - 1)).map fun j => (base + 8 * (j + 1), s.readNow pl path (base + 8 * (j + 1)))
      (s.onDie pl (·.setLatch path base ws), s.readNow pl path key)
    else
      let ws := (s.die pl).latched path base
      let v := match ws.find? (·.1 = key) with
        | some p => p.2
        | none => s.readNow pl path key
      (s.onDie pl (·.setLatch path base (ws.filter (·.1 ≠ key))), v)

/-- A read of a defined register: the state, the status and the value. A read of FLC_INJECT outside test mode is logged (R444). -/
def State.readReg (s : State) (pl : Place) (path : Path) (key : Nat) : State × Nat × Word :=
  let d := s.die pl
  let blk := key / 0x10000
  if storageReg key ∧ d.blockFenced blk then (s.onDie pl (·.noteFenced blk), 4, 0)
  else
    let (s, v) := s.readLatched pl path key
    let s := if key = Reg.PLB_TRIG_HI then s.onDie pl fun d => { d with trig := d.trig.tail } else s
    let s := if key = Reg.FLC_INJECT ∧ !d.testEn then s.onDie pl (·.raise Ev.INJECT_DENIED) else s
    (s, 0, v)

/-- The words of a wide value that its highest word's write makes effective: held words of the path, and the word itself. -/
def Die.heldWords (d : Die) (path : Path) (base n : Nat) (top : Word) : List (Nat × Word) :=
  (List.range (n - 1)).filterMap (fun j =>
    (d.held.find? fun h => h.path = path && h.key = base + 8 * j).map fun h => (base + 8 * j, h.val))
  ++ [(base + 8 * (n - 1), top)]

/-- Hold the write of a lower word (R13). -/
def Die.hold (d : Die) (path : Path) (key : Nat) (val : Word) : Die :=
  { d with held := d.held.filter (fun h => !(h.path = path && h.key = key)) ++ [{ path := path, key := key, val := val }] }

/-- The writes held of a wide value over a path have taken effect. -/
def Die.dropHeld (d : Die) (path : Path) (base n : Nat) : Die :=
  { d with held := d.held.filter fun h => !(h.path = path && decide (base ≤ h.key) && decide (h.key < base + 8 * n)) }

/-- The write of a wide value's highest word. -/
def State.writeWide (s : State) (pl : Place) (path : Path) (key base n mask : Nat) (val : Word) : State :=
  if key = Reg.PLB_MASTER_LOAD_HI then s.writeOne pl path key mask val.toNat
  else
    let ws := (s.die pl).heldWords path base n val
    let s := s.onDie pl (·.dropHeld path base n)
    if isChanReg key then s.onDie pl (·.stageB (chanOfKey key) path (ws.map fun p => ((p.1 - base) / 8, p.2)))
    else ws.foldl (fun (s : State) p => s.writeOne pl path p.1 mask p.2.toNat) s

/-- The status of the access that wrote a command of class B. -/
def State.bStatus (s : State) (pl : Place) (path : Path) (key : Nat) : Nat :=
  let d := s.die pl
  if !d.boundTo (chanOfKey key) path then 7
  else if d.blockFenced Blk.MBX then 4 else if d.safe then 5 else 0

/-- A write of a defined register: the state and the status. A write during a check-value operation completes BUSY, to which R456
gives no byte: it is a free value (log entry 33). -/
def State.writeReg (s : State) (pl : Place) (path : Path) (r : RegRow) (key : Nat) (val : Word) : State × Nat :=
  let d := s.die pl
  let blk := key / 0x10000
  let cvu := key % 0x10000 / 0x100
  if isChanReg key ∧ normKey key = Reg.MBX_B_CMD then (s.writeOne pl path key r.mask val.toNat, s.bStatus pl path key)
  else if d.blockFenced blk ∨ (blk = Blk.CVU ∧ d.fenced Blk.CVU cvu) then (s.onDie pl (·.noteFenced blk), 4)
  else if key = Reg.CST_CTL ∧ d.safe then (s.writeOne pl path key r.mask val.toNat, 5)
  else if d.frozen blk then (s, 5)
  else if r.acc = .ro then (s, 0)
  else if r.acc = .rwl ∧ d.locked key then (s.onDie pl (·.raise (Ev.LOCKED_WRITE blk)), 3)
  else if isChanReg key ∧ !d.boundTo (chanOfKey key) path then
    (s.onDie pl (·.raise (Ev.WRITE_IGNORED Blk.MBX) (chanOfKey key)), 7)
  else if blk = Blk.CVU ∧ (normKey key = Reg.CVU_RUN ∨ normKey key = Reg.CVU_COUNT) ∧ d.cvuBusy cvu then
    (s.onDie pl fun d => d.freeVal.2, d.freeVal.1.toNat % 256)
  else match wideOf key with
    | some (base, n, i) =>
      if !heldUntil base then (s.writeOne pl path key r.mask val.toNat, 0)
      else if i + 1 < n then (s.onDie pl (·.hold path key val), 0)
      else (s.writeWide pl path key base n r.mask val, 0)
    | none => (s.writeOne pl path key r.mask val.toNat, 0)

/-- One access of the store registers of the Purl engine (R237). -/
def State.stoReg (s : State) (w : Who) (key : Nat) (wr : Option Word) : State × Nat × Word :=
  let r := (s.agt w).stoReach (decide (key = Reg.PRL_STO_ADDR)) wr
  (s.onAgt w fun a => (a.stoReach (decide (key = Reg.PRL_STO_ADDR)) wr).1, r.2.1, r.2.2)

/-- One access at an offset of a part's space over a path (R10, R456): a write carries a value. The state, the status of R456 and the
value read. -/
def State.access (s : State) (pl : Place) (path : Path) (off size : Nat) (wr : Option Word) : State × Nat × Word :=
  let d := s.die pl
  if size ≠ 8 ∨ off % 8 ≠ 0 then (s, 1, 0)
  else match d.part.keyAt off with
  | none => (s, 2, 0)
  | some key =>
    match d.part.row key with
    | none => (s, 2, 0)
    | some r =>
      match d.absentUnit key with
      | some inst => (s.onDie pl (·.raise (Ev.ABSENT_ACCESS (key / 0x10000)) inst), 0, 0)
      | none =>
        let sto : Bool := decide (key = Reg.PRL_STO_ADDR ∨ key = Reg.PRL_STO_DATA)
        match pl, sto, wr with
        | .agt w, true, _ => s.stoReg w key wr
        | _, _, some v =>
          let (s, st) := s.writeReg pl path r key v
          (s, st, 0)
        | _, _, none => s.readReg pl path key

/-- Whether a die takes accesses: it is powered and out of reset. -/
def State.alive (s : State) : Place → Bool
  | .ctl => s.ctl.running
  | .agt w => (s.agt w).pins.rstN

/-! ## Access entries (R456) -/

/-- An entry as it is returned. -/
def entryBytes (e : Access) (status : Nat) (value : Word) : Bytes :=
  le 4 e.offset ++ le 1 e.kind ++ le 1 status ++ le 2 0 ++ le 8 value.toNat

/-- Apply one entry: one access, or DENIED for a kind that is neither read nor write. `pre` is the status a path gives it unapplied. -/
def State.entry (s : State) (pl : Place) (path : Path) (pre : Option Nat) (e : Access) : State × Bytes :=
  match pre with
  | some st => (s, entryBytes e st 0)
  | none =>
    if 1 < e.kind then (s, entryBytes e 7 0)
    else
      let (s, st, v) := s.access pl path e.offset 8 (if e.kind = 1 then some e.value else none)
      (s, entryBytes e st (if e.kind = 1 then e.value else v))

/-- Apply entries in order. -/
def State.entries (s : State) (pl : Place) (path : Path) (pre : State → Access → Option Nat) (es : List Access) : State × Bytes :=
  es.foldl (fun (r : State × Bytes) e =>
    let x := r.1.entry pl path (pre r.1 e) e
    (x.1, r.2 ++ x.2)) (s, [])

/-- Whether an offset names a register that the host may write (R279). -/
def hostWritable (p : Part) (off : Nat) : Bool :=
  match p.keyAt off with
  | some k => k = Reg.LKP_RSP_SPACE || k = Reg.PLB_HOST_SKEW0 || k = Reg.PLB_HOST_SKEW1 || k = Reg.AGT_HIF_CTL
  | none => false

/-- Whether an offset is reachable before step 4 is DONE: CTL, CST and the MGMT_AUTH selection (R293). -/
def preludeOffset (p : Part) (off : Nat) : Bool :=
  match p.keyAt off with
  | some k => k / 0x10000 = Blk.CTL || k / 0x10000 = Blk.CST || k = Reg.KST_MGMT_AUTH
  | none => false

/-- The status that a Skein port gives an access unapplied, if it does: before step 4 anything else than the prelude is NO_SESSION, over
port 0; then NETWORK denies every access, and KEYSTONE needs a link session of an operator (R293, R455; log entry 33). -/
def Ctl.skeinGate (c : Ctl) (port off : Nat) : Option Nat :=
  let session := (c.port port).session
  let operator : Bool := match session with
    | some i => c.kst.conns.any fun x => x.port = port && x.session = i && x.mutualAuth && x.operator
    | none => false
  if !c.stepDone 4 then (if port = 0 && preludeOffset c.die.part off then none else some 6)
  else if !c.keystone then some 7
  else if session.isNone then some 6
  else if operator then none else some 7

/-- The same of the management network: the prelude before step 4, a session from then on (R293). -/
def Ctl.mortarGate (c : Ctl) (session off : Nat) : Option Nat :=
  if !c.stepDone 4 then (if preludeOffset c.die.part off then none else some 6)
  else if (c.mortarOf session).any (fun m => m.phase = 2) then none else some 6

/-- What a path from outside the module gives an access unapplied. -/
def State.pathGate (s : State) (pl : Place) (path : Path) (off : Nat) : Option Nat :=
  match pl, path with
  | .ctl, .skein port => s.ctl.skeinGate port off
  | .ctl, .mortar session => s.ctl.mortarGate session off
  | .agt w, .host => if hostWritable (s.agt w).die.part off then none else some 7
  | _, _ => none

/-! ## Single accesses -/

/-- REGISTER_WRITE (R12): a write over a path that may make it (R279, R293); its completion is emitted. -/
def execRegisterWrite (pl : Place) (path : Path) (off size : Nat) (val : Word) (s : State) : Res :=
  .next (if s.alive pl then
    let s := s.jtagAttach pl path
    let (t, st, _) := match s.pathGate pl path off with
      | some st => (s, st, 0)
      | none => s.access pl path off size (some val)
    t.onDie pl (·.emit (.access path st 0))
  else s)

/-- TRIG_READ (R188): a read of PLB_TRIG_HI over a path that may make it (R293). -/
def execTrigRead (pl : Place) (path : Path) (s : State) : Res :=
  .next (if s.alive pl then
    let s := s.jtagAttach pl path
    let (t, st, v) := match pl, s.pathGate pl path ((s.die pl).part.offOf Reg.PLB_TRIG_HI) with
      | .ctl, some st => (s, st, 0)
      | _, _ => s.readReg pl path Reg.PLB_TRIG_HI
    t.onDie pl (·.emit (.access path st v))
  else s)

/-! ## The host's accesses (R275, R279) -/

/-- REG_VALUE. Statuses of R456 that R275 has none for are free values, and so is the value that answers a write (log entry 33). -/
def Agt.regValue (a : Agt) (msgTag off st : Nat) (value : Option Word) : Agt :=
  let (v, d) : Word × Die := match value with
    | some v => (v, a.die)
    | none => a.die.freeVal
  let a : Agt := { a with die := d }
  let body := le 4 off ++ le 4 0 ++ le 8 v.toNat
  if st = 0 then a.msg 0x89 0 msgTag body
  else if st = 3 then (a.count Reg.AGT_CNT_MSG_DENIED).msg 0x89 4 msgTag body
  else
    let (v, d) := a.die.freeVal
    ({ a with die := d } : Agt).msg 0x89 (v.toNat % 256) msgTag body

/-- A host access that is refused with a status of R275. -/
def Agt.refuseReg (a : Agt) (msgTag off st : Nat) (value : Option Word) : Agt :=
  let (v, d) : Word × Die := match value with
    | some v => (v, a.die)
    | none => a.die.freeVal
  let a : Agt := { a with die := d }
  (a.count Reg.AGT_CNT_MSG_DENIED).msg 0x89 st msgTag (le 4 off ++ le 4 0 ++ le 8 v.toNat)

/-- Whether a host message reaches the agent: it is out of reset and its control module is not FENCED (R266, R286). -/
def Agt.hearing (a : Agt) : Bool := a.pins.rstN && a.control.isSome

/-- REG_READ. -/
def State.hostRead (s : State) (w : Who) (msgTag off : Nat) : State :=
  let s := s.onAgt w (·.hears id)
  if 0x100000 ≤ off then s.onAgt w fun a => a.refuseReg msgTag off 1 (some 0)
  else
    let (t, st, v) := s.access (.agt w) .host off 8 none
    t.onAgt w fun a => a.regValue msgTag off st (some v)

/-- REG_READ. -/
def execRegRead (w : Who) (msgTag off : Nat) (s : State) : Res := .next (if (s.agt w).hearing then s.hostRead w msgTag off else s)

/-- REG_WRITE: one of the permitted registers; any other write is answered with DENIED. -/
def State.hostWrite (s : State) (w : Who) (msgTag off : Nat) (val : Word) : State :=
  let s := s.onAgt w (·.hears id)
  if 0x100000 ≤ off then s.onAgt w fun a => a.refuseReg msgTag off 1 none
  else if !hostWritable (s.agt w).die.part off then s.onAgt w fun a => a.refuseReg msgTag off 2 none
  else
    let (t, st, _) := s.access (.agt w) .host off 8 (some val)
    t.onAgt w fun a => a.regValue msgTag off st none

/-- REG_WRITE. -/
def execRegWrite (w : Who) (msgTag off : Nat) (val : Word) (s : State) : Res :=
  .next (if (s.agt w).hearing then s.hostWrite w msgTag off val else s)

/-! ## Skein (R293, R382, R455, R456) -/

/-- REG_REQ. A port other than 0 takes none without a link session before step 4 (R455), and one beyond the 64 whose answers have not
left is discarded (R456). -/
def State.regReq (s : State) (h : FrameHdr) (ents : List Access) : State :=
  let ok := (s.ctl.frameIn h).2
  let s := s.onCtl fun c => (c.frameIn h).1
  if !ok ∨ ents.isEmpty ∨ 256 < ents.length ∨ 64 ≤ ((s.ctl.port h.port).waiting.filter (·.ftype = 4)).length then s
  else if (s.ctl.port h.port).session.isNone ∧ !s.ctl.stepDone 4 ∧ h.port ≠ 0 then s.onCtl fun c => c.onDie (·.count Reg.SKN_CNT_PLAIN_DISCARD)
  else
    let (t, bs) := s.entries .ctl (.skein h.port) (fun s e => s.ctl.skeinGate h.port e.offset) ents
    t.onCtl fun c => c.sendFrame h.port (txFrame 4 0 h.id 0 bs)

/-- REG_REQ. -/
def execRegReq (h : FrameHdr) (ents : List Access) (s : State) : Res := .next (if s.ctl.running then s.regReq h ents else s)

/-! ## Mortar (R461, R462) -/

/-- MORTAR_REG: the entries of a record in an open session, returned completed. -/
def State.mortarReg (s : State) (session sequence : Nat) (intact : Bool) (ents : List Access) : State :=
  let m := (s.ctl.mortarIn session sequence intact).2
  let s := s.onCtl fun c => (c.mortarIn session sequence intact).1
  if m.isNone ∨ 256 < ents.length then s
  else
    let (t, bs) := s.entries .ctl (.mortar session) (fun _ _ => none) ents
    t.onCtl fun c => match c.mortarOf session with
      | some m => c.mortarSend m 0x10 bs
      | none => c

/-- MORTAR_REG. -/
def execMortarReg (session sequence : Nat) (intact : Bool) (ents : List Access) (s : State) : Res :=
  .next (if s.ctl.running then s.mortarReg session sequence intact ents else s)

/-- PRELUDE_REG: plaintext entries of a connection before step 4; from then on it closes the connection. -/
def State.preludeReg (s : State) (session : Nat) (ents : List Access) : State :=
  match s.ctl.mortarOf session with
  | none => s
  | some m =>
    if s.ctl.stepDone 4 ∨ m.phase = 2 then s.onCtl fun c => c.closeMortar session
    else if 256 < ents.length then s
    else
      let (t, bs) := s.entries .ctl (.mortar session) (fun s e => s.ctl.mortarGate session e.offset) ents
      t.onCtl fun c => match c.mortarOf session with
        | some m => c.mortarSend m 0x20 bs
        | none => c

/-- PRELUDE_REG. -/
def execPreludeReg (session : Nat) (ents : List Access) (s : State) : Res :=
  .next (if s.ctl.running then s.preludeReg session ents else s)

/-! ## Management operations at an agent (R470) -/

/-- The access entries of a request. -/
def requestEntries (p : Bytes) : List Access :=
  ((chunksOf 16 (byteAt p 4) (p.drop 16)).filter (·.length = 16)).map fun b =>
    { offset := fieldAt b 0 4, kind := byteAt b 4, size := 8, value := BitVec.ofNat 64 (fieldAt b 8 8) }

/-- Keep a response: the last 16 op_ids of a controller FID. -/
def Agt.keepMgmt (a : Agt) (k : MgmtKept) : Agt :=
  let mine := a.mgmt.filter (·.fid = k.fid)
  let rest := match mine with
    | x :: _ => if 16 ≤ mine.length then removeFirst (· = x) a.mgmt else a.mgmt
    | [] => a.mgmt
  { a with mgmt := rest ++ [k] }

/-- Send a response to the FID of the request's mark. -/
def Agt.sendResponse (a : Agt) (fid : Nat) (p : Bytes) : Agt :=
  a.onDie fun d => d.sendFwd
    { dst := fid, op := 0x85, mcast := 0, root := 0, bond := 0xFF, operand := [], payload := p,
      block := d.part.blockIndex Blk.MBX, privilege := 1 }

/-- MGMT_OP: a request at an agent. A repeated op_id gets the kept response and changes nothing. -/
def State.mgmtOp (s : State) (w : Who) (wm : Worm) : State :=
  let a := s.agt w
  let fid := markFid (wormMark wm)
  let p := wm.payload
  if bitOf (byteAt p 5) 0 then s
  else if markPriv (wormMark wm) ≠ 2 then s.onAgt w fun a => a.onDie Die.markDenied
  else match a.mgmt.find? fun k => k.fid = fid && k.opId = fieldAt p 0 4 with
    | some k => s.onAgt w fun a => a.sendResponse fid k.response
    | none =>
      let es := requestEntries p
      if es.isEmpty ∨ 64 < byteAt p 4 then s
      else
        let (t, bs) := s.entries (.agt w) (.mgmt fid) (fun _ _ => none) es
        let resp := le 4 (fieldAt p 0 4) ++ le 1 es.length ++ le 1 1 ++ le 10 0 ++ bs
        t.onAgt w fun a =>
          (a.keepMgmt { fid := fid, opId := fieldAt p 0 4, response := resp }).sendResponse fid resp

/-- MGMT_OP. -/
def execMgmtOp (w : Who) (_inBond : Nat) (wm : Worm) (s : State) : Res := .next (if (s.agt w).pins.rstN then s.mgmtOp w wm else s)

end Sys2Proof.Machine
end

