-- ==== Sys2Proof/Machine/Dispatch.lean ====
section
/-! DEFINITION. One arm per command: its meaning. -/

namespace Sys2Proof.Machine

/-- What a command does to everything but the queue of waiting commands. -/
def exec (i : Instr) (s : State) : Host.Outcome State Fault Refusal :=
  match i with
  | .registerWrite pl path off size val => Sys2Proof.Machine.execRegisterWrite pl path off size val s
  | .agentResetDeassert w modeSel testEn => Sys2Proof.Machine.execAgentResetDeassert w modeSel testEn s
  | .agentResetAssert w => Sys2Proof.Machine.execAgentResetAssert w s
  | .pwrgdFall w => Sys2Proof.Machine.execPwrgdFall w s
  | .selfTestDone w r => Sys2Proof.Machine.execSelfTestDone w r s
  | .ucieModuleFail w module => Sys2Proof.Machine.execUcieModuleFail w module s
  | .laneTrainDone w lane src cls eyeH eyeW settings => Sys2Proof.Machine.execLaneTrainDone w lane src cls eyeH eyeW settings s
  | .laneRetrainTimer w lane => Sys2Proof.Machine.execLaneRetrainTimer w lane s
  | .laneRejoin w lane => Sys2Proof.Machine.execLaneRejoin w lane s
  | .laneLoss w lane => Sys2Proof.Machine.execLaneLoss w lane s
  | .identityBlock w lane blk => Sys2Proof.Machine.execIdentityBlock w lane blk s
  | .neighbourReport fid lanes blk => Sys2Proof.Machine.execNeighbourReport fid lanes blk s
  | .keyEncaps w inBond wm => Sys2Proof.Machine.execKeyEncaps w inBond wm s
  | .nameResultTimeout dieId => Sys2Proof.Machine.execNameResultTimeout dieId s
  | .trainSave fid ents => Sys2Proof.Machine.execTrainSave fid ents s
  | .lnkRetrain w => Sys2Proof.Machine.execLnkRetrain w s
  | .lnkClearCounters w => Sys2Proof.Machine.execLnkClearCounters w s
  | .fabRetrain => Sys2Proof.Machine.execFabRetrain s
  | .fabClearCounters => Sys2Proof.Machine.execFabClearCounters s
  | .patStart pl => Sys2Proof.Machine.execPatStart pl s
  | .patAbort pl => Sys2Proof.Machine.execPatAbort pl s
  | .patternData w inBond wm => Sys2Proof.Machine.execPatternData w inBond wm s
  | .patternStreamAbandon w => Sys2Proof.Machine.execPatternStreamAbandon w s
  | .patternStaged pl => Sys2Proof.Machine.execPatternStaged pl s
  | .patternActivate pl => Sys2Proof.Machine.execPatternActivate pl s
  | .epochSlotFree w => Sys2Proof.Machine.execEpochSlotFree w s
  | .lookupRequest w inBond wm syndrome noOutput mcastLost => Sys2Proof.Machine.execLookupRequest w inBond wm syndrome noOutput mcastLost s
  | .errorQueueSend w taken => Sys2Proof.Machine.execErrorQueueSend w taken s
  | .rxWorm w inBond wm busy => Sys2Proof.Machine.execRxWorm w inBond wm busy s
  | .inject w wm reqTag retry unitsOk busy => Sys2Proof.Machine.execInject w wm reqTag retry unitsOk busy s
  | .reqInjectDeferred w busy => Sys2Proof.Machine.execReqInjectDeferred w busy s
  | .requestTimeout w reqTag => Sys2Proof.Machine.execRequestTimeout w reqTag s
  | .injStallInterval w cls => Sys2Proof.Machine.execInjStallInterval w cls s
  | .presentStart w cls => Sys2Proof.Machine.execPresentStart w cls s
  | .accept w cls => Sys2Proof.Machine.execAccept w cls s
  | .acceptLate w cls => Sys2Proof.Machine.execAcceptLate w cls s
  | .slotHold w course slot lead => Sys2Proof.Machine.execSlotHold w course slot lead s
  | .mirrorAck w copy first count => Sys2Proof.Machine.execMirrorAck w copy first count s
  | .lkpLock w => Sys2Proof.Machine.execLkpLock w s
  | .lkpClearCounters w => Sys2Proof.Machine.execLkpClearCounters w s
  | .rspSpaceReturn w flits => Sys2Proof.Machine.execRspSpaceReturn w flits s
  | .cgRead w msgTag group => Sys2Proof.Machine.execCgRead w msgTag group s
  | .cgArm w msgTag group targetWorms targetBytes => Sys2Proof.Machine.execCgArm w msgTag group targetWorms targetBytes s
  | .cgClear w msgTag group => Sys2Proof.Machine.execCgClear w msgTag group s
  | .reqRelease w msgTag reqTag => Sys2Proof.Machine.execReqRelease w msgTag reqTag s
  | .heartbeat w timer => Sys2Proof.Machine.execHeartbeat w timer s
  | .progress w timer engine => Sys2Proof.Machine.execProgress w timer engine s
  | .msrExtend w msgTag register partition kind digest => Sys2Proof.Machine.execMsrExtend w msgTag register partition kind digest s
  | .regRead w msgTag off => Sys2Proof.Machine.execRegRead w msgTag off s
  | .regWrite w msgTag off val => Sys2Proof.Machine.execRegWrite w msgTag off val s
  | .phyResult w val => Sys2Proof.Machine.execPhyResult w val s
  | .memdata w tag data => Sys2Proof.Machine.execMemdata w tag data s
  | .resetDone w level target result => Sys2Proof.Machine.execResetDone w level target result s
  | .hostReady w => Sys2Proof.Machine.execHostReady w s
  | .hostCounts w window first ents late => Sys2Proof.Machine.execHostCounts w window first ents late s
  | .unknownMessage w mtype msgTag => Sys2Proof.Machine.execUnknownMessage w mtype msgTag s
  | .agtHifClearCounters w => Sys2Proof.Machine.execAgtHifClearCounters w s
  | .probeSend w => Sys2Proof.Machine.execProbeSend w s
  | .probeReceive w bond wm t2 => Sys2Proof.Machine.execProbeReceive w bond wm t2 s
  | .linkSettled w bond => Sys2Proof.Machine.execLinkSettled w bond s
  | .parentLoss w => Sys2Proof.Machine.execParentLoss w s
  | .holdoverExpire w => Sys2Proof.Machine.execHoldoverExpire w s
  | .plbReload w => Sys2Proof.Machine.execPlbReload w s
  | .plbClearCounters pl => Sys2Proof.Machine.execPlbClearCounters pl s
  | .plbParentWrite w val => Sys2Proof.Machine.execPlbParentWrite w val s
  | .masterModeWrite val => Sys2Proof.Machine.execMasterModeWrite val s
  | .masterLock => Sys2Proof.Machine.execMasterLock s
  | .masterLoad val => Sys2Proof.Machine.execMasterLoad val s
  | .masterRateWrite val => Sys2Proof.Machine.execMasterRateWrite val s
  | .triggerEdge pl stamp => Sys2Proof.Machine.execTriggerEdge pl stamp s
  | .trigRead pl path => Sys2Proof.Machine.execTrigRead pl path s
  | .courseMark pl course => Sys2Proof.Machine.execCourseMark pl course s
  | .injectRunLaunch w course slot outBond collective => Sys2Proof.Machine.execInjectRunLaunch w course slot outBond collective s
  | .emitRunSelect w course slot outBond collective queuedInput => Sys2Proof.Machine.execEmitRunSelect w course slot outBond collective queuedInput s
  | .emitRunLaunch w course slot outBond collective => Sys2Proof.Machine.execEmitRunLaunch w course slot outBond collective s
  | .purlInput w inBond course slot wm => Sys2Proof.Machine.execPurlInput w inBond course slot wm s
  | .purlRangeStart w collective => Sys2Proof.Machine.execPurlRangeStart w collective s
  | .purlLaneFence w lane => Sys2Proof.Machine.execPurlLaneFence w lane s
  | .prlStoAccess w path val => Sys2Proof.Machine.execPrlStoAccess w path val s
  | .prlClearCounters w => Sys2Proof.Machine.execPrlClearCounters w s
  | .solverFullTask => Sys2Proof.Machine.execSolverFullTask s
  | .solverFailureTask => Sys2Proof.Machine.execSolverFailureTask s
  | .solverReleaseTask => Sys2Proof.Machine.execSolverReleaseTask s
  | .admissionTask => Sys2Proof.Machine.execAdmissionTask s
  | .compileTask => Sys2Proof.Machine.execCompileTask s
  | .plumbTreeTask => Sys2Proof.Machine.execPlumbTreeTask s
  | .shardTask => Sys2Proof.Machine.execShardTask s
  | .taskPreempt => Sys2Proof.Machine.execTaskPreempt s
  | .tileFence tile => Sys2Proof.Machine.execTileFence tile s
  | .solTileEn val => Sys2Proof.Machine.execSolTileEn val s
  | .solClearCounters => Sys2Proof.Machine.execSolClearCounters s
  | .shdRead index => Sys2Proof.Machine.execShdRead index s
  | .shdWrite index => Sys2Proof.Machine.execShdWrite index s
  | .shdDelete index => Sys2Proof.Machine.execShdDelete index s
  | .shardReady fid partition model granule digest => Sys2Proof.Machine.execShardReady fid partition model granule digest s
  | .admSubmit => Sys2Proof.Machine.execAdmSubmit s
  | .admRelease => Sys2Proof.Machine.execAdmRelease s
  | .admClearCounters => Sys2Proof.Machine.execAdmClearCounters s
  | .admRingConsWrite val => Sys2Proof.Machine.execAdmRingConsWrite val s
  | .failover fid bond farFid time => Sys2Proof.Machine.execFailover fid bond farFid time s
  | .restoredBondTimer => Sys2Proof.Machine.execRestoredBondTimer s
  | .watchExpire w timer => Sys2Proof.Machine.execWatchExpire w timer s
  | .recoveryCmd w level target flags => Sys2Proof.Machine.execRecoveryCmd w level target flags s
  | .recoveryLevelTimeout w => Sys2Proof.Machine.execRecoveryLevelTimeout w s
  | .trayAck w => Sys2Proof.Machine.execTrayAck w s
  | .bindOffDrainComplete w => Sys2Proof.Machine.execBindOffDrainComplete w s
  | .dumpBlockTimeout pl block => Sys2Proof.Machine.execDumpBlockTimeout pl block s
  | .dumpComplete pl => Sys2Proof.Machine.execDumpComplete pl s
  | .chunkXfer wm => Sys2Proof.Machine.execChunkXfer wm s
  | .chunkFetch w sequence count bitmap => Sys2Proof.Machine.execChunkFetch w sequence count bitmap s
  | .chunkAck w sequence => Sys2Proof.Machine.execChunkAck w sequence s
  | .wchClearCounters w => Sys2Proof.Machine.execWchClearCounters w s
  | .rcvCmd val => Sys2Proof.Machine.execRcvCmd val s
  | .recoveryReport fid level target result origin dumpSeq => Sys2Proof.Machine.execRecoveryReport fid level target result origin dumpSeq s
  | .recoveryReportTimeout => Sys2Proof.Machine.execRecoveryReportTimeout s
  | .funcReinit val => Sys2Proof.Machine.execFuncReinit val s
  | .funcReinitTimeout block => Sys2Proof.Machine.execFuncReinitTimeout block s
  | .funcHung block => Sys2Proof.Machine.execFuncHung block s
  | .ctrlReset val => Sys2Proof.Machine.execCtrlReset val s
  | .rcvClearCounters => Sys2Proof.Machine.execRcvClearCounters s
  | .roleActive val => Sys2Proof.Machine.execRoleActive val s
  | .mirrorSend => Sys2Proof.Machine.execMirrorSend s
  | .dmpStart => Sys2Proof.Machine.execDmpStart s
  | .dmpClearCounters => Sys2Proof.Machine.execDmpClearCounters s
  | .cstRun val => Sys2Proof.Machine.execCstRun val s
  | .cstAbort => Sys2Proof.Machine.execCstAbort s
  | .cstStepComplete code detail fully ms defects found => Sys2Proof.Machine.execCstStepComplete code detail fully ms defects found s
  | .cstStepTimeout ms unaligned => Sys2Proof.Machine.execCstStepTimeout ms unaligned s
  | .discoveryQuiet found => Sys2Proof.Machine.execDiscoveryQuiet found s
  | .telemetryRecordSend w window => Sys2Proof.Machine.execTelemetryRecordSend w window s
  | .telemetryRecord fid rec => Sys2Proof.Machine.execTelemetryRecord fid rec s
  | .mapClose => Sys2Proof.Machine.execMapClose s
  | .tenantWindowEnd window => Sys2Proof.Machine.execTenantWindowEnd window s
  | .telCfgWrite val => Sys2Proof.Machine.execTelCfgWrite val s
  | .telConfigChange pl => Sys2Proof.Machine.execTelConfigChange pl s
  | .telClearCounters => Sys2Proof.Machine.execTelClearCounters s
  | .healthSample pl h => Sys2Proof.Machine.execHealthSample pl h s
  | .gaugeMeasure pl region dMeas mv temp => Sys2Proof.Machine.execGaugeMeasure pl region dMeas mv temp s
  | .gaugeExceedExit pl region => Sys2Proof.Machine.execGaugeExceedExit pl region s
  | .gaugeReport fid region delay ratio exceed => Sys2Proof.Machine.execGaugeReport fid region delay ratio exceed s
  | .wearSampleTake pl ents => Sys2Proof.Machine.execWearSampleTake pl ents s
  | .wearSample fid dieId ents => Sys2Proof.Machine.execWearSample fid dieId ents s
  | .werClearCounters => Sys2Proof.Machine.execWerClearCounters s
  | .gauClearCounters => Sys2Proof.Machine.execGauClearCounters s
  | .kstLoadCerts => Sys2Proof.Machine.execKstLoadCerts s
  | .kstEnrol => Sys2Proof.Machine.execKstEnrol s
  | .rollbackCommit val => Sys2Proof.Machine.execRollbackCommit val s
  | .kstClearCounters => Sys2Proof.Machine.execKstClearCounters s
  | .getVersion c => Sys2Proof.Machine.execGetVersion c s
  | .getCapabilities c version flags => Sys2Proof.Machine.execGetCapabilities c version flags s
  | .negotiateAlgorithms c version algs => Sys2Proof.Machine.execNegotiateAlgorithms c version algs s
  | .getDigests c => Sys2Proof.Machine.execGetDigests c s
  | .getCertificate c slot offset length => Sys2Proof.Machine.execGetCertificate c slot offset length s
  | .challenge c nonce => Sys2Proof.Machine.execChallenge c nonce s
  | .getMeasurements c block signed nonce => Sys2Proof.Machine.execGetMeasurements c block signed nonce s
  | .keyExchange c reqSession ek => Sys2Proof.Machine.execKeyExchange c reqSession ek s
  | .finish c session chain signature verify => Sys2Proof.Machine.execFinish c session chain signature verify s
  | .keyUpdate c session tagOp => Sys2Proof.Machine.execKeyUpdate c session tagOp s
  | .spdmHeartbeat c session => Sys2Proof.Machine.execSpdmHeartbeat c session s
  | .spdmHeartbeatSend port => Sys2Proof.Machine.execSpdmHeartbeatSend port s
  | .endSession c session => Sys2Proof.Machine.execEndSession c session s
  | .chunkSend c handle seq last data => Sys2Proof.Machine.execChunkSend c handle seq last data s
  | .chunkGet c handle seq => Sys2Proof.Machine.execChunkGet c handle seq s
  | .unsupportedRequest c code => Sys2Proof.Machine.execUnsupportedRequest c code s
  | .keyDeliver c session key use flags member => Sys2Proof.Machine.execKeyDeliver c session key use flags member s
  | .keyDestroy c session keyId => Sys2Proof.Machine.execKeyDestroy c session keyId s
  | .fabricReport c session nonce => Sys2Proof.Machine.execFabricReport c session nonce s
  | .partitionReport c session tag nonce => Sys2Proof.Machine.execPartitionReport c session tag nonce s
  | .operatorKeys c session op key => Sys2Proof.Machine.execOperatorKeys c session op key s
  | .keyWrap w inBond wm => Sys2Proof.Machine.execKeyWrap w inBond wm s
  | .keyResult fid slot status wrapCounter => Sys2Proof.Machine.execKeyResult fid slot status wrapCounter s
  | .keySlotUnusedTimeout w slot => Sys2Proof.Machine.execKeySlotUnusedTimeout w slot s
  | .keySlotRetire w slot => Sys2Proof.Machine.execKeySlotRetire w slot s
  | .rekey tag => Sys2Proof.Machine.execRekey tag s
  | .keyExpire w slot => Sys2Proof.Machine.execKeyExpire w slot s
  | .gcmClearCounters w => Sys2Proof.Machine.execGcmClearCounters w s
  | .measureReq w nonce mask => Sys2Proof.Machine.execMeasureReq w nonce mask s
  | .measureReport fid register agentState lastSeq extendSeq nonce value tag => Sys2Proof.Machine.execMeasureReport fid register agentState lastSeq extendSeq nonce value tag s
  | .measureTimeout fid => Sys2Proof.Machine.execMeasureTimeout fid s
  | .debugAttach pl => Sys2Proof.Machine.execDebugAttach pl s
  | .meterLoadFw val => Sys2Proof.Machine.execMeterLoadFw val s
  | .meterLoadPattern => Sys2Proof.Machine.execMeterLoadPattern s
  | .mtrClearCounters => Sys2Proof.Machine.execMtrClearCounters s
  | .meterStart => Sys2Proof.Machine.execMeterStart s
  | .meterEncaps w inBond wm => Sys2Proof.Machine.execMeterEncaps w inBond wm s
  | .meterEncapsRetry => Sys2Proof.Machine.execMeterEncapsRetry s
  | .tapIntervalRecord w interval energy => Sys2Proof.Machine.execTapIntervalRecord w interval energy s
  | .meterTap wm => Sys2Proof.Machine.execMeterTap wm s
  | .meterIntervalClose interval energy => Sys2Proof.Machine.execMeterIntervalClose interval energy s
  | .meterOpen tag inst course => Sys2Proof.Machine.execMeterOpen tag inst course s
  | .meterClose tag inst course => Sys2Proof.Machine.execMeterClose tag inst course s
  | .meterBatchClose => Sys2Proof.Machine.execMeterBatchClose s
  | .meterBatchSigned => Sys2Proof.Machine.execMeterBatchSigned s
  | .mtrRingConsWrite val => Sys2Proof.Machine.execMtrRingConsWrite val s
  | .mtpClearCounters w => Sys2Proof.Machine.execMtpClearCounters w s
  | .eventRaise pl code inst => Sys2Proof.Machine.execEventRaise pl code inst s
  | .snapshotComplete pl => Sys2Proof.Machine.execSnapshotComplete pl s
  | .snapshotReadTimeout pl index => Sys2Proof.Machine.execSnapshotReadTimeout pl index s
  | .faultReport pl block inst => Sys2Proof.Machine.execFaultReport pl block inst s
  | .enterSafe pl val => Sys2Proof.Machine.execEnterSafe pl val s
  | .flcSelfCheck pl mismatch => Sys2Proof.Machine.execFlcSelfCheck pl mismatch s
  | .flcInject pl val => Sys2Proof.Machine.execFlcInject pl val s
  | .flcInjectTick pl => Sys2Proof.Machine.execFlcInjectTick pl s
  | .flcAlertClear pl val => Sys2Proof.Machine.execFlcAlertClear pl val s
  | .flcClearCounters pl => Sys2Proof.Machine.execFlcClearCounters pl s
  | .evrRetainedClear val => Sys2Proof.Machine.execEvrRetainedClear val s
  | .evrClearCounters pl => Sys2Proof.Machine.execEvrClearCounters pl s
  | .eventRecord wm => Sys2Proof.Machine.execEventRecord wm s
  | .evrFetch w first count => Sys2Proof.Machine.execEvrFetch w first count s
  | .fallbackCopy pl => Sys2Proof.Machine.execFallbackCopy pl s
  | .opsecSave => Sys2Proof.Machine.execOpsecSave s
  | .agentOpsecSave dieId opsec => Sys2Proof.Machine.execAgentOpsecSave dieId opsec s
  | .skeinLinkUp port lanes => Sys2Proof.Machine.execSkeinLinkUp port lanes s
  | .skeinLinkFrame h => Sys2Proof.Machine.execSkeinLinkFrame h s
  | .regReq h ents => Sys2Proof.Machine.execRegReq h ents s
  | .doorbell h ents => Sys2Proof.Machine.execDoorbell h ents s
  | .qpWrite qp => Sys2Proof.Machine.execQpWrite qp s
  | .qpRead qp => Sys2Proof.Machine.execQpRead qp s
  | .mirrorOut qp => Sys2Proof.Machine.execMirrorOut qp s
  | .mirrorIn qp rec => Sys2Proof.Machine.execMirrorIn qp rec s
  | .skeinData h data => Sys2Proof.Machine.execSkeinData h data s
  | .qpWriteTimeout qp wrId => Sys2Proof.Machine.execQpWriteTimeout qp wrId s
  | .sknClearCounters => Sys2Proof.Machine.execSknClearCounters s
  | .mortarConnect => Sys2Proof.Machine.execMortarConnect s
  | .clientHello session chain ek nonce => Sys2Proof.Machine.execClientHello session chain ek nonce s
  | .clientFinish session signature => Sys2Proof.Machine.execClientFinish session signature s
  | .mortarHandshakeTimeout session => Sys2Proof.Machine.execMortarHandshakeTimeout session s
  | .mortarReg session sequence intact ents => Sys2Proof.Machine.execMortarReg session sequence intact ents s
  | .mortarMemWrite session sequence intact addr data => Sys2Proof.Machine.execMortarMemWrite session sequence intact addr data s
  | .mortarMemRead session sequence intact addr length => Sys2Proof.Machine.execMortarMemRead session sequence intact addr length s
  | .mortarKeepalive session sequence intact => Sys2Proof.Machine.execMortarKeepalive session sequence intact s
  | .mortarClose session sequence intact => Sys2Proof.Machine.execMortarClose session sequence intact s
  | .preludeReg session ents => Sys2Proof.Machine.execPreludeReg session ents s
  | .mortarIdleTimeout session => Sys2Proof.Machine.execMortarIdleTimeout session s
  | .mnpCloseAll => Sys2Proof.Machine.execMnpCloseAll s
  | .mnpSave val => Sys2Proof.Machine.execMnpSave val s
  | .mnpClearCounters => Sys2Proof.Machine.execMnpClearCounters s
  | .mbxA pl wm room => Sys2Proof.Machine.execMbxA pl wm room s
  | .mbxASend pl peer mtype flags body => Sys2Proof.Machine.execMbxASend pl peer mtype flags body s
  | .mbxAck pl wm => Sys2Proof.Machine.execMbxAck pl wm s
  | .mbxARetry pl peer seq => Sys2Proof.Machine.execMbxARetry pl peer seq s
  | .relay w inBond wm room => Sys2Proof.Machine.execRelay w inBond wm room s
  | .patternProgress fid stream next => Sys2Proof.Machine.execPatternProgress fid stream next s
  | .mgmtOp w inBond wm => Sys2Proof.Machine.execMgmtOp w inBond wm s
  | .mgmtOpResponse wm => Sys2Proof.Machine.execMgmtOpResponse wm s
  | .mgmtOpTimeout => Sys2Proof.Machine.execMgmtOpTimeout s
  | .mbxRmtGo val => Sys2Proof.Machine.execMbxRmtGo val s
  | .mbxBSend pl channel master => Sys2Proof.Machine.execMbxBSend pl channel master s
  | .mbxBPop pl channel master => Sys2Proof.Machine.execMbxBPop pl channel master s
  | .mbxClearCounters pl => Sys2Proof.Machine.execMbxClearCounters pl s
  | .narrowWrite addr data => Sys2Proof.Machine.execNarrowWrite addr data s
  | .mergeWriteback codeword => Sys2Proof.Machine.execMergeWriteback codeword s
  | .scrubRead errs => Sys2Proof.Machine.execScrubRead errs s
  | .rowSpare channel row => Sys2Proof.Machine.execRowSpare channel row s
  | .memClearCounters => Sys2Proof.Machine.execMemClearCounters s
  | .cvuStart pl unit val => Sys2Proof.Machine.execCvuStart pl unit val s
  | .cvuAbort pl unit => Sys2Proof.Machine.execCvuAbort pl unit s
  | .cvuComplete pl unit => Sys2Proof.Machine.execCvuComplete pl unit s
  | .cvuContextWrite pl unit reg val => Sys2Proof.Machine.execCvuContextWrite pl unit reg val s
  | .fdsStage => Sys2Proof.Machine.execFdsStage s
  | .fdsDistribute => Sys2Proof.Machine.execFdsDistribute s
  | .fdsActivate => Sys2Proof.Machine.execFdsActivate s
  | .fdsCommit => Sys2Proof.Machine.execFdsCommit s
  | .fdsAbandon => Sys2Proof.Machine.execFdsAbandon s
  | .fdsClearCounters => Sys2Proof.Machine.execFdsClearCounters s
  | .fwPassChunk => Sys2Proof.Machine.execFwPassChunk s
  | .fwChunk w inBond wm => Sys2Proof.Machine.execFwChunk w inBond wm s
  | .fwVerifyDone w => Sys2Proof.Machine.execFwVerifyDone w s
  | .fwProgramDone w ok => Sys2Proof.Machine.execFwProgramDone w ok s
  | .fwStitchesSend w => Sys2Proof.Machine.execFwStitchesSend w s
  | .fwQuery w imageId => Sys2Proof.Machine.execFwQuery w imageId s
  | .fwQuerySend => Sys2Proof.Machine.execFwQuerySend s
  | .fwStitches fid imageId count missing state bitmap => Sys2Proof.Machine.execFwStitches fid imageId count missing state bitmap s
  | .fwRepairRound => Sys2Proof.Machine.execFwRepairRound s
  | .fwReady fid imageId version digest => Sys2Proof.Machine.execFwReady fid imageId version digest s
  | .fwRefused fid imageId reason => Sys2Proof.Machine.execFwRefused fid imageId reason s
  | .fwActivate w imageId course => Sys2Proof.Machine.execFwActivate w imageId course s
  | .fwActivationCourse w => Sys2Proof.Machine.execFwActivationCourse w s
  | .fwResult fid imageId result course version => Sys2Proof.Machine.execFwResult fid imageId result course version s
  | .fwCommit w imageId => Sys2Proof.Machine.execFwCommit w imageId s
  | .fwAbandon w imageId => Sys2Proof.Machine.execFwAbandon w imageId s
  | .blkClearCounters w => Sys2Proof.Machine.execBlkClearCounters w s
  | .tryClearCounters w => Sys2Proof.Machine.execTryClearCounters w s
  | .vcoreFloorWrite w val => Sys2Proof.Machine.execVcoreFloorWrite w val s
  | .modEnAssert => Sys2Proof.Machine.execModEnAssert s
  | .controllerLeaveReset testEn => Sys2Proof.Machine.execControllerLeaveReset testEn s
  | .controllerRstN ns => Sys2Proof.Machine.execControllerRstN ns s
  | .powerDownTrigger t => Sys2Proof.Machine.execPowerDownTrigger t s
  | .refclkLoss pl => Sys2Proof.Machine.execRefclkLoss pl s
  | .referenceTick pl => Sys2Proof.Machine.execReferenceTick pl s
  | .ucieModuleTrained w module => Sys2Proof.Machine.execUcieModuleTrained w module s
  | .fwCoreRestartDone w => Sys2Proof.Machine.execFwCoreRestartDone w s
  | .skeinLinkDown port lanes => Sys2Proof.Machine.execSkeinLinkDown port lanes s
  | .mgmtPortLinkChange port link => Sys2Proof.Machine.execMgmtPortLinkChange port link s
  | .powerDownEnd => Sys2Proof.Machine.execPowerDownEnd s
  | .trayAckRelease w => Sys2Proof.Machine.execTrayAckRelease w s
  | .patternResultTake fid digest result code detail rowSeq => Sys2Proof.Machine.execPatternResultTake fid digest result code detail rowSeq s
  | .controllerNotice w code partition body => Sys2Proof.Machine.execControllerNotice w code partition body s

end Sys2Proof.Machine
end

