-- ==== Sys2Proof/Certificates/Slice0/Obligations.lean ====
section
/-! DEFINITION. The statements for the provers. Most say what a command does: under hypotheses on the state and the operands alone its
meaning answers a next state, and the state it answers is the old one with the effect that the named rule gives, run at the die the
command reaches (`State.onAgt`, `State.onCtl`), whose other fields are those of the old state; what those two add after every command
is stated by itself. -/

open Sys2Proof Sys2Proof.Machine

namespace Sys2Proof.Claim

/-- An agent that is out of reset. -/
abbrev Up (s : State) (w : Who) : Prop := (s.agt w).pins.rstN = true

/-- The controller powered, out of reset and not in its power-down. -/
abbrev On (s : State) : Prop := s.ctl.running = true

/-- Either of the two. -/
abbrev Alive (s : State) (p : Place) : Prop := s.alive p = true

/-- A block that is neither fenced nor frozen takes writes (R440, R443). -/
abbrev Takes (d : Die) (blk : Nat) : Prop := (d.turnsAway blk).isNone = true

/-- A host message reaches the agent: it is out of reset and its control module is not FENCED (R266, R286). -/
abbrev Hears (s : State) (w : Who) : Prop := (s.agt w).hearing = true

/-- The agent after it has taken a host message: the message's credit is returned (R275). -/
abbrev credited (a : Agt) : Agt := a.emitCredit a.control 0 1

/-- The controller runs or its meter holds power by itself (R536). -/
abbrev Metering (s : State) : Prop := (s.ctl.running || s.ctl.meter.powered) = true

/-- The agent does this, and what follows every command at an agent. -/
abbrev agtDoes (s : State) (w : Who) (f : Agt → Agt) : Res := .next (s.onAgt w f)

/-- The controller does this, and what follows every command at the controller. -/
abbrev ctlDoes (s : State) (f : Ctl → Ctl) : Res := .next (s.onCtl f)

/-- The units that both dies have do this. -/
abbrev dieDoes (s : State) (p : Place) (f : Die → Die) : Res := .next (s.onDie p f)

end Sys2Proof.Claim

open Sys2Proof.Claim

/-! ## Lookups, worms and the host's units at an agent -/

/-- R115, R118: LOOKUP_REQUEST at a switch agent counts the lookup and answers it by the request's bits alone. A forwarded head's
response carries verdict 0, the deflection mask, the three outputs (0xFF for a bond that is DOWN) and the changed head's fields; a
scheduled one verdict 1 and its output; a multicast one verdict 2, the dimensions and the down bit; a local one verdict 3, and the worm
goes to the agent's own units. A worm whose output the host could not find is dropped with status 5. -/
def Obligations.LookupForwarded : Prop :=
  -- every command of the group answers a next state: that of its own effect
  (∀ (s : State) (w : Who) (inBond : Nat) (wm : Worm) (syndrome : Nat) (noOutput : Bool) (mcastLost : Nat), Up s w →
    exec (.lookupRequest w inBond wm syndrome noOutput mcastLost) s = agtDoes s w fun a => a.lookupRequest inBond wm syndrome noOutput mcastLost)
  ∧ (∀ (s : State) (w : Who) (inBond syn p sd t m st lost : Nat) (noOutput : Bool) (wm w' : Worm),
    Up s w → (s.agt w).isSwitch = true → (s.agt w).fid ≠ 0x3FFFF →
    ((s.agt w).count Reg.LKP_CNT_LOOKUPS).lookupOf (requestBits wm inBond syn) wm = (w', .forward p sd t m st) →
    exec (.lookupRequest w inBond wm syn noOutput lost) s = agtDoes s w fun a =>
      let a := a.count Reg.LKP_CNT_LOOKUPS
      let a := (a.respond inBond { a.passing wm w' with verdict := 0, mask := m, primary := a.outName p, secondary := a.outName sd, alternate := a.outName t }).tapCount wm.partition 2 (64 * (1 + wm.length))
      if noOutput then a.dropWorm wm 5 [] else a)
  ∧ (∀ (s : State) (w : Who) (inBond syn b lost : Nat) (noOutput : Bool) (wm w' : Worm),
    Up s w → (s.agt w).isSwitch = true → (s.agt w).fid ≠ 0x3FFFF →
    ((s.agt w).count Reg.LKP_CNT_LOOKUPS).lookupOf (requestBits wm inBond syn) wm = (w', .scheduled b) →
    exec (.lookupRequest w inBond wm syn noOutput lost) s = agtDoes s w fun a =>
      let a := a.count Reg.LKP_CNT_LOOKUPS
      let a := (a.respond inBond { a.passing wm w' with verdict := 1, primary := b }).tapCount wm.partition 2 (64 * (1 + wm.length))
      if noOutput then a.dropWorm wm 5 [] else a)
  ∧ (∀ (s : State) (w : Who) (inBond syn dims lost : Nat) (down own noOutput : Bool) (wm w' : Worm),
    Up s w → (s.agt w).isSwitch = true → (s.agt w).fid ≠ 0x3FFFF →
    ((s.agt w).count Reg.LKP_CNT_LOOKUPS).lookupOf (requestBits wm inBond syn) wm = (w', .multicast dims down own) →
    exec (.lookupRequest w inBond wm syn noOutput lost) s = agtDoes s w fun a =>
      let a := a.count Reg.LKP_CNT_LOOKUPS
      let a := (a.respond inBond { a.passing wm w' with verdict := 2, dims := dims, down := b2n down }).tapCount wm.partition 2 (64 * (1 + wm.length))
      let a := a.onDie fun d => d.countN Reg.LKP_CNT_MCAST_DROP lost
      if own then a.emit (.own { w' with headerCheck := recheck wm w' }) else a)
  ∧ (∀ (s : State) (w : Who) (inBond syn lost : Nat) (noOutput : Bool) (wm w' : Worm) (v : Verdict),
    Up s w → (s.agt w).isSwitch = true → (s.agt w).fid ≠ 0x3FFFF → v = .eject ∨ v = .toAgent →
    ((s.agt w).count Reg.LKP_CNT_LOOKUPS).lookupOf (requestBits wm inBond syn) wm = (w', v) →
    exec (.lookupRequest w inBond wm syn noOutput lost) s = agtDoes s w fun a =>
      ((a.count Reg.LKP_CNT_LOOKUPS).respond inBond { verdict := 3 }).emit (.own w'))

/-- R107, R115, R118: a head that fails its check is dropped without a status: the lookup answers DROP with every other field zero, and
LKP_CNT_HDR_FAIL counts. Where the lookup drops the head with a status, the response is the same and the drop of that status follows. -/
def Obligations.LookupHeaderFail : Prop :=
  (∀ (s : State) (w : Who) (inBond syn lost : Nat) (wm w' : Worm) (noOutput : Bool),
    Up s w → (s.agt w).isSwitch = true → (s.agt w).fid ≠ 0x3FFFF →
    ((s.agt w).count Reg.LKP_CNT_LOOKUPS).lookupOf (requestBits wm inBond syn) wm = (w', .silent) →
    exec (.lookupRequest w inBond wm syn noOutput lost) s = agtDoes s w fun a =>
      ((a.count Reg.LKP_CNT_LOOKUPS).count Reg.LKP_CNT_HDR_FAIL).respond inBond { verdict := 4 })
  ∧ (∀ (s : State) (w : Who) (inBond syn lost st : Nat) (wm w' : Worm) (noOutput : Bool),
    Up s w → (s.agt w).isSwitch = true → (s.agt w).fid ≠ 0x3FFFF →
    ((s.agt w).count Reg.LKP_CNT_LOOKUPS).lookupOf (requestBits wm inBond syn) wm = (w', .drop st) →
    exec (.lookupRequest w inBond wm syn noOutput lost) s = agtDoes s w fun a =>
      ((a.count Reg.LKP_CNT_LOOKUPS).respond inBond { verdict := 4 }).dropWorm wm st [])

/-- R126, R138, R155, R158, R269, R271: worms at an endpoint, and the queues of the agent. -/
def Obligations.EndpointWorms : Prop :=
  -- every command of the group answers a next state: that of its own effect
  (∀ (s : State) (w : Who) (taken : Bool), Up s w →
    exec (.errorQueueSend w taken) s = agtDoes s w fun a => a.errorQueueSend taken)
  ∧ (∀ (s : State) (w : Who) (units : Units) (wm : Worm) (busy : List Nat), Up s w →
    exec (.rxWorm w units wm busy) s = .next (s.onAgt w (fun a => a.rxWorm units wm busy) busy))
  ∧ (∀ (s : State) (w : Who) (wm : Worm) (reqTag : Nat) (retry : Bool) (units : Units) (busy : List Nat), Up s w →
    exec (.inject w wm reqTag retry units busy) s = .next (s.onAgt w (fun a => a.inject wm reqTag retry units busy) busy))
  ∧ (∀ (s : State) (w : Who) (busy : List Nat), Up s w →
    exec (.reqInjectDeferred w busy) s = .next (s.onAgt w (fun a => a.pump busy) busy))
  ∧ (∀ (s : State) (w : Who) (reqTag : Nat), Up s w →
    exec (.requestTimeout w reqTag) s = agtDoes s w fun a => a.requestTimeout reqTag)
  ∧ (∀ (s : State) (w : Who) (cls : Nat), Up s w →
    exec (.injStallInterval w cls) s = agtDoes s w fun a =>
      match a.stalled cls with
      | some k => a.count k
      | none => a)
  -- RX_WORM: a FWD worm addressed to the agent goes to the agent's own units
  ∧ (∀ (s : State) (w : Who) (u : Units) (wm w' : Worm) (busy : List Nat),
    Up s w → (s.agt w).unitsOk 2 u wm = true → (s.agt w).isSwitch = false → wm.op ≠ 0xC1 → (s.agt w).fid ≠ 0x3FFFF →
    ((s.agt w).count Reg.LKP_CNT_LOOKUPS).lookupArrive wm (tagBond (u.tags.getD 0 0)) (syndromeOf wm) = (w', .eject) → w'.cls = 2 →
    exec (.rxWorm w u wm busy) s = .next (s.onAgt w (fun a => (a.count Reg.LKP_CNT_LOOKUPS).emit (.own w')) busy))
  -- RX_WORM: a probe, and every worm that a switch agent receives, goes to the agent's own units without a lookup
  ∧ (∀ (s : State) (w : Who) (u : Units) (wm : Worm) (busy : List Nat),
    Up s w → (s.agt w).unitsOk 2 u wm = true → wm.op = 0xC1 ∨ (s.agt w).isSwitch = true →
    exec (.rxWorm w u wm busy) s = .next (s.onAgt w (·.emit (.own wm)) busy))
  -- RX_WORM, INJECT: units on a wrong module, of a wrong kind or without their first and last bits are a unit error
  ∧ (∀ (s : State) (w : Who) (u : Units) (wm : Worm) (tag : Nat) (retry : Bool) (busy : List Nat), Up s w →
    ((s.agt w).unitsOk 2 u wm = false → exec (.rxWorm w u wm busy) s = .next (s.onAgt w Agt.unitError busy))
    ∧ ((s.agt w).unitsOk 5 u wm = false → exec (.inject w wm tag retry u busy) s = .next (s.onAgt w Agt.unitError busy)))
  -- RX_WORM: a worm for another agent leaves again on an output that is free
  ∧ (∀ (s : State) (w : Who) (u : Units) (p sd t m st b : Nat) (dfl : Bool) (wm w' : Worm) (busy : List Nat),
    Up s w → (s.agt w).unitsOk 2 u wm = true → (s.agt w).isSwitch = false → wm.op ≠ 0xC1 → (s.agt w).fid ≠ 0x3FFFF →
    ((s.agt w).count Reg.LKP_CNT_LOOKUPS).lookupArrive wm (tagBond (u.tags.getD 0 0)) (syndromeOf wm) = (w', .forward p sd t m st) →
    ((((s.agt w).count Reg.LKP_CNT_LOOKUPS).count Reg.LKP_CNT_BOUNCED).tapCount wm.partition 2 (64 * (1 + wm.length))).pick
      w'.epoch p sd t m busy = some (b, dfl) →
    exec (.rxWorm w u wm busy) s = .next (s.onAgt w (fun a =>
      (((a.count Reg.LKP_CNT_LOOKUPS).count Reg.LKP_CNT_BOUNCED).tapCount wm.partition 2 (64 * (1 + wm.length))).sendOn
        { w' with headerCheck := recheck wm w' } b dfl) busy))
  -- ERROR_QUEUE_SEND: the oldest reply leaves over the agent input and is counted, or the host discards it and that is counted
  ∧ (∀ (s : State) (w : Who) (x : Worm) (rest : List Worm),
    Up s w → (s.agt w).fwd.errQ = x :: rest →
    exec (.errorQueueSend w true) s = agtDoes s w (fun a =>
      (({ a with fwd := { a.fwd with errQ := rest } } : Agt).count Reg.LKP_CNT_ERR_SENT).emitTx 0xFE x)
    ∧ exec (.errorQueueSend w false) s = agtDoes s w (fun a =>
      ({ a with fwd := { a.fwd with errQ := rest } } : Agt).count Reg.LKP_CNT_NO_OUTPUT))
  -- INJECT: a worm that no rule refuses takes a credit of its class, counts and is staged; one that a rule refuses counts too
  ∧ (∀ (s : State) (w : Who) (wm : Worm) (reqTag : Nat) (retry : Bool) (u : Units) (busy : List Nat) (b : Agt),
    Up s w → (s.agt w).unitsOk 5 u wm = true → (s.agt w).mode = 0 → (s.agt w).takeCredit (wm.op / 64 % 4) = some b →
    (b.count Reg.AGT_CNT_INJECTED).injectFault wm (wm.op / 64 % 4) reqTag retry = 0 →
    exec (.inject w wm reqTag retry u busy) s
      = .next (s.onAgt w (fun _ => ((b.count Reg.AGT_CNT_INJECTED).stage wm (wm.op / 64 % 4) reqTag retry).pump busy) busy))
  ∧ (∀ (s : State) (w : Who) (wm : Worm) (reqTag n : Nat) (retry : Bool) (u : Units) (busy : List Nat) (b : Agt),
    Up s w → (s.agt w).unitsOk 5 u wm = true → (s.agt w).mode = 0 → (s.agt w).takeCredit (wm.op / 64 % 4) = some b →
    (b.count Reg.AGT_CNT_INJECTED).injectFault wm (wm.op / 64 % 4) reqTag retry = n → n ≠ 0 →
    exec (.inject w wm reqTag retry u busy) s
      = .next (s.onAgt w (fun _ => (b.count Reg.AGT_CNT_INJECTED).refuseInject (wm.op / 64 % 4) reqTag n) busy))
  -- REQ_INJECT_DEFERRED: the first staged RSP is sent if it can be, then the waiting FWD worms, then the first staged REQ (R153)
  ∧ (∀ (s : State) (w : Who) (st rq : Staged) (rest more : List Staged) (busy : List Nat) (b c : Agt),
    Up s w → (s.agt w).flow.stRsp = st :: rest → (s.agt w).tryRsp st busy = some b →
    (b.flush busy).flow.stReq = rq :: more → (b.flush busy).tryReq rq busy = some c →
    exec (.reqInjectDeferred w busy) s = .next (s.onAgt w (fun _ => c) busy))
  -- REQUEST_TIMEOUT: the entry's reservation is released and it completes with TIMEOUT or TIMEOUT_UNKNOWN
  ∧ (∀ (s : State) (w : Who) (reqTag : Nat) (t : Track),
    Up s w → (s.agt w).flow.tracker.find? (fun t => t.heldStatus.isNone && t.reqTag = reqTag) = some t →
    t.deadline ≤ (s.agt w).die.up →
    exec (.requestTimeout w reqTag) s = agtDoes s w fun a =>
      ((a.count Reg.LKP_CNT_TIMEOUT).setReserved (a.reserved - t.flits)).completeEntry t (if t.op = 0x01 then 0x20 else 0x21))
  -- INJ_STALL_INTERVAL: one more interval in which a worm of the class waited at injection; none while none waits
  ∧ (∀ (s : State) (w : Who), Up s w →
    ((s.agt w).flow.stReq ≠ [] → exec (.injStallInterval w 0) s = agtDoes s w (·.count Reg.LKP_CNT_INJ_STALL_REQ))
    ∧ ((s.agt w).flow.stRsp ≠ [] → exec (.injStallInterval w 1) s = agtDoes s w (·.count Reg.LKP_CNT_INJ_STALL_RSP))
    ∧ ((s.agt w).fwd.waiting ≠ [] → exec (.injStallInterval w 2) s = agtDoes s w (·.count Reg.LKP_CNT_INJ_STALL_FWD))
    ∧ ((s.agt w).flow.stReq = [] → exec (.injStallInterval w 0) s = agtDoes s w id))

/-- R148, R270: presentations to the host. -/
def Obligations.Presentation : Prop :=
  -- every command of the group answers a next state: that of its own effect
  (∀ (s : State) (w : Who) (cls : Nat), Up s w →
    exec (.presentStart w cls) s = agtDoes s w fun a => a.presentStart cls)
  ∧ (∀ (s : State) (w : Who) (cls : Nat), Up s w →
    exec (.accept w cls) s = agtDoes s w fun a => a.accept cls)
  ∧ (∀ (s : State) (w : Who) (cls : Nat), Up s w →
    exec (.acceptLate w cls) s = agtDoes s w fun a => a.acceptLate cls)
  -- PRESENT_START: the head unit on the next data module of the rotation, which moves on
  ∧ (∀ (s : State) (w : Who) (cls k : Nat) (h : Holding),
    Up s w → tget (s.agt w).flow.holding cls = some h → (s.agt w).presentOpen cls = false →
    (s.agt w).die.fget Fl.AGT_HIF_STATUS_host_ready = 1 → (s.agt w).bondModule (s.agt w).flow.presentNext = some k →
    exec (.presentStart w cls) s = agtDoes s w fun a =>
      let f : Flow := { a.flow with presenting := tset a.flow.presenting cls (k, false), presentNext := a.flow.presentNext + 1 }
      let a := ({ a with flow := f } : Agt).setPresent cls true
      (a.count Reg.AGT_CNT_PRESENTED).emit (.present k ((h.tags cls).headD 0) { h.wm with payload := [] }))
  -- ACCEPT: the remaining units on the same module, and the holding register is free
  ∧ (∀ (s : State) (w : Who) (cls : Nat) (h : Holding),
    Up s w → tget (s.agt w).flow.holding cls = some h → (s.agt w).presentOpen cls = true →
    exec (.accept w cls) s = agtDoes s w fun a =>
      let k := (tgetD a.flow.presenting cls (0, false)).1
      let a := ({ a with flow := { a.flow with presenting := tdel a.flow.presenting cls } } : Agt).setPresent cls false
      let a := a.emit (.presentRest k ((h.tags cls).drop 1) h.wm.payload)
      ({ a with flow := { a.flow with holding := tdel a.flow.holding cls } } : Agt).tapCount h.wm.partition 1 (64 * Worm.flits h.wm))
  -- ACCEPT_LATE: counted once for a presentation
  ∧ (∀ (s : State) (w : Who) (cls k : Nat), Up s w → tget (s.agt w).flow.presenting cls = some (k, false) →
    exec (.acceptLate w cls) s = agtDoes s w fun a =>
      ({ a with flow := { a.flow with presenting := tset a.flow.presenting cls (k, true) } } : Agt).count Reg.AGT_CNT_ACCEPT_LATE)
  ∧ (∀ (s : State) (w : Who) (cls k : Nat), Up s w → tget (s.agt w).flow.presenting cls = some (k, true) →
    exec (.acceptLate w cls) s = agtDoes s w id)

/-- R119, R144, R152, R277: holds, the mask mirror, the lookup lock and the host's reply space. -/
def Obligations.HoldsAndSpace : Prop :=
  -- every command of the group answers a next state: that of its own effect
  (∀ (s : State) (w : Who) (course slot lead : Nat), Up s w →
    exec (.slotHold w course slot lead) s = agtDoes s w fun a => a.slotHold course slot lead)
  ∧ (∀ (s : State) (w : Who) (copy first count : Nat), Hears s w →
    exec (.mirrorAck w copy first count) s = agtDoes s w fun a =>
      let a := credited a
      { a with fwd := { a.fwd with mirrorWait := removeFirst (fun x => x = (copy, first, count)) a.fwd.mirrorWait } })
  ∧ (∀ (s : State) (w : Who), Up s w → Takes (s.agt w).die Blk.LKP →
    exec (.lkpLock w) s = agtDoes s w (·.onDie (·.fset Fl.LKP_STATUS_locked 1)))
  ∧ (∀ (s : State) (w : Who) (flits : Nat), Hears s w →
    exec (.rspSpaceReturn w flits) s = agtDoes s w fun a => (credited a).rspSpaceReturn flits)
  -- SLOT_HOLD: a HOLD for every output that the course's slot owns, and in the plumb slot for every bond that a probe leaves on
  ∧ (∀ (s : State) (w : Who) (course slot lead : Nat),
    Up s w → (s.agt w).isSwitch = true → 96 ≤ lead → lead ≤ 1000 → (s.agt w).isPlumbSlot course slot = false →
    exec (.slotHold w course slot lead) s = agtDoes s w fun a =>
      ((a.fwd.course.filter fun x => (x.action = 2 || x.action = 5) && x.slot = slot && course % a.period x.partition = x.course
        && !(a.bondDown x.outBond)).map (·.outBond)).foldl (fun a b => a.emit (.hold b lead)) a)
  ∧ (∀ (s : State) (w : Who) (course slot lead : Nat),
    Up s w → (s.agt w).isSwitch = true → 96 ≤ lead → lead ≤ 1000 → (s.agt w).isPlumbSlot course slot = true →
    exec (.slotHold w course slot lead) s = agtDoes s w fun a =>
      ((a.fwd.course.filter fun x => (x.action = 2 || x.action = 5) && x.slot = slot && course % a.period x.partition = x.course
        && !(a.bondDown x.outBond)).map (·.outBond) ++ a.probeBonds.map (·.1)).foldl (fun a b => a.emit (.hold b lead)) a)
  -- outside a lead of 96 to 1,000 ns no HOLD is given
  ∧ (∀ (s : State) (w : Who) (course slot lead : Nat), Up s w → lead < 96 ∨ 1000 < lead →
    exec (.slotHold w course slot lead) s = agtDoes s w id)
  -- RSP_SPACE_RETURN: reserved_flits falls by what the host freed; more than is reserved empties it and raises the event
  ∧ (∀ (s : State) (w : Who) (n : Nat), Hears s w → n ≤ (s.agt w).reserved →
    exec (.rspSpaceReturn w n) s = agtDoes s w fun a => (credited a).setReserved (a.reserved - n))
  ∧ (∀ (s : State) (w : Who) (n : Nat), Hears s w → (s.agt w).reserved < n →
    exec (.rspSpaceReturn w n) s = agtDoes s w fun a => ((credited a).setReserved 0).raise Ev.RSP_SPACE_UNDERFLOW)

/-- R140, R275, R276, R280, R281: completion groups and the tracker over the host's messages. Every message taken returns its credit. -/
def Obligations.CompletionGroups : Prop :=
  -- every command of the group answers a next state: that of its own effect
  (∀ (s : State) (w : Who) (msgTag group : Nat), Hears s w →
    exec (.cgRead w msgTag group) s = agtDoes s w fun a => (credited a).cgRead msgTag group)
  ∧ (∀ (s : State) (w : Who) (msgTag group targetWorms targetBytes : Nat), Hears s w →
    exec (.cgArm w msgTag group targetWorms targetBytes) s = agtDoes s w fun a => (credited a).cgArm msgTag group targetWorms targetBytes)
  ∧ (∀ (s : State) (w : Who) (msgTag group : Nat), Hears s w →
    exec (.cgClear w msgTag group) s = agtDoes s w fun a => (credited a).cgClear msgTag group)
  ∧ (∀ (s : State) (w : Who) (msgTag reqTag : Nat), Hears s w →
    exec (.reqRelease w msgTag reqTag) s = agtDoes s w fun a => (credited a).reqRelease msgTag reqTag)
  ∧ (∀ (s : State) (w : Who) (tag g : Nat), Hears s w → g < 2 ^ 20 →
    exec (.cgRead w tag g) s = agtDoes s w fun a => (credited a).msg 0x81 0 tag (cgBody g (a.cgCtx g)))
  ∧ (∀ (s : State) (w : Who) (tag g : Nat), Hears s w → 2 ^ 20 ≤ g →
    exec (.cgRead w tag g) s = agtDoes s w fun a => (credited a).msg 0x81 1 tag (cgBody g CgCtx.zero))
  ∧ (∀ (s : State) (w : Who) (tag g k tw tb : Nat),
    Hears s w → g < 2 ^ 20 → ((s.agt w).cgCtx g).armed = false →
    ((List.range 256).find? fun k => (tget (s.agt w).flow.arms k).isNone) = some k →
    exec (.cgArm w tag g tw tb) s = agtDoes s w fun a =>
      let c := a.cgCtx g
      let a := (credited a).setCg g { c with armed := true, fired := false, armSlot := k }
      let a : Agt := { a with flow := { a.flow with arms := tset a.flow.arms k { group := g, worms := tw, bytes := tb, errors := c.errors } } }
      let a := a.onDie fun d =>
        if d.bget Reg.AGT_CG_ARMS 24 16 < a.flow.arms.length then d.bset Reg.AGT_CG_ARMS 24 16 a.flow.arms.length else d
      (a.msg 0x83 0 tag (le 4 g ++ le 1 k)).tryFire g)
  ∧ (∀ (s : State) (w : Who) (tag g : Nat), Hears s w → g < 2 ^ 20 →
    exec (.cgClear w tag g) s = agtDoes s w fun a =>
      let a := credited a
      let a : Agt := { a with flow := { a.flow with arms := a.flow.arms.filter fun p => p.2.group ≠ g } }
      (a.setCg g CgCtx.zero).msg 0x83 0 tag (le 4 g ++ le 1 0))
  ∧ (∀ (s : State) (w : Who) (tag reqTag : Nat) (t : Track), Hears s w → (s.agt w).heldEntry reqTag = some t →
    exec (.reqRelease w tag reqTag) s = agtDoes s w fun a =>
      let a := credited a
      ({ a with flow := { a.flow with tracker := removeFirst (fun x => x = t) a.flow.tracker } } : Agt).msg 0x84 0 tag (le 4 reqTag ++ le 1 0))

/-- R275, R278, R282, R283: measurement registers and the host's other messages. -/
def Obligations.HostMessages : Prop :=
  -- every command of the group answers a next state: that of its own effect
  (∀ (s : State) (w : Who) (msgTag register partition kind : Nat) (digest : Digest), Hears s w →
    exec (.msrExtend w msgTag register partition kind digest) s = agtDoes s w fun a => (credited a).msrExtend msgTag register partition kind digest)
  ∧ (∀ (s : State) (w : Who) (tag i partition kind : Nat) (digest : Digest),
    Hears s w → i < 16 → (s.agt w).extendDenied i partition = false →
    exec (.msrExtend w tag i partition kind digest) s = agtDoes s w fun a =>
      let old := (tget a.msr i).getD { value := 0, lastSeq := 0, count := 0 }
      let seq := a.die.getN Reg.MSR_SEQ + 1
      let value := Config.shake256 (digestBytes old.value ++ le 1 i ++ le 4 kind ++ le 2 partition ++ slice (digestBytes digest) 0 64)
      let a := credited a
      let a := ({ a with msr := tset a.msr i { value := value, lastSeq := seq, count := old.count + 1 } } : Agt).onDie
        (fun d => d.setN Reg.MSR_SEQ seq)
      a.msg 0x8C 0 tag (le 1 i ++ List.replicate 7 0 ++ le 8 (a.die.getN Reg.MSR_SEQ)))
  ∧ (∀ (s : State) (w : Who) (val : Word), Hears s w →
    exec (.phyResult w val) s = agtDoes s w fun a => (credited a).emit (.irq "phy_result" val.toNat))
  ∧ (∀ (s : State) (w : Who) (mtype tag : Nat), Hears s w →
    exec (.unknownMessage w mtype tag) s = agtDoes s w fun a =>
      ((credited a).count Reg.AGT_CNT_MSG_DENIED).msg 0x89 5 tag (le 4 0 ++ le 4 0 ++ le 8 0))


/-! ## Watches, recovery levels and dumps at an agent -/

/-- R284, R324, R325: watch timers and the messages that restart them. -/
def Obligations.WatchTimers : Prop :=
  -- every command of the group answers a next state: that of its own effect
  (∀ (s : State) (w : Who) (timer : Nat), Hears s w →
    exec (.heartbeat w timer) s = agtDoes s w fun a => (credited a).restartMsg timer 1)
  ∧ (∀ (s : State) (w : Who) (timer engine : Nat), Hears s w →
    exec (.progress w timer engine) s = agtDoes s w fun a => (credited a).restartMsg timer 2)
  ∧ (∀ (s : State) (w : Who) (timer : Nat), Up s w →
    exec (.watchExpire w timer) s = agtDoes s w fun a => a.works Blk.WCH fun a => a.watchExpire timer)
  -- WATCH_EXPIRE: a running timer whose timeout has passed and whose owner escalates expires
  ∧ (∀ (s : State) (w : Who) (k start : Nat) (t : Timer),
    Up s w → tget (s.agt w).rcv.timers k = some t → t.startNs = some start → (s.agt w).inRecovery = false →
    (s.agt w).die.resource.timers.getD k 0 ≠ 0 → (s.agt w).die.resource.timers.getD k 0 ≠ 6 →
    start + t.timeoutUs * 1000 ≤ (s.agt w).die.up →
    exec (.watchExpire w k) s = agtDoes s w fun a => a.works Blk.WCH fun a =>
      let a : Agt := { a with rcv := { a.rcv with timers := tset a.rcv.timers k { t with startNs := none, expired := true } } }
      let a := ((a.count Reg.WCH_CNT_EXPIRED).raise Ev.WATCH_EXPIRED k).notice 0x0101 0 (le 1 k ++ le 1 t.firstLevel)
      if a.die.fget Fl.AGT_FW_STATUS_state = 5 then { a with rcv := { a.rcv with deferred := a.rcv.deferred ++ [k] } }
      else a.ownerAction k)
  -- WATCH_EXPIRE: while the agent is in recovery no timer expires
  ∧ (∀ (s : State) (w : Who) (k : Nat), Up s w → (s.agt w).inRecovery = true → exec (.watchExpire w k) s = agtDoes s w fun a => a)
  -- HEARTBEAT and PROGRESS restart the timer of their owner at the present time, where they come within timeout_us
  ∧ (∀ (s : State) (w : Who) (k start engine : Nat) (t : Timer),
    Hears s w → tget (s.agt w).rcv.timers k = some t → t.startNs = some start → t.expired = false →
    (credited (s.agt w)).die.takeWait Blk.WCH = (false, (credited (s.agt w)).die) →
    (credited (s.agt w)).die.up ≤ start + t.timeoutUs * 1000 →
    ((s.agt w).die.resource.timers.getD k 0 = 1 →
      exec (.heartbeat w k) s = agtDoes s w fun a =>
        let a := credited a
        { a with rcv := { a.rcv with timers := tset a.rcv.timers k { t with startNs := some a.die.up } } })
    ∧ ((s.agt w).die.resource.timers.getD k 0 = 2 →
      exec (.progress w k engine) s = agtDoes s w fun a =>
        let a := credited a
        { a with rcv := { a.rcv with timers := tset a.rcv.timers k { t with startNs := some a.die.up } } }))
  -- one that comes after timeout_us finds the timer TIMED_OUT: it expires, and the message is late
  ∧ (∀ (s : State) (w : Who) (k start engine : Nat) (t : Timer),
    Hears s w → tget (s.agt w).rcv.timers k = some t → t.startNs = some start → t.expired = false →
    (credited (s.agt w)).die.takeWait Blk.WCH = (false, (credited (s.agt w)).die) →
    start + t.timeoutUs * 1000 < (credited (s.agt w)).die.up →
    ((s.agt w).die.resource.timers.getD k 0 = 1 →
      exec (.heartbeat w k) s = agtDoes s w fun a => ((credited a).expire k t).count Reg.AGT_CNT_HB_LATE)
    ∧ ((s.agt w).die.resource.timers.getD k 0 = 2 →
      exec (.progress w k engine) s = agtDoes s w fun a => ((credited a).expire k t).count Reg.AGT_CNT_HB_LATE))
  -- a message for a timer that has another owner, or for none, is counted as denied; one for an expired timer as late
  ∧ (∀ (s : State) (w : Who) (k engine : Nat) (t : Timer), Hears s w → tget (s.agt w).rcv.timers k = some t →
    ((s.agt w).die.resource.timers.getD k 0 ≠ 1 →
      exec (.heartbeat w k) s = agtDoes s w fun a => (credited a).count Reg.AGT_CNT_MSG_DENIED)
    ∧ ((s.agt w).die.resource.timers.getD k 0 ≠ 2 →
      exec (.progress w k engine) s = agtDoes s w fun a => (credited a).count Reg.AGT_CNT_MSG_DENIED)
    ∧ ((s.agt w).die.resource.timers.getD k 0 = 1 → t.expired = true →
      exec (.heartbeat w k) s = agtDoes s w fun a => (credited a).count Reg.AGT_CNT_HB_LATE)
    ∧ ((s.agt w).die.resource.timers.getD k 0 = 2 → t.expired = true →
      exec (.progress w k engine) s = agtDoes s w fun a => (credited a).count Reg.AGT_CNT_HB_LATE))
  ∧ (∀ (s : State) (w : Who) (k engine : Nat), Hears s w → tget (s.agt w).rcv.timers k = none →
    exec (.heartbeat w k) s = agtDoes s w (fun a => (credited a).count Reg.AGT_CNT_MSG_DENIED)
    ∧ exec (.progress w k engine) s = agtDoes s w (fun a => (credited a).count Reg.AGT_CNT_MSG_DENIED))

/-- R327, R328, R331, R332, R343, R547: the waits of a recovery level. -/
def Obligations.RecoveryWaits : Prop :=
  -- every command of the group answers a next state: that of its own effect
  (∀ (s : State) (w : Who) (level target result : Nat), Hears s w →
    exec (.resetDone w level target result) s = agtDoes s w fun a => (credited a).resetDone level target result)
  ∧ (∀ (s : State) (w : Who), Hears s w →
    exec (.hostReady w) s = agtDoes s w fun a => (credited a).hostReady)
  ∧ (∀ (s : State) (w : Who), Up s w →
    exec (.recoveryLevelTimeout w) s = agtDoes s w Agt.levelTimeout)
  ∧ (∀ (s : State) (w : Who),
    exec (.trayAck w) s = agtDoes s w Agt.trayAck)
  ∧ (∀ (s : State) (w : Who), Up s w →
    exec (.bindOffDrainComplete w) s = agtDoes s w Agt.drainComplete)
  -- RECOVERY_LEVEL_TIMEOUT: a level whose wait has passed its bound fails
  ∧ (∀ (s : State) (w : Who), Up s w → (s.agt w).levelLate = true →
    exec (.recoveryLevelTimeout w) s = agtDoes s w fun a => a.stopTray.failLevel)
  -- a failed level reports FAILED, and escalates to the next level the agent has or ends EXHAUSTED
  ∧ (∀ (a : Agt) (n : Nat), a.rcv.escalate = true → a.recLevel < 5 → a.die.safe = false →
    (a.report a.recLevel reportFailed).levelFrom (a.recLevel + 1) = some n →
    a.failLevel = (a.report a.recLevel reportFailed).runLevel n 0xFF)
  ∧ (∀ (a : Agt), a.rcv.escalate = false ∨ a.die.safe = true → a.failLevel = (a.report a.recLevel reportFailed).exhaust)
  -- RESET_DONE with result DONE in state COMMANDED ends a level up to 3 with its effects
  ∧ (∀ (s : State) (w : Who) (level target : Nat), Hears s w →
    (credited (s.agt w)).recState = 3 → (credited (s.agt w)).recLevel = level → level ≤ 3 → (credited (s.agt w)).levelLate = false →
    (credited (s.agt w)).die.takeWait Blk.WCH = (false, (credited (s.agt w)).die) →
    exec (.resetDone w level target 0) s = agtDoes s w fun a =>
      ((credited a).onDie fun d => d.fset Fl.WCH_STATUS_target target).endLevel level)
  -- RESET_DONE with FAILED or UNSUPPORTED fails the level; with STARTED a level 4 goes to RESETTING
  ∧ (∀ (s : State) (w : Who) (level target result : Nat), Hears s w →
    (credited (s.agt w)).recState = 3 → (credited (s.agt w)).recLevel = level → (credited (s.agt w)).levelLate = false →
    (credited (s.agt w)).die.takeWait Blk.WCH = (false, (credited (s.agt w)).die) → result = 1 ∨ result = 2 →
    exec (.resetDone w level target result) s = agtDoes s w fun a =>
      ((credited a).onDie fun d => d.fset Fl.WCH_STATUS_target target).failLevel)
  ∧ (∀ (s : State) (w : Who) (target : Nat), Hears s w →
    (credited (s.agt w)).recState = 3 → (credited (s.agt w)).recLevel = 4 → (credited (s.agt w)).levelLate = false →
    (credited (s.agt w)).die.takeWait Blk.WCH = (false, (credited (s.agt w)).die) →
    exec (.resetDone w 4 target 3) s = agtDoes s w fun a =>
      (((credited a).onDie fun d => d.fset Fl.WCH_STATUS_target target).onDie fun d => d.fset Fl.AGT_HIF_STATUS_host_ready 0).setRec 4)
  -- RESET_DONE for another level or state is late; so is one after the level's bound, and the level fails
  ∧ (∀ (s : State) (w : Who) (level target result : Nat), Hears s w →
    (credited (s.agt w)).recState ≠ 3 ∨ (credited (s.agt w)).recLevel ≠ level →
    exec (.resetDone w level target result) s = agtDoes s w fun a => (credited a).count Reg.WCH_CNT_LATE_ARRIVAL)
  ∧ (∀ (s : State) (w : Who) (level target result : Nat), Hears s w →
    (credited (s.agt w)).recState = 3 → (credited (s.agt w)).recLevel = level → (credited (s.agt w)).levelLate = true →
    (credited (s.agt w)).die.takeWait Blk.WCH = (false, (credited (s.agt w)).die) →
    exec (.resetDone w level target result) s = agtDoes s w fun a =>
      ((credited a).count Reg.WCH_CNT_LATE_ARRIVAL).stopTray.failLevel)
  -- HOST_READY outside a recovery: the host is ready, the reserved reply space is what outstanding entries hold, heads are presented anew
  ∧ (∀ (s : State) (w : Who), Hears s w →
    ((credited (s.agt w)).onDie fun d => d.fset Fl.AGT_HIF_STATUS_host_ready 1).recomputeSpace.reopen.castState ≠ 2 →
    ((credited (s.agt w)).onDie fun d => d.fset Fl.AGT_HIF_STATUS_host_ready 1).recomputeSpace.reopen.recState = 0 →
    (credited (s.agt w)).pins.rstN = true →
    exec (.hostReady w) s = agtDoes s w fun a =>
      ((credited a).onDie fun d => d.fset Fl.AGT_HIF_STATUS_host_ready 1).recomputeSpace.reopen)
  -- TRAY_ACK while no cycle is asked for changes the pin alone
  ∧ (∀ (s : State) (w : Who), (s.agt w).pins.trayReqN = true →
    exec (.trayAck w) s = agtDoes s w fun a => { a with pins := { a.pins with trayAckN := false } })
  -- TRAY_ACK of a tray cycle: TRAY_REQ_N is deasserted, the modules train again, the host is not ready, and the lanes of an endpoint fall, and state TRAY goes to RESETTING
  ∧ (∀ (s : State) (w : Who), (s.agt w).pins.trayReqN = false →
    exec (.trayAck w) s = agtDoes s w fun a =>
      let a : Agt := { a with pins := { a.pins with trayAckN := false, trayReqN := true }, rcv := { a.rcv with trayed := true } }
      let a := a.emit (.pin "TRAY_REQ_N" true)
      let a : Agt := { a with cast := { a.cast with modules := a.cast.modules.map fun m => if m = 2 then 1 else m } }
      let a := a.onDie fun d => d.fset Fl.AGT_HIF_STATUS_host_ready 0
      let a := if a.isSwitch then a else a.withdrawAll
      if a.recState = 5 then a.arrived fun a => a.stopTray.setRec 4 else a.count Reg.WCH_CNT_LATE_ARRIVAL)
  -- TRAY_ACK_RELEASE
  ∧ (∀ (s : State) (w : Who),
    exec (.trayAckRelease w) s = agtDoes s w fun a => { a with pins := { a.pins with trayAckN := true } })
  -- BIND_OFF_DRAIN_COMPLETE: no entry is outstanding; HELD entries are released without report and the level goes on
  ∧ (∀ (s : State) (w : Who), Up s w → (s.agt w).die.fget Fl.WCH_STATUS_bind_off ≠ 0 → (s.agt w).rcv.drained = false →
    ((s.agt w).flow.tracker.any fun t => t.heldStatus.isNone) = false →
    exec (.bindOffDrainComplete w) s = agtDoes s w fun a =>
      ({ a with flow := { a.flow with tracker := [] }, rcv := { a.rcv with drained := true } } : Agt).proceed)

/-- R330, R331, R335 to R341, R504: the controller's commands to a recovery, the host's dump data, and an agent's dump records. -/
def Obligations.RecoveryCommandsAndDumps : Prop :=
  -- every command of the group answers a next state: that of its own effect
  (∀ (s : State) (w : Who) (tag : Nat) (data : Bytes), Up s w →
    exec (.memdata w tag data) s = agtDoes s w fun a => a.memdata tag data)
  ∧ (∀ (s : State) (w : Who) (level target flags : Nat), Up s w →
    exec (.recoveryCmd w level target flags) s = agtDoes s w fun a => a.recoveryCmd level target flags)
  ∧ (∀ (s : State) (block : Nat), On s →
    exec (.dumpBlockTimeout .ctl block) s = ctlDoes s fun c => c.dumpTimeout block)
  ∧ (∀ (s : State) (w : Who) (block : Nat), Up s w →
    exec (.dumpBlockTimeout (.agt w) block) s = agtDoes s w fun a => a.dumpTimeout block)
  ∧ (∀ (s : State) (w : Who) (sequence count bitmap : Nat), Up s w →
    exec (.chunkFetch w sequence count bitmap) s = agtDoes s w fun a =>
      match a.rcv.records.find? fun r => r.sequence % 2 ^ 32 = sequence with
      | none => a
      | some r => a.sendChunks r.sequence r.bytes bitmap true)
  ∧ (∀ (s : State) (w : Who) (sequence : Nat), Up s w →
    exec (.chunkAck w sequence) s = agtDoes s w fun a =>
      let r : Rec := { a.rcv with records := a.rcv.records.filter fun r => r.sequence % 2 ^ 32 ≠ sequence }
      ({ a with rcv := r } : Agt).thaw)
  ∧ (∀ (s : State) (w : Who) (code partition : Nat) (body : Bytes), Up s w →
    exec (.controllerNotice w code partition body) s = agtDoes s w (·.notice code partition (body.take 112)))
  -- RECOVERY_CMD runs the first level the agent has at or above the one commanded, with origin CONTROLLER
  ∧ (∀ (s : State) (w : Who) (level target flags lv : Nat),
    Up s w → (s.agt w).die.safe = false → bitOf flags 1 = false → 1 ≤ level → level ≤ 5 → (s.agt w).isSwitch = false ∨ 4 ≤ level →
    (s.agt w).recLevel = 0 → (s.agt w).levelFrom level = some lv →
    exec (.recoveryCmd w level target flags) s = agtDoes s w fun a =>
      (({ a with rcv := { a.rcv with escalate := bitOf flags 0, lastTaken := 0 } } : Agt).onDie fun d =>
        d.fset Fl.WCH_STATUS_origin 2).runLevel lv target)
  -- RECOVERY_CMD at or below the level in progress is reported BUSY
  ∧ (∀ (s : State) (w : Who) (level target flags : Nat),
    Up s w → (s.agt w).die.safe = false → bitOf flags 1 = false → 1 ≤ level → level ≤ 5 → (s.agt w).isSwitch = false ∨ 4 ≤ level →
    level ≤ (s.agt w).recLevel →
    exec (.recoveryCmd w level target flags) s = agtDoes s w fun a => a.report level reportBusy)
  -- RECOVERY_CMD above the level in progress ends that level, and its dump, as FAILED, and the level commanded runs
  ∧ (∀ (s : State) (w : Who) (level target flags lv : Nat),
    Up s w → (s.agt w).die.safe = false → bitOf flags 1 = false → 1 ≤ level → level ≤ 5 → (s.agt w).isSwitch = false ∨ 4 ≤ level →
    (s.agt w).recLevel ≠ 0 → (s.agt w).recLevel < level → (s.agt w).levelFrom level = some lv →
    exec (.recoveryCmd w level target flags) s = agtDoes s w fun a =>
      let b := a.cutDump.stopTray.report a.recLevel reportFailed
      (({ b with rcv := { b.rcv with escalate := bitOf flags 0, lastTaken := 0 } } : Agt).onDie fun d =>
        d.fset Fl.WCH_STATUS_origin 2).runLevel lv target)
  -- RECOVERY_CMD for a level that the agent does not have, and at a switch for one below 4, answers FAILED
  ∧ (∀ (s : State) (w : Who) (level target flags : Nat),
    Up s w → (s.agt w).die.safe = false → bitOf flags 1 = false → level = 0 ∨ 5 < level ∨ ((s.agt w).isSwitch = true ∧ level < 4) →
    exec (.recoveryCmd w level target flags) s = agtDoes s w fun a => a.report level reportFailed)
  -- MEMDATA: the second half of a block makes it VALID
  ∧ (∀ (s : State) (w : Who) (tag blk : Nat) (data lo : Bytes) (d : Dump),
    Up s w → (s.agt w).rcv.dump = some d → d.reads.find? (fun x => x.1 = tag) = some (tag, blk, 1) →
    (s.agt w).die.takeWait Blk.WCH = (false, (s.agt w).die) → data.length = 2048 →
    (s.agt w).die.up ≤ d.issuedNs + 2000 →
    d.halves.find? (fun x => x.1 = blk && x.2.1 = 0) = some (blk, 0, lo) → d.halves.find? (fun x => x.1 = blk && x.2.1 = 1) = none →
    exec (.memdata w tag data) s = agtDoes s w fun a =>
      a.blockEnds { d with reads := d.reads.filter (fun x => x.1 ≠ tag), halves := d.halves ++ [(blk, 1, data)] } blk (.valid (lo ++ data)))
  -- MEMDATA after 2 µs: the block is NO_ANSWER and the data late
  ∧ (∀ (s : State) (w : Who) (tag blk half : Nat) (data : Bytes) (d : Dump),
    Up s w → (s.agt w).rcv.dump = some d → d.reads.find? (fun x => x.1 = tag) = some (tag, blk, half) →
    (s.agt w).die.takeWait Blk.WCH = (false, (s.agt w).die) → d.issuedNs + 2000 < (s.agt w).die.up →
    exec (.memdata w tag data) s = agtDoes s w fun a => (a.blockEnds d blk .noAnswer).count Reg.WCH_CNT_LATE_ARRIVAL)
  -- MEMDATA that no read awaits is late
  ∧ (∀ (s : State) (w : Who) (tag : Nat) (data : Bytes), Up s w → (s.agt w).rcv.dump = none →
    exec (.memdata w tag data) s = agtDoes s w fun a => a.count Reg.WCH_CNT_LATE_ARRIVAL)
  -- DUMP_BLOCK_TIMEOUT: a block without its data 2 µs after its read is NO_ANSWER, in a register block from the dump's start on
  ∧ (∀ (s : State) (w : Who) (blk : Nat) (d : Dump), Up s w → (s.agt w).rcv.dump = some d → d.result blk = none → blk < 16 →
    d.begunNs + 2000 ≤ (s.agt w).die.up →
    exec (.dumpBlockTimeout (.agt w) blk) s = agtDoes s w fun a => a.blockEnds d blk .noAnswer)
  ∧ (∀ (s : State) (w : Who) (blk : Nat) (d : Dump), Up s w → (s.agt w).rcv.dump = some d → d.result blk = none → 16 ≤ blk →
    d.reads.any (fun x => x.2.1 = blk) = true → d.issuedNs + 2000 ≤ (s.agt w).die.up →
    exec (.dumpBlockTimeout (.agt w) blk) s = agtDoes s w fun a => a.blockEnds d blk .noAnswer)
  ∧ (∀ (s : State) (blk : Nat) (d : Dump), On s → s.ctl.rcv.dump = some d → d.result blk = none → blk < 108 →
    d.begunNs + 2000 ≤ s.ctl.die.up →
    exec (.dumpBlockTimeout .ctl blk) s = ctlDoes s fun c =>
      let v := c.die.freeVal
      { c with die := v.2.countN Reg.DMP_CNT_LATE_ARRIVAL (v.1.toNat % 2), rcv := { c.rcv with dump := some (d.put blk .noAnswer) } })
  -- CHUNK_FETCH: the chunks of the record whose bit is clear go again
  ∧ (∀ (s : State) (w : Who) (seq count bitmap : Nat) (r : DumpRec), Up s w →
    ((s.agt w).rcv.records.find? fun r => r.sequence % 2 ^ 32 = seq) = some r →
    exec (.chunkFetch w seq count bitmap) s = agtDoes s w fun a => a.sendChunks r.sequence r.bytes bitmap true)

/-! ## Patterns -/

/-- R86, R89, R101, R469: a Pattern's file comes to an agent's loader, and leaves it. -/
def Obligations.PatternStream : Prop :=
  -- every command of the group answers a next state: that of its own effect
  (∀ (s : State), On s → Takes s.ctl.die Blk.PAT →
    exec (.patStart .ctl) s = ctlDoes s Ctl.patStart)
  ∧ (∀ (s : State) (w : Who), Up s w → Takes (s.agt w).die Blk.PAT →
    exec (.patStart (.agt w)) s = agtDoes s w fun a => a)
  ∧ (∀ (s : State), On s → Takes s.ctl.die Blk.PAT →
    exec (.patAbort .ctl) s = ctlDoes s Ctl.patAbort)
  ∧ (∀ (s : State) (w : Who), Up s w → Takes (s.agt w).die Blk.PAT →
    exec (.patAbort (.agt w)) s = agtDoes s w Agt.patAbortCmd)
  ∧ (∀ (s : State) (w : Who) (inBond : Nat) (wm : Worm), Up s w →
    exec (.patternData w inBond wm) s = agtDoes s w fun a => a.patternData inBond wm)
  ∧ (∀ (s : State) (w : Who), Up s w →
    exec (.patternStreamAbandon w) s = agtDoes s w fun a => if a.die.fget Fl.PAT_STATUS_state = 1 ∧ 20000000 + a.die.pat.acceptedNs ≤ a.die.up then a.patAbort else a)
  ∧ (∀ (s : State) (w : Who), Up s w →
    exec (.epochSlotFree w) s = agtDoes s w Agt.epochSlotFree)
  -- PATTERN_DATA: the first worm of a file, whose CRC agrees, begins a stream in an idle loader
  ∧ (∀ (s : State) (w : Who) (inBond : Nat) (wm : Worm),
    Up s w → (s.agt w).die.fget Fl.PAT_STATUS_state = 0 → Worm.opnd wm 12 4 = 0 → (s.agt w).fid ≠ 0x3FFFF →
    crc32c (slice wm.payload 0 (min wm.payload.length (min 2048 (Worm.opnd wm 16 4)))) = Worm.opnd wm 20 4 →
    exec (.patternData w inBond wm) s = agtDoes s w fun a =>
      ({ a with die := { a.die.fset Fl.PAT_STATUS_state 1 with pat :=
          { a.die.pat with stream := Worm.opnd wm 8 4, fileLen := Worm.opnd wm 16 4, bytes := [], accepted := 0, pattern := none } } } : Agt).patTake
        (slice wm.payload 0 (min wm.payload.length (min 2048 (Worm.opnd wm 16 4)))))
  -- PATTERN_DATA: the worm that is next in its stream is taken
  ∧ (∀ (s : State) (w : Who) (inBond : Nat) (wm : Worm),
    Up s w → (s.agt w).die.fget Fl.PAT_STATUS_state = 1 → Worm.opnd wm 8 4 = (s.agt w).die.pat.stream →
    Worm.opnd wm 12 4 = (s.agt w).die.pat.bytes.length →
    crc32c (slice wm.payload 0 (min wm.payload.length (min 2048 (Worm.opnd wm 16 4 - Worm.opnd wm 12 4)))) = Worm.opnd wm 20 4 →
    exec (.patternData w inBond wm) s = agtDoes s w fun a =>
      a.patTake (slice wm.payload 0 (min wm.payload.length (min 2048 (Worm.opnd wm 16 4 - Worm.opnd wm 12 4)))))
  -- PATTERN_DATA: the start of another stream while one is loaded raises PATTERN_BUSY
  ∧ (∀ (s : State) (w : Who) (inBond : Nat) (wm : Worm),
    Up s w → (s.agt w).die.fget Fl.PAT_STATUS_state ≠ 0 → Worm.opnd wm 12 4 = 0 → Worm.opnd wm 8 4 ≠ (s.agt w).die.pat.stream →
    exec (.patternData w inBond wm) s = agtDoes s w fun a => a.raise Ev.PATTERN_BUSY)
  -- PATTERN_DATA: a worm that is neither is discarded and counted
  ∧ (∀ (s : State) (w : Who) (inBond : Nat) (wm : Worm),
    Up s w → (s.agt w).die.fget Fl.PAT_STATUS_state = 1 → Worm.opnd wm 8 4 = (s.agt w).die.pat.stream →
    Worm.opnd wm 12 4 < (s.agt w).die.pat.bytes.length →
    exec (.patternData w inBond wm) s = agtDoes s w fun a => a.count Reg.MBX_CNT_PAT_DISCARD)
  -- PATTERN_STREAM_ABANDON: a stream in course is discarded after 20 ms without an accepted worm, not before
  ∧ (∀ (s : State) (w : Who), Up s w → (s.agt w).die.up < (s.agt w).die.pat.acceptedNs + 20000000 →
    exec (.patternStreamAbandon w) s = agtDoes s w id)
  ∧ (∀ (s : State) (w : Who), Up s w → (s.agt w).die.fget Fl.PAT_STATUS_state = 1 →
    (s.agt w).die.pat.acceptedNs + 20000000 ≤ (s.agt w).die.up →
    exec (.patternStreamAbandon w) s = agtDoes s w Agt.patAbort)
  -- EPOCH_SLOT_FREE: once the drain bound has passed, the inactive slot is marked invalid
  ∧ (∀ (s : State) (w : Who), Up s w → (s.agt w).regime = false → (s.agt w).die.getN Reg.LKP_SLOT_FREE_AT ≠ 0 →
    (s.agt w).die.getN Reg.LKP_SLOT_FREE_AT ≤ (s.agt w).die.ns →
    exec (.epochSlotFree w) s = agtDoes s w fun a =>
      (a.setSlotValid (a.epoch + 1) false).onDie fun d => d.setN Reg.LKP_SLOT_FREE_AT 0)
  -- PAT_START at the controller while a file is loaded raises PATTERN_BUSY
  ∧ (∀ (s : State), On s → Takes s.ctl.die Blk.PAT → s.ctl.die.fget Fl.PAT_STATUS_state ≠ 0 →
    exec (.patStart .ctl) s = ctlDoes s fun c => c.raise Ev.PATTERN_BUSY)
  -- PAT_START at the controller: the file is read from the Pattern area, and its header and rows are checked
  ∧ (∀ (s : State) (c : Ctl) (b : Bytes), On s → Takes s.ctl.die Blk.PAT → s.ctl.die.fget Fl.PAT_STATUS_state = 0 →
    s.ctl.memRead (s.ctl.die.getN Reg.PAT_SRC_ADDR) (s.ctl.die.getN Reg.PAT_SRC_LEN) = (c, b, false) → 256 ≤ b.length →
    exec (.patStart .ctl) s = ctlDoes s fun _ =>
      let c := c.onDie fun d => { (d.fset Fl.PAT_STATUS_state 1) with pat := { d.pat with bytes := b, fileLen := b.length } }
      match prefixFail (c.loadEnv (Config.shake256 (b.take 256))) b.length b with
      | some f => c.patRefuse f.code f.detail f.row
      | none => c.onDie fun d => { (d.fset Fl.PAT_STATUS_state 2) with pat := { d.pat with pattern := some (patternOf b) } })
  -- PAT_ABORT discards what the loader holds before activation
  ∧ (∀ (s : State) (w : Who), Up s w → Takes (s.agt w).die Blk.PAT →
    1 ≤ (s.agt w).die.fget Fl.PAT_STATUS_state → (s.agt w).die.fget Fl.PAT_STATUS_state ≤ 3 →
    exec (.patAbort (.agt w)) s = agtDoes s w Agt.patAbort)
  ∧ (∀ (s : State), On s → Takes s.ctl.die Blk.PAT →
    1 ≤ s.ctl.die.fget Fl.PAT_STATUS_state → s.ctl.die.fget Fl.PAT_STATUS_state ≤ 3 →
    exec (.patAbort .ctl) s = ctlDoes s fun c => c.onDie fun d => d.patIdle 3 0 0 0)

/-- R86, R90, R94, R96: a Pattern that is whole is verified and staged, and takes effect at its boundary. -/
def Obligations.PatternStaging : Prop :=
  -- every command of the group answers a next state: that of its own effect
  (∀ (s : State), On s →
    exec (.patternStaged .ctl) s = ctlDoes s fun c => c.works Blk.PAT Ctl.patStaged)
  ∧ (∀ (s : State) (w : Who), Up s w →
    exec (.patternStaged (.agt w)) s = agtDoes s w Agt.patStaged)
  ∧ (∀ (s : State), On s →
    exec (.patternActivate .ctl) s = ctlDoes s fun c => c.works Blk.PAT Ctl.patActivate)
  ∧ (∀ (s : State) (w : Who), Up s w →
    exec (.patternActivate (.agt w)) s = agtDoes s w Agt.patActivateCmd)
  -- PATTERN_STAGED: the file-wide checks and those of the rows decide. A failing check refuses the Pattern with its code and detail; with
  -- every check passed it is STAGED, with its course and digest shown, and an immediate one takes effect
  ∧ (∀ (s : State) (w : Who) (p : Pattern),
    Up s w → (s.agt w).die.pat.pattern = some p → (s.agt w).die.fget Fl.PAT_STATUS_state = 2 → (s.agt w).fwd.mirrorWait = [] →
    (s.agt w).patRange p p.rows = none → (p.immediate = true ∨ (s.agt w).courseBegun p = false) →
    exec (.patternStaged (.agt w)) s = agtDoes s w fun a =>
      match fileFail p.header p.rows (rowsPart a.die.pat.bytes) with
      | some f => a.patRefuse f.1 f.2 0xFFFFFFFF
      | none =>
        match a.patFail p p.rows with
        | some f => a.patRefuse f.1 f.2 (failRow (a.patFail p) p.rows f p.rows.length)
        | none =>
          let a := a.onDie fun d => ((d.fset Fl.PAT_STATUS_state 3).setN Reg.PAT_STAGED_COURSE p.activateCourse).setDigest
            Reg.PAT_STAGED_DIGEST0 (headerDigest p)
          if p.immediate = true then a.patBoundary p else a)
  -- PATTERN_STAGED: a row out of its ranges refuses it first; one staged after its course began is late
  ∧ (∀ (s : State) (w : Who) (p : Pattern) (f : Nat × Nat),
    Up s w → (s.agt w).die.pat.pattern = some p → (s.agt w).die.fget Fl.PAT_STATUS_state = 2 → (s.agt w).fwd.mirrorWait = [] →
    (s.agt w).patRange p p.rows = some f →
    exec (.patternStaged (.agt w)) s = agtDoes s w fun a => a.patRefuse f.1 f.2 (failRow (a.patRange p) p.rows f p.rows.length))
  ∧ (∀ (s : State) (w : Who) (p : Pattern),
    Up s w → (s.agt w).die.pat.pattern = some p → (s.agt w).die.fget Fl.PAT_STATUS_state = 2 → (s.agt w).fwd.mirrorWait = [] →
    (s.agt w).patRange p p.rows = none → fileFail p.header p.rows (rowsPart (s.agt w).die.pat.bytes) = none →
    (s.agt w).patFail p p.rows = none → p.immediate = false → (s.agt w).courseBegun p = true →
    exec (.patternStaged (.agt w)) s = agtDoes s w fun a => a.patRefuse 5 0x72 0xFFFFFFFF)
  -- PATTERN_STAGED at the controller, of a BASE Pattern
  ∧ (∀ (s : State) (p : Pattern),
    On s → s.ctl.die.pat.pattern = some p → s.ctl.die.fget Fl.PAT_STATUS_state = 2 → p.immediate = true ∨ s.ctl.courseBegun p = false →
    exec (.patternStaged .ctl) s = ctlDoes s fun c => c.works Blk.PAT fun c =>
      match fileFail p.header p.rows (rowsPart c.die.pat.bytes) with
      | some f => c.patRefuse f.1 f.2 0xFFFFFFFF
      | none => match c.baseFail p with
        | some f => c.patRefuse f.1 f.2 0xFFFFFFFF
        | none =>
          let c := c.onDie fun d => ((d.fset Fl.PAT_STATUS_state 3).setN Reg.PAT_STAGED_COURSE p.activateCourse).setDigest
            Reg.PAT_STAGED_DIGEST0 (headerDigest p)
          if p.immediate = true then c.patBoundary p else c)
  -- PATTERN_ACTIVATE: the staged Pattern's course begins
  ∧ (∀ (s : State) (w : Who) (p : Pattern) (d : Die),
    Up s w → (s.agt w).die.pat.pattern = some p → (s.agt w).die.fget Fl.PAT_STATUS_state = 3 → (s.agt w).courseBegun p = true →
    (s.agt w).die.takeWait Blk.PAT = (false, d) →
    exec (.patternActivate (.agt w)) s = agtDoes s w fun a => ({ a with die := d } : Agt).patBoundary p)
  ∧ (∀ (s : State) (p : Pattern) (d : Die),
    On s → s.ctl.die.pat.pattern = some p → s.ctl.die.fget Fl.PAT_STATUS_state = 3 → p.immediate = true ∨ s.ctl.courseBegun p = true →
    s.ctl.die.takeWait Blk.PAT = (false, d) →
    exec (.patternActivate .ctl) s = ctlDoes s fun c => c.works Blk.PAT fun c => ({ c with die := d } : Ctl).patBoundary p)
  -- the boundary is refused in the safe state, and else the Pattern becomes active
  ∧ (∀ (a : Agt) (p : Pattern), a.die.safe = true → a.patBoundary p = a.patRefuse 5 0x73 0xFFFFFFFF)
  ∧ (∀ (a : Agt) (p : Pattern), a.die.safe = false → a.shareInUse p = false → a.patBoundary p = a.activate p)
  ∧ (∀ (c : Ctl) (p : Pattern), c.die.safe = true → c.patBoundary p = c.patRefuse 5 0x73 0xFFFFFFFF)
  ∧ (∀ (c : Ctl) (p : Pattern), c.die.safe = false → c.kst.jobs = [] → c.patBoundary p = c.activateBase p)

/-- R93, R304, R308, R469: what the controller does with the reports of discovery and of Pattern streams. -/
def Obligations.NamingReports : Prop :=
  -- every command of the group answers a next state: that of its own effect
  (∀ (s : State) (fid : Nat) (lanes : List Nat) (blk : IdBlock), On s →
    exec (.neighbourReport fid lanes blk) s = ctlDoes s fun c => c.neighbourReport fid lanes blk)
  ∧ (∀ (s : State) (dieId : Nat), On s →
    exec (.nameResultTimeout dieId) s = ctlDoes s fun c => c.nameTimeout dieId)
  ∧ (∀ (s : State) (fid stream next : Nat), On s →
    exec (.patternProgress fid stream next) s = ctlDoes s fun c => c.progressed fid stream next)
  ∧ (∀ (s : State) (fid : Nat) (digest : Digest) (result code detail rowSeq : Nat), On s →
    exec (.patternResultTake fid digest result code detail rowSeq) s = ctlDoes s fun c =>
      let naming : Bool := match tget c.cst.agents fid with
        | some a => a.naming
        | none => false
      let c := c.patternResult fid digest result code
      (if naming then c.fdsLate fid else c).fdsRetry)
  -- NEIGHBOUR_REPORT of a named agent: the group is compared with the plan and the counts of R317 follow
  ∧ (∀ (s : State) (fid : Nat) (lanes : List Nat) (blk : IdBlock) (near : AgentRec),
    On s → ((s.ctl.cst.agents.map (·.2)).find? fun a => a.fid = fid && a.named && !a.lost) = some near → lanes ≠ [] →
    exec (.neighbourReport fid lanes blk) s = ctlDoes s fun c => ((c.takeGroup near lanes blk).countAgents false).countLinks)
  -- NAME_RESULT_TIMEOUT: 1 s after naming, what the sponsor last reported of the agent decides
  ∧ (∀ (s : State) (dieId : Nat) (a : AgentRec) (r : Nat × List Nat × IdBlock × Nat),
    On s → a.namedAt + 1000000000 ≤ s.ctl.die.up → ((s.ctl.cst.agents.map (·.2)).find? fun a => a.dieId = dieId && a.naming) = some a →
    (s.ctl.cst.reports.filter fun r => r.2.2.1.dieId = dieId).getLast? = some r →
    exec (.nameResultTimeout dieId) s = ctlDoes s fun c => c.seenProgress a r.2.2.1)
  -- PATTERN_PROGRESS of the stream in course moves it on
  ∧ (∀ (s : State) (fid next : Nat) (st : Stream), On s → s.ctl.streamOf fid = some st →
    exec (.patternProgress fid st.stream next) s = ctlDoes s fun c => (c.setStream { st with reported := next, next := next }).pump fid)
  -- PATTERN_RESULT_TAKE with ACTIVE of an agent already named: its record, its stream ends, and deferred distributions are tried again
  ∧ (∀ (s : State) (fid code detail row : Nat) (digest : Digest) (a : AgentRec) (st : Stream),
    On s → tget s.ctl.cst.agents fid = some a → a.naming = false → s.ctl.streamOf fid = some st →
    st.digest = leNat ((digestBytes digest).take 16) →
    exec (.patternResultTake fid digest 1 code detail row) s = ctlDoes s fun c =>
      (((c.tookPattern a st).streamDone fid).countAgents false).fdsRetry)

/-! ## Cast-on at an agent -/

/-- R4, R5, R233, R264, R266, R302, R521, R544, R547: reset, self test and the modules to the host. -/
def Obligations.AgentReset : Prop :=
  -- every command of the group answers a next state: that of its own effect
  (∀ (s : State) (w : Who) (r : SelfTest), Up s w →
    exec (.selfTestDone w r) s = agtDoes s w fun a => a.selfTestDone r)
  ∧ (∀ (s : State) (w : Who) (module : Nat), Up s w →
    exec (.ucieModuleFail w module) s = agtDoes s w fun a => a.moduleFail module)
  ∧ (∀ (s : State) (w : Who) (module : Nat), Up s w →
    exec (.ucieModuleTrained w module) s = agtDoes s w fun a => a.moduleTrained module)
  -- AGENT_RESET_DEASSERT with a mode that the agent may have: everything is fresh but storage, MODE_SEL and TEST_EN are sampled, the ROM
  -- boots, and test mode is measured; the embedded agent is strapped to its mode
  ∧ (∀ (s : State) (w : Who) (modeSel : Nat) (testEn : Bool),
    (s.agt w).pins.rstN = false → (s.agt w).die.part = .embedded ∨ modeSel % 4 < 2 →
    exec (.agentResetDeassert w modeSel testEn) s = agtDoes s w fun a =>
      let mode := if a.die.part = .embedded then 2 else modeSel % 4
      let b := (((a.again { a.pins with rstN := true, pwrgd := true, modeSel := mode }).onDie fun d =>
        { d.fset Fl.AGT_IDENT_mode mode with testEn := testEn }).setCast 1).boot
      if testEn then b.extendOwn 3 0x22 [] else b)
  -- a reserved mode: the agent stays in its failed state with mode_invalid set and ALERT_N asserted
  ∧ (∀ (s : State) (w : Who) (modeSel : Nat) (testEn : Bool),
    (s.agt w).pins.rstN = false → (s.agt w).die.part ≠ .embedded → 2 ≤ modeSel % 4 →
    exec (.agentResetDeassert w modeSel testEn) s = agtDoes s w fun a =>
      (((a.again { a.pins with rstN := true, pwrgd := true, modeSel := modeSel % 4 }).onDie fun d =>
        { d.fset Fl.AGT_IDENT_mode (modeSel % 4) with testEn := testEn }).onDie fun d =>
        (d.fset Fl.AGT_IDENT_mode_invalid 1).driveAlert false).setCast 0xF)
  -- AGENT_RESET_DEASSERT of an agent already out of reset changes nothing
  ∧ (∀ (s : State) (w : Who) (modeSel : Nat) (testEn : Bool), Up s w →
    exec (.agentResetDeassert w modeSel testEn) s = agtDoes s w id)
  -- AGENT_RESET_ASSERT: back to RESET; ALERT_N and TRAY_REQ_N are released, which shows where the agent drove them
  ∧ (∀ (s : State) (w : Who),
    exec (.agentResetAssert w) s = agtDoes s w fun a =>
      let b := a.again { a.pins with rstN := false, trayReqN := true }
      let b := if a.die.alertN then b else b.emit (.pin "ALERT_N" true)
      if a.pins.trayReqN then b else b.emit (.pin "TRAY_REQ_N" true))
  -- PWRGD_FALL is a reset with PWRGD low
  ∧ (∀ (s : State) (w : Who),
    exec (.pwrgdFall w) s = agtDoes s w fun a =>
      let b := a.again { a.pins with rstN := false, pwrgd := false, trayReqN := true }
      let b := if a.die.alertN then b else b.emit (.pin "ALERT_N" true)
      if a.pins.trayReqN then b else b.emit (.pin "TRAY_REQ_N" true))
  -- SELF_TEST_DONE with enough banks, lanes and UCIe lanes: the maps apply, the recorder starts and WAIT_HOST follows
  ∧ (∀ (s : State) (w : Who) (r : SelfTest) (a' : Agt),
    Up s w → (s.agt w).castState = 1 → (working 68 64 r.badBanks).length = 64 → r.badUcie = [] →
    a' = (let b := (s.agt w).mapPurl r.badLanes
          ({ b with cast := { b.cast with banks := working 68 64 r.badBanks, ucieMap := r.ucieMap.foldl (fun t p => tset t p.1 p.2) [] } } : Agt)) →
    a'.die.fget Fl.AGT_BOOT_rom_result ≠ 3 →
    exec (.selfTestDone w r) s = agtDoes s w fun _ =>
      let a := a'.onDie fun d => (d.fset Fl.EVR_STATUS_mode 0).drainFallback
      (({ a with cast := { a.cast with modules := (List.range 8).map fun k => if a.die.resource.ucie.getD k 0 = 0 then 0 else 1 } } : Agt).setCast
        2).countModules)
  -- SELF_TEST_DONE with too few banks, or a UCIe lane without a spare: the maps apply and the agent stays in SELF_TEST
  ∧ (∀ (s : State) (w : Who) (r : SelfTest),
    Up s w → (s.agt w).castState = 1 → (working 68 64 r.badBanks).length < 64 ∨ r.badUcie ≠ [] →
    exec (.selfTestDone w r) s = agtDoes s w fun a =>
      let b := a.mapPurl r.badLanes
      ({ b with cast := { b.cast with banks := working 68 64 r.badBanks, ucieMap := r.ucieMap.foldl (fun t p => tset t p.1 p.2) [] } } : Agt).onDie
        fun d => d.fset Fl.AGT_BOOT_self_test_fail 1)
  -- UCIE_MODULE_TRAINED: a module in training is UP, and a control module brings the credits
  ∧ (∀ (s : State) (w : Who) (k : Nat), Up s w → (s.agt w).cast.modules.getD k 0 = 1 →
    exec (.ucieModuleTrained w k) s = agtDoes s w fun a =>
      let a := (a.setModule k 2).countModules
      if a.die.resource.ucie.getD k 0 = 3 then a.grantCredits else a)
  -- UCIE_MODULE_FAIL: the module is fenced, what it carried is lost, the data modules are counted anew, and the event of its function is raised
  ∧ (∀ (s : State) (w : Who) (k : Nat), Up s w → k < 8 → (s.agt w).cast.modules.getD k 0 ≠ 3 →
    (s.agt w).die.resource.ucie.getD k 0 ≠ 0 → (s.agt w).die.resource.ucie.getD k 0 ≠ 3 →
    exec (.ucieModuleFail w k) s = agtDoes s w fun a =>
      ((a.setModule k 3).losePresented k).countModules.onDie fun d => d.raiseFence Ev.UCIE_MODULE_DOWN k)
  ∧ (∀ (s : State) (w : Who) (k : Nat), Up s w → k < 8 → (s.agt w).cast.modules.getD k 0 ≠ 3 →
    (s.agt w).die.resource.ucie.getD k 0 = 3 →
    exec (.ucieModuleFail w k) s = agtDoes s w fun a =>
      ((a.setModule k 3).losePresented k).countModules.onDie fun d => d.raiseFence Ev.UCIE_CONTROL_DOWN k)

/-- R29, R298, R299, R320, R322: the lanes of an agent. -/
def Obligations.Lanes : Prop :=
  -- every command of the group answers a next state: that of its own effect
  (∀ (s : State) (lane : Nat) (src : TrainSrc) (cls eyeH eyeW : Nat) (settings : Bytes),
    exec (.laneTrainDone .twd lane src cls eyeH eyeW settings) s
      = agtDoes s .twd (·.trainDone lane src cls eyeH eyeW settings))
  ∧ (∀ (s : State) (lane : Nat) (src : TrainSrc) (cls eyeH eyeW : Nat) (settings : Bytes),
    ¬ ((s.emb.lane lane).state = 1 ∧ (s.emb.lane lane).training = some src) →
    exec (.laneTrainDone .emb lane src cls eyeH eyeW settings) s
      = agtDoes s .emb (·.trainDone lane src cls eyeH eyeW settings))
  ∧ (∀ (s : State) (lane : Nat) (src : TrainSrc) (cls eyeH eyeW : Nat) (settings : Bytes),
    (s.emb.lane lane).state = 1 → (s.emb.lane lane).training = some src →
    exec (.laneTrainDone .emb lane src cls eyeH eyeW settings) s
      = dieDoes (s.onAgt .emb fun a => a.trainDone lane src cls eyeH eyeW settings) .ctl fun d =>
        let d := if src = .full then d.count Reg.FAB_CNT_TRAIN_FULL else d
        if eyeOk src (s.emb.lane lane) eyeH eyeW then d else d.count Reg.FAB_CNT_TRAIN_FAIL)
  ∧ (∀ (s : State) (w : Who) (lane : Nat), Up s w →
    exec (.laneRetrainTimer w lane) s = agtDoes s w fun a => a.retrainTimer lane)
  ∧ (∀ (s : State) (w : Who) (lane : Nat), Up s w →
    exec (.laneRejoin w lane) s = agtDoes s w fun a => a.rejoin lane)
  ∧ (∀ (s : State) (w : Who) (lane : Nat), Up s w →
    exec (.laneLoss w lane) s = agtDoes s w fun a => a.laneLoss lane)
  ∧ (∀ (s : State) (w : Who), Up s w → Takes (s.agt w).die Blk.LNK →
    exec (.lnkRetrain w) s = agtDoes s w fun a => a.retrainLane (a.die.bget Reg.LNK_LANE_SEL 7 0))
  ∧ (∀ s : State, On s → Takes s.ctl.die Blk.FAB → Up s .emb →
    exec .fabRetrain s = agtDoes s .emb (·.retrainLane (s.ctl.die.bget Reg.FAB_LANE_SEL 4 0)))
  -- LANE_TRAIN_DONE of the packaged agent: an eye that meets its source's bound trains the lane
  ∧ (∀ (s : State) (l cls h w : Nat) (src : TrainSrc) (settings : Bytes),
    (s.twd.lane l).state = 1 → (s.twd.lane l).training = some src → eyeOk src (s.twd.lane l) h w = true →
    exec (.laneTrainDone .twd l src cls h w settings) s = agtDoes s .twd fun a =>
      (a.trained l src cls h w settings).bootRetrain.startWaiting.checkReady)
  -- one that does not fails: LNK_CNT_TRAIN_FAIL counts; from saved settings full training follows, else the lane is UNTRAINED
  ∧ (∀ (s : State) (l cls h w : Nat) (src : TrainSrc) (settings : Bytes),
    (s.twd.lane l).state = 1 → (s.twd.lane l).training = some src → eyeOk src (s.twd.lane l) h w = false →
    exec (.laneTrainDone .twd l src cls h w settings) s = agtDoes s .twd fun a =>
      let a := a.count Reg.LNK_CNT_TRAIN_FAIL
      (if src = .saved then a.trainFrom l .full else a.untrained l).bootRetrain.startWaiting.checkReady)
  -- LANE_TRAIN_DONE of the embedded agent: the same at the agent, and the controller counts its full and its failed trainings
  ∧ (∀ (s : State) (l cls h w : Nat) (src : TrainSrc) (settings : Bytes),
    (s.emb.lane l).state = 1 → (s.emb.lane l).training = some src → eyeOk src (s.emb.lane l) h w = true →
    exec (.laneTrainDone .emb l src cls h w settings) s =
      dieDoes (s.onAgt .emb fun a => (a.trained l src cls h w settings).bootRetrain.startWaiting.checkReady) .ctl fun d =>
        if src = .full then d.count Reg.FAB_CNT_TRAIN_FULL else d)
  -- a source that is not the one in course ends nothing
  ∧ (∀ (s : State) (a : Who) (l cls h w : Nat) (src : TrainSrc) (settings : Bytes),
    ((s.agt a).lane l).state ≠ 1 ∨ ((s.agt a).lane l).training ≠ some src →
    exec (.laneTrainDone a l src cls h w settings) s = agtDoes s a id)
  -- LANE_RETRAIN_TIMER: nothing before the lane's 30 s; then an untrained lane trains, by full training once the agent is named, and a
  -- failed lane trains from what it has
  ∧ (∀ (s : State) (w : Who) (l : Nat), Up s w → (s.agt w).die.up < ((s.agt w).lane l).retryNs →
    exec (.laneRetrainTimer w l) s = agtDoes s w id)
  ∧ (∀ (s : State) (w : Who) (l : Nat), Up s w → ((s.agt w).lane l).retryNs ≤ (s.agt w).die.up → ((s.agt w).lane l).state = 5 →
    exec (.laneRetrainTimer w l) s = agtDoes s w fun a =>
      (a.startTrainingFrom l (if a.castState < 4 then .boot else .full)).count Reg.LNK_CNT_RETRY)
  ∧ (∀ (s : State) (w : Who) (l : Nat), Up s w → ((s.agt w).lane l).retryNs ≤ (s.agt w).die.up → ((s.agt w).lane l).state = 0 →
    0 < ((s.agt w).lane l).retryNs →
    exec (.laneRetrainTimer w l) s = agtDoes s w fun a => (a.startTraining l).count Reg.LNK_CNT_RETRY)
  -- LANE_REJOIN
  ∧ (∀ (s : State) (w : Who) (l : Nat), Up s w → ((s.agt w).lane l).ready = true → ((s.agt w).lane l).state = 2 →
    exec (.laneRejoin w l) s = agtDoes s w fun a => (a.modLane l fun x => { x with ready := false }).joinBond l)
  -- LANE_LOSS of a lane that its bond uses beside others narrows the bond
  ∧ (∀ (s : State) (w : Who) (l : Nat) (b : Bond), Up s w → ((s.agt w).lane l).trained = true →
    tget (s.agt w).fwd.bonds ((s.agt w).lane l).bond = some b → b.active.contains l = true → 1 < b.active.length →
    ((s.agt w).lane l).far = none →
    exec (.laneLoss w l) s = agtDoes s w fun a =>
      ((a.modLane l fun x => { x with state := 0, ready := false, retryNs := a.die.up + retryNs, wants := none }).withdraw l).raise
        Ev.BOND_NARROWED (a.lane l).bond)
  -- LANE_LOSS of a bond's last lane fails the bond: DOWN, BOND_FAILED and a FAILOVER report
  ∧ (∀ (s : State) (w : Who) (l : Nat) (b : Bond), Up s w → ((s.agt w).lane l).trained = true →
    tget (s.agt w).fwd.bonds ((s.agt w).lane l).bond = some b → b.active = [l] → ((s.agt w).lane l).far = none →
    exec (.laneLoss w l) s = agtDoes s w fun a =>
      ((a.modLane l fun x => { x with state := 0, ready := false, retryNs := a.die.up + retryNs, wants := none }).withdraw l).bondFailed (a.lane l).bond)
  -- LNK_RETRAIN trains the selected lane, unless it is held, quarantined or in training
  ∧ (∀ (s : State) (w : Who), Up s w → Takes (s.agt w).die Blk.LNK →
    (s.agt w).die.bget Reg.LNK_LANE_SEL 7 0 < (s.agt w).laneCount →
    [0, 2, 5].contains ((s.agt w).lane ((s.agt w).die.bget Reg.LNK_LANE_SEL 7 0)).state = true →
    exec (.lnkRetrain w) s = agtDoes s w fun a => a.startTraining (a.die.bget Reg.LNK_LANE_SEL 7 0))
  -- FAB_RETRAIN trains the selected lane of the embedded agent, unless it is held, quarantined or in training
  ∧ (∀ (s : State), On s → Up s .emb → Takes s.ctl.die Blk.FAB → s.ctl.die.bget Reg.FAB_LANE_SEL 4 0 < s.emb.laneCount →
    [0, 2, 5].contains (s.emb.lane (s.ctl.die.bget Reg.FAB_LANE_SEL 4 0)).state = true →
    exec .fabRetrain s = agtDoes s .emb fun a => a.startTraining (s.ctl.die.bget Reg.FAB_LANE_SEL 4 0))

/-- R300, R301, R307, R381, R464, R541: identity blocks, the keys of naming and the loss of REFCLK. -/
def Obligations.IdentityAndKeys : Prop :=
  -- every command of the group answers a next state: that of its own effect
  (∀ (s : State) (w : Who) (lane : Nat) (blk : IdBlock), Up s w →
    exec (.identityBlock w lane blk) s = agtDoes s w fun a => a.identityBlock lane blk)
  ∧ (∀ (s : State) (w : Who) (inBond : Nat) (wm : Worm), Up s w →
    exec (.keyEncaps w inBond wm) s = agtDoes s w fun a => a.keyEncaps wm)
  ∧ (∀ s : State, Up s .twd → exec (.refclkLoss (.agt .twd)) s = agtDoes s .twd (·.fence 0xFFFF))
  ∧ (∀ s : State, Up s .emb →
    exec (.refclkLoss .ctl) s = ctlDoes (s.onAgt .emb (·.fence 0xFFFF)) Ctl.refclkLoss
    ∧ exec (.refclkLoss (.agt .emb)) s = ctlDoes (s.onAgt .emb (·.fence 0xFFFF)) Ctl.refclkLoss)
  -- IDENTITY_BLOCK over a trained lane: the lane is checked, the far skew noted, the sponsor's epoch bit kept, and a block that is new
  -- is reported
  ∧ (∀ (s : State) (w : Who) (l : Nat) (blk : IdBlock), Up s w → ((s.agt w).lane l).trained = true →
    exec (.identityBlock w l blk) s = agtDoes s w fun a =>
      let b := ((a.modLane l fun x => { x with far := some blk, heard := true }).laneCheck l blk).modLink (a.lane l).bond fun k =>
        { k with farSkew := ofTwos 32 blk.skew }
      let b := if b.regime && b.castState ≥ 4 && b.cast.sponsorLane = some l then
          b.onDie fun d => d.fset Fl.AGT_CST_STATUS_sponsor_epoch_bit blk.epochBit
        else b
      if (a.lane l).far = some blk ∧ (a.lane l).heard = true then b.checkReady else b.checkReady.reportGroup blk)
  -- a block of another fabric's agent holds the lane
  ∧ (∀ (a : Agt) (l : Nat) (blk : IdBlock), blk.fabricId ≠ 0 → a.die.getN Reg.AGT_FABRIC_ID ≠ 0 → blk.fabricId ≠ a.die.getN Reg.AGT_FABRIC_ID →
    a.laneCheck l blk = (a.withdraw l).modLane l fun x => { x with state := 3, detail := 7 })
  -- a link level outside the window quarantines the lane
  ∧ (∀ (a : Agt) (l : Nat) (blk : IdBlock), blk.fabricId = 0 → (a.lane l).state = 2 → levelsMeet a.die.fw.linkLevel blk.linkLevel = false →
    a.laneCheck l blk = (a.modLane l fun x => { x with state := 4 }).raise Ev.LNK_LINK_QUARANTINE l)
  -- KEY_ENCAPS of a CONTROLLER worm at an UNNAMED agent: the three keys of R381, and the wrap sequence restarts
  ∧ (∀ (s : State) (w : Who) (inBond : Nat) (wm : Worm), Up s w → markPriv (wormMark wm) = 2 → (s.agt w).castState = 3 →
    exec (.keyEncaps w inBond wm) s = agtDoes s w fun a =>
      ({ a with gcm := { a.gcm with keys := some (agentKeysOf (Config.kemDecaps (agentKeyName a.dieId) (slice wm.payload 0 1568)) a.dieId
        wm.dstFid (fieldAt wm.payload 1568 8)) } } : Agt).onDie fun d => d.setN Reg.GCM_WRAP_SEQ 0)
  -- a worm of another privilege is denied
  ∧ (∀ (s : State) (w : Who) (inBond : Nat) (wm : Worm), Up s w → markPriv (wormMark wm) ≠ 2 →
    exec (.keyEncaps w inBond wm) s = agtDoes s w fun a => a.onDie Die.markDenied)
  -- an agent that is not UNNAMED refuses it
  ∧ (∀ (s : State) (w : Who) (inBond : Nat) (wm : Worm), Up s w → markPriv (wormMark wm) = 2 → (s.agt w).castState ≠ 3 →
    exec (.keyEncaps w inBond wm) s = agtDoes s w fun a => a.count Reg.GCM_CNT_WRAP_REFUSED)


/-! ## Cast-on at the controller -/

/-- R290 to R292, R311, R317, R349: the controller's cast-on steps. -/
def Obligations.CastOnSteps : Prop :=
  -- every command of the group answers a next state: that of its own effect
  (∀ (s : State) (val : Word), On s →
    exec (.cstRun val) s = .next (s.cstRun val.toNat))
  ∧ (∀ (s : State), On s → Takes s.ctl.die Blk.CST →
    exec (.cstAbort) s = ctlDoes s Ctl.cstAbort)
  ∧ (∀ (s : State) (code detail : Nat) (fully : Bool) (ms : Nat) (defects : List Nat) (found : List (Nat × Nat)), On s →
    exec (.cstStepComplete code detail fully ms defects found) s = ctlDoes s fun c => c.stepComplete s.emb code detail fully ms defects found)
  ∧ (∀ (s : State) (ms : Nat) (unaligned : List Nat), On s →
    exec (.cstStepTimeout ms unaligned) s = ctlDoes s fun c => c.stepTimeout s.emb ms unaligned)
  ∧ (∀ (s : State) (found : List (Nat × Nat)), On s →
    exec (.discoveryQuiet found) s = ctlDoes s fun c => c.quiet found)
  -- CST_RUN of a step that may not run: the code is written to its register, and nothing starts
  ∧ (∀ (s : State) (val : Word) (code : Nat), On s → bitOf val.toNat 4 = true → 1 ≤ bitsOf val.toNat 3 0 → bitsOf val.toNat 3 0 ≤ 10 →
    s.ctl.die.blockFenced Blk.CST = false → s.ctl.stepRefusal (bitsOf val.toNat 3 0) = some code →
    exec (.cstRun val) s = ctlDoes s fun c => c.onDie fun d => d.bset (Reg.CST_STEP1 + 8 * (bitsOf val.toNat 3 0 - 1)) 15 8 code)
  -- CST_RUN of a step that may run: RUNNING in its register and in CST_STATUS; what it starts follows (here step 3, which starts no other unit)
  ∧ (∀ (s : State) (val : Word), On s → bitOf val.toNat 4 = true → bitsOf val.toNat 3 0 = 3 →
    s.ctl.die.blockFenced Blk.CST = false → s.ctl.stepRefusal 3 = none →
    exec (.cstRun val) s = ctlDoes s fun c =>
      (((({ c with cst := { c.cst with running := some (3, bitOf val.toNat 6) } } : Ctl).setStep 3 1 0 0 0 0).onDie
        (·.bset Reg.CST_STATUS 3 0 3)).onDie (·.bset Reg.CST_STATUS 5 4 1)))
  -- a step is refused in the safe state, while another runs, and before the one before it is DONE
  ∧ (∀ (c : Ctl) (k : Nat), c.die.safe = true → c.stepRefusal k = some 0xF3)
  ∧ (∀ (c : Ctl) (k : Nat), c.die.safe = false → 2 ≤ k → c.stepDone (k - 1) = false → c.stepRefusal k = some 0xF1)
  -- CST_ABORT: the step ends with ABORTED; its duration is open
  ∧ (∀ (s : State) (k : Nat) (full : Bool), On s → Takes s.ctl.die Blk.CST → s.ctl.cst.running = some (k, full) →
    exec .cstAbort s = ctlDoes s fun c => c.openMs.1.endStep k 0xF2 0 false c.openMs.2)
  -- CST_STEP_COMPLETE: the step ends with the failure its own work shows, else with the code reported
  ∧ (∀ (s : State) (k own ownDetail code detail ms : Nat) (full fully : Bool) (defects : List Nat) (found : List (Nat × Nat)) (d : Die) (c' : Ctl),
    On s → s.ctl.cst.running = some (k, full) → s.ctl.stepBusy k = false → s.ctl.die.takeWait Blk.CST = (false, d) →
    ({ s.ctl with die := d } : Ctl).stepWork s.emb k full (({ s.ctl with die := d } : Ctl).trainedFully k full fully) defects = (c', own, ownDetail) →
    own ≠ 0 → k ≠ 7 →
    exec (.cstStepComplete code detail fully ms defects found) s = ctlDoes s fun c =>
      c'.endStep k own ownDetail (({ c with die := d } : Ctl).trainedFully k full fully) ms)
  ∧ (∀ (s : State) (k ms : Nat) (full fully : Bool) (defects : List Nat) (found : List (Nat × Nat)) (d : Die) (c' : Ctl),
    On s → s.ctl.cst.running = some (k, full) → s.ctl.stepBusy k = false → s.ctl.die.takeWait Blk.CST = (false, d) →
    ({ s.ctl with die := d } : Ctl).stepWork s.emb k full (({ s.ctl with die := d } : Ctl).trainedFully k full fully) defects = (c', 0, 0) →
    exec (.cstStepComplete 0 0 fully ms defects found) s = ctlDoes s fun c =>
      let t := ({ c with die := d } : Ctl).trainedFully k full fully
      (c'.stepDoneWork s.emb k t [] found).endStep k 0 0 t ms)
  -- while the state shows the step's work under way, the step does not end without a failure
  ∧ (∀ (s : State) (k ms : Nat) (full fully : Bool) (defects : List Nat) (found : List (Nat × Nat)), On s →
    s.ctl.cst.running = some (k, full) → s.ctl.stepBusy k = true →
    exec (.cstStepComplete 0 0 fully ms defects found) s = ctlDoes s fun c => c)
  -- CST_STEP_TIMEOUT: TIMEOUT for a step other than 8, discovery ending with step 7; step 8 is judged by the embedded agent's lock
  ∧ (∀ (s : State) (k ms : Nat) (full : Bool) (unaligned : List Nat), On s → s.ctl.cst.running = some (k, full) → k ≠ 7 → k ≠ 8 →
    exec (.cstStepTimeout ms unaligned) s = ctlDoes s fun c => c.endStep k 0xF0 0 false ms)
  ∧ (∀ (s : State) (ms : Nat) (full : Bool) (unaligned : List Nat), On s → s.ctl.cst.running = some (7, full) →
    exec (.cstStepTimeout ms unaligned) s = ctlDoes s fun c => c.endDiscovery.endStep 7 0xF0 0 false ms)
  ∧ (∀ (s : State) (ms : Nat) (full : Bool) (unaligned : List Nat), On s → s.ctl.cst.running = some (8, full) → s.emb.plbState = 2 →
    exec (.cstStepTimeout ms unaligned) s = ctlDoes s fun c => (c.endPlumb unaligned).endStep 8 0 0 false ms)
  ∧ (∀ (s : State) (ms : Nat) (full : Bool) (unaligned : List Nat), On s → s.ctl.cst.running = some (8, full) → s.emb.plbState ≠ 2 →
    exec (.cstStepTimeout ms unaligned) s = ctlDoes s fun c => c.endStep 8 0x70 0 false ms)
  -- DISCOVERY_QUIET: step 7 ends DONE once quiet_s seconds passed since the last naming and every named agent is READY, not before
  ∧ (∀ (s : State) (full : Bool) (found : List (Nat × Nat)), On s → s.ctl.cst.running = some (7, full) →
    s.ctl.cst.lastNaming + 156250000 * s.ctl.die.fget Fl.CST_CFG_quiet_s ≤ s.ctl.die.clk.tick →
    (∀ p ∈ s.ctl.cst.agents, (p.2.named = true ∨ p.2.naming = true) → p.2.lost = false → 5 ≤ p.2.state) →
    exec (.discoveryQuiet found) s = ctlDoes s fun c =>
      (c.openMs.1.endDiscovery.discovered found).endStep 7 0 0 (c.openMs.1.trainedFully 7 full false) c.openMs.2)
  ∧ (∀ (s : State) (full : Bool) (found : List (Nat × Nat)), On s → s.ctl.cst.running = some (7, full) →
    s.ctl.die.clk.tick < s.ctl.cst.lastNaming + 156250000 * s.ctl.die.fget Fl.CST_CFG_quiet_s →
    exec (.discoveryQuiet found) s = ctlDoes s fun c => c)
  -- how a step ends: DONE, or FAILED with its code and the event
  ∧ (∀ (c : Ctl) (k ms : Nat), c.endStep k 0 0 false ms =
      let c := (c.setStep k 2 0 0 0 ms).onDie (·.bset Reg.CST_STATUS 5 4 2)
      { c with cst := { c.cst with running := none } })
  ∧ (∀ (c : Ctl) (k code detail ms : Nat), code ≠ 0 → c.endStep k code detail false ms =
      let c := (c.setStep k 3 0 code detail ms).onDie (·.bset Reg.CST_STATUS 5 4 3)
      (({ c with cst := { c.cst with running := none } } : Ctl).stopWork k).raise Ev.CST_STEP_FAILED k)

/-! ## Plumb -/

/-- What a probe that arrived leaves on its bond: what its sender shows, the two stamps, and whether the sender stopped showing chain_locked. -/
def Sys2Proof.Claim.heardProbe (old : Link) (far rx echo : Nat) (l : Link) : Link :=
  { l with farState := far, stopped := !(bitOf far 3) && (old.stopped || bitOf old.farState 3), rxLast := rx, rxEcho := echo, rxAge := 0 }

/-- R163, R165 to R171, R174: probes and the follower. -/
def Obligations.PlumbProbes : Prop :=
  -- every command of the group answers a next state: that of its own effect
  (∀ (s : State) (w : Who), Up s w →
    exec (.probeSend w) s = agtDoes s w fun a => a.works Blk.PLB Agt.probeSend)
  ∧ (∀ (s : State) (w : Who) (bond : Nat) (wm : Worm) (t2 : Nat), Up s w →
    exec (.probeReceive w bond wm t2) s = agtDoes s w fun a => a.works Blk.PLB fun a => a.probeReceive bond wm t2)
  ∧ (∀ (s : State) (w : Who), Up s w →
    exec (.parentLoss w) s = agtDoes s w Agt.parentLoss)
  ∧ (∀ (s : State) (w : Who), Up s w →
    exec (.holdoverExpire w) s = agtDoes s w Agt.holdoverExpire)
  -- PROBE_SEND at a probe instant, once: misses are noted, HOLDOVER counts a period, each bond of `probeBonds` gets a probe stamped with it
  ∧ (∀ (s : State) (w : Who) (t : Nat), Up s w → (s.agt w).probeInstant = some t → (s.agt w).fid ≠ 0x3FFFF → (s.agt w).lastProbe ≠ some t →
    tget (s.agt w).fwd.bonds (s.agt w).parentBond = none → (s.agt w).plbState ≠ 3 →
    exec (.probeSend w) s = agtDoes s w fun a => a.works Blk.PLB fun a =>
      let a : Agt := { a with lastProbe := some t, fwd := { a.fwd with bonds := a.fwd.bonds.map fun x =>
        (x.1, { x.2 with link := { x.2.link with missed := if x.2.link.seen then 0 else x.2.link.missed + 1, seen := false } }) } }
      a.probeBonds.foldl (fun a x => a.sendProbe x.1 x.2 t) a)
  -- no probe is sent at another moment, twice at one instant, or without a FID
  ∧ (∀ (s : State) (w : Who), Up s w → (s.agt w).probeInstant = none → exec (.probeSend w) s = agtDoes s w fun a => a)
  ∧ (∀ (s : State) (w : Who) (t : Nat), Up s w → (s.agt w).probeInstant = some t → ((s.agt w).fid = 0x3FFFF ∨ (s.agt w).lastProbe = some t) →
    exec (.probeSend w) s = agtDoes s w fun a => a)
  -- PROBE_RECEIVE: a probe addressed to the agent that completes no exchange is noted on its bond, stamped at the resolution of R169
  ∧ (∀ (s : State) (w : Who) (n t2 : Nat) (wm : Worm) (b : Bond), Up s w → headerFault wm (syndromeOf wm) = false →
    (s.agt w).fid ≠ 0x3FFFF → wm.dstFid = (s.agt w).fid → tget (s.agt w).fwd.bonds n = some b →
    b.link.echoes (Worm.opnd wm 22 10) = false →
    exec (.probeReceive w n wm t2) s = agtDoes s w fun a => a.works Blk.PLB fun a => (a.modLink n (heardProbe b.link (Worm.opnd wm 10 1 % 16) (stampOf t2) (Worm.opnd wm 0 10))).updateChain)
  -- PROBE_RECEIVE: one that does completes the exchange of R171; on the parent bond the follower reacts
  ∧ (∀ (s : State) (w : Who) (n t2 : Nat) (wm : Worm) (b : Bond) (a' : Agt) (theta : Int), Up s w → headerFault wm (syndromeOf wm) = false →
    (s.agt w).fid ≠ 0x3FFFF → wm.dstFid = (s.agt w).fid → tget (s.agt w).fwd.bonds n = some b →
    b.link.echoes (Worm.opnd wm 22 10) = true →
    (a', theta) = (let a := (s.agt w).modLink n (heardProbe b.link (Worm.opnd wm 10 1 % 16) (stampOf t2) (Worm.opnd wm 0 10))
          let e := exchange (Worm.opnd wm 0 10) (stampOf t2) (Worm.opnd wm 22 10) (Worm.opnd wm 12 10) (a.asym b)
          (a.tookExchange n e.1 e.2, e.2)) →
    exec (.probeReceive w n wm t2) s = agtDoes s w fun a => a.works Blk.PLB fun _ =>
      (if a'.isParent n theta then (a'.useParent n).follow n theta else a').updateChain)
  -- PROBE_RECEIVE of a probe for another agent
  ∧ (∀ (s : State) (w : Who) (n t2 : Nat) (wm : Worm), Up s w → headerFault wm (syndromeOf wm) = false →
    (s.agt w).fid ≠ 0x3FFFF → wm.dstFid ≠ (s.agt w).fid →
    exec (.probeReceive w n wm t2) s = agtDoes s w fun a => a.works Blk.PLB fun a => a.count Reg.PLB_CNT_PROBE_MISROUTE)
  -- the exchange: d is (t2 - t1) + (t4 - t3), theta is (t2 - t1) - (t4 - t3) and the bond's asymmetry
  ∧ (∀ (t1 t2 t3 t4 : Nat) (asym : Int),
    exchange t1 t2 t3 t4 asym = (satU 48 (((t2 : Int) - t1) + ((t4 : Int) - t3)).toNat, ((t2 : Int) - t1) - ((t4 : Int) - t3) + asym))
  -- LINK_SETTLED
  ∧ (∀ (s : State) (w : Who) (n : Nat), Up s w →
    exec (.linkSettled w n) s = agtDoes s w fun a => a.modLink n fun l => if l.state = 1 ∧ l.settle = 0 then { l with state := 0 } else l)
  -- PARENT_LOSS after two periods without a VALID exchange, or when the parent stopped showing chain_locked: the first alternate that is
  -- VALID and chain_locked takes over
  ∧ (∀ (s : State) (w : Who) (n : Nat) (b x : Bond), Up s w → (s.agt w).parentBond < 0xFE →
    tget (s.agt w).fwd.bonds (s.agt w).parentBond = some b → (2 ≤ b.link.missed ∨ b.link.stopped = true) →
    ((s.agt w).plbState = 1 ∨ (s.agt w).plbState = 2) →
    (s.agt w).alternates = [n] → n ≠ (s.agt w).parentBond → tget (s.agt w).fwd.bonds n = some x → x.link.state = 2 →
    bitOf x.link.farState 3 = true →
    exec (.parentLoss w) s = agtDoes s w fun a =>
      (((({ a with parentPending := false } : Agt).useParent n).count Reg.PLB_CNT_PARENT_SWITCH).raise Ev.PLUMB_PARENT_SWITCH n).updateChain)
  -- PARENT_LOSS without one: HOLDOVER, the rate word held at f
  ∧ (∀ (s : State) (w : Who) (b : Bond), Up s w → (s.agt w).parentBond < 0xFE →
    tget (s.agt w).fwd.bonds (s.agt w).parentBond = some b → (2 ≤ b.link.missed ∨ b.link.stopped = true) →
    ((s.agt w).plbState = 1 ∨ (s.agt w).plbState = 2) → (s.agt w).alternates = [] →
    exec (.parentLoss w) s = agtDoes s w fun a => (((a.setPlb 3).setRate a.rateF a.rateF).raise Ev.PLUMB_HOLDOVER).updateChain)
  -- HOLDOVER_EXPIRE: UNALIGNED after hold_limit periods
  ∧ (∀ (s : State) (w : Who), Up s w → (s.agt w).plbState = 3 →
    (s.agt w).die.bget Reg.PLB_WINDOW 15 8 ≤ (s.agt w).die.fget Fl.PLB_STATUS_holdover_periods →
    exec (.holdoverExpire w) s = agtDoes s w fun a => (a.setPlb 4).updateChain)

/-- The load of PLB_MASTER_LOAD, taken at the next tick. -/
def Sys2Proof.Claim.loadsMaster (c : Ctl) (lo hi : Nat) : Ctl :=
  let d := (c.die.setN Reg.PLB_MASTER_LOAD_LO lo).setN Reg.PLB_MASTER_LOAD_HI (bitsOf hi 15 0)
  { c with die := { d with clk := { d.clk with load := some (lo % 2 ^ 64 + bitsOf hi 15 0 * 2 ^ 64) } } }

/-- R45, R46, R161 to R163, R175, R186 to R188: the plumb registers, the reference tick and the plumb pins. -/
def Obligations.PlumbTime : Prop :=
  -- every command of the group answers a next state: that of its own effect
  (∀ (s : State) (w : Who), Up s w → Takes (s.agt w).die Blk.PLB →
    exec (.plbReload w) s = agtDoes s w Agt.plbReload)
  ∧ (∀ (s : State) (w : Who) (val : Word), Up s w → Takes (s.agt w).die Blk.PLB →
    exec (.plbParentWrite w val) s = agtDoes s w (·.writeParent val.toNat))
  ∧ (∀ (s : State) (val : Word), On s → Takes s.ctl.die Blk.PLB →
    exec (.masterModeWrite val) s = ctlDoes s (·.masterMode val.toNat))
  ∧ (∀ (s : State) (val : Word), On s → Takes s.ctl.die Blk.PLB →
    exec (.masterLoad val) s = ctlDoes s (·.masterLoadOver none val.toNat))
  ∧ (∀ (s : State) (val : Word), On s → Takes s.ctl.die Blk.PLB →
    exec (.masterRateWrite val) s = ctlDoes s (·.masterRate val.toNat))
  ∧ (∀ (s : State) (stamp : Nat), On s →
    exec (.triggerEdge .ctl stamp) s = ctlDoes s fun c => c.onDie (·.trigger stamp))
  ∧ (∀ (s : State) (w : Who) (stamp : Nat), Up s w →
    exec (.triggerEdge (.agt w) stamp) s = agtDoes s w fun a => if a.die.resource.plumbIo = 2 then a.onDie (·.trigger stamp) else a)
  ∧ (∀ (s : State) (course : Nat), On s →
    exec (.courseMark .ctl course) s = ctlDoes s fun c => c.onDie (·.courseMark "PLUMB_REF_OUT" course))
  ∧ (∀ (s : State) (w : Who) (course : Nat), Up s w →
    exec (.courseMark (.agt w) course) s = agtDoes s w fun a => if a.die.resource.plumbIo = 1 then a.onDie (·.courseMark "PLUMB_IO" course) else a)
  ∧ (∀ s : State, Up s .twd →
    exec (.referenceTick (.agt .twd)) s = agtDoes s .twd fun a => a.tick.windowTick a.die.ns)
  ∧ (∀ s : State, exec (.referenceTick .ctl) s = .next s.moduleTick ∧ exec (.referenceTick (.agt .emb)) s = .next s.moduleTick)
  -- PLB_RELOAD, and its refusal while the agent is a member of a partition
  ∧ (∀ (s : State) (w : Who), Up s w → Takes (s.agt w).die Blk.PLB → (s.agt w).tenant = none → (s.agt w).fwd.course = [] →
    exec (.plbReload w) s = agtDoes s w fun a => (a.setPlb 0).updateChain)
  ∧ (∀ (s : State) (w : Who), Up s w → Takes (s.agt w).die Blk.PLB → (s.agt w).tenant ≠ none →
    exec (.plbReload w) s = agtDoes s w fun a => a.raise (Ev.LOCKED_WRITE Blk.PLB))
  -- PLB_PARENT_WRITE: 0xFE names a parent only in embedded mode
  ∧ (∀ (s : State) (w : Who) (val : Word), Up s w → Takes (s.agt w).die Blk.PLB → bitsOf val.toNat 7 0 ≠ 0xFE →
    exec (.plbParentWrite w val) s = agtDoes s w fun a =>
      ({ a.onDie fun d => d.setN Reg.PLB_PARENT (bitsOf val.toNat 7 0 + bitsOf val.toNat 23 8 * 2 ^ 8) with parentPending := true } : Agt).updateChain)
  ∧ (∀ (s : State) (w : Who) (val : Word), Up s w → Takes (s.agt w).die Blk.PLB → bitsOf val.toNat 7 0 = 0xFE → (s.agt w).mode ≠ 2 →
    exec (.plbParentWrite w val) s = agtDoes s w fun a =>
      (a.onDie fun d => d.setN Reg.PLB_PARENT (d.bget Reg.PLB_PARENT 7 0 + bitsOf val.toNat 23 8 * 2 ^ 8)).raise (Ev.WRITE_IGNORED Blk.PLB))
  -- MASTER_MODE_WRITE to FOLLOW
  ∧ (∀ (s : State) (val : Word), On s → Takes s.ctl.die Blk.PLB → val.toNat % 2 = 1 →
    exec (.masterModeWrite val) s = ctlDoes s fun c => c.onDie fun d => d.bset Reg.PLB_MASTER_CTL 0 0 1)
  -- leaving FOLLOW, PLB_MASTER_RATE takes the copied rate word and the plumb tree is asked for
  ∧ (∀ (s : State) (val : Word), On s → Takes s.ctl.die Blk.PLB → val.toNat % 2 = 0 → s.ctl.follows = true →
    exec (.masterModeWrite val) s = ctlDoes s fun c =>
      ({ c with sol := { c.sol with others := c.sol.others.filter (· ≠ 6) ++ [6] } } : Ctl).onDie fun d =>
        (d.setN Reg.PLB_MASTER_RATE (toTwos 32 d.clk.rate)).bset Reg.PLB_MASTER_CTL 0 0 0)
  -- MASTER_LOCK
  ∧ (∀ (s : State), On s → Takes s.ctl.die Blk.PLB →
    exec .masterLock s = ctlDoes s fun c => c.onDie fun d => (d.bset Reg.PLB_MASTER_CTL 8 8 1).fset Fl.CTL_LOCK_plumb 1)
  -- MASTER_LOAD: taken at the next tick with the low word last written on any path; locked, it is ignored with the event
  ∧ (∀ (s : State) (val : Word), On s → Takes s.ctl.die Blk.PLB → s.ctl.die.fget Fl.CTL_LOCK_plumb = 1 → s.ctl.die.heldLoad none = none →
    exec (.masterLoad val) s = ctlDoes s fun c => c.raise (Ev.LOCKED_WRITE Blk.PLB))
  ∧ (∀ (s : State) (val : Word), On s → Takes s.ctl.die Blk.PLB → s.ctl.die.fget Fl.CTL_LOCK_plumb ≠ 1 → s.ctl.die.heldLoad none = none →
    exec (.masterLoad val) s = ctlDoes s fun c => loadsMaster c (c.die.getN Reg.PLB_MASTER_LOAD_LO) val.toNat)
  ∧ (∀ (s : State) (val : Word) (h : HeldWrite), On s → Takes s.ctl.die Blk.PLB → s.ctl.die.fget Fl.CTL_LOCK_plumb ≠ 1 →
    s.ctl.die.heldLoad none = some h →
    exec (.masterLoad val) s = ctlDoes s fun c =>
      (loadsMaster c h.val.toNat val.toNat).onDie fun d => { d with held := d.held.filter (· ≠ h) })
  -- MASTER_RATE_WRITE: ignored in FOLLOW; else in force from the next tick
  ∧ (∀ (s : State) (val : Word), On s → Takes s.ctl.die Blk.PLB → s.ctl.follows = true →
    exec (.masterRateWrite val) s = ctlDoes s fun c => c)
  ∧ (∀ (s : State) (val : Word), On s → Takes s.ctl.die Blk.PLB → s.ctl.follows = false →
    exec (.masterRateWrite val) s = ctlDoes s fun c => c.onDie fun d =>
      { (d.setN Reg.PLB_MASTER_RATE (bitsOf val.toNat 31 0)) with clk := { d.clk with rate := ofTwos 32 (bitsOf val.toNat 31 0) } })
  -- TRIGGER_EDGE
  ∧ (∀ (s : State) (stamp : Nat), On s → s.ctl.die.trig.length < 16 →
    exec (.triggerEdge .ctl stamp) s = ctlDoes s fun c => c.onDie fun d => { d with trig := d.trig ++ [stampOf stamp] })
  ∧ (∀ (s : State) (stamp : Nat), On s → 16 ≤ s.ctl.die.trig.length →
    exec (.triggerEdge .ctl stamp) s = ctlDoes s fun c => c.onDie fun d => d.bsat Reg.PLB_TRIG_HI 47 32 1)
  ∧ (∀ (s : State) (w : Who) (stamp : Nat), Up s w → (s.agt w).die.resource.plumbIo ≠ 2 →
    exec (.triggerEdge (.agt w) stamp) s = agtDoes s w fun a => a)
  -- COURSE_MARK
  ∧ (∀ (s : State) (course : Nat), On s → course % 2 ^ (min 16 (s.ctl.die.bget Reg.PLB_IO_CFG 4 0)) = 0 →
    exec (.courseMark .ctl course) s = ctlDoes s fun c => c.onDie fun d =>
      (d.emit (.pin "PLUMB_REF_OUT" true)).emit (.pin "PLUMB_REF_OUT" false))
  ∧ (∀ (s : State) (w : Who) (course : Nat), Up s w → (s.agt w).die.resource.plumbIo = 1 →
    course % 2 ^ (min 16 ((s.agt w).die.bget Reg.PLB_IO_CFG 4 0)) ≠ 0 →
    exec (.courseMark (.agt w) course) s = agtDoes s w fun a => a)
  -- REFERENCE_TICK of the packaged agent: the clock steps, slots that ended count at the tap, a telemetry window that it ends is closed
  ∧ (∀ (s : State), Up s .twd →
    exec (.referenceTick (.agt .twd)) s = agtDoes s .twd fun a =>
      ((a.onDie Die.tick).tapSlots a.die.ns (a.onDie Die.tick).die.ns).windowTick a.die.ns)
  -- REFERENCE_TICK of the controller and its embedded agent, which share the module's reference: the agent first, then the master,
  -- which the agent takes where its parent is 0xFE
  ∧ (∀ (s : State), exec (.referenceTick .ctl) s =
      .next (((s.onAgt .emb Agt.tick).onCtl fun _ => (s.onAgt .emb Agt.tick).ctl.tickAll (s.onAgt .emb Agt.tick).emb).onAgt .emb fun a =>
        (a.rootTick ((s.onAgt .emb Agt.tick).ctl.tickAll (s.onAgt .emb Agt.tick).emb).die.clk).windowTick s.emb.die.ns))
  ∧ (∀ (s : State), exec (.referenceTick (.agt .emb)) s = exec (.referenceTick .ctl) s)

/-! ## Purl and the tap -/

/-- R180, R244, R246 to R250, R255, R261: inputs and runs of the Purl engine. -/
def Obligations.PurlRuns : Prop :=
  -- every command of the group answers a next state: that of its own effect
  (∀ (s : State) (w : Who) (course slot outBond collective : Nat), Up s w →
    exec (.injectRunLaunch w course slot outBond collective) s = agtDoes s w fun a => a.injectLaunch course slot outBond collective)
  ∧ (∀ (s : State) (w : Who) (course slot outBond collective : Nat) (queuedInput : Bool), Up s w →
    exec (.emitRunSelect w course slot outBond collective queuedInput) s = agtDoes s w fun a => a.emitSelect course slot outBond collective queuedInput)
  ∧ (∀ (s : State) (w : Who) (course slot outBond collective : Nat), Up s w →
    exec (.emitRunLaunch w course slot outBond collective) s = agtDoes s w fun a => a.emitLaunch course slot outBond collective)
  ∧ (∀ (s : State) (w : Who) (inBond course slot : Nat) (wm : Worm), Up s w →
    exec (.purlInput w inBond course slot wm) s = agtDoes s w fun a => a.purlInput inBond course slot wm)
  -- PURL_INPUT that passes every check acts on its chunk (here without a transit key)
  ∧ (∀ (s : State) (w : Who) (inBond course slot k : Nat) (wm : Worm) (x : CourseEnt) (d : Desc),
    Up s w → (s.agt w).runEntry 4 course slot (fun x => x.inBond = inBond && x.partition = wm.partition) = some x →
    (s.agt w).die.part.noPurl = false → (s.agt w).isSwitch = true → (s.agt w).descOf x.collective = some (k, d) →
    (s.agt w).descEnded d = false → Worm.opnd wm 0 4 = x.collective → wm.op = 0xC2 → Worm.opnd wm 12 1 = 0 →
    d.wantLength 0 (Worm.opnd wm 8 4) (Worm.opnd wm 13 1) = some wm.length → (s.agt w).purlTagOk d.ent.partition wm = true →
    (((s.agt w).countDec wm true).purlFail d x course (runStart ((s.agt w).countDec wm true).fwd.course x 1024)
      (((s.agt w).countDec wm true).opened wm)) = none →
    ((s.agt w).countDec wm true).fwd.course = (s.agt w).fwd.course →
    exec (.purlInput w inBond course slot wm) s = agtDoes s w fun a =>
      (a.countDec wm true).purlTake k d x course (runStart a.fwd.course x 1024) ((a.countDec wm true).opened wm))
  -- an input for a collective without a descriptor is discarded in step 1 of R246
  ∧ (∀ (s : State) (w : Who) (inBond course slot : Nat) (wm : Worm) (x : CourseEnt),
    Up s w → (s.agt w).runEntry 4 course slot (fun x => x.inBond = inBond && x.partition = wm.partition) = some x →
    (s.agt w).die.part.noPurl = false → (s.agt w).isSwitch = true → (s.agt w).descOf x.collective = none →
    exec (.purlInput w inBond course slot wm) s = agtDoes s w fun a => a.purlDiscard 1 Reg.PRL_CNT_UNKNOWN)
  -- EMIT_RUN_SELECT of a run that has a result to carry: the chunk is rounded once, its flits kept for the launch, and the bond served
  ∧ (∀ (s : State) (w : Who) (course slot out col k flags count : Nat) (x : CourseEnt) (d : Desc) (c : Chunk),
    Up s w → (s.agt w).runEntry 5 course slot (fun x => x.outBond = out && x.collective = col) = some x →
    (s.agt w).die.part.noPurl = false → (s.agt w).isSwitch = true → (s.agt w).runSilent x none = false →
    (s.agt w).runSilent x ((s.agt w).transitSlot x.partition) = false → (s.agt w).descOf col = some (k, d) → (s.agt w).descEnded d = false →
    d.pickEmit out = some (c, false) → c.result = some (flags, count) →
    exec (.emitRunSelect w course slot out col false) s = agtDoes s w fun a =>
      let wm := a.purlWorm d c out course 0xC3 2 0 flags count (mread a.purl.store (d.addr c.chunk 0) (payloadBytes d.fmtOut (d.size c.chunk)))
      let c : Chunk := { c with sent := addBond c.sent out }
      let d := if c.inputs.all c.sent.contains then d.freeChunk c else d.setChunk c
      (a.setDesc k d).emitWorm course (runStart a.fwd.course x 1024) out wm)
  -- EMIT_RUN_SELECT with nothing to carry: an empty run
  ∧ (∀ (s : State) (w : Who) (course slot out col k : Nat) (queued : Bool) (x : CourseEnt) (d : Desc),
    Up s w → (s.agt w).runEntry 5 course slot (fun x => x.outBond = out && x.collective = col) = some x →
    (s.agt w).die.part.noPurl = false → (s.agt w).isSwitch = true → (s.agt w).runSilent x none = false →
    (s.agt w).runSilent x ((s.agt w).transitSlot x.partition) = false → (s.agt w).descOf col = some (k, d) → (s.agt w).descEnded d = false →
    d.pickEmit out = none →
    exec (.emitRunSelect w course slot out col queued) s = agtDoes s w fun a =>
      (a.count Reg.PRL_CNT_EMIT_EMPTY).count Reg.PLB_CNT_INJECT_EMPTY)
  -- EMIT_RUN_LAUNCH: the worm that its run selected leaves on the bond
  ∧ (∀ (s : State) (w : Who) (course slot out col : Nat) (x : CourseEnt) (e : Nat × Nat × Nat × Worm),
    Up s w → (s.agt w).runEntry 5 course slot (fun x => x.outBond = out && x.collective = col) = some x →
    ((s.agt w).purl.emits.find? fun e => e.1 = course && e.2.1 = runStart (s.agt w).fwd.course x 1024 && e.2.2.1 = out) = some e →
    (s.agt w).runSilent x none = false →
    exec (.emitRunLaunch w course slot out col) s = agtDoes s w fun a =>
      let a : Agt := { a with purl := { a.purl with emits := removeFirst (fun y => y = e) a.purl.emits } }
      (a.launch e.2.2.2 out (runStart a.fwd.course x 1024) course (a.transitSlot x.partition)).restartOwner 4)
  -- INJECT_RUN_LAUNCH: the oldest staged worm of the collective that the host presented by T_s - 64 ns leaves; its class's credit returns
  ∧ (∀ (s : State) (w : Who) (course slot out col : Nat) (x : CourseEnt) (p : PartEnt) (st : Staged),
    Up s w → (s.agt w).runEntry 1 course slot (fun x => x.outBond = out && x.collective = col) = some x →
    tget (s.agt w).fwd.parts x.partition = some p → p.trafficSlot = 0xFF → (s.agt w).isSwitch = false →
    (s.agt w).runSilent x none = false →
    (s.agt w).presentedFor col ((s.agt w).runTime course (runStart (s.agt w).fwd.course x 1024)) = some st →
    exec (.injectRunLaunch w course slot out col) s = agtDoes s w fun a =>
      let wm : Worm := { st.wm with partition := x.partition, operand := putOperand st.wm.operand 20 (le 8 course) }
      let a : Agt := { a with flow := { a.flow with stCol := removeFirst (fun y => y = st) a.flow.stCol } }
      ((a.launch wm out (runStart a.fwd.course x 1024) course none).tapCount x.partition 0 (64 * (1 + wm.length))).giveCredit 3)
  -- a worm presented later than that does not leave: the run is empty
  ∧ (∀ (s : State) (w : Who) (course slot out col : Nat) (x : CourseEnt) (p : PartEnt),
    Up s w → (s.agt w).runEntry 1 course slot (fun x => x.outBond = out && x.collective = col) = some x →
    tget (s.agt w).fwd.parts x.partition = some p → p.trafficSlot = 0xFF → (s.agt w).isSwitch = false →
    (s.agt w).runSilent x none = false →
    (∀ st ∈ (s.agt w).flow.stCol, Worm.opnd st.wm 0 4 = col →
      (s.agt w).runTime course (runStart (s.agt w).fwd.course x 1024) * 2 ^ 16 < st.since + 64 * 2 ^ 16) →
    exec (.injectRunLaunch w course slot out col) s = agtDoes s w fun a => a.count Reg.PLB_CNT_INJECT_EMPTY)

/-- R236, R237, R244, R263, R416, R440: chunk slots at a range start, fences of the engine, the store's access, and a tap interval. -/
def Obligations.PurlStoreAndTap : Prop :=
  -- every command of the group answers a next state: that of its own effect
  (∀ (s : State) (w : Who) (collective : Nat), Up s w →
    exec (.purlRangeStart w collective) s = agtDoes s w fun a => a.rangeStart collective)
  ∧ (∀ (s : State) (w : Who) (lane : Option Nat), Up s w →
    exec (.purlLaneFence w lane) s = agtDoes s w fun a => a.purlFence lane)
  ∧ (∀ (s : State) (w : Who) (path : Path) (val : Option Word), Up s w →
    exec (.prlStoAccess w path val) s = agtDoes s w fun a => a.stoAccess path val)
  ∧ (∀ (s : State) (w : Who) (interval : Nat) (energy : Energy), Up s w →
    exec (.tapIntervalRecord w interval energy) s = agtDoes s w fun a => a.works Blk.MTP fun a => a.tapInterval interval energy)
  -- PURL_RANGE_START: every chunk of the collective is FREE again, and what was held counts
  ∧ (∀ (s : State) (w : Who) (col k : Nat) (d : Desc), Up s w → (s.agt w).descOf col = some (k, d) →
    (s.agt w).inFirstCourse col d.ent.partition = true →
    exec (.purlRangeStart w col) s = agtDoes s w fun a =>
      (a.onDie fun x => x.countN Reg.PRL_CNT_RESET_DISCARD d.chunks.length).setDesc k { d with chunks := [], taken := [] })
  -- outside the range's first course it changes nothing
  ∧ (∀ (s : State) (w : Who) (col k : Nat) (d : Desc), Up s w → (s.agt w).descOf col = some (k, d) →
    (s.agt w).inFirstCourse col d.ent.partition = false → exec (.purlRangeStart w col) s = agtDoes s w fun a => a)
  -- PURL_LANE_FENCE of a logical lane ends the collectives that use it
  ∧ (∀ (s : State) (w : Who) (l : Nat), Up s w → (s.agt w).die.part.noPurl = false → l < (s.agt w).purl.map.length →
    (s.agt w).purl.fencedLanes.contains l = false →
    exec (.purlLaneFence w (some l)) s = agtDoes s w fun a =>
      (({ a with purl := { a.purl with fencedLanes := a.purl.fencedLanes ++ [l] } } : Agt).endDescs (some l)).onDie fun d =>
        d.raiseFence Ev.PURL_LANE_FENCED l)
  -- PURL_LANE_FENCE of the engine fences its block and ends every collective
  ∧ (∀ (s : State) (w : Who), Up s w → (s.agt w).die.part.noPurl = false → (s.agt w).die.blockFenced Blk.PRL = false →
    exec (.purlLaneFence w none) s = agtDoes s w fun a =>
      (a.endDescs none).onDie fun d => (d.fenceBlock Blk.PRL).raiseFence Ev.PURL_ENGINE_FENCED 0xFFFF)
  -- PRL_STO_ACCESS outside test mode: STORE_LOCKED, and it reads as zero
  ∧ (∀ (s : State) (w : Who) (path : Path) (val : Option Word), Up s w → (s.agt w).die.part.noPurl = false →
    (s.agt w).die.blockFenced Blk.PRL = false → (s.agt w).die.frozen Blk.PRL = false → (s.agt w).die.testEn = false →
    exec (.prlStoAccess w path val) s = agtDoes s w fun a => (a.raise Ev.STORE_LOCKED).emit (.access path 0 0))
  -- PRL_STO_ACCESS in test mode reads and writes the store's eight bytes at PRL_STO_ADDR
  ∧ (∀ (s : State) (w : Who) (path : Path), Up s w → (s.agt w).die.part.noPurl = false → (s.agt w).isSwitch = true →
    (s.agt w).die.blockFenced Blk.PRL = false → (s.agt w).die.frozen Blk.PRL = false → (s.agt w).die.testEn = true →
    (s.agt w).die.getN Reg.PRL_STO_ADDR + 8 ≤ recordBase →
    exec (.prlStoAccess w path none) s = agtDoes s w (fun a => a.emit (.access path 0
      (BitVec.ofNat 64 (leNat (mread a.purl.store (a.die.getN Reg.PRL_STO_ADDR) 8)))))
    ∧ ∀ v : Word, exec (.prlStoAccess w path (some v)) s = agtDoes s w fun a =>
      (a.setStore (mwrite a.purl.store (a.die.getN Reg.PRL_STO_ADDR) (le 8 v.toNat))).emit (.access path 0 0))
  -- a test's access at or above the chunk records reaches them in the engine's own layout, which the spec leaves open
  ∧ (∀ (s : State) (w : Who) (path : Path), Up s w → (s.agt w).die.part.noPurl = false → (s.agt w).isSwitch = true →
    (s.agt w).die.blockFenced Blk.PRL = false → (s.agt w).die.frozen Blk.PRL = false → (s.agt w).die.testEn = true →
    recordBase < (s.agt w).die.getN Reg.PRL_STO_ADDR + 8 → (s.agt w).die.getN Reg.PRL_STO_ADDR < storeSize →
    exec (.prlStoAccess w path none) s = agtDoes s w (fun a => a.emit (.access path 0
      (Config.recordRead a.records (a.die.getN Reg.PRL_STO_ADDR))))
    ∧ ∀ v : Word, exec (.prlStoAccess w path (some v)) s = agtDoes s w fun a =>
      (a.setRecords (Config.recordWrite a.records (a.die.getN Reg.PRL_STO_ADDR) v)).emit (.access path 0 0))
  -- TAP_INTERVAL_RECORD, once and when the interval's record is due: a record under each slot that sends, of the entries due, after the
  -- energy of the interval is added
  ∧ (∀ (s : State) (w : Who) (interval energy us : Nat), Up s w →
    us = max 1 (((s.agt w).tap.cfg.head?.map (·.intervalUs)).getD MeterEnt.initial.intervalUs) →
    tapDueNs (s.agt w).fid us interval ≤ (s.agt w).die.ns → (s.agt w).tap.sentNs < (interval + 1) * us * 1000 → (s.agt w).tap.energyOn = true →
    exec (.tapIntervalRecord w interval energy) s = agtDoes s w fun a => a.works Blk.MTP fun a =>
      let a := ({ a with tap := { a.tap with sentNs := (interval + 1) * us * 1000, energy := (a.tap.energy + energy) % 2 ^ 64 } } : Agt).openEntry 0
      let a := a.tapRecord 0 1 interval (a.tap.due 0)
      let a := a.tapRecord 1 1 interval (a.tap.due 1)
      let sent0 := a.tap.slot0.held && a.tap.slot0.sending
      let sent1 := a.tap.slot1.held && a.tap.slot1.sending
      let es := a.tap.entries.map fun e =>
        { e with dirty0 := e.dirty0 && !sent0, dirty1 := e.dirty1 && !sent1,
                 repeats := if e.open_ || !(sent0 || sent1) then e.repeats else e.repeats - 1 }
      { a with tap := { a.tap with entries := es.filter fun e => e.open_ || decide (0 < e.repeats) } })
  -- before that it sends nothing
  ∧ (∀ (s : State) (w : Who) (interval energy : Nat), Up s w →
    (s.agt w).die.ns < tapDueNs (s.agt w).fid (max 1 (((s.agt w).tap.cfg.head?.map (·.intervalUs)).getD MeterEnt.initial.intervalUs)) interval →
    exec (.tapIntervalRecord w interval energy) s = agtDoes s w fun a => a)

/-! ## The Sealed Meter -/

/-- R409 to R412, R417, R425: the meter's firmware, Pattern, start, tap keys and intake. -/
def Obligations.MeterIntake : Prop :=
  -- every command of the group answers a next state: that of its own effect
  (∀ (s : State) (val : Word), On s → Takes s.ctl.die Blk.MTR →
    exec (.meterLoadFw val) s = ctlDoes s fun c => (c.meterLoadFw val.toNat).rowInForce c.meter.pattern)
  ∧ (∀ (s : State), On s → Takes s.ctl.die Blk.MTR →
    exec (.meterLoadPattern) s = ctlDoes s Ctl.meterLoadPattern)
  ∧ (∀ (s : State), 1 ≤ s.ctl.pwr.phase ∧ s.ctl.pwr.phase ≤ 3 →
    exec (.meterStart) s = ctlDoes s (fun c => c.meterStart.rowInForce c.meter.pattern))
  ∧ (∀ (s : State) (w : Who) (inBond : Nat) (wm : Worm), Up s w →
    exec (.meterEncaps w inBond wm) s = agtDoes s w fun a => a.works Blk.MTP fun a => a.meterEncaps wm)
  ∧ (∀ (s : State), Metering s →
    exec (.meterEncapsRetry) s = ctlDoes s fun c => c.works Blk.MTR (·.meterRetry))
  ∧ (∀ (s : State) (wm : Worm), On s →
    exec (.meterTap wm) s = ctlDoes s fun c => c.works Blk.MTR fun c => c.takeTap wm)
  -- METER_LOAD_FW without its key value, or while the meter is off, has no effect
  ∧ (∀ (s : State) (val : Word), On s → Takes s.ctl.die Blk.MTR → bitsOf val.toNat 15 8 ≠ 0x3C →
    exec (.meterLoadFw val) s = ctlDoes s fun c => c)
  -- METER_LOAD_FW of a metrology image that is well formed and not older than the fuses: where it verifies, the batch of the old firmware
  -- closes, the seal-break count rises and the meter restarts, once no report is under way; else load_result is 2
  ∧ (∀ (s : State) (val : Word) (c : Ctl) (img : Bytes) (short : Bool), On s → Takes s.ctl.die Blk.MTR → s.ctl.sealed = true →
    bitOf val.toNat 0 = true → bitsOf val.toNat 15 8 = 0x3C → s.ctl.die.fget Fl.MTR_STATUS_state ≠ 0 → s.ctl.meter.loading = none →
    s.ctl.memRead (s.ctl.die.getN Reg.MTR_SRC_ADDR) (s.ctl.die.bget Reg.MTR_SRC_LEN 23 0) = (c, img, short) →
    (imageHdr img).formOk = true → (imageHdr img).kind = 4 → c.meter.rollback ≤ (imageHdr img).rollback → c.meter.seals < 128 →
    exec (.meterLoadFw val) s = ctlDoes s fun c0 =>
      (let h := imageHdr img
      if imageOk metrologyKeys img = true ∧ c.kst.jobs.isEmpty = false then
        ({ c with meter := { c.meter with loading := some img } } : Ctl).onDie (·.fset Fl.MTR_STATUS_state 2)
      else if imageOk metrologyKeys img = true then
        let c := (((c.closeOpen).batchBoundary 32).signerDone).signerDone
        let c := ({ c with meter := { c.meter with seals := c.meter.seals + 1 } } : Ctl).meterRaise Ev.SEAL_BROKEN
        let c : Ctl := { c with meter := { c.meter with version := h.version, fwDigest := digestOf h.bodyDigest,
                                                        rollback := max c.meter.rollback (min 64 h.rollback),
                                                        loading := none } }
        c.meterUp.onDie (·.fset Fl.MTR_STATUS_load_result 1)
      else c.onDie (·.fset Fl.MTR_STATUS_load_result 2)).rowInForce c0.meter.pattern)
  -- METER_LOAD_PATTERN on PLN-9210, which has no Sealed Meter: an access of an absent unit
  ∧ (∀ (s : State), On s → s.ctl.sealed = false → s.ctl.die.part.pelron = true →
    exec .meterLoadPattern s = ctlDoes s fun c => c.onDie fun d => d.raise (Ev.ABSENT_ACCESS Blk.MTR) 0xFFFF)
  -- METER_LOAD_PATTERN of a file that fails a check of its header or rows
  ∧ (∀ (s : State) (x : Fail) (c : Ctl) (f : Bytes) (short : Bool), On s → Takes s.ctl.die Blk.MTR → s.ctl.sealed = true →
    s.ctl.meter.loading = none →
    s.ctl.memRead (s.ctl.die.getN Reg.MTR_SRC_ADDR) (s.ctl.die.bget Reg.MTR_SRC_LEN 23 0) = (c, f, short) →
    prefixFail { unit := 2, part := c.die.part, fid := 0x3FFFF, mode := 0, rack := 0, slot := 0, fabricId := 0, hop := 0,
                 lkpLocked := false, epoch := 0, fw := c.meter.version, patternKey := none,
                 lastSeq := [(seqKey 4 0, c.meter.patSeq)], floor := 0, aligned := true, parts := [] }
      (s.ctl.die.bget Reg.MTR_SRC_LEN 23 0) f = some x →
    exec .meterLoadPattern s = ctlDoes s fun _ => c.onDie fun d =>
      ((d.fset Fl.MTR_STATUS_load_result 6).fset Fl.MTR_STATUS_pattern_code x.code).fset Fl.MTR_STATUS_pattern_detail x.detail)
  -- METER_START of the first run: the totals restart and SNAPSHOT_INVALID is raised
  ∧ (∀ (s : State), 1 ≤ s.ctl.pwr.phase → s.ctl.pwr.phase ≤ 3 → s.ctl.sealed = true → s.ctl.die.fget Fl.MTR_STATUS_state = 0 →
    s.ctl.meter.snapshot = none → s.ctl.meter.powered = false →
    exec .meterStart s = ctlDoes s fun c =>
      (({ c with meter := { c.meter with insts := [], eSum := 0, firstOpen := none, gap := true },
                 die := (c.die.setN Reg.MTR_SEQ (c.meter.checkpoint + 2 ^ 20)).fset Fl.MTR_STATUS_snapshot_valid 0 } : Ctl).meterUp.meterRaise
        Ev.SNAPSHOT_INVALID).rowInForce c.meter.pattern)
  -- METER_ENCAPS at an agent with a free slot, outside test mode
  ∧ (∀ (s : State) (w : Who) (inBond i : Nat) (wm : Worm), Up s w → markPriv (wormMark wm) = 3 → (s.agt w).die.testEn = false →
    (s.agt w).tap.target = some i →
    exec (.meterEncaps w inBond wm) s = agtDoes s w fun a => a.works Blk.MTP fun a =>
      let ct := slice wm.payload 0 1568
      let sl : TapSlot :=
        { held := true, keyId := tapKeyId ct, fid := markFid (wormMark wm),
          key := tapKey (Config.kemDecaps (agentKeyName a.dieId) ct) a.dieId a.fid (fieldAt wm.payload 1568 8), seq := 0,
          sending := a.tap.cfg.any fun e => e.tapKeyId = tapKeyId ct }
      { a with tap := a.tap.setSlot i sl })
  -- in test mode it is refused
  ∧ (∀ (s : State) (w : Who) (inBond : Nat) (wm : Worm), Up s w → markPriv (wormMark wm) = 3 → (s.agt w).die.testEn = true →
    exec (.meterEncaps w inBond wm) s = agtDoes s w fun a => a.works Blk.MTP fun a => a.count Reg.MTP_CNT_ENCAPS_REFUSED)
  -- METER_ENCAPS_RETRY, every 10 s: to each named agent whose records do not carry its key yet
  ∧ (∀ (s : State), Metering s → (∀ t, s.ctl.meter.retryNs = some t → t ≤ s.ctl.die.up → t + 10000000000 ≤ s.ctl.die.up) →
    exec .meterEncapsRetry s = ctlDoes s fun c => c.works Blk.MTR fun c =>
      let c : Ctl := { c with meter := { c.meter with retryNs := some c.die.up } }
      c.cst.agents.foldl (fun c p =>
        if !p.2.named || p.2.lost || (c.meter.keys.filter fun k => k.fid = p.2.fid && k.dieId = p.2.dieId).any (·.seen) then c
        else c.meterEncaps p.2.fid p.2.dieId false) c)
  -- METER_TAP of a malformed worm
  ∧ (∀ (s : State) (wm : Worm), On s → s.ctl.meter.powered = true → s.ctl.die.fget Fl.MTR_STATUS_state ≠ 0 →
    s.ctl.meter.intakeSec = s.ctl.die.ns / 1000000000 → s.ctl.meter.intakeCount < 4000000 →
    (wm.op ≠ 0x8C ∨ wm.partition ≠ 0 ∨ wm.length ≠ 32 ∨ wm.enc ≠ 0) →
    exec (.meterTap wm) s = ctlDoes s fun c => c.works Blk.MTR fun c =>
      ({ c with meter := { c.meter with intakeCount := c.meter.intakeCount + 1, refused := c.meter.refused + 1 } } : Ctl).mcount
        Reg.MTR_CNT_MALFORMED)
  -- METER_TAP of a record whose key is known, without energy and without entries: taken where its MAC verifies, else refused
  ∧ (∀ (s : State) (wm : Worm) (k : MKey), On s → s.ctl.meter.powered = true → s.ctl.die.fget Fl.MTR_STATUS_state ≠ 0 →
    s.ctl.meter.intakeSec = s.ctl.die.ns / 1000000000 → s.ctl.meter.intakeCount < 4000000 →
    wm.op = 0x8C → wm.partition = 0 → wm.length = 32 → wm.enc = 0 →
    (s.ctl.meter.keys.find? fun k => k.fid = fieldAt wm.payload 4 4 && k.keyId = fieldAt wm.payload 8 8) = some k →
    bitOf (byteAt wm.payload 1) 0 = false → byteAt wm.payload 3 = 0 →
    exec (.meterTap wm) s = ctlDoes s fun c => c.works Blk.MTR fun c =>
      let c : Ctl := { c with meter := { c.meter with intakeCount := c.meter.intakeCount + 1 } }
      if Config.kmac256 k.key (wm.payload.take 1984) 512 (ascii "YARULAIS TAP") = slice wm.payload 1984 64 then
        ({ c with meter := { c.meter with taken := c.meter.taken + 1, keys := c.meter.keys.map fun x =>
          if x.fid = k.fid && x.keyId = k.keyId then { x with seen := true, covered := true } else x } } : Ctl).mcount Reg.MTR_CNT_TAKEN
      else
        let c := ({ c with meter := { c.meter with refused := c.meter.refused + 1 } } : Ctl).mcount Reg.MTR_CNT_BAD_MAC
        if !(mayRaise k.lastMac s.ctl.die.up 1000000000) then c
        else ({ c with meter := { c.meter with keys := c.meter.keys.map fun x =>
          if x.fid = k.fid then { x with lastMac := some s.ctl.die.up } else x } } : Ctl).meterRaise Ev.TAP_BAD_MAC)

/-- R418 to R424: instances, intervals, batches and the export ring. -/
def Obligations.MeterBatches : Prop :=
  -- every command of the group answers a next state: that of its own effect
  (∀ (s : State) (interval : Nat) (energy : Energy), Metering s →
    exec (.meterIntervalClose interval energy) s = ctlDoes s fun c => c.works Blk.MTR fun c => c.intervalClose interval energy)
  ∧ (∀ (s : State) (tag inst course : Nat), Metering s →
    exec (.meterOpen tag inst course) s = ctlDoes s fun c => c.works Blk.MTR fun c => c.meterOpen tag inst course)
  ∧ (∀ (s : State) (tag inst course : Nat), Metering s →
    exec (.meterClose tag inst course) s = ctlDoes s fun c => c.works Blk.MTR fun c => c.meterClose tag inst course)
  ∧ (∀ (s : State), Metering s →
    exec (.meterBatchClose) s = ctlDoes s fun c => c.works Blk.MTR fun c => c.batchClose.rowInForce c.meter.pattern)
  ∧ (∀ (s : State), Metering s →
    exec (.meterBatchSigned) s = ctlDoes s fun c => c.works Blk.MTR fun c => c.signerDone.rowInForce c.meter.pattern)
  -- METER_OPEN
  ∧ (∀ (s : State) (tag inst course : Nat), Metering s → s.ctl.die.safe = false →
    (s.ctl.meter.insts.any fun i => i.tag = tag && i.inst = inst) = false →
    exec (.meterOpen tag inst course) s = ctlDoes s fun c => c.works Blk.MTR fun c =>
      { c with meter := { c.meter with insts := c.meter.insts ++
        [{ tag := tag, inst := inst, openCourse := course, closeCourse := none, totals := [0, 0, 0, 0, 0], active := false, silent := 0,
           retired := false }] } })
  -- METER_CLOSE
  ∧ (∀ (s : State) (tag inst course : Nat), Metering s → s.ctl.die.safe = false →
    exec (.meterClose tag inst course) s = ctlDoes s fun c => c.works Blk.MTR fun c =>
      { c with meter := { c.meter with insts := c.meter.insts.map fun i =>
        if i.tag = tag && i.inst = inst then { i with closeCourse := some course } else i } })
  -- METER_INTERVAL_CLOSE, once the interval is due, and once; before that it has no effect
  ∧ (∀ (s : State) (interval energy : Nat), Metering s → s.ctl.meter.powered = true → s.ctl.die.fget Fl.MTR_STATUS_state ≠ 0 →
    (interval + 2) * s.ctl.meter.pattern.intervalUs * 1000 ≤ s.ctl.die.ns →
    s.ctl.meter.closedNs < (interval + 1) * s.ctl.meter.pattern.intervalUs * 1000 →
    exec (.meterIntervalClose interval energy) s = ctlDoes s fun c => c.works Blk.MTR fun c => c.closeInterval interval energy)
  ∧ (∀ (s : State) (interval energy : Nat), Metering s → s.ctl.die.ns < (interval + 2) * s.ctl.meter.pattern.intervalUs * 1000 →
    exec (.meterIntervalClose interval energy) s = ctlDoes s fun c => c)
  -- METER_BATCH_CLOSE, once in a record period, with the signer busy: the batch waits
  ∧ (∀ (s : State) (b : Batch) (at_ : Nat), Metering s → s.ctl.meter.powered = true → s.ctl.die.fget Fl.MTR_STATUS_state ≠ 0 →
    at_ = s.ctl.die.ns / (1000000 * s.ctl.meter.pattern.periodMs) * (1000000 * s.ctl.meter.pattern.periodMs) → s.ctl.meter.batchNs < at_ →
    s.ctl.meter.signing = some b →
    exec .meterBatchClose s = ctlDoes s fun c => c.works Blk.MTR fun c =>
      { c with meter := { c.meter with batchNs := at_, lateDue := some (c.meter.lateDue.getD 0 ||| 0) } })
  -- METER_BATCH_CLOSE with the signer free and no METER entry staged: the batch of the intervals since the last one is closed
  ∧ (∀ (s : State) (at_ : Nat), Metering s → s.ctl.meter.powered = true → s.ctl.die.fget Fl.MTR_STATUS_state ≠ 0 →
    at_ = s.ctl.die.ns / (1000000 * s.ctl.meter.pattern.periodMs) * (1000000 * s.ctl.meter.pattern.periodMs) → s.ctl.meter.batchNs < at_ →
    s.ctl.meter.signing = none → s.ctl.meter.staged = none →
    exec .meterBatchClose s = ctlDoes s fun c => c.works Blk.MTR fun c =>
      let b := ({ c with meter := { c.meter with batchNs := at_ } } : Ctl).closeBatch 0
      (if b.sealed then b else b.batchSigned).rowInForce c.meter.pattern)
  -- twice in one period it has no effect
  ∧ (∀ (s : State) (p : Nat), Metering s → p = 1000000 * s.ctl.meter.pattern.periodMs → s.ctl.die.ns / p * p ≤ s.ctl.meter.batchNs →
    s.ctl.meter.batchNs ≤ s.ctl.die.ns → exec .meterBatchClose s = ctlDoes s fun c => c)
  -- METER_BATCH_SIGNED: the batch goes into the ring, or is held with METER_RING_FULL
  ∧ (∀ (s : State) (b : Batch), Metering s → s.ctl.meter.signing = some b → s.ctl.meter.lateDue = none →
    exec .meterBatchSigned s = ctlDoes s fun c => c.works Blk.MTR fun c =>
      (({ c.batchSigned with meter := { c.batchSigned.meter with lateDue := none } } : Ctl).rowInForce c.meter.pattern))
  -- a batch that waited for the signer is closed then, flagged LATE
  ∧ (∀ (s : State) (b : Batch) (flags : Nat), Metering s → s.ctl.meter.signing = some b → s.ctl.meter.lateDue = some flags →
    exec .meterBatchSigned s = ctlDoes s fun c => c.works Blk.MTR fun c =>
      ((((({ c.batchSigned with meter := { c.batchSigned.meter with lateDue := none } } : Ctl).batchBoundary (flags + 4)).mcount
        Reg.MTR_CNT_LATE).meterRaise Ev.BATCH_LATE).rowInForce c.meter.pattern))
  ∧ (∀ (c : Ctl) (b : Batch), c.meter.signing = some b →
    c.batchSigned =
      let bytes := c.signedBytes b
      let c := ({ c with meter := { c.meter with signing := none, prevDigest := Config.shake256 bytes } } : Ctl).mcount Reg.MTR_CNT_BATCHES
      if c.ringFull ∨ !c.meter.held.isEmpty then
        ({ c with meter := { c.meter with held := c.meter.held ++ [b] } } : Ctl).meterRaise Ev.METER_RING_FULL
      else c.ringWrite bytes)
  -- MTR_RING_CONS_WRITE: held batches move into the slots freed
  ∧ (∀ (s : State) (val : Word), On s → Takes s.ctl.die Blk.MTR →
    exec (.mtrRingConsWrite val) s = ctlDoes s fun c => Ctl.drainHeld 4 (c.onDie (·.bset c.ringRegs.2.2 7 0 val.toNat)))

/-! ## The solver, admission and the shard directory -/

/-- R163, R191, R195 to R197, R209, R211, R215, R322: the solver's tasks and its tile array. -/
def Obligations.SolverTasks : Prop :=
  -- every command of the group answers a next state: that of its own effect
  (∀ (s : State), On s →
    exec (.solverFullTask) s = ctlDoes s fun c => c.runTask 1 0 fun c => (c.took 1).failureWork true)
  ∧ (∀ (s : State), On s →
    exec (.solverFailureTask) s = ctlDoes s fun c => c.runTask 2 c.sol.failures.length (·.failureWork false))
  ∧ (∀ (s : State), On s →
    exec (.plumbTreeTask) s = ctlDoes s fun c => c.runTask 6 0 fun c => (c.took 6).plumbTree)
  ∧ (∀ (s : State), On s →
    exec (.shardTask) s = ctlDoes s fun c => c.runTask 7 0 fun c => (c.took 7).shardWork)
  ∧ (∀ (s : State), On s →
    exec (.taskPreempt) s = ctlDoes s fun c =>
      let later := c.waitingTasks.filter fun k => k = 3 || k = 4
      if c.taskNow = 2 ∧ !later.isEmpty ∧ c.sol.preempted.isNone then
        ({ c with sol := { c.sol with preempted := later.head? } } : Ctl).onDie (·.count Reg.SOL_CNT_PREEMPT)
      else c)
  ∧ (∀ (s : State) (tile : Nat), On s →
    exec (.tileFence tile) s = ctlDoes s fun c => c.dropTile tile)
  ∧ (∀ (s : State) (val : Word), On s → Takes s.ctl.die Blk.SOL →
    exec (.solTileEn val) s = ctlDoes s fun c =>
      let c : Ctl := { c with sol := { c.sol with finishing :=
        if val.toNat % 2 = 1 then none else if c.die.fget Fl.SOL_CTL_tile_en = 1 ∧ c.taskNow ≠ 0 then some c.taskNow else c.sol.finishing } }
      let c := c.onDie (·.fset Fl.SOL_CTL_tile_en (val.toNat % 2))
      if bitOf val.toNat 1 then c.onDie (·.clearCounters Blk.SOL) else c)
  ∧ (∀ (s : State) (fid bond farFid time : Nat), On s →
    exec (.failover fid bond farFid time) s = ctlDoes s fun c => c.queueFailure (.bondFailed fid bond farFid time))
  ∧ (∀ (s : State), On s →
    exec (.restoredBondTimer) s = ctlDoes s fun c =>
      let early := match c.sol.restoredNs with
        | some t => decide (c.die.up < 1000000000 + t)
        | none => true
      if c.sol.restored.isEmpty || early || !c.sol.failures.isEmpty || c.sol.others.contains 1 then c
      else
        let evs := c.sol.restored.map fun r => SolEvent.bondRestored r.1 r.2
        ({ c with sol := { c.sol with failures := evs, restored := [], restoredNs := none } } : Ctl).changed)
  -- a task runs when it is the first that waits, counts, and shows the generation of its input; one that was preempted is so no more
  ∧ (∀ (s : State), On s → s.ctl.taskNow = 1 → s.ctl.sol.preempted ≠ some 1 →
    exec .solverFullTask s = ctlDoes s fun c =>
      ({ c with sol := { c.sol with finishing := none } } : Ctl).task 1 0 fun c => (c.took 1).failureWork true)
  ∧ (∀ (s : State), On s → s.ctl.taskNow = 2 → s.ctl.sol.preempted ≠ some 2 →
    exec .solverFailureTask s = ctlDoes s fun c =>
      ({ c with sol := { c.sol with finishing := none } } : Ctl).task 2 c.sol.failures.length fun c => c.failureWork false)
  ∧ (∀ (s : State), On s → s.ctl.taskNow = 6 → s.ctl.sol.preempted ≠ some 6 →
    exec .plumbTreeTask s = ctlDoes s fun c =>
      ({ c with sol := { c.sol with finishing := none } } : Ctl).task 6 0 fun c => (c.took 6).plumbTree)
  ∧ (∀ (s : State), On s → s.ctl.taskNow = 7 → s.ctl.sol.preempted ≠ some 7 →
    exec .shardTask s = ctlDoes s fun c =>
      ({ c with sol := { c.sol with finishing := none } } : Ctl).task 7 0 fun c => (c.took 7).shardWork)
  ∧ (∀ (s : State) (k : Nat), On s → s.ctl.taskNow = k → (k = 3 ∨ k = 4) → s.ctl.sol.preempted = some k → s.ctl.die.safe = false →
    exec (if k = 3 then .admissionTask else .compileTask) s = ctlDoes s fun c =>
      ({ c with sol := { c.sol with preempted := none, finishing := none } } : Ctl).task k 0 fun c =>
        (if k = 3 then c.admission else c.compileTask).writeFloors)
  -- one that is not the first that waits does not run
  ∧ (∀ (s : State), On s → s.ctl.taskNow ≠ 1 → exec .solverFullTask s = ctlDoes s fun c => c)
  -- TASK_PREEMPT: a FAILURE task ahead of a waiting ADMISSION or COMPILE task counts once
  ∧ (∀ (s : State) (k : Nat) (rest : List Nat), On s → s.ctl.taskNow = 2 →
    (s.ctl.waitingTasks.filter fun k => k = 3 || k = 4) = k :: rest → s.ctl.sol.preempted = none →
    exec .taskPreempt s = ctlDoes s fun c =>
      ({ c with sol := { c.sol with preempted := some k } } : Ctl).onDie (·.count Reg.SOL_CNT_PREEMPT))
  -- TILE_FENCE: the tile leaves the array; a task in progress restarts
  ∧ (∀ (s : State) (tile : Nat), On s → tile < s.ctl.sol.map.length → s.ctl.sol.fencedTiles.contains tile = false → s.ctl.taskNow = 0 →
    exec (.tileFence tile) s = ctlDoes s fun c => { c with sol := { c.sol with fencedTiles := c.sol.fencedTiles ++ [tile] } })
  ∧ (∀ (s : State) (tile : Nat), On s → tile < s.ctl.sol.map.length → s.ctl.sol.fencedTiles.contains tile = false → s.ctl.taskNow ≠ 0 →
    exec (.tileFence tile) s = ctlDoes s fun c =>
      ({ c with sol := { c.sol with fencedTiles := c.sol.fencedTiles ++ [tile] } } : Ctl).onDie (·.count Reg.SOL_CNT_RESTART))
  -- SOL_TILE_EN: bit 0 is tile_en, bit 1 clears the counters; a task that runs when tile_en is cleared still finishes
  ∧ (∀ (s : State) (val : Word), On s → Takes s.ctl.die Blk.SOL → bitOf val.toNat 1 = false → val.toNat % 2 = 1 →
    exec (.solTileEn val) s = ctlDoes s fun c =>
      ({ c with sol := { c.sol with finishing := none } } : Ctl).onDie (·.fset Fl.SOL_CTL_tile_en 1))
  ∧ (∀ (s : State) (val : Word), On s → Takes s.ctl.die Blk.SOL → bitOf val.toNat 1 = false → val.toNat % 2 = 0 →
    s.ctl.die.fget Fl.SOL_CTL_tile_en = 1 → s.ctl.taskNow ≠ 0 →
    exec (.solTileEn val) s = ctlDoes s fun c =>
      ({ c with sol := { c.sol with finishing := some c.taskNow } } : Ctl).onDie (·.fset Fl.SOL_CTL_tile_en 0))
  -- FAILOVER queues the failure of its bond once
  ∧ (∀ (s : State) (fid bond far time : Nat), On s → s.ctl.sol.failures.contains (.bondFailed fid bond far time) = false →
    exec (.failover fid bond far time) s = ctlDoes s fun c =>
      ({ c with sol := { c.sol with failures := c.sol.failures ++ [.bondFailed fid bond far time] } } : Ctl).changed)
  -- RESTORED_BOND_TIMER, a second after the first of them: restored bonds that found no other task to ride on become one
  ∧ (∀ (s : State) (t : Nat), On s → s.ctl.sol.restored ≠ [] → s.ctl.sol.restoredNs = some t → t + 1000000000 ≤ s.ctl.die.up → s.ctl.sol.failures = [] → s.ctl.sol.others.contains 1 = false →
    exec .restoredBondTimer s = ctlDoes s fun c =>
      ({ c with sol := { c.sol with failures := c.sol.restored.map fun r => SolEvent.bondRestored r.1 r.2, restored := [],
                                    restoredNs := none } } : Ctl).changed)

/-- R217, R226, R228, R229, R231, R232: requests, admission, compilation and release. -/
def Obligations.Admission : Prop :=
  -- every command of the group answers a next state: that of its own effect
  (∀ (s : State), On s →
    exec (.solverReleaseTask) s = ctlDoes s fun c => c.runTask 5 0 fun c => c.releaseTask.writeFloors)
  ∧ (∀ (s : State), On s →
    exec (.admissionTask) s = ctlDoes s fun c => if c.die.safe ∧ c.adm.serving then c.admission else c.runTask 3 0 fun c => c.admission.writeFloors)
  ∧ (∀ (s : State), On s →
    exec (.compileTask) s = ctlDoes s fun c => c.runTask 4 0 fun c => c.compileTask.writeFloors)
  ∧ (∀ (s : State), On s → Takes s.ctl.die Blk.ADM →
    exec (.admSubmit) s = ctlDoes s Ctl.submit)
  ∧ (∀ (s : State), On s → Takes s.ctl.die Blk.ADM →
    exec (.admRelease) s = ctlDoes s Ctl.release)
  -- ADM_SUBMIT: the length first, then room, then QUEUED
  ∧ (∀ (s : State), On s → Takes s.ctl.die Blk.ADM →
    (s.ctl.die.bget Reg.ADM_REQ_LEN 23 0 < 64 ∨ 16 * 2 ^ 20 < s.ctl.die.bget Reg.ADM_REQ_LEN 23 0) →
    exec .admSubmit s = ctlDoes s fun c => c.onDie (·.fset Fl.ADM_STATUS_last_cmd 4))
  ∧ (∀ (s : State), On s → Takes s.ctl.die Blk.ADM → 64 ≤ s.ctl.die.bget Reg.ADM_REQ_LEN 23 0 →
    s.ctl.die.bget Reg.ADM_REQ_LEN 23 0 ≤ 16 * 2 ^ 20 → 64 ≤ s.ctl.adm.queue.length →
    exec .admSubmit s = ctlDoes s fun c => c.onDie (·.fset Fl.ADM_STATUS_last_cmd 2))
  ∧ (∀ (s : State), On s → Takes s.ctl.die Blk.ADM → 64 ≤ s.ctl.die.bget Reg.ADM_REQ_LEN 23 0 →
    s.ctl.die.bget Reg.ADM_REQ_LEN 23 0 ≤ 16 * 2 ^ 20 → s.ctl.adm.queue.length < 64 →
    exec .admSubmit s = ctlDoes s fun c =>
      ({ c with adm := { c.adm with queue := c.adm.queue ++ [(c.die.getN Reg.ADM_REQ_ADDR, c.die.bget Reg.ADM_REQ_LEN 23 0)] } } : Ctl).onDie
        (·.fset Fl.ADM_STATUS_last_cmd 1))
  -- ADM_RELEASE: tag 0 is refused, a tag that is admitted is queued once, another is unknown
  ∧ (∀ (s : State), On s → Takes s.ctl.die Blk.ADM → s.ctl.die.bget Reg.ADM_REL_TAG 11 0 = 0 →
    exec .admRelease s = ctlDoes s fun c => c.onDie (·.fset Fl.ADM_STATUS_last_cmd 5))
  ∧ (∀ (s : State), On s → Takes s.ctl.die Blk.ADM → s.ctl.die.bget Reg.ADM_REL_TAG 11 0 ≠ 0 →
    (s.ctl.adm.parts.any fun p => p.tag = s.ctl.die.bget Reg.ADM_REL_TAG 11 0) = true →
    (∀ p ∈ s.ctl.adm.parts, p.tag = s.ctl.die.bget Reg.ADM_REL_TAG 11 0 → p.phase ≠ 2) →
    s.ctl.adm.releases.contains (s.ctl.die.bget Reg.ADM_REL_TAG 11 0) = false →
    exec .admRelease s = ctlDoes s fun c =>
      ({ c with adm := { c.adm with releases := c.adm.releases ++ [c.die.bget Reg.ADM_REL_TAG 11 0] } } : Ctl).onDie
        (·.fset Fl.ADM_STATUS_last_cmd 1))
  ∧ (∀ (s : State), On s → Takes s.ctl.die Blk.ADM → s.ctl.die.bget Reg.ADM_REL_TAG 11 0 ≠ 0 →
    (s.ctl.adm.parts.any fun p => p.tag = s.ctl.die.bget Reg.ADM_REL_TAG 11 0) = false →
    exec .admRelease s = ctlDoes s fun c => c.onDie (·.fset Fl.ADM_STATUS_last_cmd 3))
  -- ADMISSION_TASK decides the first queued request, in the safe state as well, where no task runs
  ∧ (∀ (s : State), On s → s.ctl.die.safe = false → s.ctl.taskNow = 3 → s.ctl.sol.preempted ≠ some 3 →
    exec .admissionTask s = ctlDoes s fun c =>
      ({ c with sol := { c.sol with finishing := none } } : Ctl).task 3 0 fun c => c.admission.writeFloors)
  ∧ (∀ (s : State), On s → s.ctl.die.safe = true → s.ctl.adm.serving = true →
    exec .admissionTask s = ctlDoes s fun c => c.admission)
  ∧ (∀ (c c' : Ctl) (addr len : Nat) (rest : List (Nat × Nat)) (b : Bytes), c.adm.queue = (addr, len) :: rest →
    (({ c with adm := { c.adm with queue := rest } } : Ctl).onDie (·.fset Fl.CTL_LOCK_admission 1)).memRead addr len = (c', b, false) →
    (c'.decide_ b).reason ≠ 0 →
    c.admission = (c'.onDie (·.count Reg.ADM_CNT_REFUSED)).reply ((c'.decide_ b).reply 1 2 (fieldAt b 0 4) (fieldAt b 4 2) 0))
  ∧ (∀ (c c' : Ctl) (addr len : Nat) (rest : List (Nat × Nat)) (b : Bytes) (p : PartPlan), c.adm.queue = (addr, len) :: rest →
    (({ c with adm := { c.adm with queue := rest } } : Ctl).onDie (·.fset Fl.CTL_LOCK_admission 1)).memRead addr len = (c', b, false) →
    (c'.decide_ b).reason = 0 → (c'.decide_ b).plan = some p →
    c.admission = (((({ c' with adm := { c'.adm with inst := p.inst, parts := c'.adm.parts ++ [p] } } : Ctl).bindKeys p).changed).onDie
      (·.count Reg.ADM_CNT_ADMITTED)).reply ((c'.decide_ b).reply 1 1 (fieldAt b 0 4) p.tag 0))
  -- COMPILE_TASK and SOLVER_RELEASE_TASK
  ∧ (∀ (s : State), On s → s.ctl.taskNow = 4 → s.ctl.sol.preempted ≠ some 4 →
    exec .compileTask s = ctlDoes s fun c =>
      ({ c with sol := { c.sol with finishing := none } } : Ctl).task 4 0 fun c => c.compileTask.writeFloors)
  ∧ (∀ (s : State), On s → s.ctl.taskNow = 5 → s.ctl.sol.preempted ≠ some 5 →
    exec .solverReleaseTask s = ctlDoes s fun c =>
      ({ c with sol := { c.sol with finishing := none } } : Ctl).task 5 0 fun c => c.releaseTask.writeFloors)
  -- a release of a partition that agents hold goes to them; the meter hears CLOSE with the release course, at which the rest follows
  ∧ (∀ (c c' : Ctl) (tag at_ f : Nat) (rest fs : List Nat) (p : PartPlan), c.adm.releases = tag :: rest →
    (c.adm.parts.filter fun p => p.tag = tag && p.phase = 1) = [p] → ((c.liveAgents.map (·.fid)).filter fun f => p.touches f) = f :: fs →
    ({ c with adm := { c.adm with releases := rest } } : Ctl).sendRelease tag (f :: fs) = (c', at_) →
    c.releaseTask =
      let c := c'.meterClose tag p.inst (at_ / c'.courseNs)
      { c with adm := { c.adm with released := c.adm.released.filter (fun x => x.1 ≠ tag) ++ [(tag, at_)],
                                   parts := (c.adm.parts.filter fun p => !(p.tag = tag && p.phase = 0 && true)).map fun p =>
                                     if p.tag = tag ∧ p.phase = 1 then { p with phase := 2 } else p } })
  -- ADM_RING_CONS_WRITE
  ∧ (∀ (s : State) (val : Word), On s → Takes s.ctl.die Blk.ADM →
    exec (.admRingConsWrite val) s = ctlDoes s fun c => c.admCons val.toNat)

/-- R210 to R214: the commands of the shard directory, and SHARD_READY. -/
def Obligations.ShardDirectory : Prop :=
  -- every command of the group answers a next state: that of its own effect
  (∀ (s : State) (index : Nat), On s → Takes s.ctl.die Blk.SHD →
    exec (.shdRead index) s = ctlDoes s fun c => c.shdGet index)
  ∧ (∀ (s : State) (index : Nat), On s → Takes s.ctl.die Blk.SHD →
    exec (.shdWrite index) s = ctlDoes s fun c => c.shdPut index)
  ∧ (∀ (s : State) (index : Nat), On s → Takes s.ctl.die Blk.SHD →
    exec (.shdDelete index) s = ctlDoes s fun c => c.shdDel index)
  ∧ (∀ (s : State) (fid partition model granule digest : Nat), On s →
    exec (.shardReady fid partition model granule digest) s = ctlDoes s fun c => c.works Blk.SHD fun c => c.shardReady fid partition model granule digest)
  -- an index outside the directory is refused by each
  ∧ (∀ (s : State) (i : Nat), On s → Takes s.ctl.die Blk.SHD → 4194304 ≤ i →
    exec (.shdRead i) s = ctlDoes s (fun c => c.onDie (·.fset Fl.SHD_STATUS_result 4))
    ∧ exec (.shdWrite i) s = ctlDoes s (fun c => c.onDie (·.fset Fl.SHD_STATUS_result 4))
    ∧ exec (.shdDelete i) s = ctlDoes s (fun c => c.onDie (·.fset Fl.SHD_STATUS_result 4)))
  -- READ: the entry's 64 bytes in SHD_ENTRY
  ∧ (∀ (s : State) (i : Nat), On s → Takes s.ctl.die Blk.SHD → i < 4194304 →
    exec (.shdRead i) s = ctlDoes s fun c =>
      ((List.range 8).foldl (fun (c : Ctl) k =>
        c.onDie (·.setN (Reg.SHD_ENTRY0 + 8 * k) (fieldAt (Shard.bytes (tgetD s.ctl.shards i Shard.free)) (8 * k) 8))) c).onDie
        (·.fset Fl.SHD_STATUS_result 0))
  -- WRITE: a generation that is not the entry's is refused; an entry being copied is busy
  ∧ (∀ (s : State) (i : Nat), On s → Takes s.ctl.die Blk.SHD → i < 4194304 →
    (shardOf s.ctl.shdEntry).gen ≠ (tgetD s.ctl.shards i Shard.free).gen →
    exec (.shdWrite i) s = ctlDoes s (fun c => c.onDie (·.fset Fl.SHD_STATUS_result 1))
    ∧ exec (.shdDelete i) s = ctlDoes s (fun c => c.onDie (·.fset Fl.SHD_STATUS_result 1)))
  -- WRITE of a valid entry: it is stored with its generation raised, and a SHARD task follows
  ∧ (∀ (s : State) (i : Nat) (p : PartPlan), On s → Takes s.ctl.die Blk.SHD → i < 4194304 →
    (shardOf s.ctl.shdEntry).gen = (tgetD s.ctl.shards i Shard.free).gen → (tgetD s.ctl.shards i Shard.free).state ≠ 3 →
    (shardOf s.ctl.shdEntry).state = 1 → (shardOf s.ctl.shdEntry).model ≠ 0 → 1 ≤ (shardOf s.ctl.shdEntry).replicas →
    (shardOf s.ctl.shdEntry).replicas ≤ 4 →
    (s.ctl.adm.parts.find? fun p => p.tag = (shardOf s.ctl.shdEntry).partition) = some p →
    ((shardOf s.ctl.shdEntry).holders.filter (· ≠ 0x3FFFF)) ≠ [] →
    ((shardOf s.ctl.shdEntry).holders.filter (· ≠ 0x3FFFF)).all p.members.contains = true →
    exec (.shdWrite i) s = ctlDoes s fun c =>
      ((c.setShard i { shardOf c.shdEntry with target := 0x3FFFF }).ask 7).onDie (·.fset Fl.SHD_STATUS_result 0))
  -- DELETE: the entry is free, its generation raised
  ∧ (∀ (s : State) (i : Nat), On s → Takes s.ctl.die Blk.SHD → i < 4194304 →
    (shardOf s.ctl.shdEntry).gen = (tgetD s.ctl.shards i Shard.free).gen →
    exec (.shdDelete i) s = ctlDoes s fun c =>
      ((c.setShard i { Shard.free with gen := (tgetD s.ctl.shards i Shard.free).gen }).ask 7).onDie (·.fset Fl.SHD_STATUS_result 0))
  -- SHARD_READY that no entry awaits, or from a target whose loss came first, is late; one with another digest raises SHARD_DIGEST_MISMATCH
  ∧ (∀ (s : State) (fid part model granule digest : Nat), On s → (s.ctl.shards.find? fun p => p.2.model = model && p.2.granule = granule && p.2.partition = part && p.2.state = 3 && p.2.target = fid) = none →
    (s.ctl.sol.lostHolders.any fun l => l.1 = fid && l.2.all (· = part)) = false →
    exec (.shardReady fid part model granule digest) s = ctlDoes s fun c => c.works Blk.SHD fun c => c.onDie (·.bsat Reg.SHD_COUNT 63 48 1))
  ∧ (∀ (s : State) (fid part model granule digest : Nat), On s →
    (s.ctl.sol.lostHolders.any fun l => l.1 = fid && l.2.all (· = part)) = true →
    exec (.shardReady fid part model granule digest) s = ctlDoes s fun c => c.works Blk.SHD fun c => c.onDie (·.bsat Reg.SHD_COUNT 63 48 1))
  ∧ (∀ (s : State) (fid part model granule digest i : Nat) (e : Shard), On s → (s.ctl.shards.find? fun p => p.2.model = model && p.2.granule = granule && p.2.partition = part && p.2.state = 3 && p.2.target = fid) = some (i, e) →
    (s.ctl.sol.lostHolders.any fun l => l.1 = fid && l.2.all (· = part)) = false → e.digest ≠ digest →
    exec (.shardReady fid part model granule digest) s = ctlDoes s fun c => c.works Blk.SHD fun c => c.raise Ev.SHARD_DIGEST_MISMATCH)
  -- SHARD_READY with the digest: the target holds a copy; a SHARD task follows while copies are missing
  ∧ (∀ (s : State) (fid part model granule i : Nat) (e : Shard), On s → (s.ctl.shards.find? fun p => p.2.model = model && p.2.granule = granule && p.2.partition = part && p.2.state = 3 && p.2.target = fid) = some (i, e) →
    (s.ctl.sol.lostHolders.any fun l => l.1 = fid && l.2.all (· = part)) = false →
    e.replicas ≤ ((replaceFirst (· = 0x3FFFF) (fun _ => fid) e.holders).filter (· ≠ 0x3FFFF)).length →
    exec (.shardReady fid part model granule e.digest) s = ctlDoes s fun c => c.works Blk.SHD fun c =>
      c.setShard i { e with holders := replaceFirst (· = 0x3FFFF) (fun _ => fid) e.holders, target := 0x3FFFF, state := 1 })
  ∧ (∀ (s : State) (fid part model granule i : Nat) (e : Shard), On s → (s.ctl.shards.find? fun p => p.2.model = model && p.2.granule = granule && p.2.partition = part && p.2.state = 3 && p.2.target = fid) = some (i, e) →
    (s.ctl.sol.lostHolders.any fun l => l.1 = fid && l.2.all (· = part)) = false →
    ((replaceFirst (· = 0x3FFFF) (fun _ => fid) e.holders).filter (· ≠ 0x3FFFF)).length < e.replicas →
    exec (.shardReady fid part model granule e.digest) s = ctlDoes s fun c => c.works Blk.SHD fun c =>
      (c.setShard i { e with holders := replaceFirst (· = 0x3FFFF) (fun _ => fid) e.holders, target := 0x3FFFF, state := 2 }).ask 7)

/-! ## Recovery at the controller -/

/-- R330, R343 to R346, R351: commands to agents and their reports, functions that are reinitialised, and the controller's reset. -/
def Obligations.RecoveryControl : Prop :=
  -- every command of the group answers a next state: that of its own effect
  (∀ (s : State) (val : Word), On s → Takes s.ctl.die Blk.RCV →
    exec (.rcvCmd val) s = ctlDoes s fun c => c.rcvCmd val.toNat)
  ∧ (∀ (s : State) (fid level target result origin dumpSeq : Nat), On s →
    exec (.recoveryReport fid level target result origin dumpSeq) s = ctlDoes s fun c => c.works Blk.RCV fun c => (c.recoveryReport fid level target result origin dumpSeq).fdsRetry)
  ∧ (∀ (s : State), On s →
    exec (.recoveryReportTimeout) s = ctlDoes s fun c => c.works Blk.RCV Ctl.reportTimeout)
  ∧ (∀ (s : State) (val : Word), On s → Takes s.ctl.die Blk.RCV →
    exec (.funcReinit val) s = ctlDoes s fun c => c.funcReinit s.emb val.toNat)
  ∧ (∀ (s : State) (block : Nat), On s →
    exec (.funcReinitTimeout block) s = ctlDoes s fun c => c.reinitTimeout block)
  ∧ (∀ (s : State) (block : Nat), On s →
    exec (.funcHung block) s = ctlDoes s fun c =>
      if c.die.part.blocks.length ≤ block ∨ c.funcState block = 2 then c else (c.setFunc block 2).raise Ev.FUNC_HUNG block)
  ∧ (∀ (s : State) (val : Word), On s → Takes s.ctl.die Blk.RCV →
    exec (.ctrlReset val) s = ctlDoes s fun c => c.ctrlReset s.emb val.toNat)
  -- RCV_CMD: sent to the agent, counted, status SENT; one more is ignored until it has its report
  ∧ (∀ (s : State) (val : Word), On s → Takes s.ctl.die Blk.RCV → s.ctl.die.bget Reg.RCV_CMD_STATUS 1 0 = 1 →
    exec (.rcvCmd val) s = ctlDoes s fun c => c.raise (Ev.WRITE_IGNORED Blk.RCV))
  ∧ (∀ (s : State) (val : Word), On s → Takes s.ctl.die Blk.RCV → s.ctl.die.bget Reg.RCV_CMD_STATUS 1 0 ≠ 1 →
    exec (.rcvCmd val) s = ctlDoes s fun c =>
      let c := (c.sendA (bitsOf val.toNat 17 0) 0x02 (le 1 (bitsOf val.toNat 20 18) ++ le 1 (bitsOf val.toNat 31 24)
        ++ le 1 (bitsOf val.toNat 33 32))).onDie fun d => (d.count Reg.RCV_CNT_CMD).setN Reg.RCV_CMD_STATUS 1
      { c with rcv := { c.rcv with cmd := some (bitsOf val.toNat 17 0, bitsOf val.toNat 20 18, bitsOf val.toNat 33 32, c.die.up) } })
  -- RECOVERY_REPORT with no command outstanding counts, and its level has the effects of R342
  ∧ (∀ (s : State) (fid level target result origin seq : Nat), On s → s.ctl.rcv.cmd = none →
    exec (.recoveryReport fid level target result origin seq) s = ctlDoes s fun c => c.works Blk.RCV fun c =>
      ((c.onDie (·.count Reg.RCV_CNT_REPORTS)).levelReport fid level target result).fdsRetry)
  -- RECOVERY_REPORT_TIMEOUT, a second after the command: TIMED_OUT in RCV_CMD_STATUS
  ∧ (∀ (s : State) (f l flags ns : Nat), On s → s.ctl.rcv.cmd = some (f, l, flags, ns) → bitOf flags 2 = false → bitOf flags 3 = false →
    ns + 1000000000 ≤ s.ctl.die.up →
    exec .recoveryReportTimeout s = ctlDoes s fun c => c.works Blk.RCV fun c =>
      ({ c with rcv := { c.rcv with cmd := some (f, l, flags % 4 + cmdLate, ns) } } : Ctl).rcvStatus 3 0 0)
  -- FUNC_REINIT of no function that can be reinitialised: WRITE_IGNORED and nothing else
  ∧ (∀ (s : State) (val : Word), On s → Takes s.ctl.die Blk.RCV →
    (bitList val.toNat 64).any (fun k => !(reinitBlocks.contains (s.ctl.die.part.blocks.getD k 0xFFFF))) = true →
    ((bitList val.toNat 64).filter fun k => reinitBlocks.contains (s.ctl.die.part.blocks.getD k 0xFFFF) && !(s.ctl.rcv.reinit.contains k)) = [] →
    ((bitList val.toNat 64).filter fun k => reinitBlocks.contains ((s.ctl.raise (Ev.WRITE_IGNORED Blk.RCV)).die.part.blocks.getD k 0xFFFF)
      && !((s.ctl.raise (Ev.WRITE_IGNORED Blk.RCV)).rcv.reinit.contains k)) = [] →
    exec (.funcReinit val) s = ctlDoes s fun c => c.raise (Ev.WRITE_IGNORED Blk.RCV))
  -- FUNC_REINIT of one function other than DMP: it is fenced, and the controller's dump starts
  ∧ (∀ (s : State) (val : Word) (k : Nat), On s → Takes s.ctl.die Blk.RCV → bitList val.toNat 64 = [k] →
    reinitBlocks.contains (s.ctl.die.part.blocks.getD k 0xFFFF) = true → s.ctl.die.part.blocks.getD k 0xFFFF ≠ Blk.DMP →
    s.ctl.rcv.reinit.contains k = false →
    exec (.funcReinit val) s = ctlDoes s fun c =>
      let c := (c.setFunc k 1).onDie fun d => (d.bset Reg.RCV_FUNC_REINIT k k 1).bset Reg.FLC_FENCED k k 1
      ({ c with rcv := { c.rcv with reinit := c.rcv.reinit ++ [k], reinitNs := tset c.rcv.reinitNs k s.ctl.die.up } } : Ctl).beginDump 4)
  -- FUNC_REINIT_TIMEOUT, 50 ms after the reinitialisation began: FAILED, and the bit is cleared
  ∧ (∀ (s : State) (k : Nat), On s → s.ctl.rcv.reinit.contains k = true →
    tgetD s.ctl.rcv.reinitNs k 0 + 50000000 ≤ s.ctl.die.up →
    exec (.funcReinitTimeout k) s = ctlDoes s fun c =>
      (({ c with rcv := { c.rcv with reinit := c.rcv.reinit.filter (· ≠ k) } } : Ctl).setFunc k 3).onDie (·.bset Reg.RCV_FUNC_REINIT k k 0))
  -- FUNC_HUNG
  ∧ (∀ (s : State) (k : Nat), On s → k < s.ctl.die.part.blocks.length → s.ctl.funcState k ≠ 2 →
    exec (.funcHung k) s = ctlDoes s fun c => (c.setFunc k 2).raise Ev.FUNC_HUNG k)
  -- CTRL_RESET with its key value: the dump goes out and the controller restarts; without it nothing happens
  ∧ (∀ (s : State) (val : Word), On s → Takes s.ctl.die Blk.RCV → bitOf val.toNat 0 = true → bitsOf val.toNat 15 8 = 0x5A →
    exec (.ctrlReset val) s = ctlDoes s fun c => (((c.cutDump s.emb).startDump 5).endDump s.emb).restarted c.die.testEn)
  ∧ (∀ (s : State) (val : Word), On s → Takes s.ctl.die Blk.RCV → bitsOf val.toNat 15 8 ≠ 0x5A →
    exec (.ctrlReset val) s = ctlDoes s fun c => c)
  -- DMP_START
  ∧ (∀ (s : State), On s → Takes s.ctl.die Blk.DMP → exec .dmpStart s = ctlDoes s fun c => c.startDump 7)

/-- R337 to R340, R345, R347 to R349, R464: dumps complete, and the mirror of a pair of modules. -/
def Obligations.DumpsAndMirror : Prop :=
  -- every command of the group answers a next state: that of its own effect
  (∀ (s : State), On s →
    exec (.dumpComplete .ctl) s = ctlDoes s fun c => if c.rcv.dump.isNone then c else c.dumpComplete s.emb)
  ∧ (∀ (s : State) (w : Who), Up s w →
    exec (.dumpComplete (.agt w)) s = agtDoes s w Agt.dumpComplete)
  ∧ (∀ (s : State) (wm : Worm), On s →
    exec (.chunkXfer wm) s = ctlDoes s fun c => c.chunkXfer wm)
  ∧ (∀ (s : State) (val : Word), On s → Takes s.ctl.die Blk.RCV →
    exec (.roleActive val) s = ctlDoes s fun c => c.roleActive val.toNat)
  ∧ (∀ (s : State), On s →
    exec (.mirrorSend) s = ctlDoes s Ctl.mirrorSend)
  -- DUMP_COMPLETE at an agent whose reads have ended: the record is made and the level goes on
  ∧ (∀ (s : State) (w : Who) (d : Dump), Up s w → (s.agt w).rcv.dump = some d → d.todo = [] → d.reads = [] → d.trigger ≠ 3 →
    exec (.dumpComplete (.agt w)) s = agtDoes s w fun a => a.endDump.proceed)
  -- DUMP_COMPLETE at the controller: reinitialisations that waited end
  ∧ (∀ (s : State) (d : Dump), On s → s.ctl.rcv.dump = some d → (s.ctl.endDump s.emb).rcv.reinit = [] → d.trigger ≠ 4 →
    exec (.dumpComplete .ctl) s = ctlDoes s fun c => { c.endDump s.emb with rcv := { (c.endDump s.emb).rcv with reinit := [] } })
  -- MIRROR_SEND by the active module: its records, the time, and the generation shown
  ∧ (∀ (s : State), On s → s.ctl.die.bget Reg.RCV_ROLE 0 0 ≠ 0 →
    exec .mirrorSend s = ctlDoes s fun c =>
      ({ c with rcv := { c.rcv with mirror := c.mirrorRecords, mirrorNs := c.die.up } } : Ctl).onDie (·.bset Reg.RCV_MIRROR 31 0 c.sol.gen))
  -- ROLE_ACTIVE at a standby that has mirrored nothing
  ∧ (∀ (s : State) (val : Word), On s → Takes s.ctl.die Blk.RCV → bitOf val.toNat 0 = true → s.ctl.die.bget Reg.RCV_ROLE 0 0 ≠ 1 →
    ((s.ctl.onDie (·.bset Reg.RCV_ROLE 0 0 1)).extend 7 0x70 (Config.eventDigest 0x70 1)).rcv.mirrored = [] →
    exec (.roleActive val) s = ctlDoes s fun c => (c.onDie (·.bset Reg.RCV_ROLE 0 0 1)).extend 7 0x70 (Config.eventDigest 0x70 1))
  -- ROLE_ACTIVE 0 is ignored
  ∧ (∀ (s : State) (val : Word), On s → Takes s.ctl.die Blk.RCV → bitOf val.toNat 0 = false →
    exec (.roleActive val) s = ctlDoes s fun c => c)
  -- CHUNK_XFER marked by the controller itself or Keystone is denied
  ∧ (∀ (s : State) (wm : Worm), On s → 2 ≤ markPriv (wormMark wm) → exec (.chunkXfer wm) s = ctlDoes s fun c => c.onDie Die.markDenied)
  -- CHUNK_XFER of a chunk whose CRC fails is discarded
  ∧ (∀ (s : State) (wm : Worm), On s → markPriv (wormMark wm) < 2 →
    crc32c (slice wm.payload 0 (min 2048 (Worm.opnd wm 20 4 - 2048 * Worm.opnd wm 12 2))) ≠ Worm.opnd wm 16 4 →
    exec (.chunkXfer wm) s = ctlDoes s fun c => c)

/-! ## Telemetry, health, gauge and wear -/

/-- R353, R354, R357 to R359, R361, R370, R371: records, maps and windows. -/
def Obligations.TelemetryWindows : Prop :=
  -- every command of the group answers a next state: that of its own effect
  (∀ (s : State) (w : Who) (window first : Nat) (ents : List (Nat × Nat)) (late : Bool), Hears s w →
    exec (.hostCounts w window first ents late) s = agtDoes s w fun a =>
      let a := credited a
      let k := ((a.tel.closed.find? fun x => x.window = window).map (·.k)).getD a.tel.k
      if late ∨ 8000 + (window + 1) * windowNs k < a.die.ns then a.count Reg.AGT_CNT_MSG_DENIED
        else
          let old := if a.tel.countsWindow = window then a.tel.counts else []
          let new := (List.range ents.length).foldl (fun (t : Tbl (Nat × Nat)) i => tset t (first + i) (ents.getD i (0, 0))) old
          { a with tel := { a.tel with counts := new, countsWindow := window } })
  ∧ (∀ (s : State) (w : Who) (window : Nat), Up s w →
    exec (.telemetryRecordSend w window) s = agtDoes s w fun a => a.sendRecord window)
  ∧ (∀ (s : State) (fid : Nat) (rec : Bytes), On s →
    exec (.telemetryRecord fid rec) s = ctlDoes s fun c =>
      c.works Blk.TEL fun c =>
      let fits : Bool := match tget c.cst.agents fid with
        | some a => decide (rec.length = recordLen a.mode ∧ byteAt rec 0 = recordKind a.mode ∧ byteAt rec 2 ≤ 8)
        | none => false
      let k := byteAt rec 2
      let start := fieldAt rec 8 8 * 2 ^ k
      let late : Bool := match c.tel.lastClosed with
        | some (w, kl) => decide (start ≤ w * 2 ^ kl)
        | none => false
      if !fits then c.onDie (·.count Reg.TEL_CNT_MALFORMED)
      else if late then c.onDie (·.count Reg.TEL_CNT_LATE)
      else
        let key := start * 16 + k
        let m := tset (tgetD c.tel.maps key []) fid rec
        ({ c with tel := { c.tel with maps := tset c.tel.maps key m } } : Ctl).onDie (·.count Reg.TEL_CNT_RECORDS))
  ∧ (∀ (s : State), On s →
    exec (.mapClose) s = ctlDoes s fun c => c.works Blk.TEL fun c => c.mapClose)
  ∧ (∀ (s : State) (window : Nat), On s →
    exec (.tenantWindowEnd window) s = ctlDoes s fun c =>
      c.works Blk.TEL fun c =>
      if c.die.ns < 64000 * 2 ^ c.tel.m * (window + 1) then c else
      let ps := (c.adm.parts.filter fun p => p.phase ≠ 0).mergeSort fun x y => decide (x.tag ≤ y.tag)
      let c := ps.foldl (fun c p => c.putTenant (c.tenantRecord window p)) c
      { c with tel := { c.tel with tenant := c.tel.tenant.filter fun p => decide ((window + 1) * 2 ^ 18 ≤ p.1) } })
  ∧ (∀ (s : State) (val : Word), On s → Takes s.ctl.die Blk.TEL →
    exec (.telCfgWrite val) s = ctlDoes s (·.writeTelCfg val.toNat))
  ∧ (∀ (s : State), On s →
    exec (.telConfigChange .ctl) s = ctlDoes s fun c => c.works Blk.TEL (·.telChange))
  ∧ (∀ (s : State) (w : Who), Up s w →
    exec (.telConfigChange (.agt w)) s = agtDoes s w (·.telChange))
  -- TELEMETRY_RECORD_SEND of a window that is not kept, or before its record is due, sends nothing
  ∧ (∀ (s : State) (w : Who) (window : Nat), Up s w → ((s.agt w).tel.closed.find? fun x => x.window = window) = none →
    exec (.telemetryRecordSend w window) s = agtDoes s w fun a => a)
  ∧ (∀ (s : State) (w : Who) (window : Nat) (x : TelWindow), Up s w → ((s.agt w).tel.closed.find? fun x => x.window = window) = some x →
    (s.agt w).die.ns < x.dueNs (s.agt w).fid → exec (.telemetryRecordSend w window) s = agtDoes s w fun a => a)
  -- when it is due, the record of the window kept goes to the active controller, once
  ∧ (∀ (s : State) (w : Who) (window : Nat) (x : TelWindow), Up s w → ((s.agt w).tel.closed.find? fun x => x.window = window) = some x →
    (s.agt w).tel.enable = true → x.dueNs (s.agt w).fid ≤ (s.agt w).die.ns →
    exec (.telemetryRecordSend w window) s = agtDoes s w fun a =>
      { a with tel := { a.tel with closed := a.tel.closed.filter fun y => y.window ≠ window },
               die := a.die.sendFwd { dst := a.die.controllerFid, op := 0x88, mcast := 0, root := 0, bond := 0xFF, operand := [],
                                      payload := a.recordOf x, block := a.die.part.blockIndex Blk.AGT, privilege := 0 } })
  -- a record begins with its kind, its flags, its k, zero, its FID and its window (here an agent that is no switch, nothing flagged)
  ∧ (∀ (a : Agt) (x : TelWindow), a.isSwitch = false → x.full = false → x.skipped = false → x.exceed = false → x.unaligned = false →
    (a.recordOf x).take 16 = le 1 (recordKind a.mode) ++ le 1 0 ++ le 1 x.k ++ le 1 0 ++ le 4 a.fid ++ le 8 x.window)
  -- HOST_COUNTS in time: the counts of the window, one pair for each bond from the first
  ∧ (∀ (s : State) (w : Who) (window first : Nat) (ents : List (Nat × Nat)), Hears s w →
    ((s.agt w).tel.closed.find? fun x => x.window = window) = none → (s.agt w).die.ns ≤ (window + 1) * windowNs (s.agt w).tel.k + 8000 →
    exec (.hostCounts w window first ents false) s = agtDoes s w fun a0 =>
      let a := credited a0
      let old := if a.tel.countsWindow = window then a.tel.counts else []
      { a with tel := { a.tel with
          counts := (List.range ents.length).foldl (fun (t : Tbl (Nat × Nat)) i => tset t (first + i) (ents.getD i (0, 0))) old,
          countsWindow := window } })
  -- late, by the host or by the clock, the message is discarded and counted
  ∧ (∀ (s : State) (w : Who) (window first : Nat) (ents : List (Nat × Nat)), Hears s w →
    exec (.hostCounts w window first ents true) s = agtDoes s w fun a => (credited a).count Reg.AGT_CNT_MSG_DENIED)
  ∧ (∀ (s : State) (w : Who) (window first : Nat) (ents : List (Nat × Nat)), Hears s w →
    ((s.agt w).tel.closed.find? fun x => x.window = window) = none → (window + 1) * windowNs (s.agt w).tel.k + 8000 < (s.agt w).die.ns →
    exec (.hostCounts w window first ents false) s = agtDoes s w fun a => (credited a).count Reg.AGT_CNT_MSG_DENIED)
  -- TELEMETRY_RECORD: taken into the map of its window; malformed and late ones count
  ∧ (∀ (s : State) (fid : Nat) (rec : Bytes), On s → tget s.ctl.cst.agents fid = none →
    exec (.telemetryRecord fid rec) s = ctlDoes s fun c => c.works Blk.TEL fun c => c.onDie (·.count Reg.TEL_CNT_MALFORMED))
  ∧ (∀ (s : State) (fid : Nat) (rec : Bytes) (a : AgentRec), On s → tget s.ctl.cst.agents fid = some a → rec.length = recordLen a.mode →
    byteAt rec 0 = recordKind a.mode → byteAt rec 2 ≤ 8 → s.ctl.tel.lastClosed = none →
    exec (.telemetryRecord fid rec) s = ctlDoes s fun c => c.works Blk.TEL fun c =>
      let key := fieldAt rec 8 8 * 2 ^ byteAt rec 2 * 16 + byteAt rec 2
      ({ c with tel := { c.tel with maps := tset c.tel.maps key (tset (tgetD c.tel.maps key []) fid rec) } } : Ctl).onDie
        (·.count Reg.TEL_CNT_RECORDS))
  -- MAP_CLOSE, 90 µs after the end of the window that follows: agents of which no record came are MISSING; the map goes to the history and the tenants' counters, and groups close
  ∧ (∀ (s : State) (wk k : Nat), On s → s.ctl.nextMap = (wk, k) → windowNs k * (wk + 2) + 90000 ≤ s.ctl.die.ns →
    exec .mapClose s = ctlDoes s fun c => c.works Blk.TEL fun c =>
      let got := tgetD c.tel.maps (wk * 2 ^ k * 16 + k) []
      let m := c.mapAgents.foldl (fun (t : Tbl Bytes) a => tset t a.fid ((tget got a.fid).getD (missingRecord a.mode k a.fid wk 0))) []
      let c := (c.onDie (·.countN Reg.TEL_CNT_MISSING (c.mapAgents.filter fun a => (tget got a.fid).isNone).length)).writeSlot 0 wk k m
      let tw := wk * 2 ^ k / 2 ^ c.tel.m
      let tenant := m.foldl (fun (t : Tbl (List Nat)) p =>
        tset t (tw * 2 ^ 18 + p.1) (tenantAdd (tgetD t (tw * 2 ^ 18 + p.1) []) p.2)) c.tel.tenant
      ({ c with tel := { c.tel with maps := c.tel.maps.filter (fun p => decide (wk * 2 ^ k * 16 + k < p.1)), lastClosed := some (wk, k),
                                    group1 := c.tel.group1 ++ [m], tenant := tenant } } : Ctl).closeGroups wk k false)
  -- before that it does nothing
  ∧ (∀ (s : State) (wk k : Nat), On s → s.ctl.nextMap = (wk, k) → s.ctl.die.ns < windowNs k * (wk + 2) + 90000 →
    exec .mapClose s = ctlDoes s fun c => c)
  -- TENANT_WINDOW_END once the window has ended: one record for each compiled partition in the order of tags
  ∧ (∀ (s : State) (window : Nat), On s → 64000 * 2 ^ s.ctl.tel.m * (window + 1) ≤ s.ctl.die.ns →
    exec (.tenantWindowEnd window) s = ctlDoes s fun c => c.works Blk.TEL fun c =>
      let c := ((c.adm.parts.filter fun p => p.phase ≠ 0).mergeSort fun x y => decide (x.tag ≤ y.tag)).foldl
        (fun c p => c.putTenant (c.tenantRecord window p)) c
      { c with tel := { c.tel with tenant := c.tel.tenant.filter fun p => decide ((window + 1) * 2 ^ 18 ≤ p.1) } })
  ∧ (∀ (s : State) (window : Nat), On s → s.ctl.die.ns < 64000 * 2 ^ s.ctl.tel.m * (window + 1) →
    exec (.tenantWindowEnd window) s = ctlDoes s fun c => c)
  -- TEL_CFG_WRITE out of range is ignored; in range the change is scheduled
  ∧ (∀ (s : State) (val : Word), On s → Takes s.ctl.die Blk.TEL → s.ctl.die.part.telCfgOk val.toNat = false →
    exec (.telCfgWrite val) s = ctlDoes s fun c => c.raise (Ev.WRITE_IGNORED Blk.TEL))
  ∧ (∀ (s : State) (val : Word), On s → Takes s.ctl.die Blk.TEL → s.ctl.die.part.telCfgOk val.toNat = true → s.ctl.cst.agents = [] →
    exec (.telCfgWrite val) s = ctlDoes s fun c =>
      { c with die := c.die.setN Reg.TEL_CFG (val.toNat % 512),
               tel := { c.tel with change := some (bitsOf val.toNat 3 0, bitsOf val.toNat 7 4, bitOf val.toNat 8,
                 ceilDiv (c.die.ns + 20000000) 16384000) } })
  -- TEL_CONFIG_CHANGE at its fabric time: the pending change takes effect; before that it waits
  ∧ (∀ (s : State) (m at_ : Nat) (en : Bool), On s → s.ctl.tel.change = some (s.ctl.tel.k, m, en, at_) → 16384000 * at_ ≤ s.ctl.die.ns →
    exec (.telConfigChange .ctl) s = ctlDoes s fun c => c.works Blk.TEL fun c => { c with tel := { c.tel with m := m, enable := en, change := none } })
  ∧ (∀ (s : State) (k m at_ : Nat) (en : Bool), On s → s.ctl.tel.change = some (k, m, en, at_) → s.ctl.die.ns < 16384000 * at_ →
    exec (.telConfigChange .ctl) s = ctlDoes s fun c => c)
  ∧ (∀ (s : State) (w : Who), Up s w → (s.agt w).die.fget Fl.AGT_TEL_CFG_window_log2 ≠ (s.agt w).tel.k → (s.agt w).tel.enable = true →
    16384000 * (s.agt w).die.fget Fl.AGT_TEL_CFG_change_at + 6 < (s.agt w).die.ns →
    exec (.telConfigChange (.agt w)) s = agtDoes s w fun a =>
      { a with tel := { a.tel with k := a.die.fget Fl.AGT_TEL_CFG_window_log2,
                                   enable := decide (a.die.fget Fl.AGT_TEL_CFG_enable = 1), partialFlag := true } })

/-- R299, R363 to R366, R368, R369: health, gauge and wear. -/
def Obligations.HealthGaugeWear : Prop :=
  -- every command of the group answers a next state: that of its own effect
  (∀ (s : State) (fid : Nat) (ents : List TrainEnt), On s →
    exec (.trainSave fid ents) s = ctlDoes s fun c =>
      let old := tgetD c.flash.train fid []
      let keep := old.filter fun e => !(ents.any fun x => x.lane = e.lane)
      let pl := c.plan
      let bonds : List Nat := match planLoc pl c.base fid with
        | some loc => ents.filterMap fun (e : TrainEnt) => (planLane pl c.base loc e.lane).map (·.bond)
        | none => []
      let wear := c.tel.wear.map fun (m : WearMon) => if m.fid = fid ∧ m.kind = 2 ∧ bonds.contains m.monitor then { m with retrained := true } else m
      { c with flash := { c.flash with train := tset c.flash.train fid (keep ++ ents) }, tel := { c.tel with wear := wear },
               cst := { c.cst with newSettings := true } })
  ∧ (∀ (s : State) (h : Health), On s →
    exec (.healthSample .ctl h) s = ctlDoes s (·.healthSample h))
  ∧ (∀ (s : State) (w : Who) (h : Health), Up s w →
    exec (.healthSample (.agt w) h) s = agtDoes s w (·.healthSample h))
  ∧ (∀ (s : State) (region dMeas mv : Nat) (temp : Int), On s →
    exec (.gaugeMeasure .ctl region dMeas mv temp) s = ctlDoes s fun c => c.works Blk.GAU (·.gauge region dMeas mv temp))
  ∧ (∀ (s : State) (w : Who) (region dMeas mv : Nat) (temp : Int), Up s w →
    exec (.gaugeMeasure (.agt w) region dMeas mv temp) s = agtDoes s w (·.gauge region dMeas mv temp))
  ∧ (∀ (s : State) (region : Nat), On s →
    exec (.gaugeExceedExit .ctl region) s = ctlDoes s fun c =>
      c.works Blk.GAU fun c => match c.die.leaveExceed region with
      | some d => ({ c with die := d } : Ctl).changed
      | none => c)
  ∧ (∀ (s : State) (w : Who) (region : Nat), Up s w →
    exec (.gaugeExceedExit (.agt w) region) s = agtDoes s w fun a =>
      match a.die.leaveExceed region with
      | some d => ({ a with die := d } : Agt).gaugeReport region
      | none => a)
  ∧ (∀ (s : State) (fid region : Nat) (delay : GaugeDelay) (ratio : GaugeRatio) (exceed : Bool), On s →
    exec (.gaugeReport fid region delay ratio exceed) s = ctlDoes s fun c =>
      c.works Blk.GAU fun c =>
      let key := fid * 256 + region
      let was : Bool := ((tget c.tel.regions key).map (·.exceed)).getD false
      let r : Region := { exceed := exceed, within := none, delay := delay.worst, outside := delay.outside, latest := (delay.worst, delay.outside), dMeas := ratio.dMeas, ref := ratio.ref }
      let c := ({ c with tel := { c.tel with regions := tset c.tel.regions key r } } : Ctl).onDie (·.count Reg.GAU_CNT_REPORTS)
      if exceed && !was then c.queueFailure (.gaugeExceed fid region) else c.changed)
  ∧ (∀ (s : State) (ents : List WearEnt), On s →
    exec (.wearSampleTake .ctl ents) s = ctlDoes s fun c => c.works Blk.WER fun c => c.wearSamples c.embFid c.dieId ents)
  ∧ (∀ (s : State) (w : Who) (ents : List WearEnt), Up s w →
    exec (.wearSampleTake (.agt w) ents) s = agtDoes s w fun a =>
      (inGroups 15 ents.length ents).foldl (fun a g => a.onDie (·.toController 0x27 (g.flatMap WearEnt.bytes))) a)
  -- HEALTH_SAMPLE at the controller: TEL_HEALTH shows it, and what it breaks is raised
  ∧ (∀ (s : State) (h : Health), On s →
    exec (.healthSample .ctl h) s = ctlDoes s fun c =>
      let d := c.die.setN Reg.TEL_HEALTH (toTwos 16 (h.temps.getD (hottest h.temps) 0) + satU 16 (h.rails.getD 0 0) * 2 ^ 16
        + satU 32 h.powerMw * 2 ^ 32)
      let r := d.raiseHealth c.tel.lastRaised h.ms (healthBreaks d.part 0 h)
      { c with die := r.1, tel := { c.tel with lastRaised := r.2 } })
  -- HEALTH_SAMPLE at an agent: the core voltage shows, what it breaks is raised, and the window's block takes it in
  ∧ (∀ (s : State) (w : Who) (h : Health), Up s w →
    exec (.healthSample (.agt w) h) s = agtDoes s w fun a =>
      let a := a.onDie fun d => (d.fset Fl.AGT_VCORE_measured_mv (h.rails.getD 0 0)).fset Fl.AGT_VCORE_lowest_mv
        (min ((d.fset Fl.AGT_VCORE_measured_mv (h.rails.getD 0 0)).fget Fl.AGT_VCORE_lowest_mv) (h.rails.getD 0 0))
      let r := a.die.raiseHealth a.tel.lastRaised h.ms (healthBreaks a.die.part (a.die.fget Fl.AGT_VCORE_floor_mv) h)
      ({ a with die := r.1, tel := { a.tel with lastRaised := r.2 } } : Agt).takeHealth h)
  -- GAUGE_MEASURE of a region without a table does nothing; one that enters EXCEED raises and reports it
  ∧ (∀ (s : State) (w : Who) (region dMeas mv : Nat) (temp : Int), Up s w → tget (s.agt w).die.gaugeTab region = none →
    exec (.gaugeMeasure (.agt w) region dMeas mv temp) s = agtDoes s w fun a => a)
  ∧ (∀ (s : State) (w : Who) (region dMeas mv : Nat) (temp : Int) (m : Gauged), Up s w →
    (s.agt w).die.measure region dMeas mv temp = some m → m.enters = true →
    exec (.gaugeMeasure (.agt w) region dMeas mv temp) s = agtDoes s w fun a =>
      let a := a.onDie (·.setRegion region m.region)
      (({ a with tel := { a.tel with exceedSeen := true } } : Agt).raise Ev.AGT_GAUGE_EXCEED region).gaugeReport region)
  ∧ (∀ (s : State) (region dMeas mv : Nat) (temp : Int) (m : Gauged), On s →
    s.ctl.die.measure region dMeas mv temp = some m → m.enters = true →
    exec (.gaugeMeasure .ctl region dMeas mv temp) s = ctlDoes s fun c => c.works Blk.GAU fun c =>
      let c := ((c.onDie (·.setRegion region m.region)).raise Ev.GAUGE_EXCEED region).onDie (·.count Reg.GAU_CNT_EXCEED)
      c.queueFailure (.gaugeExceed c.embFid region))
  -- GAUGE_EXCEED_EXIT: a region whose measurements were within the limit for 1 s leaves EXCEED, and what it reports is the delay of now
  ∧ (∀ (s : State) (w : Who) (region t : Nat) (r : Region), Up s w → tget (s.agt w).die.regions region = some r → r.exceed = true →
    r.within = some t → t + 1000000000 ≤ (s.agt w).die.up →
    exec (.gaugeExceedExit (.agt w) region) s = agtDoes s w fun a =>
      (a.onDie (·.setRegion region { r with exceed := false, delay := r.latest.1, outside := r.latest.2 })).gaugeReport region)
  ∧ (∀ (s : State) (region t : Nat) (r : Region), On s → tget s.ctl.die.regions region = some r → r.exceed = true →
    r.within = some t → t + 1000000000 ≤ s.ctl.die.up →
    exec (.gaugeExceedExit .ctl region) s = ctlDoes s fun c => c.works Blk.GAU fun c =>
      (c.onDie (·.setRegion region { r with exceed := false, delay := r.latest.1, outside := r.latest.2 })).changed)
  ∧ (∀ (s : State) (region : Nat) (r : Region), On s → tget s.ctl.die.regions region = some r →
    (∀ t, r.within = some t → s.ctl.die.up < t + 1000000000) →
    exec (.gaugeExceedExit .ctl region) s = ctlDoes s fun c => c)
  -- GAUGE_REPORT: the controller's picture of the region; entering EXCEED is a failure to route around
  ∧ (∀ (s : State) (fid region : Nat) (delay : GaugeDelay) (ratio : GaugeRatio), On s → tget s.ctl.tel.regions (fid * 256 + region) = none →
    exec (.gaugeReport fid region delay ratio true) s = ctlDoes s fun c => c.works Blk.GAU fun c =>
      let r : Region := { exceed := true, within := none, delay := delay.worst, outside := delay.outside,
                          latest := (delay.worst, delay.outside), dMeas := ratio.dMeas, ref := ratio.ref }
      (({ c with tel := { c.tel with regions := tset c.tel.regions (fid * 256 + region) r } } : Ctl).onDie
        (·.count Reg.GAU_CNT_REPORTS)).queueFailure (.gaugeExceed fid region))
  -- WEAR_SAMPLE_TAKE at an agent sends at most 15 samples to a message; the controller takes its own
  ∧ (∀ (s : State) (w : Who) (ents : List WearEnt), Up s w →
    exec (.wearSampleTake (.agt w) ents) s = agtDoes s w fun a =>
      (inGroups 15 ents.length ents).foldl (fun a g => a.onDie (·.toController 0x27 (g.flatMap WearEnt.bytes))) a)
  ∧ (∀ (s : State) (ents : List WearEnt), On s →
    exec (.wearSampleTake .ctl ents) s = ctlDoes s fun c => c.works Blk.WER fun c => c.wearSamples c.embFid c.dieId ents)
  -- WEAR_SAMPLE: each sample joins its monitor's history, counts, and may warn
  ∧ (∀ (s : State) (fid dieId : Nat) (ents : List WearEnt), On s →
    exec (.wearSample fid dieId ents) s = ctlDoes s fun c => c.works Blk.WER fun c =>
      ents.foldl (fun c e => ((c.wearTake fid dieId e).onDie (·.count Reg.WER_CNT_SAMPLES)).wearWarn fid e) c)
  -- TRAIN_SAVE: the settings of the lanes named are replaced in module flash
  ∧ (∀ (s : State) (fid : Nat) (ents : List TrainEnt), On s → s.ctl.tel.wear = [] →
    exec (.trainSave fid ents) s = ctlDoes s fun c =>
      let keep := (tgetD c.flash.train fid []).filter fun e => !(ents.any fun x => x.lane = e.lane)
      { c with flash := { c.flash with train := tset c.flash.train fid (keep ++ ents) }, cst := { c.cst with newSettings := true } })

/-! ## Skein -/

/-- R6, R452 to R454: the links to the control node. -/
def Obligations.SkeinLinks : Prop :=
  -- every command of the group answers a next state: that of its own effect
  (∀ (s : State) (port lanes : Nat), On s →
    exec (.skeinLinkUp port lanes) s = ctlDoes s fun c => c.linkUp port lanes)
  ∧ (∀ (s : State) (h : FrameHdr), On s →
    exec (.skeinLinkFrame h) s = ctlDoes s fun c =>
      let (c, ok) := c.frameIn h
      if !ok ∨ h.ftype ≠ 1 then c
      else
        let p := c.port h.port
        (c.setPort h.port { p with grant := p.grant + h.id }).pumpFrames (p.waiting.length + 1) h.port)
  ∧ (∀ (s : State) (port lanes : Nat), On s →
    exec (.skeinLinkDown port lanes) s = ctlDoes s fun c => c.linkDown port lanes)
  -- SKEIN_LINK_UP of a port that is down: 256 credits either way, fresh sequences
  ∧ (∀ (s : State) (n lanes : Nat), On s → n < s.ctl.die.part.skeinPorts → lanes ≠ 0 → lanes ≤ 2 → (s.ctl.port n).link ≠ 2 →
    exec (.skeinLinkUp n lanes) s = ctlDoes s fun c => c.setPort n
      { c.port n with link := 2, lanes := lanes, credits := 256, grant := 256, rxSeq := none, txSeq := 0, waiting := [] })
  -- a lane that joins a link
  ∧ (∀ (s : State) (n lanes : Nat), On s → n < s.ctl.die.part.skeinPorts → lanes ≠ 0 → lanes ≤ 2 → (s.ctl.port n).link = 2 →
    exec (.skeinLinkUp n lanes) s = ctlDoes s fun c => c.setPort n { c.port n with lanes := lanes })
  -- SKEIN_LINK_DOWN of one of two lanes
  ∧ (∀ (s : State) (n lanes : Nat), On s → (s.ctl.port n).link = 2 → 0 < lanes → lanes < (s.ctl.port n).lanes →
    exec (.skeinLinkDown n lanes) s = ctlDoes s fun c => c.setPort n { c.port n with lanes := lanes })
  -- SKEIN_LINK_DOWN of the last: the session and the port's connections are gone
  ∧ (∀ (s : State) (n : Nat), On s → (s.ctl.port n).link = 2 → 0 < (s.ctl.port n).lanes →
    exec (.skeinLinkDown n 0) s = ctlDoes s fun c =>
      let c := c.endLink n
      let c := c.setPort n { c.port n with link := 0, lanes := 0, credits := 0, grant := 0, rxSeq := none, txSeq := 0, waiting := [] }
      { c with kst := { c.kst with conns := c.kst.conns.filter fun x => x.port ≠ n } })
  -- a frame on a port without credits is discarded and counted
  ∧ (∀ (c : Ctl) (h : FrameHdr), h.port < c.die.part.skeinPorts → h.ftype ≠ 1 → (c.port h.port).credits = 0 →
    c.frameIn h = (c.onDie (·.count Reg.SKN_CNT_CREDIT_OVERRUN), false))
  -- a frame whose tag fails is discarded and counted
  ∧ (∀ (c : Ctl) (h : FrameHdr), h.port < c.die.part.skeinPorts → (c.port h.port).credits ≠ 0 → (c.port h.port).link = 2 → h.intact = false →
    c.frameIn h = (c.onDie (·.count Reg.SKN_CNT_TAG_FAIL), false))
  -- SKEIN_LINK_FRAME: credits return and frames that waited go out
  ∧ (∀ (s : State) (h : FrameHdr) (c' : Ctl), On s → h.ftype = 1 → s.ctl.frameIn h = (c', true) →
    exec (.skeinLinkFrame h) s = ctlDoes s fun _ =>
      (c'.setPort h.port { c'.port h.port with grant := (c'.port h.port).grant + h.id }).pumpFrames
        ((c'.port h.port).waiting.length + 1) h.port)
  ∧ (∀ (s : State) (h : FrameHdr) (c' : Ctl), On s → s.ctl.frameIn h = (c', false) →
    exec (.skeinLinkFrame h) s = ctlDoes s fun _ => c')

/-- R347, R457, R458, R480, R481: queue pairs and their work. -/
def Obligations.QueuePairs : Prop :=
  -- every command of the group answers a next state: that of its own effect
  (∀ (s : State) (h : FrameHdr) (ents : List WorkEntry), On s →
    exec (.doorbell h ents) s = ctlDoes s fun c =>
      let (c, ok) := c.frameIn h
      if !ok then c
      else if !h.encrypted then c.onDie (·.count Reg.SKN_CNT_PLAIN_DISCARD)
      else if ents.isEmpty ∨ 64 < ents.length ∨ !(c.qp h.qp).enable ∨ (c.qp h.qp).port ≠ h.port then c
      else ents.foldl (fun (c : Ctl) e => c.post h.qp e) c)
  ∧ (∀ (s : State) (qp : Nat), On s →
    exec (.qpWrite qp) s = ctlDoes s fun c =>
      match (c.qp qp).work.find? fun w => w.entry.opcode = 1 && !w.open_ with
      | some w => c.openWrite qp w
      | none => c)
  ∧ (∀ (s : State) (qp : Nat), On s →
    exec (.qpRead qp) s = ctlDoes s fun c => c.qpRead qp)
  ∧ (∀ (s : State) (qp : Nat), On s →
    exec (.mirrorOut qp) s = ctlDoes s fun c => c.mirrorOut qp)
  ∧ (∀ (s : State) (qp : Nat) (rec : Bytes), On s →
    exec (.mirrorIn qp rec) s = ctlDoes s fun c => c.mirrorIn qp rec)
  ∧ (∀ (s : State) (h : FrameHdr) (data : Bytes), On s →
    exec (.skeinData h data) s = ctlDoes s fun c => c.skeinData h data)
  ∧ (∀ (s : State) (qp wrId : Nat), On s →
    exec (.qpWriteTimeout qp wrId) s = ctlDoes s fun c =>
      match (c.qp qp).work.find? fun w => w.entry.opcode = 1 && w.entry.wrId = wrId with
      | some w => if c.die.up < 100000000 + w.lastNs then c else c.endWork qp w 5 (covered w.placed)
      | none => c)
  -- DOORBELL: the entries are posted in order
  ∧ (∀ (s : State) (h : FrameHdr) (ents : List WorkEntry) (c' : Ctl), On s → s.ctl.frameIn h = (c', true) → h.encrypted = true →
    ents ≠ [] → ents.length ≤ 64 → (c'.qp h.qp).enable = true → (c'.qp h.qp).port = h.port →
    exec (.doorbell h ents) s = ctlDoes s fun _ => ents.foldl (fun (c : Ctl) e => c.post h.qp e) c')
  -- a full queue pair completes an entry FULL; an entry without length LENGTH
  ∧ (∀ (c : Ctl) (q : Nat) (e : WorkEntry), e.opcode = 1 → (c.qp q).kind ≠ 1 → c.keystone = true → e.length = 0 →
    c.post q e = c.complete q 7 e.wrId 0)
  ∧ (∀ (c : Ctl) (q : Nat) (e : WorkEntry), e.opcode = 1 → (c.qp q).kind ≠ 1 → c.keystone = true → e.length ≠ 0 → e.length ≤ 16777216 →
    256 ≤ (c.qp q).work.length → c.post q e = c.complete q 3 e.wrId 0)
  ∧ (∀ (c : Ctl) (q : Nat) (e : WorkEntry), e.opcode = 1 → (c.qp q).kind ≠ 1 → c.keystone = true → e.length ≠ 0 → e.length ≤ 16777216 →
    (c.qp q).work.length < 256 →
    c.post q e = c.setWork q ((c.qp q).work ++ [{ entry := e, open_ := false, placed := [], lastNs := c.die.up }]))
  -- QP_WRITE: the oldest WRITE that is not open opens; outside the regions that take writes it ends with REGION
  ∧ (∀ (s : State) (q : Nat) (w : Work), On s → ((s.ctl.qp q).work.find? fun w => w.entry.opcode = 1 && !w.open_) = some w →
    s.ctl.die.safe = false → s.ctl.outsideWrite w.entry.addr w.entry.length = true →
    exec (.qpWrite q) s = ctlDoes s fun c =>
      c.setWork q ((c.qp q).work.map fun x => if x = w then { x with open_ := true, lastNs := c.die.up } else x))
  ∧ (∀ (s : State) (q : Nat) (w : Work), On s → ((s.ctl.qp q).work.find? fun w => w.entry.opcode = 1 && !w.open_) = some w →
    s.ctl.die.safe = false → s.ctl.outsideWrite w.entry.addr w.entry.length = false →
    exec (.qpWrite q) s = ctlDoes s fun c => c.endWork q w 1 0)
  -- QP_READ: the bytes as DATA frames, then the completion; REGION where the control node may not read
  ∧ (∀ (s : State) (q : Nat) (w : Work), On s → ((s.ctl.qp q).work.find? fun w => w.entry.opcode = 2) = some w →
    s.ctl.outsideRead w.entry.addr w.entry.length = false →
    exec (.qpRead q) s = ctlDoes s fun c => c.endWork q w 1 0)
  ∧ (∀ (s : State) (q : Nat) (w : Work) (c' : Ctl) (bs : Bytes) (bad : Bool), On s →
    ((s.ctl.qp q).work.find? fun w => w.entry.opcode = 2) = some w → s.ctl.outsideRead w.entry.addr w.entry.length = true →
    s.ctl.memRead w.entry.addr w.entry.length = (c', bs, bad) →
    exec (.qpRead q) s = ctlDoes s fun _ => (c'.sendData q w bs).endWork q w (if bad then 8 else 0) bs.length)
  -- MIRROR_OUT on the active module: the next record, zeros after it
  ∧ (∀ (s : State) (q : Nat) (w : Work) (r : Bytes) (rest : List Bytes), On s → s.ctl.die.bget Reg.RCV_ROLE 0 0 ≠ 0 →
    ((s.ctl.qp q).work.find? fun w => w.entry.opcode = 4) = some w → s.ctl.rcv.mirror = r :: rest → r.length ≤ w.entry.length →
    exec (.mirrorOut q) s = ctlDoes s fun c =>
      let c : Ctl := { c with rcv := { c.rcv with mirror := rest } }
      (c.sendData q w (r ++ List.replicate (w.entry.length - r.length) 0)).endWork q w 0 w.entry.length)
  -- MIRROR_IN on the standby: the record is stored and taken
  ∧ (∀ (s : State) (q : Nat) (rec : Bytes) (w : Work), On s → s.ctl.die.bget Reg.RCV_ROLE 0 0 ≠ 1 →
    ((s.ctl.qp q).work.find? fun w => w.entry.opcode = 5) = some w → s.ctl.die.safe = false →
    s.ctl.outsideWrite w.entry.addr w.entry.length = true → rec.length ≤ w.entry.length →
    exec (.mirrorIn q rec) s = ctlDoes s fun c => ((c.memWrite w.entry.addr rec).1.takeMirror rec).endWork q w 0 rec.length)
  -- SKEIN_DATA for no WRITE is late; for an open WRITE it is placed
  ∧ (∀ (s : State) (h : FrameHdr) (data : Bytes) (c' : Ctl), On s → s.ctl.frameIn h = (c', true) → h.encrypted = true →
    (c'.qp h.qp).work = [] →
    exec (.skeinData h data) s = ctlDoes s fun _ => c'.onDie (·.count Reg.SKN_CNT_LATE_ARRIVAL))
  ∧ (∀ (s : State) (h : FrameHdr) (data : Bytes) (c' : Ctl) (w : Work), On s → s.ctl.frameIn h = (c', true) → h.encrypted = true →
    (c'.qp h.qp).work = [w] → w.entry.opcode = 1 → w.entry.wrId = h.id → w.open_ = true → c'.die.takeWait Blk.SKN = (false, c'.die) →
    c'.die.up ≤ 100000000 + w.lastNs →
    exec (.skeinData h data) s = ctlDoes s fun _ => c'.place h.qp w h.offset data)
  -- QP_WRITE_TIMEOUT: after 100 ms without DATA the WRITE ends with what it placed
  ∧ (∀ (s : State) (q wrId : Nat) (w : Work), On s →
    ((s.ctl.qp q).work.find? fun w => w.entry.opcode = 1 && w.entry.wrId = wrId) = some w → w.lastNs + 100000000 ≤ s.ctl.die.up →
    exec (.qpWriteTimeout q wrId) s = ctlDoes s fun c => c.endWork q w 5 (covered w.placed))

/-! ## Keystone: sessions -/

/-- R398, R399, R526: what the responder answers before a session. A request goes into the transcript with its answer. -/
def Obligations.SpdmRequests : Prop :=
  -- every command of the group answers a next state: that of its own effect
  (∀ (s : State) (c : Conn), On s →
    exec (.getVersion c) s = ctlDoes s fun t =>
      if !t.hears c then t
      else if (t.spdm c).phase ≥ 4 then t.spdmError c 0x04 0
      else t.advance c { Spdm.fresh c with phase := 1 } (le 1 0x84) 0x04 (le 1 0 ++ le 1 1 ++ le 2 0x1300))
  ∧ (∀ (s : State) (c : Conn) (version flags : Nat), On s →
    exec (.getCapabilities c version flags) s = ctlDoes s fun t =>
      t.request c 1 fun t x =>
      if version ≠ 0x13 then t.spdmError c 0x41 0
      else t.advance c { x with phase := max x.phase 2 } (le 1 0xE1 ++ le 4 flags) 0x61 (le 4 spdmFlags))
  ∧ (∀ (s : State) (c : Conn) (version : Nat) (algs : List Nat), On s →
    exec (.negotiateAlgorithms c version algs) s = ctlDoes s fun t =>
      t.request c 2 fun t x =>
      if version ≠ 0x13 then t.spdmError c 0x41 0
      else if !(algs.contains 1) ∨ !(algs.contains 3) then t.spdmError c 0x01 0
      else
        let fast := algs.contains 2
        t.advance c { x with phase := max x.phase 3, fast := fast } (le 1 0xE3 ++ algs.flatMap (le 2)) 0x63
          (le 2 1 ++ le 2 3 ++ le 2 (if fast then 2 else 1)))
  ∧ (∀ (s : State) (c : Conn), On s →
    exec (.getDigests c) s = ctlDoes s fun t =>
      t.request c 3 fun t x =>
      t.advance c x (le 1 0x81) 0x01 (le 1 1 ++ digestBytes (Config.sha3 (Config.deviceCert t.dieId))))
  ∧ (∀ (s : State) (c : Conn) (slot offset length : Nat), On s →
    exec (.getCertificate c slot offset length) s = ctlDoes s fun t =>
      t.request c 3 fun t x =>
      let chain := Config.deviceCert t.dieId
      if slot ≠ 0 ∨ chain.length ≤ offset then t.spdmError c 0x01 0
      else
        let part := (chain.drop offset).take (min length 4080)
        t.advance c x (le 1 0x82 ++ le 2 offset ++ le 2 length) 0x02
          (le 1 slot ++ le 2 part.length ++ le 2 (chain.length - offset - part.length) ++ part))
  ∧ (∀ (s : State) (c : Conn) (nonce : Nat), On s →
    exec (.challenge c nonce) s = ctlDoes s fun t =>
      t.request c 3 fun t x =>
      let (own, d) := Die.freeBytes 4 t.die
      let t : Ctl := { t with die := d }
      let body := digestBytes (Config.sha3 (Config.deviceCert t.dieId)) ++ own
      let req := le 1 0x83 ++ nonceBytes nonce
      t.advance c x req 0x03 (body ++ kstSign (x.transcript ++ req ++ body)))
  ∧ (∀ (s : State) (c : Conn) (block : Nat) (signed : Bool) (nonce : Nat), On s →
    exec (.getMeasurements c block signed nonce) s = ctlDoes s fun t =>
      t.request c 3 fun t x =>
      if 9 < block ∧ block ≠ 0xFF then t.spdmError c 0x01 0
      else
        let which := if block = 0 then [] else if block = 0xFF then (List.range 9).map (· + 1) else [block]
        let body := le 1 (if block = 0 then 9 else which.length) ++ which.flatMap fun b => le 1 b ++ le 1 1 ++ le 2 64 ++ digestBytes (t.measurement b)
        let req := le 1 0xE0 ++ le 1 block ++ le 1 (b2n signed) ++ nonceBytes nonce
        t.advance c x req 0x60 (body ++ if signed then kstSign (x.transcript ++ req ++ body) else []))
  ∧ (∀ (s : State) (c : Conn) (code : Nat), On s →
    exec (.unsupportedRequest c code) s = ctlDoes s fun t => if t.hears c then t.spdmError c 0x07 code else t)
  -- GET_VERSION before a key exchange: version 1.3 alone, and the connection starts again
  ∧ (∀ (s : State) (k : Conn), On s → s.ctl.hears k = true → (s.ctl.spdm k).phase < 4 →
    exec (.getVersion k) s = ctlDoes s fun c =>
      c.advance k { Spdm.fresh k with phase := 1 } (le 1 0x84) 0x04 (le 1 0 ++ le 1 1 ++ le 2 0x1300))
  -- GET_CAPABILITIES
  ∧ (∀ (s : State) (k : Conn) (flags : Nat), On s → s.ctl.hears k = true → 1 ≤ (s.ctl.spdm k).phase →
    exec (.getCapabilities k 0x13 flags) s = ctlDoes s fun c =>
      c.advance k { c.spdm k with phase := max (c.spdm k).phase 2 } (le 1 0xE1 ++ le 4 flags) 0x61 (le 4 spdmFlags))
  ∧ (∀ (s : State) (k : Conn) (version flags : Nat), On s → s.ctl.hears k = true → 1 ≤ (s.ctl.spdm k).phase → version ≠ 0x13 →
    exec (.getCapabilities k version flags) s = ctlDoes s fun c => c.spdmError k 0x41 0)
  -- NEGOTIATE_ALGORITHMS with the responder's own algorithms offered
  ∧ (∀ (s : State) (k : Conn) (algs : List Nat), On s → s.ctl.hears k = true → 2 ≤ (s.ctl.spdm k).phase →
    algs.contains 1 = true → algs.contains 3 = true →
    exec (.negotiateAlgorithms k 0x13 algs) s = ctlDoes s fun c =>
      c.advance k { c.spdm k with phase := max (c.spdm k).phase 3, fast := algs.contains 2 } (le 1 0xE3 ++ algs.flatMap (le 2)) 0x63
        (le 2 1 ++ le 2 3 ++ le 2 (if algs.contains 2 then 2 else 1)))
  -- GET_DIGESTS
  ∧ (∀ (s : State) (k : Conn), On s → s.ctl.hears k = true → 3 ≤ (s.ctl.spdm k).phase →
    exec (.getDigests k) s = ctlDoes s fun c =>
      c.advance k (c.spdm k) (le 1 0x81) 0x01 (le 1 1 ++ digestBytes (Config.sha3 (Config.deviceCert c.dieId))))
  -- GET_CERTIFICATE: a portion of slot 0's chain, and how much remains; another slot, or an offset at or past the end, is an error
  ∧ (∀ (s : State) (k : Conn) (slot offset length : Nat), On s → s.ctl.hears k = true → 3 ≤ (s.ctl.spdm k).phase →
    exec (.getCertificate k slot offset length) s = ctlDoes s fun c =>
      let chain := Config.deviceCert c.dieId
      let part := (chain.drop offset).take (min length 4080)
      if slot ≠ 0 ∨ chain.length ≤ offset then c.spdmError k 0x01 0
      else c.advance k (c.spdm k) (le 1 0x82 ++ le 2 offset ++ le 2 length) 0x02
        (le 1 slot ++ le 2 part.length ++ le 2 (chain.length - offset - part.length) ++ part))
  -- CHALLENGE: the responder signs its transcript with a nonce of its own
  ∧ (∀ (s : State) (k : Conn) (nonce : Nat) (own : Bytes) (d : Die), On s → s.ctl.hears k = true → 3 ≤ (s.ctl.spdm k).phase →
    Die.freeBytes 4 s.ctl.die = (own, d) →
    exec (.challenge k nonce) s = ctlDoes s fun c =>
      let x := c.spdm k
      let c : Ctl := { c with die := d }
      let body := digestBytes (Config.sha3 (Config.deviceCert c.dieId)) ++ own
      let req := le 1 0x83 ++ nonceBytes nonce
      c.advance k x req 0x03 (body ++ kstSign (x.transcript ++ req ++ body)))
  -- GET_MEASUREMENTS of one block
  ∧ (∀ (s : State) (k : Conn) (block nonce : Nat), On s → s.ctl.hears k = true → 3 ≤ (s.ctl.spdm k).phase → 1 ≤ block → block ≤ 9 →
    exec (.getMeasurements k block false nonce) s = ctlDoes s fun c =>
      c.advance k (c.spdm k) (le 1 0xE0 ++ le 1 block ++ le 1 0 ++ nonceBytes nonce) 0x60
        (le 1 1 ++ (le 1 block ++ le 1 1 ++ le 2 64 ++ digestBytes (c.measurement block)) ++ []))
  -- UNSUPPORTED_REQUEST: ERROR UnsupportedRequest with the code
  ∧ (∀ (s : State) (k : Conn) (code : Nat), On s → s.ctl.hears k = true →
    exec (.unsupportedRequest k code) s = ctlDoes s fun c => c.spdmError k 0x07 code)
  -- a request before its phase is unexpected
  ∧ (∀ (c : Ctl) (k : Conn) (phase : Nat) (f : Ctl → Spdm → Ctl), c.hears k = true → (c.spdm k).phase < phase →
    c.request k phase f = c.spdmError k 0x04 0)

/-- R383, R399, R401, R454: sessions, their keys and their chunks. -/
def Obligations.SpdmSessions : Prop :=
  -- every command of the group answers a next state: that of its own effect
  (∀ (s : State) (c : Conn) (reqSession : Nat) (ek : Bytes), On s →
    exec (.keyExchange c reqSession ek) s = ctlDoes s fun t =>
      t.request c 3 fun t x =>
      if x.phase = 5 then t.spdmError c 0x04 0
      else
        let (ct, shared) := Config.kemEncaps ek t.die.free
        let t := t.onDie fun d => { d with free := d.free + 1 }
        let id := reqSession % 65536 + t.kst.nextSession % 65536 * 65536
        let req := le 1 0xE4 ++ le 2 reqSession ++ ek
        let body := le 2 t.kst.nextSession ++ slice ct 0 1568
        let sig := kstSign (x.transcript ++ req ++ body)
        let secret := Config.spdmSecret shared (x.transcript ++ req ++ body ++ sig)
        let t : Ctl := { t with kst := { t.kst with nextSession := t.kst.nextSession + 1 } }
        t.advance c { x with phase := 4, session := id, secret := secret } req 0x64
          (body ++ sig ++ Config.spdmFinished true secret (x.transcript ++ req ++ body ++ sig)))
  ∧ (∀ (s : State) (c : Conn) (session : Nat) (chain : List Bytes) (signature verify : Bytes), On s →
    exec (.finish c session chain signature verify) s = ctlDoes s fun t => t.finish c session chain signature verify)
  ∧ (∀ (s : State) (c : Conn) (session tagOp : Nat), On s →
    exec (.keyUpdate c session tagOp) s = ctlDoes s fun t =>
      t.inSession c session fun t x =>
      let g := match tagOp % 256 with
        | 1 => (x.keyGen.1 + 1, x.keyGen.2)
        | 2 => (x.keyGen.1 + 1, x.keyGen.2 + 1)
        | _ => x.keyGen
      if tagOp % 256 = 0 ∨ 3 < tagOp % 256 then t.spdmError c 0x01 0
      else (t.setSpdm { x with keyGen := g }).answer c 0x69 (le 1 (tagOp % 256) ++ le 1 (tagOp / 256)))
  ∧ (∀ (s : State) (c : Conn) (session : Nat), On s →
    exec (.spdmHeartbeat c session) s = ctlDoes s fun t => t.inSession c session fun t x => (t.setSpdm { x with missed := 0 }).answer c 0x68 [])
  ∧ (∀ (s : State) (port : Nat), On s →
    exec (.spdmHeartbeatSend port) s = ctlDoes s (·.heartbeatSend port))
  ∧ (∀ (s : State) (c : Conn) (session : Nat), On s →
    exec (.endSession c session) s = ctlDoes s fun t =>
      t.inSession c session fun t x =>
      let t := t.answer c 0x6C []
      if (t.port c.port).session = some x.session ∧ !x.relayed then t.endLink c.port else t.dropSpdm c)
  ∧ (∀ (s : State) (c : Conn) (handle seq : Nat) (last : Bool) (data : Bytes), On s →
    exec (.chunkSend c handle seq last data) s = ctlDoes s fun t =>
      t.request c 2 fun t x =>
      let held : Option Bytes := match x.rxChunk with
        | some (h, n, b) => if h = handle ∧ n = seq then some b else none
        | none => none
      let start : Option Bytes := if seq = 0 then some [] else held
      match start with
      | none => (t.setSpdm { x with rxChunk := none }).spdmError c 0x01 0
      | some b => (t.setSpdm { x with rxChunk := if last then none else some (handle, seq + 1, b ++ data) }).answer c 0x05
          (le 1 handle ++ le 2 seq))
  ∧ (∀ (s : State) (c : Conn) (handle seq : Nat), On s →
    exec (.chunkGet c handle seq) s = ctlDoes s fun t =>
      t.request c 2 fun t x =>
      match x.txChunk with
      | none => t.spdmError c 0x04 0
      | some (h, n, b) =>
        if h ≠ handle ∨ n ≠ seq then t.spdmError c 0x01 0
        else
          let part := b.take chunkBytes
          let rest := b.drop chunkBytes
          (t.setSpdm { x with txChunk := if rest.isEmpty then none else some (h, n + 1, rest) }).answer c 0x06
            (le 1 handle ++ le 1 (b2n rest.isEmpty) ++ le 2 seq ++ part))
  -- KEY_EXCHANGE: an ML-KEM secret to the requester's key, signed with the transcript
  ∧ (∀ (s : State) (k : Conn) (reqSession : Nat) (ek ct shared : Bytes), On s → s.ctl.hears k = true → 3 ≤ (s.ctl.spdm k).phase →
    (s.ctl.spdm k).phase ≠ 5 → Config.kemEncaps ek s.ctl.die.free = (ct, shared) →
    exec (.keyExchange k reqSession ek) s = ctlDoes s fun c =>
      let x := c.spdm k
      let c := c.onDie fun d => { d with free := d.free + 1 }
      let req := le 1 0xE4 ++ le 2 reqSession ++ ek
      let body := le 2 c.kst.nextSession ++ slice ct 0 1568
      let sig := kstSign (x.transcript ++ req ++ body)
      let secret := Config.spdmSecret shared (x.transcript ++ req ++ body ++ sig)
      let id := reqSession % 65536 + c.kst.nextSession % 65536 * 65536
      let c : Ctl := { c with kst := { c.kst with nextSession := c.kst.nextSession + 1 } }
      c.advance k { x with phase := 4, session := id, secret := secret } req 0x64
        (body ++ sig ++ Config.spdmFinished true secret (x.transcript ++ req ++ body ++ sig)))
  -- FINISH of another session, or whose verify data is wrong, fails the session
  ∧ (∀ (s : State) (k : Conn) (session : Nat) (chain : List Bytes) (signature verify : Bytes), On s → s.ctl.hears k = true →
    (s.ctl.spdm k).phase = 4 →
    verify ≠ Config.spdmFinished false (s.ctl.spdm k).secret ((s.ctl.spdm k).transcript ++ (le 1 0xE5 ++ signature)) →
    exec (.finish k session chain signature verify) s = ctlDoes s fun c => c.sessionFail k (c.spdm k))
  -- FINISH without mutual authentication on a port that has a link session: the session is established
  ∧ (∀ (s : State) (k : Conn) (signature : Bytes) (port : Nat), On s → s.ctl.hears k = true → (s.ctl.spdm k).phase = 4 →
    (s.ctl.spdm k).mutualAuth = false → (s.ctl.spdm k).peer = false → (s.ctl.spdm k).relayed = true → (s.ctl.spdm k).port = port →
    exec (.finish k (s.ctl.spdm k).session [] signature
        (Config.spdmFinished false (s.ctl.spdm k).secret ((s.ctl.spdm k).transcript ++ (le 1 0xE5 ++ signature)))) s =
      ctlDoes s fun c => c.advance k { c.spdm k with phase := 5, keyGen := (0, 0), missed := 0, beatNs := c.die.up } (le 1 0xE5 ++ signature) 0x65 [])
  -- KEY_UPDATE: the key generation of one direction, or both, rises
  ∧ (∀ (s : State) (k : Conn) (tagOp : Nat), On s → s.ctl.hears k = true → (s.ctl.spdm k).phase = 5 → tagOp % 256 = 2 →
    exec (.keyUpdate k (s.ctl.spdm k).session tagOp) s = ctlDoes s fun c =>
      (c.setSpdm { c.spdm k with keyGen := ((c.spdm k).keyGen.1 + 1, (c.spdm k).keyGen.2 + 1) }).answer k 0x69 (le 1 2 ++ le 1 (tagOp / 256)))
  -- SPDM_HEARTBEAT
  ∧ (∀ (s : State) (k : Conn), On s → s.ctl.hears k = true → (s.ctl.spdm k).phase = 5 →
    exec (.spdmHeartbeat k (s.ctl.spdm k).session) s = ctlDoes s fun c => (c.setSpdm { c.spdm k with missed := 0 }).answer k 0x68 [])
  -- SPDM_HEARTBEAT_SEND, each second: after three unanswered the link session ends, a second after the third
  ∧ (∀ (s : State) (port n : Nat) (x : Spdm), On s → (s.ctl.port port).session = some n →
    (s.ctl.kst.conns.find? fun x => x.port = port && x.phase = 5 && (s.ctl.port port).session = some x.session) = some x →
    x.beatNs + 1000000000 ≤ s.ctl.die.up → 3 ≤ x.missed →
    exec (.spdmHeartbeatSend port) s = ctlDoes s fun c => c.endLink port)
  ∧ (∀ (s : State) (port n : Nat) (x : Spdm), On s → (s.ctl.port port).session = some n →
    (s.ctl.kst.conns.find? fun x => x.port = port && x.phase = 5 && (s.ctl.port port).session = some x.session) = some x →
    x.beatNs + 1000000000 ≤ s.ctl.die.up → x.missed < 3 →
    exec (.spdmHeartbeatSend port) s = ctlDoes s fun c =>
      (c.setSpdm { x with missed := x.missed + 1, beatNs := c.die.up }).sendSpdm { port := port, id := x.id } 0xE8 [])
  ∧ (∀ (s : State) (port n : Nat) (x : Spdm), On s → (s.ctl.port port).session = some n →
    (s.ctl.kst.conns.find? fun x => x.port = port && x.phase = 5 && (s.ctl.port port).session = some x.session) = some x →
    s.ctl.die.up < x.beatNs + 1000000000 → exec (.spdmHeartbeatSend port) s = ctlDoes s fun c => c)
  -- END_SESSION of a session that is relayed
  ∧ (∀ (s : State) (k : Conn), On s → s.ctl.hears k = true → (s.ctl.spdm k).phase = 5 → (s.ctl.spdm k).relayed = true →
    exec (.endSession k (s.ctl.spdm k).session) s = ctlDoes s fun c => (c.answer k 0x6C []).dropSpdm k)
  -- CHUNK_SEND of a first chunk
  ∧ (∀ (s : State) (k : Conn) (handle : Nat) (data : Bytes), On s → s.ctl.hears k = true → 2 ≤ (s.ctl.spdm k).phase →
    exec (.chunkSend k handle 0 false data) s = ctlDoes s fun c =>
      (c.setSpdm { c.spdm k with rxChunk := some (handle, 1, data) }).answer k 0x05 (le 1 handle ++ le 2 0))
  -- CHUNK_GET of the next chunk of the response that waits
  ∧ (∀ (s : State) (k : Conn) (handle seq : Nat) (b : Bytes), On s → s.ctl.hears k = true → 2 ≤ (s.ctl.spdm k).phase →
    (s.ctl.spdm k).txChunk = some (handle, seq, b) →
    exec (.chunkGet k handle seq) s = ctlDoes s fun c =>
      let rest := b.drop chunkBytes
      (c.setSpdm { c.spdm k with txChunk := if rest.isEmpty then none else some (handle, seq + 1, rest) }).answer k 0x06
        (le 1 handle ++ le 1 (b2n rest.isEmpty) ++ le 2 seq ++ b.take chunkBytes))
  -- a session request outside its session
  ∧ (∀ (c : Ctl) (k : Conn) (session : Nat) (f : Ctl → Spdm → Ctl), c.hears k = true → (c.spdm k).session ≠ session →
    c.inSession k session f = c.spdmError k 0x02 0)

/-- R377, R383, R386, R387, R400, R402: tenant keys, the operator store and the reports of Keystone. -/
def Obligations.KeystoneRequests : Prop :=
  -- every command of the group answers a next state: that of its own effect
  (∀ (s : State) (c : Conn) (session : Nat) (key : Bytes) (use flags : Nat) (member : Digest), On s →
    exec (.keyDeliver c session key use flags member) s = ctlDoes s fun t => t.inSession c session fun t x => t.keyDeliver c x key use flags member)
  ∧ (∀ (s : State) (c : Conn) (session keyId : Nat), On s →
    exec (.keyDestroy c session keyId) s = ctlDoes s fun t =>
      t.inSession c session fun t x =>
      let mine (k : TKey) : Bool := k.keyId = keyId && k.bound.isNone && k.owner = x.owner && x.mutualAuth
      if t.kst.tenant.any mine then
        ({ t with kst := { t.kst with tenant := t.kst.tenant.filter fun k => !(mine k) } } : Ctl).vendor c 2 (le 1 0)
      else t.vendorDenied c)
  ∧ (∀ (s : State) (c : Conn) (session nonce : Nat), On s →
    exec (.fabricReport c session nonce) s = ctlDoes s fun t => t.inSession c session fun t _ => t.addJob c 1 0 nonce)
  ∧ (∀ (s : State) (c : Conn) (session tag nonce : Nat), On s →
    exec (.partitionReport c session tag nonce) s = ctlDoes s fun t =>
      t.inSession c session fun t x =>
      let owner : Bool := match t.partOf tag with
        | some p => x.mutualAuth && t.kst.tenant.any fun k => k.keyId = p.trafficKey && k.owner = x.owner
        | none => false
      if (t.partOf tag).isSome && (owner || x.operator) then t.addJob c 2 tag nonce else t.vendorDenied c)
  ∧ (∀ (s : State) (c : Conn) (session op : Nat) (key : Bytes), On s →
    exec (.operatorKeys c session op key) s = ctlDoes s fun t =>
      t.inSession c session fun t x =>
      let store := t.flash.operators
      if !x.operator then t.vendorDenied c
      else if op = 0 then
        if store.contains key ∨ 16 ≤ store.length then t.vendorDenied c else (t.setOperators (store ++ [key])).vendor c 5 (le 1 0)
      else if op = 1 then
        if key = x.rootKey ∨ !(store.contains key) then t.vendorDenied c
        else (t.setOperators (store.filter (· ≠ key))).vendor c 5 (le 1 0)
      else t.spdmError c 0x01 0)
  -- KEY_DELIVER of a key that is new, in a session with mutual authentication
  ∧ (∀ (s : State) (k : Conn) (key : Bytes) (use flags : Nat) (member : Digest), On s → s.ctl.hears k = true →
    (s.ctl.spdm k).phase = 5 → (s.ctl.spdm k).mutualAuth = true → s.ctl.die.fget Fl.KST_STATUS_test_mode ≠ 1 → use ≤ 1 →
    (s.ctl.kst.tenant.any fun t => t.keyId = keyIdOf (slice key 0 32)) = false → s.ctl.flash.consumed.contains (keyIdOf (slice key 0 32)) = false →
    s.ctl.kst.tenant.length < 8192 →
    exec (.keyDeliver k (s.ctl.spdm k).session key use flags member) s = ctlDoes s fun c =>
      let id := keyIdOf (slice key 0 32)
      let t : TKey := { keyId := id, key := slice key 0 32, use := use, owner := (c.spdm k).owner,
                        member := if bitOf flags 0 then some member else none, bound := none }
      let c := (c.extend 6 0x60 (BitVec.ofNat 512 id)).onDie (·.count Reg.KST_CNT_KEYS_ACCEPTED)
      ({ c with kst := { c.kst with tenant := c.kst.tenant ++ [t] } } : Ctl).vendor k 1 (le 16 id ++ le 1 0))
  -- without mutual authentication it is refused and counted
  ∧ (∀ (s : State) (k : Conn) (key : Bytes) (use flags : Nat) (member : Digest), On s → s.ctl.hears k = true →
    (s.ctl.spdm k).phase = 5 → (s.ctl.spdm k).mutualAuth = false → use ≤ 1 →
    exec (.keyDeliver k (s.ctl.spdm k).session key use flags member) s = ctlDoes s fun c =>
      (c.onDie (·.count Reg.KST_CNT_KEYS_REFUSED)).vendor k 1 (le 16 (keyIdOf (slice key 0 32)) ++ le 1 3))
  -- KEY_DESTROY of an unconsumed key of the same owner; another is DENIED
  ∧ (∀ (s : State) (k : Conn) (keyId : Nat), On s → s.ctl.hears k = true → (s.ctl.spdm k).phase = 5 → (s.ctl.spdm k).mutualAuth = true →
    (s.ctl.kst.tenant.any fun t => t.keyId = keyId && t.bound.isNone && t.owner = (s.ctl.spdm k).owner) = true →
    exec (.keyDestroy k (s.ctl.spdm k).session keyId) s = ctlDoes s fun c =>
      let left := c.kst.tenant.filter fun t => !(t.keyId = keyId && t.bound.isNone && t.owner = (c.spdm k).owner)
      ({ c with kst := { c.kst with tenant := left } } : Ctl).vendor k 2 (le 1 0))
  ∧ (∀ (s : State) (k : Conn) (keyId : Nat), On s → s.ctl.hears k = true → (s.ctl.spdm k).phase = 5 → s.ctl.kst.tenant = [] →
    exec (.keyDestroy k (s.ctl.spdm k).session keyId) s = ctlDoes s fun c => c.vendorDenied k)
  -- OPERATOR_KEYS: only an operator; an entry is added, or one that did not authenticate the session removed
  ∧ (∀ (s : State) (k : Conn) (op : Nat) (key : Bytes), On s → s.ctl.hears k = true → (s.ctl.spdm k).phase = 5 → (s.ctl.spdm k).operator = false →
    exec (.operatorKeys k (s.ctl.spdm k).session op key) s = ctlDoes s fun c => c.vendorDenied k)
  ∧ (∀ (s : State) (k : Conn) (key : Bytes), On s → s.ctl.hears k = true → (s.ctl.spdm k).phase = 5 → (s.ctl.spdm k).operator = true →
    s.ctl.flash.operators.contains key = false → s.ctl.flash.operators.length < 16 →
    exec (.operatorKeys k (s.ctl.spdm k).session 0 key) s = ctlDoes s fun c =>
      (c.setOperators (c.flash.operators ++ [key])).vendor k 5 (le 1 0))
  ∧ (∀ (s : State) (k : Conn), On s → s.ctl.hears k = true → (s.ctl.spdm k).phase = 5 → (s.ctl.spdm k).operator = true →
    exec (.operatorKeys k (s.ctl.spdm k).session 1 (s.ctl.spdm k).rootKey) s = ctlDoes s fun c => c.vendorDenied k)
  -- FABRIC_REPORT and PARTITION_REPORT are queued, the latter for the owner of the partition's key or an operator
  ∧ (∀ (s : State) (k : Conn) (nonce : Nat), On s → s.ctl.hears k = true → (s.ctl.spdm k).phase = 5 →
    exec (.fabricReport k (s.ctl.spdm k).session nonce) s = ctlDoes s fun c => c.addJob k 1 0 nonce)
  ∧ (∀ (s : State) (k : Conn) (tag nonce : Nat), On s → s.ctl.hears k = true → (s.ctl.spdm k).phase = 5 →
    (s.ctl.partOf tag).isSome = true → (s.ctl.spdm k).operator = true →
    exec (.partitionReport k (s.ctl.spdm k).session tag nonce) s = ctlDoes s fun c => c.addJob k 2 tag nonce)
  ∧ (∀ (s : State) (k : Conn) (tag nonce : Nat), On s → s.ctl.hears k = true → (s.ctl.spdm k).phase = 5 → s.ctl.partOf tag = none →
    exec (.partitionReport k (s.ctl.spdm k).session tag nonce) s = ctlDoes s fun c => c.vendorDenied k)

/-- R376, R380, R383, R391, R392, R464: Keystone's commands, and the key slots of an agent. -/
def Obligations.KeySlots : Prop :=
  -- every command of the group answers a next state: that of its own effect
  (∀ (s : State), On s → Takes s.ctl.die Blk.KST →
    exec (.kstLoadCerts) s = ctlDoes s (·.loadCerts))
  ∧ (∀ (s : State), On s → Takes s.ctl.die Blk.KST →
    exec (.kstEnrol) s = ctlDoes s fun c =>
      if c.flash.operators.isEmpty || !c.flash.operatorsOk then c.onDie (·.fset Fl.KST_STATUS_enrol_armed 1) else c)
  ∧ (∀ (s : State) (val : Word), On s → Takes s.ctl.die Blk.KST →
    exec (.rollbackCommit val) s = ctlDoes s fun c => c.rollbackCommit val.toNat)
  ∧ (∀ (s : State) (w : Who) (inBond : Nat) (wm : Worm), Up s w →
    exec (.keyWrap w inBond wm) s = agtDoes s w fun a => a.keyWrap wm)
  ∧ (∀ (s : State) (w : Who) (slot : Nat), Up s w →
    exec (.keySlotUnusedTimeout w slot) s = agtDoes s w fun a =>
      match a.keySlot slot with
      | some k => if k.state = 1 ∧ 60000000000 + k.loadedNs ≤ a.die.up then (a.emptySlot slot).raise Ev.KEY_UNUSED slot else a
      | none => a)
  ∧ (∀ (s : State) (w : Who) (slot : Nat), Up s w →
    exec (.keySlotRetire w slot) s = agtDoes s w fun a =>
      match a.keySlot slot with
      | some k => match k.state, k.retireNs with
        | 3, some t => if t ≤ a.die.ns then a.emptySlot slot else a
        | _, _ => a
      | none => a)
  ∧ (∀ (s : State) (tag : Nat), On s →
    exec (.rekey tag) s = ctlDoes s (·.rekey tag))
  ∧ (∀ (s : State) (w : Who) (slot : Nat), Up s w →
    exec (.keyExpire w slot) s = agtDoes s w fun a =>
      match a.keySlot slot with
      | some k => if k.use = 0 ∧ a.keyExpired slot then a.noteExpired else a
      | none => a)
  -- KST_LOAD_CERTS: the certificates that verify are kept under their die
  ∧ (∀ (s : State) (c' : Ctl) (b : Bytes), On s → Takes s.ctl.die Blk.KST →
    s.ctl.memRead (s.ctl.die.getN Reg.KST_CERT_ADDR) (s.ctl.die.bget Reg.KST_CERT_LEN 27 0) = (c', b, false) →
    exec .kstLoadCerts s = ctlDoes s fun _ => (derSplit b.length b).foldl (fun c x =>
      if Config.certOk (Config.publicKey 5) x then
        { c with flash := { c.flash with certs := tset c.flash.certs (Config.certSubject x) x } }
      else c.onDie (·.count Reg.KST_CNT_CERT_BAD)) c')
  -- KST_ENROL arms enrolment while the operator store is empty
  ∧ (∀ (s : State), On s → Takes s.ctl.die Blk.KST → s.ctl.flash.operators = [] →
    exec .kstEnrol s = ctlDoes s fun c => c.onDie (·.fset Fl.KST_STATUS_enrol_armed 1))
  ∧ (∀ (s : State), On s → Takes s.ctl.die Blk.KST → s.ctl.flash.operators ≠ [] → s.ctl.flash.operatorsOk = true →
    exec .kstEnrol s = ctlDoes s fun c => c)
  -- ROLLBACK_COMMIT raises a fuse field with its key value, and never lowers one
  ∧ (∀ (s : State) (val : Word), On s → Takes s.ctl.die Blk.KST → bitOf val.toNat 3 = true → bitsOf val.toNat 15 8 = 0xC3 →
    bitsOf val.toNat 6 4 ≤ 3 →
    exec (.rollbackCommit val) s = ctlDoes s fun c =>
      let f := bitsOf val.toNat 6 4
      let n := max (c.flash.fuses.getD f 0) (min (fuseCaps.getD f 0) (c.runningIndex f))
      { c with flash := { c.flash with fuses := c.flash.fuses.set f n } })
  ∧ (∀ (s : State) (val : Word), On s → Takes s.ctl.die Blk.KST → bitsOf val.toNat 15 8 ≠ 0xC3 →
    exec (.rollbackCommit val) s = ctlDoes s fun c => c)
  -- KEY_WRAP: the load where its checks pass, and the KEY_RESULT with its status either way
  ∧ (∀ (s : State) (w : Who) (inBond : Nat) (wm : Worm), Up s w → markPriv (wormMark wm) = 2 →
    exec (.keyWrap w inBond wm) s = agtDoes s w fun a =>
      let p := slice wm.payload 0 128
      let b := if a.wrapStatus p = 0 then a.loadSlot p else a.count Reg.GCM_CNT_WRAP_REFUSED
      b.onDie fun d => d.sendA wm.srcFid 0x42 0 (slice p 0 1 ++ le 1 (a.wrapStatus p) ++ le 6 0 ++ slice p 32 8))
  -- the status of a wrap whose counter rises, outside test mode
  ∧ (∀ (a : Agt) (p : Bytes) (k : AgentKeys), a.die.testEn = false → a.die.getN Reg.GCM_WRAP_SEQ < fieldAt p 32 8 → a.gcm.keys = some k →
    a.wrapStatus p =
      if Config.gcmOk k.wrapKey (le 4 0 ++ be 8 (fieldAt p 32 8)) (p.take 40 ++ le 4 a.fid) (slice p 40 32) (slice p 72 16) = false then 1
      else if 2 < byteAt p 1 ∨ fieldAt p 2 2 = 0 ∨ 4095 < fieldAt p 2 2 ∨ fieldAt p 12 4 ≠ 0 then 4
      else if (a.keySlot (byteAt p 0)).isSome = true then 3
      else 0)
  -- in test mode every wrap is refused, and a wrap counter that does not rise is a replay
  ∧ (∀ (a : Agt) (p : Bytes), a.die.testEn = true → a.wrapStatus p = 5)
  ∧ (∀ (a : Agt) (p : Bytes), a.die.testEn = false → fieldAt p 32 8 ≤ a.die.getN Reg.GCM_WRAP_SEQ → a.wrapStatus p = 2)
  -- KEY_RESULT
  ∧ (∀ (s : State) (fid slot status n : Nat), On s →
    exec (.keyResult fid slot status n) s = ctlDoes s fun c =>
      { c with kst := { c.kst with wraps := c.kst.wraps.filter fun x => x ≠ (fid, slot, n) } })
  -- KEY_SLOT_UNUSED_TIMEOUT, KEY_SLOT_RETIRE and KEY_EXPIRE
  ∧ (∀ (s : State) (w : Who) (slot : Nat) (k : KeySlot), Up s w → (s.agt w).keySlot slot = some k → k.state = 1 →
    k.loadedNs + 60000000000 ≤ (s.agt w).die.up →
    exec (.keySlotUnusedTimeout w slot) s = agtDoes s w fun a => (a.emptySlot slot).raise Ev.KEY_UNUSED slot)
  ∧ (∀ (s : State) (w : Who) (slot t : Nat) (k : KeySlot), Up s w → (s.agt w).keySlot slot = some k → k.state = 3 → k.retireNs = some t →
    t ≤ (s.agt w).die.ns →
    exec (.keySlotRetire w slot) s = agtDoes s w fun a => a.emptySlot slot)
  ∧ (∀ (s : State) (w : Who) (slot : Nat) (k : KeySlot), Up s w → (s.agt w).keySlot slot = some k → k.use = 0 → (s.agt w).keyExpired slot = true →
    exec (.keyExpire w slot) s = agtDoes s w fun a => a.noteExpired)
  -- REKEY of a partition that is not encrypted has no effect
  ∧ (∀ (s : State) (tag : Nat) (p : PartPlan), On s → (s.ctl.adm.parts.find? fun p => p.tag = tag && p.phase = 1) = some p →
    bitOf p.flags 1 = false → exec (.rekey tag) s = ctlDoes s fun c => c)
  -- REKEY that is due: the next generation in a free slot, and the Pattern that names it; where the solver finds no room for its tables the partition stays
  ∧ (∀ (s : State) (tag slot course t : Nat) (p : PartPlan) (c' : Ctl), On s →
    (s.ctl.adm.parts.find? fun p => p.tag = tag && p.phase = 1) = some p → bitOf p.flags 1 = true → p.activeNs = some t →
    t + 2 ^ 49 ≤ s.ctl.die.ns → (s.ctl.kst.tenant.any fun k => k.keyId = p.trafficKey) = true →
    freeSlot s.ctl.adm.parts (p.members ++ p.switches) = some slot →
    (s.ctl.loadKeys p slot (p.gen + 1)).install ((s.ctl.loadKeys p slot (p.gen + 1)).adm.parts.filter fun x => x.phase = 1)
      (((s.ctl.loadKeys p slot (p.gen + 1)).adm.parts.filter fun x => x.phase = 1).map fun x =>
        if x.tag = tag then { p with trafficSlot := slot, gen := p.gen + 1 } else x) false
      (some { p with trafficSlot := slot, gen := p.gen + 1 }) p.period = (c', course) →
    exec (.rekey tag) s = ctlDoes s fun _ =>
      if course = 0 then c'
      else
        let p' : PartPlan := { p with trafficSlot := slot, gen := p.gen + 1, activateCourse := course, activeNs := some (course * c'.courseNs) }
        { c' with adm := { c'.adm with parts := c'.adm.parts.map fun x => if x.tag = tag ∧ x.inst = p.inst then p' else x } })

/-- R377, R397, R401, R403: measurements of agents for a report, and the debug port. -/
def Obligations.Measurements : Prop :=
  -- every command of the group answers a next state: that of its own effect
  (∀ (s : State) (w : Who) (nonce mask : Nat), Up s w →
    exec (.measureReq w nonce mask) s = agtDoes s w fun a =>
      match a.gcm.keys with
      | none => a
      | some k => (bitList mask 16).foldl (fun a r =>
          let m := (tget a.msr r).getD { value := 0, lastSeq := 0, count := 0 }
          let st := a.castState % 16 + a.die.fget Fl.WCH_STATUS_level % 8 * 16
          let body := measureBytes r st m.lastSeq (a.die.getN Reg.MSR_SEQ) nonce m.value
          a.onDie (·.toController 0x41 (body ++ slice (measureTag k.reportKey body a.fid) 0 64))) a)
  ∧ (∀ (s : State) (fid register agentState lastSeq extendSeq nonce : Nat) (value tag : Digest), On s →
    exec (.measureReport fid register agentState lastSeq extendSeq nonce value tag) s = ctlDoes s fun c => c.measureReport fid register agentState lastSeq extendSeq nonce value tag)
  ∧ (∀ (s : State) (fid : Nat), On s →
    exec (.measureTimeout fid) s = ctlDoes s fun c =>
      match c.awaited fid with
      | none => c
      | some (j, w) => if c.die.up < 1000000000 + j.askedNs then c else c.settleAgent fid (if w.values.isEmpty then 3 else 1) none)
  ∧ (∀ (s : State), On s →
    exec (.debugAttach .ctl) s = ctlDoes s Ctl.attach)
  ∧ (∀ (s : State) (w : Who), Up s w →
    exec (.debugAttach (.agt w)) s = agtDoes s w Agt.attach)
  -- MEASURE_REQ at an agent with keys: one report for each register asked, tagged under its report key
  ∧ (∀ (s : State) (w : Who) (nonce mask : Nat) (k : AgentKeys), Up s w → (s.agt w).gcm.keys = some k →
    exec (.measureReq w nonce mask) s = agtDoes s w fun a => (bitList mask 16).foldl (fun a r =>
      let m := (tget a.msr r).getD { value := 0, lastSeq := 0, count := 0 }
      let st := a.castState % 16 + a.die.fget Fl.WCH_STATUS_level % 8 * 16
      let body := measureBytes r st m.lastSeq (a.die.getN Reg.MSR_SEQ) nonce m.value
      a.onDie (·.toController 0x41 (body ++ slice (measureTag k.reportKey body a.fid) 0 64))) a)
  ∧ (∀ (s : State) (w : Who) (nonce mask : Nat), Up s w → (s.agt w).gcm.keys = none →
    exec (.measureReq w nonce mask) s = agtDoes s w fun a => a)
  -- MEASURE_REPORT whose tag fails: counted, MEASURE_BAD_MAC, and the agent is BAD in the report
  ∧ (∀ (s : State) (fid register st lastSeq extendSeq nonce : Nat) (value tag : Digest) (j : ReportJob) (w : Awaited), On s →
    s.ctl.awaited fid = some (j, w) → s.ctl.die.takeWait Blk.KST = (false, s.ctl.die) → nonce = j.askNonce → bitOf w.mask register = true →
    s.ctl.die.up ≤ j.askedNs + 1000000000 → tag ≠ digestOf (measureTag (((tget s.ctl.kst.agentKeys fid).map (·.keys.reportKey)).getD [])
      (measureBytes register st lastSeq extendSeq nonce value) fid) →
    exec (.measureReport fid register st lastSeq extendSeq nonce value tag) s = ctlDoes s fun c =>
      ((c.onDie (·.count Reg.KST_CNT_BAD_MAC)).raise Ev.MEASURE_BAD_MAC).settleAgent fid 2 none)
  -- MEASURE_REPORT of the last register asked, with its tag: the values are verified
  ∧ (∀ (s : State) (fid register st lastSeq extendSeq nonce : Nat) (value tag : Digest) (j : ReportJob) (w : Awaited), On s →
    s.ctl.awaited fid = some (j, w) → s.ctl.die.takeWait Blk.KST = (false, s.ctl.die) → nonce = j.askNonce → bitOf w.mask register = true → putBits w.mask register register 0 = 0 →
    s.ctl.die.up ≤ j.askedNs + 1000000000 → tag = digestOf (measureTag (((tget s.ctl.kst.agentKeys fid).map (·.keys.reportKey)).getD [])
      (measureBytes register st lastSeq extendSeq nonce value) fid) →
    exec (.measureReport fid register st lastSeq extendSeq nonce value tag) s = ctlDoes s fun c =>
      c.settleAgent fid 0 (some { fid := fid, values := tset w.values register value, seq := extendSeq, time := c.die.ns }))
  -- MEASURE_TIMEOUT, a second after the request: without any report the agent is UNREACHABLE, with some its measurement incomplete
  ∧ (∀ (s : State) (fid : Nat) (j : ReportJob) (w : Awaited), On s → s.ctl.awaited fid = some (j, w) →
    j.askedNs + 1000000000 ≤ s.ctl.die.up → exec (.measureTimeout fid) s = ctlDoes s fun c => c.settleAgent fid (if w.values.isEmpty then 3 else 1) none)
  -- DEBUG_ATTACH: the part's measurement is extended, and it raises
  ∧ (∀ (s : State), On s → exec (.debugAttach .ctl) s = ctlDoes s fun c =>
      ((c.onDie fun d => { d.fset Fl.KST_STATUS_debug_attached 1 with attached := true }).extend 5 0x52 (Config.eventDigest 0x52 1)).raise Ev.DEBUG_ATTACHED)
  ∧ (∀ (s : State) (w : Who), Up s w → exec (.debugAttach (.agt w)) s = agtDoes s w fun a =>
      ((a.onDie fun d => { d with attached := true }).extendMsr 3 0x21 0 (digestBytes (Config.eventDigest 0x21 1))).raise Ev.AGT_DEBUG_ATTACHED)


/-! ## Event recorder and Fault Collector -/

/-- R434 to R444, R451: snapshots, fault reports, raises, the safe state, fault injection, ALERT_N. -/
def Obligations.FaultCollector : Prop :=
  -- every command of the group answers a next state: that of its own effect
  (∀ (s : State) (code inst : Nat), On s →
    exec (.eventRaise .ctl code inst) s = ctlDoes s fun c =>
      match c.die.part.event code with
      | some e => c.takeRaise e inst
      | none => c)
  ∧ (∀ (s : State) (w : Who) (code inst : Nat), Up s w →
    exec (.eventRaise (.agt w) code inst) s = agtDoes s w fun a =>
      match a.die.part.event code with
      | some e => a.takeRaise e inst
      | none => a)
  ∧ (∀ (s : State), On s →
    exec (.snapshotComplete .ctl) s = ctlDoes s fun c => c.works Blk.EVR fun c => c.onDie (·.snapshot (c.regNow s.emb .jtag)))
  ∧ (∀ (s : State) (w : Who), Up s w →
    exec (.snapshotComplete (.agt w)) s = agtDoes s w fun a => a.works Blk.EVR fun a => a.onDie (·.snapshot (a.regNow .jtag)))
  ∧ (∀ (s : State) (pl : Place) (index : Nat), Alive s pl →
    exec (.snapshotReadTimeout pl index) s = dieDoes s pl (·.works Blk.EVR (·.snapTimeout index)))
  ∧ (∀ (s : State) (block inst : Nat), On s →
    exec (.faultReport .ctl block inst) s = ctlDoes s fun c =>
      match c.die.part.blocks[block]? with
      | some b => c.faultReport b inst
      | none => c)
  ∧ (∀ (s : State) (w : Who) (block inst : Nat), Up s w →
    exec (.faultReport (.agt w) block inst) s = agtDoes s w fun a =>
      match a.die.part.blocks[block]? with
      | some b => a.faultReport b inst
      | none => a)
  ∧ (∀ (s : State) (pl : Place) (val : Word), Alive s pl → Takes (s.die pl) Blk.FLC →
    exec (.enterSafe pl val) s = dieDoes s pl fun d =>
      let d := if bitOf val.toNat 0 then d.clearCounters Blk.FLC else d
      if bitOf val.toNat 1 ∧ bitsOf val.toNat 15 8 = 0xA5 then d.enterSafe 0xFFFF else d)
  ∧ (∀ (s : State) (pl : Place) (mismatch : Bool), Alive s pl →
    exec (.flcSelfCheck pl mismatch) s = dieDoes s pl fun d => if mismatch then d.raise Ev.FLC_SELF_FAULT else d)
  ∧ (∀ (s : State) (pl : Place) (val : Word), Alive s pl → Takes (s.die pl) Blk.FLC →
    exec (.flcInject pl val) s = dieDoes s pl (·.flcInject val.toNat))
  ∧ (∀ (s : State), On s →
    exec (.flcInjectTick .ctl) s = ctlDoes s fun c =>
      match c.die.injectNext with
      | none => c
      | some (k, inst, kind, d) =>
        let c : Ctl := { c with die := d }
        match d.part.blocks[k]? with
        | none => c
        | some b => if kind = 4 then c.faultReport b inst else c.onDie (·.injectOne k b inst kind))
  ∧ (∀ (s : State) (w : Who), Up s w →
    exec (.flcInjectTick (.agt w)) s = agtDoes s w fun a =>
      match a.die.injectNext with
      | none => a
      | some (k, inst, kind, d) =>
        let a : Agt := { a with die := d }
        match d.part.blocks[k]? with
        | none => a
        | some b => if kind = 4 then a.faultReport b inst else a.onDie (·.injectOne k b inst kind))
  ∧ (∀ (s : State) (pl : Place) (val : Word), Alive s pl → Takes (s.die pl) Blk.FLC →
    exec (.flcAlertClear pl val) s = dieDoes s pl (·.alertClear val.toNat))
  ∧ (∀ (s : State) (val : Word), On s → Takes s.ctl.die Blk.EVR →
    exec (.evrRetainedClear val) s = ctlDoes s fun c => c.onDie (·.evrCtl val.toNat))
  -- SNAPSHOT_COMPLETE: the first waiting raise gets its record with the registers of its list
  ∧ (∀ (s : State) (ra : Raise) (rest : List Raise), On s → s.ctl.die.evr.queue = ra :: rest → s.ctl.die.injected = [] →
    exec (.snapshotComplete .ctl) s = ctlDoes s fun c => c.works Blk.EVR fun c =>
      let d : Die := { c.die with evr := { c.die.evr with queue := rest } }
      let keys := Part.snapRegs d.part ra.snapList (ra.code / 256)
      let shown (k : Nat) : Word := if (storageReg k && d.blockFenced (k / 0x10000)) = true then 0 else c.regNow s.emb .jtag k
      let r := snapRead shown ra.timedOut keys
      { c with die := d.writeRecord ra false r.1 r.2 })
  ∧ (∀ (s : State) (w : Who) (ra : Raise) (rest : List Raise), Up s w → (s.agt w).die.evr.queue = ra :: rest →
    (s.agt w).die.injected = [] →
    exec (.snapshotComplete (.agt w)) s = agtDoes s w fun a => a.works Blk.EVR fun a =>
      let d : Die := { a.die with evr := { a.die.evr with queue := rest } }
      let keys := Part.snapRegs d.part ra.snapList (ra.code / 256)
      let shown (k : Nat) : Word := if (storageReg k && d.blockFenced (k / 0x10000)) = true then 0 else a.regNow .jtag k
      let r := snapRead shown ra.timedOut keys
      { a with die := d.writeRecord ra false r.1 r.2 })
  -- SNAPSHOT_READ_TIMEOUT: 2 µs after the raise the register reads zero and the lost read is counted; before, nothing times out
  ∧ (∀ (s : State) (p : Place) (index : Nat) (ra : Raise) (rest : List Raise), Alive s p → (s.die p).evr.queue = ra :: rest →
    ra.timedOut.contains index = false → 2000 + ra.atNs ≤ (s.die p).up → index < (Part.snapRegs (s.die p).part ra.snapList (ra.code / 256)).length →
    exec (.snapshotReadTimeout p index) s = dieDoes s p fun d => d.works Blk.EVR fun d =>
      ({ d with evr := { d.evr with queue := { ra with timedOut := ra.timedOut ++ [index] } :: rest } } : Die).count Reg.EVR_CNT_SNAP_TIMEOUT)
  ∧ (∀ (s : State) (p : Place) (index : Nat) (ra : Raise) (rest : List Raise), Alive s p → (s.die p).evr.queue = ra :: rest →
    (s.die p).up < 2000 + ra.atNs → exec (.snapshotReadTimeout p index) s = dieDoes s p fun d => d)
  -- FAULT_REPORT: a whole agent without a degraded form, a controller unit of a block without an event of its own
  ∧ (∀ (s : State) (w : Who) (block inst : Nat), Up s w →
    ((s.agt w).die.part.blocks[block]? = some Blk.LKP ∨ (s.agt w).die.part.blocks[block]? = some Blk.GCM
      ∨ (s.agt w).die.part.blocks[block]? = some Blk.PAT) →
    exec (.faultReport (.agt w) block inst) s = agtDoes s w fun a => a.fenceWhole (a.die.part.blocks[block]?))
  ∧ (∀ (s : State) (block inst : Nat), On s → s.ctl.die.part.blocks[block]? = some Blk.KST →
    exec (.faultReport .ctl block inst) s = ctlDoes s fun c => c.onDie (·.raiseFence Ev.KEYSTONE_FAULT inst))
  ∧ (∀ (s : State) (block inst : Nat), On s → s.ctl.die.part.blocks[block]? = some Blk.CTL → inst < 16 →
    exec (.faultReport .ctl block inst) s = ctlDoes s fun c =>
      let more := c.coresFenced + b2n (!c.die.fenced Blk.CTL inst)
      c.onDie fun d => d.raiseCode (d.part.codeOf (Ev.UNIT_FAULT Blk.CTL)) inst (if 8 < more then 4 else 2) true)
  -- EVENT_RAISE: the collector counts it, keeps the worst, and drives ALERT_N from S3 on
  ∧ (∀ (s : State) (code inst : Nat) (e : Event), On s → Part.event s.ctl.die.part code = some e → e ≠ Ev.MEM_CHANNEL_FENCED →
    e ≠ Ev.KEYSTONE_FAULT → e.low ≠ 0xF4 →
    exec (.eventRaise .ctl code inst) s = ctlDoes s fun c => c.raise e inst)
  ∧ (∀ (s : State) (w : Who) (code inst : Nat) (e : Event), Up s w → Part.event (s.agt w).die.part code = some e → e ≠ Ev.PURL_LANE_FENCED →
    e ≠ Ev.PURL_ENGINE_FENCED → e ≠ Ev.UCIE_MODULE_DOWN → e ≠ Ev.UCIE_CONTROL_DOWN → e ≠ Ev.AGENT_FENCED → e.low ≠ 0xF4 →
    exec (.eventRaise (.agt w) code inst) s = agtDoes s w fun a => a.raise e inst)
  -- ENTER_SAFE: FLC_CTL with the key 0xA5 enters the safe state, whose code is then 0xFFFF
  ∧ (∀ (s : State) (p : Place) (val : Word), Alive s p → Takes (s.die p) Blk.FLC → bitOf val.toNat 0 = false → bitOf val.toNat 1 = true →
    bitsOf val.toNat 15 8 = 0xA5 → exec (.enterSafe p val) s = dieDoes s p fun d => d.enterSafe 0xFFFF)
  ∧ (∀ (d : Die) (code : Nat), d.safe = false →
    d.enterSafe code = ((d.fset Fl.FLC_STATUS_safe 1).fset Fl.FLC_STATUS_safe_code code).alert 4)
  -- FLC_SELF_CHECK
  ∧ (∀ (s : State) (p : Place), Alive s p → exec (.flcSelfCheck p true) s = dieDoes s p fun d => d.raise Ev.FLC_SELF_FAULT)
  ∧ (∀ (s : State) (p : Place), Alive s p → exec (.flcSelfCheck p false) s = dieDoes s p fun d => d)
  -- FLC_INJECT outside the test mode is denied; in it the register is written
  ∧ (∀ (s : State) (p : Place) (val : Word), Alive s p → Takes (s.die p) Blk.FLC → (s.die p).testEn = false →
    exec (.flcInject p val) s = dieDoes s p fun d => d.raise Ev.INJECT_DENIED)
  ∧ (∀ (s : State) (p : Place) (val : Word), Alive s p → Takes (s.die p) Blk.FLC → (s.die p).testEn = true →
    exec (.flcInject p val) s = dieDoes s p fun d =>
      d.setN Reg.FLC_INJECT (bitsOf val.toNat 26 0 + bitsOf val.toNat 47 32 * 2 ^ 32))
  -- FLC_INJECT_TICK: the armed fault comes once, and the count falls by one; no second one within a microsecond
  ∧ (∀ (s : State) (k b : Nat), On s → s.ctl.die.testEn = true → s.ctl.die.fget Fl.FLC_INJECT_count ≠ 0 →
    mayRaise s.ctl.die.injectNs s.ctl.die.up 1000 = true →
    s.ctl.die.fget Fl.FLC_INJECT_block = k → s.ctl.die.part.blocks[k]? = some b → s.ctl.die.fget Fl.FLC_INJECT_kind ≠ 4 →
    exec (.flcInjectTick .ctl) s = ctlDoes s fun c =>
      let inst := c.die.fget Fl.FLC_INJECT_instance
      let kind := c.die.fget Fl.FLC_INJECT_kind
      c.onDie fun d => ({ d.fset Fl.FLC_INJECT_count (d.fget Fl.FLC_INJECT_count - 1) with injectNs := some d.up } : Die).injectOne k b inst kind)
  ∧ (∀ (s : State) (w : Who) (k b : Nat), Up s w → (s.agt w).die.testEn = true → (s.agt w).die.fget Fl.FLC_INJECT_count ≠ 0 →
    mayRaise (s.agt w).die.injectNs (s.agt w).die.up 1000 = true →
    (s.agt w).die.fget Fl.FLC_INJECT_block = k → (s.agt w).die.part.blocks[k]? = some b → (s.agt w).die.fget Fl.FLC_INJECT_kind ≠ 4 →
    exec (.flcInjectTick (.agt w)) s = agtDoes s w fun a =>
      let inst := a.die.fget Fl.FLC_INJECT_instance
      let kind := a.die.fget Fl.FLC_INJECT_kind
      a.onDie fun d => ({ d.fset Fl.FLC_INJECT_count (d.fget Fl.FLC_INJECT_count - 1) with injectNs := some d.up } : Die).injectOne k b inst kind)
  ∧ (∀ (s : State) (w : Who), Up s w → mayRaise (s.agt w).die.injectNs (s.agt w).die.up 1000 = false →
    exec (.flcInjectTick (.agt w)) s = agtDoes s w fun a => a)
  -- FLC_ALERT_CLEAR: ALERT_N is released when no bit is left
  ∧ (∀ (s : State) (val : Word), On s → s.ctl.die.part.pelron = true → Takes s.ctl.die Blk.FLC → bitsOf val.toNat 4 0 = 31 →
    exec (.flcAlertClear .ctl val) s = ctlDoes s fun c => c.onDie fun d => (d.setN Reg.FLC_ALERT 0).driveAlert true)
  ∧ (∀ (d : Die) (val k : Nat), k < 5 → bitOf ((d.alertClear val).getN Reg.FLC_ALERT) k = (bitOf (d.getN Reg.FLC_ALERT) k && !bitOf val k))
  -- EVR_RETAINED_CLEAR with its key empties the retained area, and the 4,096 records after it are retained
  ∧ (∀ (s : State) (val : Word), On s → s.ctl.die.part.pelron = true → Takes s.ctl.die Blk.EVR → bitOf val.toNat 0 = false →
    bitOf val.toNat 1 = true → bitsOf val.toNat 15 8 = 0xE7 →
    exec (.evrRetainedClear val) s = ctlDoes s fun c => c.onDie fun d =>
      let d : Die := { d with evr := { d.evr with retained := [], sinceClear := 0 } }
      (d.bset Reg.EVR_RET_COUNT 12 0 0).fset Fl.EVR_STATUS_retained_full 0)

/-- R438, R446, R447: forwarded records, records asked for again, the fall-back, operating seconds. -/
def Obligations.RecorderRecords : Prop :=
  -- every command of the group answers a next state: that of its own effect
  (∀ (s : State) (wm : Worm), On s →
    exec (.eventRecord wm) s = ctlDoes s fun c => c.eventRecord wm)
  ∧ (∀ (s : State) (w : Who) (first count : Nat), Up s w →
    exec (.evrFetch w first count) s = agtDoes s w fun a => a.onDie (·.evrFetch first count))
  ∧ (∀ (s : State), On s →
    exec (.fallbackCopy .ctl) s = ctlDoes s fun c =>
      c.works Blk.EVR fun c =>
      if c.die.fget Fl.EVR_STATUS_mode = 1 ∧ c.circReady then c.onDie fun d => (d.fset Fl.EVR_STATUS_mode 0).drainFallback else c)
  ∧ (∀ (s : State) (w : Who), Up s w →
    exec (.fallbackCopy (.agt w)) s = agtDoes s w fun a =>
      a.works Blk.EVR fun a =>
      if a.die.fget Fl.EVR_STATUS_mode ≠ 1 ∨ a.castState < 2 ∨ a.castState = 0xF ∨ a.die.blockFenced Blk.BLK then a
      else if a.rcv.dump.isSome ∨ !a.rcv.records.isEmpty then a.onDie fun d => d.fset Fl.EVR_STATUS_mode 2
      else a.onDie fun d => (d.fset Fl.EVR_STATUS_mode 0).drainFallback)
  ∧ (∀ (s : State), On s →
    exec (.opsecSave) s = ctlDoes s fun c => c.onDie fun d => if d.up < 60000000000 + d.evr.savedNs then d else d.saveOpsec)
  ∧ (∀ (s : State) (dieId opsec : Nat), On s →
    exec (.agentOpsecSave dieId opsec) s = ctlDoes s fun c =>
      if (match tget c.cst.opsecNs dieId with
          | some t => decide (c.die.up < 3600000000000 + t)
          | none => false) then c
      else
        { c with flash := { c.flash with agentOpsec := tset c.flash.agentOpsec dieId (opsec % 2 ^ 40, opsec / 2 ^ 40 % 2 ^ 24) },
                 cst := { c.cst with opsecNs := tset c.cst.opsecNs dieId c.die.up } })
  -- EVENT_RECORD: the record goes into the fabric ring as received, and its sequence is followed
  ∧ (∀ (s : State) (w : Worm), On s → markPriv (wormMark w) < 2 →
    exec (.eventRecord w) s = ctlDoes s fun c =>
      let fid := markFid (wormMark w)
      let r := slice w.payload 0 512
      let seq := c.die.getN Reg.EVR_WR_SEQ1
      let c := (c.memWrite (fabricRingBase + 512 * (seq % 16777216)) r).1.onDie fun d =>
        ((d.setN Reg.EVR_WR_SEQ1 (seq + 1)).trackForward fid (fieldAt r 12 4)).takeForeign (fieldAt r 2 1)
      c.agentEvent fid (fieldAt r 0 2) (fieldAt r 2 1) (fieldAt r 10 2))
  -- an agent's S4 event, and AGENT_FENCED, tell the solver that the agent is lost; a Purl fence tells it what is fenced
  ∧ (∀ (c : Ctl) (fid code inst : Nat), Part.codeOf .twd210 Ev.AGENT_FENCED = code →
    c.agentEvent fid code 3 inst = c.queueFailure (.agentLost fid))
  ∧ (∀ (c : Ctl) (fid code inst : Nat), Part.codeOf .twd210 Ev.PURL_LANE_FENCED = code →
    c.agentEvent fid code 2 inst = c.queueFailure (.purlFenced fid (some inst)))
  ∧ (∀ (c : Ctl) (fid code inst : Nat), Part.codeOf .twd210 Ev.PLUMB_DELAY_DRIFT = code →
    c.agentEvent fid code 2 inst = c.readLinks fid 3)
  ∧ (∀ (s : State) (w : Worm), On s → 2 ≤ markPriv (wormMark w) → exec (.eventRecord w) s = ctlDoes s fun c => c.onDie Die.markDenied)
  -- a gap in the sequence asks for the missing records again
  ∧ (∀ (d : Die) (fid seq : Nat), tgetD d.evr.fwdExpect fid 1 < seq →
    d.trackForward fid seq = ({ d with evr := { d.evr with fwdExpect := tset d.evr.fwdExpect fid (seq + 1) } } : Die).fetchRecords fid
      (tgetD d.evr.fwdExpect fid 1) (seq - tgetD d.evr.fwdExpect fid 1))
  ∧ (∀ (d : Die) (fid : Nat), d.trackForward fid (tgetD d.evr.fwdExpect fid 1) =
    { d with evr := { d.evr with fwdExpect := tset d.evr.fwdExpect fid (tgetD d.evr.fwdExpect fid 1 + 1) } })
  -- EVR_FETCH: what the agent still holds of the range goes out again
  ∧ (∀ (s : State) (w : Who) (first count : Nat), Up s w → (s.agt w).die.safe = false →
    exec (.evrFetch w first count) s = agtDoes s w fun a => a.onDie fun d =>
      let rs := d.evr.forwarded.filter fun r => decide (first ≤ r.fwdSeq) && decide (r.fwdSeq < first + count)
      rs.foldl (fun (d : Die) r =>
        d.sendFwd { dst := d.controllerFid, op := 0x8D, mcast := 0, root := 0, bond := 0xFF, operand := [], payload := r.bytes,
                    block := d.part.blockIndex Blk.EVR, privilege := 0 }) d)
  -- FALLBACK_COPY: the mode ends and the records of the fall-back go to the circulating area
  ∧ (∀ (s : State), On s → s.ctl.die.fget Fl.EVR_STATUS_mode = 1 → s.ctl.circReady = true →
    exec (.fallbackCopy .ctl) s = ctlDoes s fun c => c.works Blk.EVR fun c => c.onDie fun d => (d.fset Fl.EVR_STATUS_mode 0).drainFallback)
  ∧ (∀ (s : State) (w : Who), Up s w → (s.agt w).die.fget Fl.EVR_STATUS_mode = 1 → 2 ≤ (s.agt w).castState → (s.agt w).castState ≠ 0xF →
    (s.agt w).die.blockFenced Blk.BLK = false → (s.agt w).rcv.dump = none → (s.agt w).rcv.records = [] →
    exec (.fallbackCopy (.agt w)) s = agtDoes s w fun a => a.works Blk.EVR fun a => a.onDie fun d => (d.fset Fl.EVR_STATUS_mode 0).drainFallback)
  -- OPSEC_SAVE every 60 s, AGENT_OPSEC_SAVE every hour: into module flash; sooner, neither writes
  ∧ (∀ (s : State), On s → 60000000000 + s.ctl.die.evr.savedNs ≤ s.ctl.die.up →
    exec .opsecSave s = ctlDoes s fun c => c.onDie fun d =>
      { d with evr := { d.evr with savedSec := d.opsec, savedCycles := d.evr.cycles, savedNs := d.up } })
  ∧ (∀ (s : State), On s → s.ctl.die.up < 60000000000 + s.ctl.die.evr.savedNs → exec .opsecSave s = ctlDoes s fun c => c)
  ∧ (∀ (s : State) (dieId opsec : Nat), On s → (∀ t, tget s.ctl.cst.opsecNs dieId = some t → 3600000000000 + t ≤ s.ctl.die.up) →
    exec (.agentOpsecSave dieId opsec) s = ctlDoes s fun c =>
      { c with flash := { c.flash with agentOpsec := tset c.flash.agentOpsec dieId (opsec % 2 ^ 40, opsec / 2 ^ 40 % 2 ^ 24) },
               cst := { c.cst with opsecNs := tset c.cst.opsecNs dieId c.die.up } })
  ∧ (∀ (s : State) (dieId opsec t : Nat), On s → tget s.ctl.cst.opsecNs dieId = some t → s.ctl.die.up < 3600000000000 + t →
    exec (.agentOpsecSave dieId opsec) s = ctlDoes s fun c => c)
  -- a fall-back with room takes every record
  ∧ (∀ (cap : Nat) (l : List Record) (r : Record), l.length < cap → fallbackPut cap l r = (l ++ [r], none))
  -- a full one loses a record that is less severe, or the new one
  ∧ (∀ (cap : Nat) (l : List Record) (r : Record), cap ≤ l.length → (∀ x ∈ l, r.sev ≤ x.sev) → fallbackPut cap l r = (l, some r))

/-! ## Management network -/

/-- R382, R383, R459, R460: connections, the handshake, its failures and its time limits. -/
def Obligations.MortarConnections : Prop :=
  -- every command of the group answers a next state: that of its own effect
  (∀ (s : State), On s →
    exec (.mortarConnect) s = ctlDoes s Ctl.mortarConnect)
  ∧ (∀ (s : State) (session : Nat) (chain : List Bytes) (ek nonce : Bytes), On s →
    exec (.clientHello session chain ek nonce) s = ctlDoes s fun c => c.clientHello session chain ek nonce)
  ∧ (∀ (s : State) (session : Nat) (signature : Bytes), On s →
    exec (.clientFinish session signature) s = ctlDoes s fun c => c.clientFinish session signature)
  ∧ (∀ (s : State) (session : Nat), On s →
    exec (.mortarHandshakeTimeout session) s = ctlDoes s fun c =>
      match c.mortarOf session with
      | some m => if m.phase ≠ 1 ∨ c.die.up < 5000000000 + m.lastNs then c else c.authFail session
      | none => c)
  ∧ (∀ (s : State) (session : Nat), On s →
    exec (.mortarIdleTimeout session) s = ctlDoes s fun c =>
      match c.mortarOf session with
      | some m => if m.phase ≠ 2 ∨ c.die.up < 60000000000 + m.lastNs then c else c.closeMortar session
      | none => c)
  ∧ (∀ (s : State) (val : Word), On s → Takes s.ctl.die Blk.MNP →
    exec (.mnpSave val) s = ctlDoes s fun c => c.mnpCfg val.toNat)
  ∧ (∀ (s : State) (port link : Nat), On s →
    exec (.mgmtPortLinkChange port link) s = ctlDoes s fun c => if 2 ≤ port then c else c.onDie (·.bset Reg.MNP_STATUS (2 * port + 1) (2 * port) (link % 4)))
  ∧ (∀ (s : State), On s → (s.ctl.keystone && s.ctl.stepDone 4) = false → s.ctl.mortar.length < 8 →
    s.ctl.die.blockFenced Blk.MNP = false →
    exec .mortarConnect s = ctlDoes s fun c =>
      let m : Mortar := { id := c.nextMortar, phase := 0, rxSeq := 0, txSeq := 0, lastNs := c.die.up, transcript := [], secret := [],
                          leaf := [], rootKey := [] }
      ({ c with mortar := c.mortar ++ [m], nextMortar := c.nextMortar + 1 } : Ctl).onDie (·.emit (.conn "accepted" c.nextMortar)))
  ∧ (∀ (s : State), On s → 8 ≤ s.ctl.mortar.length →
    exec .mortarConnect s = ctlDoes s fun c => c.onDie fun d => (d.count Reg.MNP_CNT_REFUSED).emit (.conn "reset" 0))
  -- CLIENT_HELLO: to a chain that leads to an operator, SERVER_HELLO with the encapsulated secret, the certificate and the signature;
  -- a chain that leads to none closes the connection and is logged
  ∧ (∀ (s : State) (id : Nat) (chain : List Bytes) (ek nonce : Bytes) (m : Mortar), On s → s.ctl.mortarOf id = some m → m.phase = 0 →
    s.ctl.keystone = false →
    exec (.clientHello id chain ek nonce) s = ctlDoes s fun c =>
      match c.mortarLeaf chain with
      | none => ((c.closeMortar id).onDie (·.count Reg.MNP_CNT_AUTH_FAIL)).raise Ev.MNP_AUTH_FAIL
      | some leaf =>
        let k := Config.kemEncaps ek c.die.free
        let o := Die.freeBytes 4 { c.die with free := c.die.free + 1 }
        let c : Ctl := { c with die := o.2 }
        let body := k.1 ++ Config.deviceCert c.dieId ++ o.1
        let seen := chain.flatten ++ ek ++ nonce ++ body
        let sig := kstSign (digestBytes (Config.shake256 seen))
        let m : Mortar := { m with phase := 1, rxSeq := m.rxSeq + 1, lastNs := c.die.up, transcript := seen ++ sig, secret := k.2,
                                   leaf := leaf, rootKey := chain.headD [] }
        (c.setMortar m).mortarSend m 0x02 (body ++ sig))
  -- CLIENT_FINISH: the signature opens the session or fails it
  ∧ (∀ (s : State) (id : Nat) (signature : Bytes) (m : Mortar), On s → s.ctl.mortarOf id = some m → m.phase = 1 → s.ctl.enrolling = false →
    s.ctl.die.takeWait Blk.MNP = (false, s.ctl.die) → s.ctl.die.up ≤ 5000000000 + m.lastNs →
    exec (.clientFinish id signature) s = ctlDoes s fun c =>
      if Config.slhVerify true (Config.certKey m.leaf) (digestBytes (Config.shake256 m.transcript)) signature = true then
        let m : Mortar := { m with phase := 2, rxSeq := m.rxSeq + 1, lastNs := c.die.up,
                                   secret := mortarKeys m.secret (m.transcript ++ signature) }
        (c.setMortar m).onDie fun d => (d.count Reg.MNP_CNT_ACCEPTED).emit (.conn "session" m.id)
      else c.authFail id)
  -- 5 s without a session
  ∧ (∀ (s : State) (id : Nat) (m : Mortar), On s → s.ctl.mortarOf id = some m → m.phase = 1 → 5000000000 + m.lastNs ≤ s.ctl.die.up →
    exec (.mortarHandshakeTimeout id) s = ctlDoes s fun c => c.authFail id)
  ∧ (∀ (s : State) (id : Nat) (m : Mortar), On s → s.ctl.mortarOf id = some m → s.ctl.die.up < 5000000000 + m.lastNs →
    exec (.mortarHandshakeTimeout id) s = ctlDoes s fun c => c)
  -- 60 s without a record
  ∧ (∀ (s : State) (id : Nat) (m : Mortar), On s → s.ctl.mortarOf id = some m → m.phase = 2 → 60000000000 + m.lastNs ≤ s.ctl.die.up →
    exec (.mortarIdleTimeout id) s = ctlDoes s fun c => c.closeMortar id)
  -- MNP_CLOSE_ALL leaves no connection
  ∧ (∀ (s : State), On s → Takes s.ctl.die Blk.MNP →
    exec .mnpCloseAll s = ctlDoes s fun c => c.mortar.foldl (fun (c : Ctl) m => c.closeMortar m.id) c)
  ∧ (∀ (c : Ctl) (id : Nat), (c.closeMortar id).mortarOf id = none)
  -- MNP_CFG.save writes the address and the port to module flash
  ∧ (∀ (s : State) (val : Word), On s → Takes s.ctl.die Blk.MNP → bitOf val.toNat 16 = true →
    exec (.mnpSave val) s = ctlDoes s fun c =>
      let c := c.onDie (·.setN Reg.MNP_CFG (bitsOf val.toNat 15 0))
      let addr := c.die.getN Reg.MNP_ADDR0 + c.die.getN (Reg.MNP_ADDR0 + 8) * 2 ^ 64
      { c with flash := { c.flash with mnpAddr := addr, mnpPort := bitsOf val.toNat 15 0 } })
  -- MGMT_PORT_LINK_CHANGE
  ∧ (∀ (s : State) (port link : Nat), On s → port < 2 →
    exec (.mgmtPortLinkChange port link) s = ctlDoes s fun c => c.onDie (·.bset Reg.MNP_STATUS (2 * port + 1) (2 * port) (link % 4)))

/-- R343, R458, R461, R470, R474, R481, R483: records of an open session, and management operations. -/
def Obligations.ManagementRecords : Prop :=
  -- every command of the group answers a next state: that of its own effect
  (∀ (s : State) (session sequence : Nat) (intact : Bool) (addr : Nat) (data : Bytes), On s →
    exec (.mortarMemWrite session sequence intact addr data) s = ctlDoes s fun c =>
      match c.mortarIn session sequence intact with
      | (c, none) => c
      | (c, some m) =>
        if data.isEmpty ∨ 65528 < data.length then c.memAnswer m 7 []
        else if c.die.safe then c.memAnswer m 6 []
        else if !c.outsideWrite addr data.length then c.memAnswer m 1 []
        else (c.memWrite addr data).1.memAnswer m 0 [])
  ∧ (∀ (s : State) (session sequence : Nat) (intact : Bool) (addr length : Nat), On s →
    exec (.mortarMemRead session sequence intact addr length) s = ctlDoes s fun c =>
      match c.mortarIn session sequence intact with
      | (c, none) => c
      | (c, some m) =>
        if length = 0 ∨ 65528 < length then c.memAnswer m 7 []
        else if !c.outsideRead addr length then c.memAnswer m 1 []
        else
          let (c, bs, bad) := c.memRead addr length
          c.memAnswer m (if bad then 8 else 0) bs)
  ∧ (∀ (s : State) (session sequence : Nat) (intact : Bool), On s →
    exec (.mortarKeepalive session sequence intact) s = ctlDoes s fun c => (c.mortarIn session sequence intact).1)
  ∧ (∀ (s : State) (session sequence : Nat) (intact : Bool), On s →
    exec (.mortarClose session sequence intact) s = ctlDoes s fun c =>
      match c.mortarIn session sequence intact with
      | (c, none) => c
      | (c, some m) => c.closeMortar m.id)
  ∧ (∀ (s : State) (wm : Worm), On s →
    exec (.mgmtOpResponse wm) s = ctlDoes s fun c => c.mgmtResponse wm)
  ∧ (∀ (s : State), On s →
    exec (.mgmtOpTimeout) s = ctlDoes s Ctl.mgmtTimeout)
  ∧ (∀ (s : State) (val : Word), On s → Takes s.ctl.die Blk.MBX →
    exec (.mbxRmtGo val) s = ctlDoes s fun c => c.rmtGo val.toNat)
  -- MORTAR_MEM_WRITE and MORTAR_MEM_READ of the ranges open to the outside
  ∧ (∀ (s : State) (id sequence addr : Nat) (data : Bytes) (c' : Ctl) (m : Mortar), On s →
    s.ctl.mortarIn id sequence true = (c', some m) → data ≠ [] → data.length ≤ 65528 → c'.die.safe = false →
    c'.outsideWrite addr data.length = true →
    exec (.mortarMemWrite id sequence true addr data) s = ctlDoes s fun _ => (c'.memWrite addr data).1.memAnswer m 0 [])
  ∧ (∀ (s : State) (id sequence addr : Nat) (data : Bytes) (c' : Ctl) (m : Mortar), On s →
    s.ctl.mortarIn id sequence true = (c', some m) → data ≠ [] → data.length ≤ 65528 → c'.die.safe = false →
    c'.outsideWrite addr data.length = false →
    exec (.mortarMemWrite id sequence true addr data) s = ctlDoes s fun _ => c'.memAnswer m 1 [])
  ∧ (∀ (s : State) (id sequence addr length : Nat) (c' : Ctl) (m : Mortar), On s → s.ctl.mortarIn id sequence true = (c', some m) →
    0 < length → length ≤ 65528 → c'.outsideRead addr length = true →
    exec (.mortarMemRead id sequence true addr length) s = ctlDoes s fun _ =>
      let r := c'.memRead addr length
      r.1.memAnswer m (if r.2.2 = true then 8 else 0) r.2.1)
  -- MORTAR_KEEPALIVE and MORTAR_CLOSE
  ∧ (∀ (s : State) (id sequence : Nat) (m : Mortar), On s → s.ctl.mortarOf id = some m → m.phase = 2 → m.rxSeq = sequence → sequence < 2 ^ 32 →
    s.ctl.die.up ≤ 60000000000 + m.lastNs →
    exec (.mortarKeepalive id sequence true) s = ctlDoes s fun c => c.setMortar { m with rxSeq := m.rxSeq + 1, lastNs := c.die.up })
  ∧ (∀ (s : State) (id sequence : Nat) (m : Mortar), On s → s.ctl.mortarOf id = some m → m.phase = 2 → m.rxSeq = sequence → sequence < 2 ^ 32 →
    s.ctl.die.up ≤ 60000000000 + m.lastNs →
    exec (.mortarClose id sequence true) s = ctlDoes s fun c =>
      (c.setMortar { m with rxSeq := m.rxSeq + 1, lastNs := c.die.up }).closeMortar m.id)
  -- a record that fails its tag, whose sequence is not the next one, or that comes after more than 60 s closes the session
  ∧ (∀ (c : Ctl) (id sequence : Nat) (intact : Bool) (m : Mortar), c.mortarOf id = some m → m.phase = 2 → intact = false ∨ sequence ≠ m.rxSeq ∨ 60000000000 + m.lastNs < c.die.up →
    c.mortarIn id sequence intact = (c.closeMortar id, none))
  -- MBX_RMT_GO: the operation starts; without such an agent it ends ABSENT; a second one is ignored and logged
  ∧ (∀ (s : State) (val : Word) (a : AgentRec), On s → Takes s.ctl.die Blk.MBX → s.ctl.rmtBusy = false → bitOf val.toNat 32 = true →
    tget s.ctl.cst.agents (bitsOf val.toNat 17 0) = some a → a.named = true → a.lost = false →
    exec (.mbxRmtGo val) s = ctlDoes s fun c =>
      let fid := bitsOf val.toNat 17 0
      let addr := c.die.getN Reg.MBX_RMT_ADDR
      let h := c.memRead addr 16
      let q := h.1.memRead addr (16 + 16 * byteAt h.2.1 4)
      let op : Rmt := { soft := true, fid := fid, addr := addr, opId := fieldAt q.2.1 0 4, attempts := 1, startNs := q.1.die.up,
                        reads := readsOnly q.2.1, request := q.2.1 }
      (({ q.1 with ops := q.1.ops ++ [op] } : Ctl).rmtStatus 1 0).sendMgmt fid q.2.1)
  ∧ (∀ (s : State) (val : Word), On s → Takes s.ctl.die Blk.MBX → s.ctl.rmtBusy = false → bitOf val.toNat 32 = true →
    tget s.ctl.cst.agents (bitsOf val.toNat 17 0) = none → exec (.mbxRmtGo val) s = ctlDoes s fun c => c.rmtStatus 2 3)
  ∧ (∀ (s : State) (val : Word), On s → Takes s.ctl.die Blk.MBX → s.ctl.rmtBusy = true →
    exec (.mbxRmtGo val) s = ctlDoes s fun c => c.raise (Ev.WRITE_IGNORED Blk.MBX))
  -- MGMT_OP_RESPONSE: the response overwrites the request, and the operation ends OK
  ∧ (∀ (s : State) (w : Worm) (op : Rmt), On s → bitOf (byteAt w.payload 5) 0 = true → op.soft = true →
    s.ctl.die.takeWait Blk.MBX = (false, s.ctl.die) → s.ctl.die.up ≤ 1000000 + op.startNs → (s.ctl.ops.find? fun o => o.fid = markFid (wormMark w) && o.opId = fieldAt w.payload 0 4) = some op →
    exec (.mgmtOpResponse w) s = ctlDoes s fun c =>
      let p := w.payload
      (c.memWrite op.addr (slice p 0 (min p.length (16 + 16 * byteAt p 4)))).1.endOp op 0)
  -- one that nothing awaits is counted
  ∧ (∀ (s : State) (w : Worm), On s → bitOf (byteAt w.payload 5) 0 = true →
    (s.ctl.ops.find? fun o => o.fid = markFid (wormMark w) && o.opId = fieldAt w.payload 0 4) = none →
    exec (.mgmtOpResponse w) s = ctlDoes s fun c => c.onDie (·.count Reg.MBX_CNT_LATE_ARRIVAL))
  -- MGMT_OP_TIMEOUT: another attempt after 1 ms, at most four; then TIMEOUT, or TIMEOUT_UNKNOWN where it may have written
  ∧ (∀ (s : State) (op : Rmt), On s → (s.ctl.ops.find? fun o => 1000000 + o.startNs ≤ s.ctl.die.up) = some op → s.ctl.die.safe = false →
    op.attempts < 4 →
    exec .mgmtOpTimeout s = ctlDoes s fun c =>
      let next : Rmt := { op with attempts := op.attempts + 1, startNs := c.die.up }
      ({ c with ops := c.ops.map fun o => if o = op then next else o } : Ctl).sendMgmt op.fid op.request)
  ∧ (∀ (s : State) (op : Rmt), On s → (s.ctl.ops.find? fun o => 1000000 + o.startNs ≤ s.ctl.die.up) = some op → s.ctl.die.safe = false →
    4 ≤ op.attempts → exec .mgmtOpTimeout s = ctlDoes s fun c => c.endOp op (if op.reads = true then 1 else 2))


/-! ## Mailboxes -/

/-- R464 to R467: class A. Messages are taken in order, once; an ack says the next expected; a send takes the next sequence; an attempt that
times out is repeated up to the limit. -/
def Obligations.ClassA : Prop :=
  -- every command of the group answers a next state: that of its own effect
  (∀ (s : State) (wm : Worm) (room : Bool), On s → s.ctl.die.lacksRoom wm room = false →
    exec (.mbxA .ctl wm room) s = ctlDoes s (·.onDie (·.mbxA wm room)))
  ∧ (∀ (s : State) (wm : Worm) (room : Bool), On s → s.ctl.die.lacksRoom wm room = true →
    exec (.mbxA .ctl wm room) s = (s.onCtl (·.onDie (·.mbxA wm room))).agtNext .emb (·.count Reg.LKP_CNT_FWD_DROP))
  ∧ (∀ (s : State) (w : Who) (wm : Worm) (room : Bool), Up s w →
    exec (.mbxA (.agt w) wm room) s = agtDoes s w fun a =>
      let b := a.onDie (·.mbxA wm room)
      if a.die.lacksRoom wm room then b.count Reg.LKP_CNT_FWD_DROP else b)
  ∧ (∀ (s : State) (pl : Place) (peer mtype flags : Nat) (body : Bytes), Alive s pl →
    exec (.mbxASend pl peer mtype flags body) s = dieDoes s pl fun d => d.sendA peer mtype flags body)
  ∧ (∀ (s : State) (wm : Worm), On s →
    exec (.mbxAck .ctl wm) s = ctlDoes s fun c => c.onDie (·.mbxAck wm))
  ∧ (∀ (s : State) (w : Who) (wm : Worm), Up s w →
    exec (.mbxAck (.agt w) wm) s = agtDoes s w fun a =>
      let a' := a.onDie (·.mbxAck wm)
      if a'.die.mbx.peers = a.die.mbx.peers then a' else a'.restartOwner 5)
  ∧ (∀ (s : State) (pl : Place) (peer seq : Nat), Alive s pl →
    exec (.mbxARetry pl peer seq) s = dieDoes s pl fun d => if d.retryDue peer seq then d.retryA peer seq else d)
  -- MBX_A: the message that is next goes to the firmware, with those held behind it, and is acknowledged
  ∧ (∀ (s : State) (p : Place) (w : Worm) (q : Peer), Alive s p → (s.die p).safe = false → (s.die p).lacksRoom w true = false →
    ((s.die p).part.pelron = true ∨ markPriv (wormMark w) = 2) →
    (s.die p).mbx.peer (markFid (wormMark w)) = q → (msgOfBytes w.payload).seq = q.nextExpect →
    (msgOfBytes w.payload).floor = q.nextExpect → tget q.held q.nextExpect = none →
    exec (.mbxA p w true) s = dieDoes s p fun d =>
      let mark := wormMark w
      let r := Die.drainHeld 17 (d.deliverA mark (msgOfBytes w.payload)) { q with nextExpect := (q.nextExpect + 1) % 2 ^ 32 }
      (r.1.keepPeer r.2).sendFwd ((r.1.keepPeer r.2).ackWorm r.2))
  -- without room nothing is taken and the agent that received the worm counts it; in the safe state nothing is taken
  ∧ (∀ (s : State) (k : Who) (w : Worm), Up s k → (s.agt k).die.safe = false →
    exec (.mbxA (.agt k) w false) s = agtDoes s k fun a => a.count Reg.LKP_CNT_FWD_DROP)
  ∧ (∀ (s : State) (p : Place) (w : Worm), Alive s p → (s.die p).safe = true → exec (.mbxA p w true) s = dieDoes s p fun d => d)
  -- a message already taken is counted, acknowledged again and not delivered
  ∧ (∀ (d : Die) (mark : Nat) (q : Peer) (m : MsgA), m.floor = q.nextExpect → 2 ^ 31 ≤ seqAhead m.seq q.nextExpect →
    d.acceptA mark q m = ((d.count Reg.MBX_CNT_A_DUPLICATE).keepPeer q).sendFwd (((d.count Reg.MBX_CNT_A_DUPLICATE).keepPeer q).ackWorm q))
  -- one that is up to 16 ahead is held
  ∧ (∀ (d : Die) (mark : Nat) (q : Peer) (m : MsgA), m.floor = q.nextExpect → tget q.held m.seq = none → 1 ≤ seqAhead m.seq q.nextExpect →
    seqAhead m.seq q.nextExpect ≤ 16 →
    d.acceptA mark q m =
      let q : Peer := { q with held := tset q.held m.seq (mark, m) }
      (d.keepPeer q).sendFwd ((d.keepPeer q).ackWorm q))
  -- MBX_A_SEND: within the window the message goes out with the next sequence
  ∧ (∀ (s : State) (p : Place) (peer mtype flags : Nat) (body : Bytes), Alive s p → (s.die p).safe = false →
    ((s.die p).mbx.peer peer).unacked.length < (s.die p).bget Reg.MBX_A_CFG 24 20 → ((s.die p).mbx.peer peer).waiting = [] →
    exec (.mbxASend p peer mtype flags body) s = dieDoes s p fun d =>
      d.postA (d.mbx.peer peer) { mtype := mtype, flags := flags, seq := 0, tag := 0, floor := 0, body := body })
  -- beyond it the message waits
  ∧ (∀ (s : State) (p : Place) (peer mtype flags : Nat) (body : Bytes), Alive s p → (s.die p).safe = false →
    (s.die p).bget Reg.MBX_A_CFG 24 20 ≤ ((s.die p).mbx.peer peer).unacked.length →
    exec (.mbxASend p peer mtype flags body) s = dieDoes s p fun d =>
      let q := d.mbx.peer peer
      let m : MsgA := { mtype := mtype, flags := flags, seq := 0, tag := 0, floor := 0, body := body }
      ({ d with mbx := d.mbx.setPeer { q with waiting := q.waiting ++ [m] } } : Die).emit (.irq "mbx_a_busy" mtype))
  -- MBX_A_RETRY, when retry_us have passed since the attempt: another attempt, or the message ends TIMEOUT_UNKNOWN
  ∧ (∀ (s : State) (p : Place) (peer seq : Nat) (u : Unacked), Alive s p → (s.die p).safe = false →
    (s.die p).retryDue peer seq = true →
    (((s.die p).mbx.peer peer).unacked.find? fun u => u.msg.seq = seq) = some u → u.sends < (s.die p).bget Reg.MBX_A_CFG 19 16 →
    exec (.mbxARetry p peer seq) s = dieDoes s p fun d =>
      let q := d.mbx.peer peer
      let q : Peer := { q with unacked := q.unacked.map fun x => if x.msg.seq = seq then { x with sends := x.sends + 1, sentNs := d.up } else x }
      let d : Die := ({ d with mbx := d.mbx.setPeer q } : Die).count Reg.MBX_CNT_A_RETX
      d.sendFwd (d.mbxWorm peer { u.msg with floor := q.floor } (if d.part.pelron then 2 else 1)))
  ∧ (∀ (s : State) (p : Place) (peer seq : Nat) (u : Unacked), Alive s p → (s.die p).safe = false →
    (s.die p).retryDue peer seq = true →
    (((s.die p).mbx.peer peer).unacked.find? fun u => u.msg.seq = seq) = some u → (s.die p).bget Reg.MBX_A_CFG 19 16 ≤ u.sends →
    exec (.mbxARetry p peer seq) s = dieDoes s p fun d =>
      let q := d.mbx.peer peer
      let left : Peer := { q with unacked := q.unacked.filter (fun x => x.msg.seq ≠ seq), ended := q.ended ++ [seq] }
      let d : Die := ({ d with mbx := d.mbx.setPeer left } : Die).count Reg.MBX_CNT_A_TIMEOUT
      ((d.raise Ev.MBX_A_TIMEOUT).emit (.irq "mbx_a_timeout_unknown" seq)).afterAck peer q.unacked.length)
  ∧ (∀ (s : State) (p : Place) (peer seq : Nat), Alive s p →
    (∀ u ∈ ((s.die p).mbx.peer peer).unacked, u.msg.seq = seq → (s.die p).up < u.sentNs + 1000 * (s.die p).bget Reg.MBX_A_CFG 15 0) →
    exec (.mbxARetry p peer seq) s = dieDoes s p fun d => d)
  -- MBX_ACK: what it covers is no longer unacknowledged; one that comes after its timeout is counted
  ∧ (∀ (s : State) (w : Worm), On s → s.ctl.die.safe = false → (s.ctl.die.mbx.peers.any fun q => q.fid = markFid (wormMark w)) = true →
    s.ctl.die.injected = [] →
    exec (.mbxAck .ctl w) s = ctlDoes s fun c => c.onDie fun d =>
      let fid := markFid (wormMark w)
      let q := d.mbx.peer fid
      let got := acked (Worm.opnd w 8 4) (Worm.opnd w 12 2)
      let left : Peer := { q with unacked := q.unacked.filter (fun u => !got u.msg.seq), ended := q.ended.filter fun x => !got x }
      let d : Die := { d with mbx := d.mbx.setPeer left }
      (d.countN Reg.MBX_CNT_LATE_ARRIVAL (q.ended.filter got).length).afterAck fid (q.unacked.length - left.unacked.length))
  ∧ (∀ (s : State) (k : Who) (w : Worm), Up s k → (s.agt k).die.safe = false →
    (((s.agt k).die.mbx.peers.any fun q => q.fid = markFid (wormMark w)) = false) →
    exec (.mbxAck (.agt k) w) s = agtDoes s k fun a =>
      let b := a.onDie Die.markDenied
      if b.die.mbx.peers = a.die.mbx.peers then b else b.restartOwner 5)
  -- what type and mark need: a controller's own types are denied from an agent, unknown ones are counted
  ∧ (∀ (pelron : Bool) (mtype priv : Nat), controllerTypes.contains mtype = true → priv ≠ 2 → typeVerdict pelron mtype priv = 1)
  ∧ (∀ (pelron : Bool) (mtype priv : Nat), agentTypes.contains mtype = true → 2 ≤ priv → typeVerdict pelron mtype priv = 1)

/-- R463, R468, R471: class B mailboxes and relays. -/
def Obligations.ClassBAndRelays : Prop :=
  -- every command of the group answers a next state: that of its own effect
  (∀ (s : State) (w : Who) (inBond : Nat) (wm : Worm) (room : Bool), Up s w →
    exec (.relay w inBond wm room) s = agtDoes s w fun a => a.relay wm room)
  ∧ (∀ (s : State) (pl : Place) (channel : Nat) (master : Path), Alive s pl →
    exec (.mbxBSend pl channel master) s = dieDoes s pl fun d => if d.part.channels ≤ channel then d else d.sendB channel (masterOf master))
  ∧ (∀ (s : State) (pl : Place) (channel : Nat) (master : Path), Alive s pl →
    exec (.mbxBPop pl channel master) s = dieDoes s pl fun d => if d.part.channels ≤ channel then d else d.popB channel (masterOf master))
  -- MBX_B_SEND: with room the staged message is queued for the other side; with eight messages there it is not
  ∧ (∀ (s : State) (p : Place) (channel : Nat) (m : Path) (ch : ChanB) (isA : Bool), Alive s p → channel < (s.die p).part.channels →
    (s.die p).refuseB channel (masterOf m) = none → (s.die p).chan channel = some ch →
    ch.side (s.die p).part.pelron (masterOf m) = some isA → (ch.outQ isA).length < 8 →
    exec (.mbxBSend p channel m) s = dieDoes s p fun d =>
      let k := masterOf m
      let v := d.viewB channel k
      let msg := (k, v.staging)
      let next : ChanB := if isA then { ch with toB := ch.toB ++ [msg] } else { ch with toA := ch.toA ++ [msg] }
      (d.setViewB { v with lost := false, result := 0 }).setChan next)
  ∧ (∀ (s : State) (p : Place) (channel : Nat) (m : Path) (ch : ChanB) (isA : Bool), Alive s p → channel < (s.die p).part.channels →
    (s.die p).refuseB channel (masterOf m) = none → (s.die p).chan channel = some ch →
    ch.side (s.die p).part.pelron (masterOf m) = some isA → 8 ≤ (ch.outQ isA).length →
    exec (.mbxBSend p channel m) s = dieDoes s p fun d => d.setViewB { d.viewB channel (masterOf m) with lost := false, result := 1 })
  -- a master that the channel is not bound to is denied and logged
  ∧ (∀ (s : State) (p : Place) (channel : Nat) (m : Path), Alive s p → channel < (s.die p).part.channels →
    (((s.die p).chan channel).bind fun ch => ch.side (s.die p).part.pelron (masterOf m)) = none →
    exec (.mbxBSend p channel m) s = dieDoes s p fun d =>
      (d.resultB channel (masterOf m) 2).raise (Ev.WRITE_IGNORED Blk.MBX) channel)
  -- MBX_B_POP: the oldest message leaves; the sender of the last one is told that the queue is empty
  ∧ (∀ (s : State) (p : Place) (channel snd : Nat) (m : Path) (ch : ChanB) (isA : Bool) (ws : List Word) (rest : List (Nat × List Word)),
    Alive s p → channel < (s.die p).part.channels → (s.die p).refuseB channel (masterOf m) = none → (s.die p).chan channel = some ch →
    ch.side (s.die p).part.pelron (masterOf m) = some isA → ch.inQ isA = (snd, ws) :: rest →
    exec (.mbxBPop p channel m) s = dieDoes s p fun d =>
      let left : ChanB := if isA then { ch with toA := rest } else { ch with toB := rest }
      let d := (d.resultB channel (masterOf m) 0).setChan left
      if rest.isEmpty = true then d.emit (.irq "mbx_b_empty" (channel + 256 * snd)) else d)
  ∧ (∀ (s : State) (p : Place) (channel : Nat) (m : Path) (ch : ChanB) (isA : Bool), Alive s p → channel < (s.die p).part.channels →
    (s.die p).refuseB channel (masterOf m) = none → (s.die p).chan channel = some ch →
    ch.side (s.die p).part.pelron (masterOf m) = some isA → ch.inQ isA = [] →
    exec (.mbxBPop p channel m) s = dieDoes s p fun d => d.resultB channel (masterOf m) 5)
  -- RELAY: the worm inside goes out with the mark of the relay, stamped as at injection
  ∧ (∀ (s : State) (w : Who) (bond : Nat) (wm inner : Worm), Up s w → markPriv (wormMark wm) = 2 →
    { wormOfHead (leNat (slice wm.payload 0 64)) with payload := wm.payload.drop 64 } = inner →
    inner.cls = 2 → inner.partition = 0 → inner.mcast = 0 → (s.agt w).fid ≠ 0x3FFFF →
    exec (.relay w bond wm true) s = agtDoes s w fun a =>
      let e := a.stampEpoch
      let mark := relayMark (wormMark inner) a.fid
      let out : Worm := { inner with operand := le 8 mark ++ inner.operand.drop 8, payload := slice inner.payload 0 (64 * inner.length) }
      let out := sealHead { out with hopLimit := a.hopInit, age := a.ageStamp, epoch := e }
      a.sendStamped out (wm.operand.getD 8 0).toNat)
  ∧ (∀ (s : State) (w : Who) (bond : Nat) (wm : Worm), Up s w → markPriv (wormMark wm) ≠ 2 →
    exec (.relay w bond wm true) s = agtDoes s w fun a => a.onDie Die.markDenied)

/-! ## Controller memory and check values -/

/-- R477 to R487: writes, the merge buffer, scrubbing, sparing. -/
def Obligations.ControllerMemory : Prop :=
  -- every command of the group answers a next state: that of its own effect
  (∀ (s : State) (addr : Nat) (data : Bytes), On s →
    exec (.narrowWrite addr data) s = ctlDoes s fun c => if addr + data.length ≤ c.capacity then (c.memWrite addr data).1 else c)
  ∧ (∀ (s : State) (codeword : Nat), On s →
    exec (.mergeWriteback codeword) s = ctlDoes s fun c =>
      if c.memu.merge.any fun m => m.addr = codeword / 128 * 128 && decide (2000 + m.startNs ≤ c.die.up) then
        c.writeback (codeword / 128 * 128)
      else c)
  ∧ (∀ (s : State) (errs : List (Nat × Nat)), On s →
    exec (.scrubRead errs) s = ctlDoes s fun c => c.scrub errs)
  ∧ (∀ (s : State) (channel row : Nat), On s →
    exec (.rowSpare channel row) s = ctlDoes s fun c => c.spareRow channel row)
  -- NARROW_WRITE: a write of a range of controller memory
  ∧ (∀ (s : State) (addr : Nat) (data : Bytes), On s → addr + data.length ≤ s.ctl.capacity →
    exec (.narrowWrite addr data) s = ctlDoes s fun c => (c.memWrite addr data).1)
  -- a whole code word is written at once; a part of one goes to its entry of the merge buffer
  ∧ (∀ (c : Ctl) (a : Nat) (data : Bytes), (c.chan (c.wordOf a / 2 ^ 40)).state ≠ 3 → c.memu.merge.any (·.addr = a / 128 * 128) = false →
    data.length = 128 →
    c.writeWord a data = (((c.onDie fun d => { d with mem := mwrite d.mem a data }).wordWritten (c.wordOf a)), 0))
  ∧ (∀ (c : Ctl) (a : Nat) (data : Bytes), (c.chan (c.wordOf a / 2 ^ 40)).state = 3 →
    c.writeWord a data = (c.noteBad (c.wordOf a) false, 2))
  -- MERGE_WRITEBACK, 2 µs after the entry was made: it leaves, and its code word is encoded; before, it stays
  ∧ (∀ (s : State) (addr : Nat) (m : Merge), On s → m ∈ s.ctl.memu.merge → m.addr = addr / 128 * 128 → 2000 + m.startNs ≤ s.ctl.die.up →
    (s.ctl.chan (s.ctl.wordOf (addr / 128 * 128) / 2 ^ 40)).state ≠ 3 →
    exec (.mergeWriteback addr) s = ctlDoes s fun c =>
      let base := addr / 128 * 128
      ({ c with memu := { c.memu with merge := c.memu.merge.filter (·.addr ≠ base) } } : Ctl).wordWritten (c.wordOf base))
  ∧ (∀ (s : State) (addr : Nat), On s → (∀ m ∈ s.ctl.memu.merge, m.addr = addr / 128 * 128 → s.ctl.die.up < 2000 + m.startNs) →
    exec (.mergeWriteback addr) s = ctlDoes s fun c => c)
  -- SCRUB_READ, when the position is due: a clean code word, and the position moves on; before it is due, nothing is read
  ∧ (∀ (s : State) (total : Nat), On s → total = s.ctl.memu.usable.length * s.ctl.channelWords →
    s.ctl.scrubDue (s.ctl.die.bget Reg.MEM_SCRUB 47 0 % total) total ≤ s.ctl.die.up → s.ctl.die.blockFenced Blk.MEM = false → s.ctl.memu.merge = [] → s.ctl.memu.errors = [] →
    (s.ctl.memu.usable.any fun n => (s.ctl.chan n).state = 3) = false → s.ctl.channelWords ≠ 0 →
    s.ctl.die.bget Reg.MEM_SCRUB 47 0 + 1 < total →
    exec (.scrubRead []) s = ctlDoes s fun c => c.onDie fun d => d.bset Reg.MEM_SCRUB 47 0 (d.bget Reg.MEM_SCRUB 47 0 + 1))
  ∧ (∀ (s : State) (errs : List (Nat × Nat)) (total : Nat), On s → total = s.ctl.memu.usable.length * s.ctl.channelWords →
    s.ctl.die.up < s.ctl.scrubDue (s.ctl.die.bget Reg.MEM_SCRUB 47 0 % total) total →
    exec (.scrubRead errs) s = ctlDoes s fun c => c)
  -- ROW_SPARE: a row over the limit takes the lowest free spare row; without one the channel's spares are exhausted
  ∧ (∀ (s : State) (channel row spare : Nat), On s → s.ctl.die.fget Fl.MEM_CFG_spare_en = 1 →
    s.ctl.die.fget Fl.MEM_CFG_row_limit < tgetD s.ctl.memu.rowHits (wordKey channel row) 0 → s.ctl.memu.usable.contains channel = true →
    (s.ctl.chan channel).state ≠ 3 → s.ctl.freeSpare channel = some spare → s.ctl.flash.repairs.length < 4096 → s.ctl.memu.errors = [] →
    exec (.rowSpare channel row) s = ctlDoes s fun c =>
      let key := wordKey channel row
      let flash : Flash := { c.flash with repairs := c.flash.repairs ++ [{ channel := channel, row := row, spare := spare, fused := false }] }
      let memu := { c.memu with rowHits := tdel c.memu.rowHits key, rowsBad := c.memu.rowsBad.filter (· ≠ key) }
      (({ c with flash := flash, memu := memu } : Ctl).onDie (·.count Reg.MEM_CNT_SPARED)).raise Ev.MEM_ROW_SPARED channel)
  ∧ (∀ (s : State) (channel row : Nat), On s → s.ctl.die.fget Fl.MEM_CFG_spare_en = 1 →
    s.ctl.die.fget Fl.MEM_CFG_row_limit < tgetD s.ctl.memu.rowHits (wordKey channel row) 0 → s.ctl.memu.usable.contains channel = true →
    (s.ctl.chan channel).state ≠ 3 → s.ctl.freeSpare channel = none → (s.ctl.chan channel).exhausted = false →
    exec (.rowSpare channel row) s = ctlDoes s fun c =>
      let ch := { c.chan channel with exhausted := true }
      ({ c with memu := { c.memu with chans := tset c.memu.chans channel ch } } : Ctl).raise Ev.MEM_SPARES_EXHAUSTED channel)

/-- R488 to R493: check-value units. -/
def Obligations.CheckValueUnits : Prop :=
  -- every command of the group answers a next state: that of its own effect
  (∀ (s : State) (pl : Place) (unit : Nat) (val : Word), Alive s pl → Takes (s.die pl) Blk.CVU →
    exec (.cvuStart pl unit val) s = dieDoes s pl (·.cvuStart unit val.toNat))
  ∧ (∀ (s : State) (unit : Nat), On s → Takes s.ctl.die Blk.CVU →
    exec (.cvuAbort .ctl unit) s = ctlDoes s (·.cvuAbort unit))
  ∧ (∀ (s : State) (w : Who) (unit : Nat), Up s w → Takes (s.agt w).die Blk.CVU →
    exec (.cvuAbort (.agt w) unit) s = agtDoes s w (·.onDie (·.cvuAbort unit)))
  ∧ (∀ (s : State) (unit : Nat), On s →
    exec (.cvuComplete .ctl unit) s = ctlDoes s fun c => c.cvuFinish unit)
  ∧ (∀ (s : State) (w : Who) (unit : Nat), Up s w →
    exec (.cvuComplete (.agt w) unit) s = agtDoes s w fun a => a.onDie (·.cvuFinish unit))
  ∧ (∀ (s : State) (pl : Place) (unit reg : Nat) (val : Word), Alive s pl → Takes (s.die pl) Blk.CVU →
    exec (.cvuContextWrite pl unit reg val) s = dieDoes s pl (·.cvuContext unit reg val.toNat))
  -- CVU_START of a length and mode within the limits: the unit is busy; context_reset gives the code's init
  ∧ (∀ (s : State) (p : Place) (unit : Nat) (val : Word), Alive s p → Takes (s.die p) Blk.CVU → bitOf val.toNat 0 = true →
    unit < (s.die p).part.cvus → (s.die p).fenced Blk.CVU unit = false → (s.die p).cvuBusy unit = false →
    (Die.cvuLengthOk ((s.die p).bset (cvuReg unit Reg.CVU_STATUS) 4 4 (bitsOf val.toNat 2 2)) unit val.toNat) = true →
    exec (.cvuStart p unit val) s = dieDoes s p fun d =>
      let ctl := val.toNat
      let d := d.bset (cvuReg unit Reg.CVU_STATUS) 4 4 (bitsOf ctl 2 2)
      let d := if bitOf ctl 5 = true then (d.setN (cvuReg unit Reg.CVU_RUN) (cvuOnes ctl)).setN (cvuReg unit Reg.CVU_COUNT) 0 else d
      let d := (d.bset (cvuReg unit Reg.CVU_STATUS) 0 0 1).bset (cvuReg unit Reg.CVU_STATUS) 3 1 0
      { d with cvu := d.cvu.set unit { ctl := ctl, src := d.getN (cvuReg unit Reg.CVU_SRC), dst := d.getN (cvuReg unit Reg.CVU_DST),
                                       len := d.bget (cvuReg unit Reg.CVU_LEN) 24 0 } })
  -- a start while it is busy is logged
  ∧ (∀ (s : State) (p : Place) (unit : Nat) (val : Word), Alive s p → Takes (s.die p) Blk.CVU → bitOf val.toNat 0 = true →
    unit < (s.die p).part.cvus → (s.die p).fenced Blk.CVU unit = false → (s.die p).cvuBusy unit = true →
    exec (.cvuStart p unit val) s = dieDoes s p fun d => d.raise Ev.CVU_BUSY unit)
  -- CVU_COMPLETE
  ∧ (∀ (s : State) (unit : Nat), On s → s.ctl.die.cvuBusy unit = true →
    exec (.cvuComplete .ctl unit) s = ctlDoes s fun c =>
      let o := c.die.cvuOp unit
      let r := c.memRead o.src o.len
      let e := r.1.die.cvuComplete unit r.2.1 r.2.2
      ({ r.1 with die := e.1 } : Ctl).putAll e.2)
  ∧ (∀ (s : State) (w : Who) (unit : Nat), Up s w → (s.agt w).die.cvuBusy unit = true →
    exec (.cvuComplete (.agt w) unit) s = agtDoes s w fun a => a.onDie fun d =>
      let o := d.cvuOp unit
      let e := d.cvuComplete unit (mread d.mem o.src o.len) false
      e.1.putAll e.2)
  -- the value of the last part is the running value with the final exclusive or; the check stripped is compared with it
  ∧ (∀ (d : Die) (unit : Nat) (o : Cvu) (src : Bytes), d.cvuOp unit = o → cvuLast o.ctl = true → cvuMode o.ctl = 2 →
    d.cvuComplete unit src false =
      let n := o.len - cvuBytes o.ctl
      let e := d.cvuProcess unit (src.take n)
      let v := Nat.xor (e.getN (cvuReg unit Reg.CVU_RUN)) (cvuOnes o.ctl)
      ((e.setN (cvuReg unit Reg.CVU_VALUE) v).cvuEnd unit (if leNat (src.drop n) = v then 1 else 2), [(o.dst, src.take n)]))
  -- a compute copies nothing; a generate writes the value behind the bytes it copied
  ∧ (∀ (d : Die) (unit : Nat) (o : Cvu) (src : Bytes) (bad : Bool), d.cvuOp unit = o → cvuMode o.ctl = 0 →
    (d.cvuComplete unit src bad).2 = [])
  ∧ (∀ (d : Die) (unit : Nat) (o : Cvu) (src : Bytes), d.cvuOp unit = o → cvuLast o.ctl = true → cvuMode o.ctl = 1 →
    d.cvuComplete unit src false =
      let e := d.cvuProcess unit (src.take o.len)
      let v := Nat.xor (e.getN (cvuReg unit Reg.CVU_RUN)) (cvuOnes o.ctl)
      ((e.setN (cvuReg unit Reg.CVU_VALUE) v).cvuEnd unit 0,
        [(o.dst, src.take o.len), (o.dst + o.len, le (cvuBytes o.ctl) v)]))
  -- a code word of the source that reads UNCORRECTABLE ends the operation with that result
  ∧ (∀ (d : Die) (unit : Nat) (o : Cvu) (src : Bytes), d.cvuOp unit = o →
    (d.cvuComplete unit src true).1 = (d.cvuProcess unit (src.take o.body)).cvuEnd unit 4)
  -- CVU_ABORT ends the operation at a boundary of 64 bytes with ABORTED
  ∧ (∀ (s : State) (unit : Nat), On s → Takes s.ctl.die Blk.CVU → s.ctl.die.cvuBusy unit = true →
    exec (.cvuAbort .ctl unit) s = ctlDoes s fun c =>
      let o := c.die.cvuOp unit
      let r := c.die.cvuStop unit
      let q := ({ c with die := r.2 } : Ctl).memRead o.src r.1
      (q.1.onDie fun d => (d.cvuProcess unit q.2.1).cvuEnd unit (if q.2.2 = true then 4 else 3)).putAll (o.copies q.2.1))
  ∧ (∀ (s : State) (w : Who) (unit : Nat), Up s w → Takes (s.agt w).die Blk.CVU → (s.agt w).die.cvuBusy unit = true →
    exec (.cvuAbort (.agt w) unit) s = agtDoes s w fun a => a.onDie fun d =>
      let o := d.cvuOp unit
      let r := d.cvuStop unit
      let bs := mread r.2.mem o.src r.1
      ((r.2.cvuProcess unit bs).cvuEnd unit 3).putAll (o.copies bs))
  ∧ (∀ (s : State) (w : Who) (unit : Nat), Up s w → Takes (s.agt w).die Blk.CVU → (s.agt w).die.cvuBusy unit = false →
    exec (.cvuAbort (.agt w) unit) s = agtDoes s w fun a => a)
  -- CVU_CONTEXT_WRITE: the running value or the count
  ∧ (∀ (s : State) (p : Place) (unit : Nat) (val : Word), Alive s p → Takes (s.die p) Blk.CVU → unit < (s.die p).part.cvus →
    (s.die p).cvuBusy unit = false → exec (.cvuContextWrite p unit 0 val) s = dieDoes s p fun d => d.setN (cvuReg unit Reg.CVU_RUN) val.toNat)
  ∧ (∀ (s : State) (p : Place) (unit : Nat) (val : Word), Alive s p → Takes (s.die p) Blk.CVU → unit < (s.die p).part.cvus →
    (s.die p).cvuBusy unit = false →
    exec (.cvuContextWrite p unit 1 val) s = dieDoes s p fun d => d.setN (cvuReg unit Reg.CVU_COUNT) (val.toNat % 2 ^ 48))

/-! ## Firmware -/

/-- R402, R496 to R509: firmware at the controller. -/
def Obligations.FirmwareDistribution : Prop :=
  -- every command of the group answers a next state: that of its own effect
  (∀ (s : State), On s → Takes s.ctl.die Blk.FDS →
    exec (.fdsDistribute) s = ctlDoes s Ctl.fdsDistribute)
  ∧ (∀ (s : State), On s → Takes s.ctl.die Blk.FDS →
    exec (.fdsActivate) s = ctlDoes s fun c => if c.fds.image.isEmpty then c else c.fdsChoose c.fdsLead)
  ∧ (∀ (s : State), On s →
    exec (.fwPassChunk) s = ctlDoes s fun c => c.works Blk.FDS Ctl.fwPassChunk)
  ∧ (∀ (s : State), On s →
    exec (.fwQuerySend) s = ctlDoes s fun c => c.works Blk.FDS Ctl.fwQuerySend)
  ∧ (∀ (s : State) (fid imageId count missing state bitmap : Nat), On s →
    exec (.fwStitches fid imageId count missing state bitmap) s = ctlDoes s fun c => c.works Blk.FDS fun c => c.fwStitches fid imageId state bitmap)
  ∧ (∀ (s : State), On s →
    exec (.fwRepairRound) s = ctlDoes s fun c => c.works Blk.FDS Ctl.repairRound)
  ∧ (∀ (s : State) (fid imageId version : Nat) (digest : Digest), On s →
    exec (.fwReady fid imageId version digest) s = ctlDoes s fun c => c.works Blk.FDS fun c => c.fwReady fid imageId)
  ∧ (∀ (s : State) (fid imageId reason : Nat), On s →
    exec (.fwRefused fid imageId reason) s = ctlDoes s fun c =>
      c.works Blk.FDS fun c =>
      if imageId ≠ c.fds.imageId ∨ (tget c.fds.agents fid).isNone then c
      else c.setFdsAgent fid { c.fdsAgent fid with state := 5, reported := true })
  ∧ (∀ (s : State) (fid imageId result course version : Nat), On s →
    exec (.fwResult fid imageId result course version) s = ctlDoes s fun c => c.works Blk.FDS fun c => c.fwResult fid imageId result version)
  -- FDS_CTL.stage: the check decides the result; an image that passes is staged
  ∧ (∀ (s : State), On s → Takes s.ctl.die Blk.FDS →
    exec .fdsStage s = ctlDoes s fun c =>
      let r := c.memRead (c.die.getN Reg.FDS_SRC_ADDR) (c.die.bget Reg.FDS_SRC_LEN 25 0)
      let v := r.1.stageCheck (c.die.bget Reg.FDS_SRC_LEN 25 0) r.2.1
      let c := r.1.onDie (·.fset Fl.FDS_STATUS_result v)
      if v ≠ 0 then c
      else
        let h := imageHdr r.2.1
        let c := c.extend 4 0x40 (digestOf h.bodyDigest)
        let c : Ctl := { c with flash := { c.flash with staged := tset c.flash.staged h.kind r.2.1 } }
        let f : Fds := if h.kind = 3 then { c.fds with image := [], agents := [], course := none, want := none, activated := false } else c.fds
        (({ c with fds := f } : Ctl).setFds 2).raise Ev.FW_STAGED)
  -- FDS_CTL.distribute
  ∧ (∀ (s : State) (b : Bytes), On s → Takes s.ctl.die Blk.FDS → tget s.ctl.flash.staged 3 = some b → s.ctl.distributing = false →
    exec .fdsDistribute s = ctlDoes s fun c =>
      let id := (c.fds.imageId + 1) % 2 ^ 32
      let agents : Tbl FdsAgent := c.liveAgents.foldl (fun t a => tset t a.fid { state := 0, bitmap := 0, reported := false }) []
      let f : Fds := { imageId := id, image := b, next := 0, agents := agents, course := none, want := none, activated := false }
      (({ c with fds := f } : Ctl).setFds 3).onDie
        (·.setN Reg.FDS_IMAGE (id + 3 * 2 ^ 32 + ceilDiv b.length 2048 % 2 ^ 10 * 2 ^ 40)))
  -- FW_PASS_CHUNK: chunk after chunk, chunk_ns apart
  ∧ (∀ (s : State), On s → s.ctl.distributing = true → s.ctl.fds.next < s.ctl.fdsCount →
    s.ctl.fds.sentNs + s.ctl.die.fget Fl.FDS_CFG_chunk_ns ≤ s.ctl.die.up →
    exec .fwPassChunk s = ctlDoes s fun c => c.works Blk.FDS fun c =>
      let p := c.passChunk c.fds.next
      { p with fds := { p.fds with next := c.fds.next + 1, sentNs := c.die.up, queried := false } })
  ∧ (∀ (s : State), On s → 0 < s.ctl.fds.next → s.ctl.die.up < s.ctl.fds.sentNs + s.ctl.die.fget Fl.FDS_CFG_chunk_ns →
    exec .fwPassChunk s = ctlDoes s fun c => c)
  -- FW_QUERY_SEND to every target from which no report is held, quiet_us and 4 ms after the last chunk, once
  ∧ (∀ (s : State), On s → s.ctl.distributing = true → s.ctl.fdsCount ≤ s.ctl.fds.next → s.ctl.fds.queried = false →
    4000000 + s.ctl.fds.sentNs + 1000 * s.ctl.die.fget Fl.FDS_CFG_quiet_us ≤ s.ctl.die.up →
    exec .fwQuerySend s = ctlDoes s fun c => c.works Blk.FDS fun c =>
      let c : Ctl := { c with fds := { c.fds with queried := true } }
      (c.fds.agents.filter fun p => !p.2.reported && decide (p.2.state < 2)).foldl (fun (c : Ctl) p =>
        (c.sendA p.1 0x50 (le 4 c.fds.imageId)).onDie (·.count Reg.FDS_CNT_QUERIES)) c)
  ∧ (∀ (s : State), On s → s.ctl.die.up < 4000000 + s.ctl.fds.sentNs + 1000 * s.ctl.die.fget Fl.FDS_CFG_quiet_us →
    exec .fwQuerySend s = ctlDoes s fun c => c)
  -- FW_STITCHES: a receiving agent's bitmap is kept
  ∧ (∀ (s : State) (fid id count missing bitmap : Nat) (x : FdsAgent), On s → id = s.ctl.fds.imageId → tget s.ctl.fds.agents fid = some x →
    x.state ≤ 2 →
    exec (.fwStitches fid id count missing 1 bitmap) s = ctlDoes s fun c => c.works Blk.FDS fun c => c.setFdsAgent fid { state := 1, bitmap := bitmap, reported := true })
  ∧ (∀ (s : State) (fid id count missing state bitmap : Nat), On s → id ≠ s.ctl.fds.imageId →
    exec (.fwStitches fid id count missing state bitmap) s = ctlDoes s fun c => c)
  -- FW_REPAIR_ROUND after the last round gives up the agents still incomplete
  ∧ (∀ (s : State), On s → s.ctl.distributing = true → s.ctl.fdsCount ≤ s.ctl.fds.next →
    ((s.ctl.fds.agents.filter fun p => decide (p.2.state < 2)).map (·.1)) ≠ [] →
    s.ctl.fds.queried = true → s.ctl.die.fget Fl.FDS_CFG_rounds ≤ s.ctl.die.bget Reg.FDS_IMAGE 63 56 →
    exec .fwRepairRound s = ctlDoes s fun c => c.works Blk.FDS fun c =>
      ((c.fds.agents.filter fun p => decide (p.2.state < 2)).map (·.1)).foldl (fun (c : Ctl) f => c.giveUp f) c)
  -- FW_READY and FW_REFUSED
  ∧ (∀ (s : State) (fid id version : Nat) (digest : Digest), On s → id = s.ctl.fds.imageId → (tget s.ctl.fds.agents fid).isSome = true →
    s.ctl.fds.activated = false →
    exec (.fwReady fid id version digest) s = ctlDoes s fun c => c.works Blk.FDS fun c => c.setFdsAgent fid { c.fdsAgent fid with state := 3, reported := true })
  ∧ (∀ (s : State) (fid id reason : Nat), On s → id = s.ctl.fds.imageId → (tget s.ctl.fds.agents fid).isSome = true →
    exec (.fwRefused fid id reason) s = ctlDoes s fun c => c.works Blk.FDS fun c => c.setFdsAgent fid { c.fdsAgent fid with state := 5, reported := true })
  -- FDS_CTL.activate: a course after the lead time
  ∧ (∀ (s : State), On s → Takes s.ctl.die Blk.FDS → s.ctl.fds.image ≠ [] →
    exec .fdsActivate s = ctlDoes s fun c => c.fdsChoose (c.die.ns + 1000000 * c.die.fget Fl.FDS_CFG_lead_ms))
  -- FW_RESULT
  ∧ (∀ (s : State) (fid id course version : Nat), On s → id = s.ctl.fds.imageId → (tget s.ctl.fds.agents fid).isSome = true →
    exec (.fwResult fid id 1 course version) s = ctlDoes s fun c => c.works Blk.FDS fun c =>
      let c := c.fdsPassed
      let c := c.setFdsAgent fid { c.fdsAgent fid with state := 4 }
      let c := c.modAgent fid fun a => { a with fwVersion := version, linkLevel := (imageHdr c.fds.image).linkLevel }
      c.fdsRetry.resumeJobs)
  -- FDS_CTL.commit and FDS_CTL.abandon
  ∧ (∀ (s : State), On s → Takes s.ctl.die Blk.FDS →
    exec .fdsCommit s = ctlDoes s fun c =>
      (c.fds.agents.filter fun p => p.2.state = 4).foldl (fun (c : Ctl) p => c.sendA p.1 0x56 (le 4 c.fds.imageId)) c)
  ∧ (∀ (s : State), On s → Takes s.ctl.die Blk.FDS →
    exec .fdsAbandon s = ctlDoes s fun c =>
      let c := c.fds.agents.foldl (fun (c : Ctl) p => c.sendA p.1 0x57 (le 4 c.fds.imageId)) c
      let f : Fds := { c.fds with image := [], agents := [], course := none, want := none, activated := false }
      (({ c with fds := f, flash := { c.flash with staged := tdel c.flash.staged 3 } } : Ctl).setFds 0).resumeJobs)

/-- R501 to R510: firmware at an agent. -/
def Obligations.FirmwareReception : Prop :=
  -- every command of the group answers a next state: that of its own effect
  (∀ (s : State) (w : Who) (inBond : Nat) (wm : Worm), Up s w →
    exec (.fwChunk w inBond wm) s = agtDoes s w fun a => a.fwChunk wm)
  ∧ (∀ (s : State) (w : Who), Up s w →
    exec (.fwVerifyDone w) s = agtDoes s w Agt.verifyDone)
  ∧ (∀ (s : State) (w : Who) (ok : Bool), Up s w →
    exec (.fwProgramDone w ok) s = agtDoes s w fun a => a.programDone ok)
  ∧ (∀ (s : State) (w : Who), Up s w →
    exec (.fwStitchesSend w) s = agtDoes s w fun a =>
      if a.stitchesDue then
        ({ a with fwrx := { a.fwrx with reported := true, lastNs := none } } : Agt).stitches a.fwrx.imageId
      else a)
  ∧ (∀ (s : State) (w : Who) (imageId course : Nat), Up s w →
    exec (.fwActivate w imageId course) s = agtDoes s w fun a => a.fwActivate imageId course)
  ∧ (∀ (s : State) (w : Who) (imageId : Nat), Up s w →
    exec (.fwCommit w imageId) s = agtDoes s w fun a =>
      if a.die.safe ∨ a.fwrx.activated ≠ imageId ∨ imageId = 0 then a
      else { a with fwrx := { a.fwrx with rollback := max a.fwrx.rollback (min 128 a.die.fw.index) } })
  ∧ (∀ (s : State) (w : Who) (imageId : Nat), Up s w →
    exec (.fwAbandon w imageId) s = agtDoes s w fun a =>
      if a.die.safe ∨ a.fwState = 0 ∨ 4 < a.fwState ∨ a.fwrx.imageId ≠ imageId then a else a.fwIdle)
  ∧ (∀ (s : State) (w : Who), Up s w →
    exec (.fwCoreRestartDone w) s = agtDoes s w Agt.restartDone)
  -- FW_CHUNK of a new image: it is started, and the chunk kept
  ∧ (∀ (s : State) (w : Who) (bond id i n total : Nat) (wm : Worm), Up s w → markPriv (wormMark wm) = 2 → wm.partition = 0 →
    Worm.opnd wm 25 1 = 3 → Worm.opnd wm 24 1 = 0 → Worm.opnd wm 8 4 = id → Worm.opnd wm 12 2 = i → Worm.opnd wm 14 2 = n →
    Worm.opnd wm 20 4 = total → n ≤ 512 → n = ceilDiv total 2048 → i < n → wm.length = ceilDiv (min 2048 (total - 2048 * i)) 64 →
    total ≤ ((s.agt w).die.resource.shares.getD 0 (0, 0)).2 * 4096 →
    crc32c (slice wm.payload 0 (min 2048 (total - 2048 * i))) = Worm.opnd wm 16 4 →
    (s.agt w).fwrx.imageId < id → (s.agt w).fwState < 4 →
    exec (.fwChunk w bond wm) s = agtDoes s w fun a =>
      (a.startImage id n total).keepChunk i (slice wm.payload 0 (min 2048 (total - 2048 * i))) false)
  ∧ (∀ (s : State) (w : Who) (bond : Nat) (wm : Worm), Up s w → markPriv (wormMark wm) ≠ 2 →
    exec (.fwChunk w bond wm) s = agtDoes s w fun a => a.onDie Die.markDenied)
  -- the last chunk missing starts the verification; one already held is counted
  ∧ (∀ (a : Agt) (i : Nat) (data : Bytes) (last : Bool), (tget a.fwrx.chunks i).isSome = true →
    a.keepChunk i data last = a.count Reg.AGT_CNT_FW_DUPLICATE)
  ∧ (∀ (a : Agt) (i : Nat) (data : Bytes) (last : Bool), tget a.fwrx.chunks i = none →
    (tset a.fwrx.chunks i data).length = a.fwrx.count →
    a.keepChunk i data last =
      let f : FwRx := { a.fwrx with chunks := tset a.fwrx.chunks i data, acceptedNs := a.die.up, reported := false,
                                    lastNs := if last = true then some a.die.up else a.fwrx.lastNs }
      ((({ a with fwrx := f } : Agt).onDie (·.fset Fl.AGT_FW_STATUS_received f.chunks.length)).setFw 2))
  -- FW_STITCHES_SEND, when the report is due, once; FW_QUERY at any time
  ∧ (∀ (s : State) (w : Who), Up s w → (s.agt w).stitchesDue = true →
    exec (.fwStitchesSend w) s = agtDoes s w fun a =>
      ({ a with fwrx := { a.fwrx with reported := true, lastNs := none } } : Agt).stitches a.fwrx.imageId)
  ∧ (∀ (s : State) (w : Who), Up s w → (s.agt w).fwrx.reported = true → exec (.fwStitchesSend w) s = agtDoes s w fun a => a)
  ∧ (∀ (s : State) (w : Who) (id : Nat), Up s w → exec (.fwQuery w id) s = agtDoes s w fun a => a.stitches id)
  -- FW_VERIFY_DONE
  ∧ (∀ (s : State) (w : Who), Up s w → (s.agt w).fwState = 2 →
    exec (.fwVerifyDone w) s = agtDoes s w fun a =>
      let r := a.fwVerify a.fwrx.image
      let h := imageHdr a.fwrx.image
      if r ≠ 0 then (a.refuseFw a.fwrx.imageId r).fwIdle
      else ({ a with fwrx := { a.fwrx with version := h.version, digest := digestOf h.bodyDigest } } : Agt).setFw 3)
  -- FW_PROGRAM_DONE: the inactive bank holds the image, the active one stays
  ∧ (∀ (s : State) (w : Who), Up s w → (s.agt w).fwState = 3 →
    exec (.fwProgramDone w true) s = agtDoes s w fun a =>
      let f := a.fwrx.program (1 - a.die.fget Fl.AGT_FW_STATUS_active_bank) a.fwrx.image true
      ((({ a with fwrx := { f with chunks := [] } } : Agt).setFw 4).onDie
        (·.toController 0x52 (le 4 f.imageId ++ le 4 f.version ++ digestBytes f.digest))))
  ∧ (∀ (s : State) (w : Who), Up s w → (s.agt w).fwState = 3 →
    exec (.fwProgramDone w false) s = agtDoes s w fun a =>
      let f := a.fwrx.program (1 - a.die.fget Fl.AGT_FW_STATUS_active_bank) a.fwrx.image false
      ((({ a with fwrx := f } : Agt).refuseFw f.imageId 5).fwIdle))
  -- FW_ACTIVATE: on time the course is kept; late it is reported
  ∧ (∀ (s : State) (w : Who) (id course : Nat), Up s w → (s.agt w).die.safe = false → (s.agt w).fwState = 4 → (s.agt w).fwrx.imageId = id →
    (s.agt w).courseStarted course = false →
    exec (.fwActivate w id course) s = agtDoes s w fun a => { a with fwrx := { a.fwrx with course := some course } })
  ∧ (∀ (s : State) (w : Who) (id course : Nat), Up s w → (s.agt w).die.safe = false → (s.agt w).fwState = 4 → (s.agt w).fwrx.imageId = id →
    (s.agt w).courseStarted course = true → exec (.fwActivate w id course) s = agtDoes s w fun a => a.fwReport 2 course)
  -- FW_ACTIVATION_COURSE: at the agent, then the controller's part
  ∧ (∀ (s : State) (w : Who), Up s w → On (s.onAgt w Agt.fwCourse) →
    exec (.fwActivationCourse w) s = ctlDoes (s.onAgt w Agt.fwCourse) fun c => c.fdsPassed.resumeJobs)
  ∧ (∀ (a : Agt) (k : Nat), a.fwrx.course = some k → a.fwState = 4 → a.courseStarted k = true → a.recLevel < 2 → a.regime = false → a.die.safe = false →
    a.fwCourse = ((a.onDie (·.fset Fl.AGT_FW_STATUS_active_bank (1 - a.die.fget Fl.AGT_FW_STATUS_active_bank))).setFw 5).extendOwn 0 2
      (digestBytes a.fwrx.digest))
  -- FW_CORE_RESTART_DONE: the new firmware runs and is reported
  ∧ (∀ (s : State) (w : Who), Up s w → (s.agt w).fwState = 5 → (s.agt w).rcv.deferred = [] →
    exec (.fwCoreRestartDone w) s = agtDoes s w fun a =>
      let b := a.onDie fun d => { d with fw := a.fwrx.firmware (d.fget Fl.AGT_FW_STATUS_active_bank) }
      let f : FwRx := { b.fwrx with course := none, activated := b.fwrx.imageId, count := 0, total := 0 }
      let b : Agt := { b with fwrx := f }
      let b := ((b.setFw 0).onDie (·.fset Fl.AGT_FW_STATUS_received 0)).fwReport 1 (a.fwrx.course.getD 0)
      { b with rcv := { b.rcv with deferred := [] } })
  -- FW_COMMIT and FW_ABANDON
  ∧ (∀ (s : State) (w : Who) (id : Nat), Up s w → (s.agt w).die.safe = false → (s.agt w).fwrx.activated = id → id ≠ 0 →
    exec (.fwCommit w id) s = agtDoes s w fun a =>
      { a with fwrx := { a.fwrx with rollback := max a.fwrx.rollback (min 128 a.die.fw.index) } })
  ∧ (∀ (s : State) (w : Who) (id : Nat), Up s w → (s.agt w).die.safe = false → 1 ≤ (s.agt w).fwState → (s.agt w).fwState ≤ 4 →
    (s.agt w).fwrx.imageId = id → exec (.fwAbandon w id) s = agtDoes s w fun a => a.fwIdle)

/-! ## Power -/

/-- R438, R445, R530 to R536, R543: power and reset of the controller's module, and an agent's core-voltage floor. -/
def Obligations.PowerSequences : Prop :=
  -- every command of the group answers a next state: that of its own effect
  (∀ (s : State) (w : Who) (val : Word), Up s w → Takes (s.agt w).die Blk.AGT →
    exec (.vcoreFloorWrite w val) s = agtDoes s w (·.onDie (·.vcoreFloor val.toNat)))
  ∧ (∀ (s : State),
    exec (.modEnAssert) s = ctlDoes s Ctl.modEnAssert)
  ∧ (∀ (s : State) (testEn : Bool),
    exec (.controllerLeaveReset testEn) s = ctlDoes s fun c => c.leaveReset testEn)
  ∧ (∀ (s : State) (ns : Nat),
    exec (.controllerRstN ns) s = ctlDoes s fun c => c.rstPulse ns)
  ∧ (∀ (s : State) (t : PowerTrigger),
    exec (.powerDownTrigger t) s = .next (s.powerTrigger t))
  ∧ (∀ (s : State), s.ctl.pwr.phase = 3 →
    exec (.powerDownEnd) s = .next ((s.onCtl Ctl.powerOff).onAgt .emb fun a => a.resetAssert false))
  -- MOD_EN_ASSERT from the off state: the sequence starts, and the power-cycle count rises by one
  ∧ (∀ (s : State), s.ctl.pwr.modEn = false → s.ctl.pwr.phase = 0 →
    exec .modEnAssert s = ctlDoes s fun c =>
      let evr : Evr := { c.die.evr with secBase := c.die.evr.savedSec, cycles := (c.die.evr.savedCycles + 1) % 2 ^ 24 }
      { c with pwr := { c.pwr with modEn := true, pwrFailN := true, phase := 1 }, die := { c.die with evr := evr } })
  -- CONTROLLER_LEAVE_RESET after power good
  ∧ (∀ (s : State) (testEn : Bool), s.ctl.pwr.phase = 1 →
    exec (.controllerLeaveReset testEn) s = ctlDoes s fun c =>
      let c := c.restarted testEn
      { c with pwr := { c.pwr with phase := 2, rstN := true } })
  -- CONTROLLER_RST_N of at least 10 µs resets
  ∧ (∀ (s : State) (ns : Nat), s.ctl.pwr.phase = 2 → 10000 ≤ ns →
    exec (.controllerRstN ns) s = ctlDoes s fun c =>
      let c := ({ c with die := c.die.freeVal.2 } : Ctl).restarted false
      { c with pwr := { c.pwr with phase := 1, rstN := false } })
  -- POWER_DOWN_TRIGGER of a running module starts the sequence, which takes the embedded agent's lanes with it
  ∧ (∀ (s t : State) (k : PowerTrigger), t = s.onCtl (fun c => { c with pwr := c.pwr.trigger k }) → t.ctl.pwr.phase = 2 →
    exec (.powerDownTrigger k) s = .next ((t.onCtl fun c => c.powerDown t.emb).onAgt .emb Agt.withdrawAll))
  -- while a sequence runs a trigger shows at the pins alone
  ∧ (∀ (s t : State) (k : PowerTrigger), t = s.onCtl (fun c => { c with pwr := c.pwr.trigger k }) → t.ctl.pwr.phase = 3 →
    exec (.powerDownTrigger k) s = .next t)
  -- the sequence: ports, sessions and connections end, ALERT_N is asserted, the meter's state and the record are saved
  ∧ (∀ (c : Ctl) (e : Agt),
    c.powerDown e =
      let k : Ctl := { c with ports := [], mortar := [], kst := { c.kst with conns := [] } }
      let k := (k.onDie (·.driveAlert false)).meterSnapshot.powerFailRecord e
      { k with pwr := { k.pwr with phase := 3 } })
  -- POWER_DOWN_END: the main rails are off
  ∧ (∀ (s : State), s.ctl.pwr.phase = 3 →
    exec .powerDownEnd s = .next ((s.onCtl Ctl.powerOff).onAgt .emb fun a => a.resetAssert false))
  -- VCORE_FLOOR_WRITE: 600 to 800 mV, and lowest_mv starts anew; another floor is ignored
  ∧ (∀ (s : State) (w : Who) (val : Word), Up s w → Takes (s.agt w).die Blk.AGT → 600 ≤ bitsOf val.toNat 11 0 → bitsOf val.toNat 11 0 ≤ 800 →
    exec (.vcoreFloorWrite w val) s = agtDoes s w fun a => a.onDie fun d =>
      (d.bset Reg.AGT_VCORE 11 0 (bitsOf val.toNat 11 0)).bset Reg.AGT_VCORE 43 32 0xFFF)
  ∧ (∀ (s : State) (w : Who) (val : Word), Up s w → Takes (s.agt w).die Blk.AGT → (bitsOf val.toNat 11 0 < 600 ∨ 800 < bitsOf val.toNat 11 0) →
    exec (.vcoreFloorWrite w val) s = agtDoes s w fun a => a)

/-! ## Register accesses -/

/-- R10, R12, R188, R275, R279, R293, R382, R455, R456, R461, R470: what carries accesses to the registers. -/
def Obligations.RegisterAccesses : Prop :=
  -- every command of the group answers a next state: that of its own effect
  (∀ (s : State) (w : Who) (msgTag off : Nat), Hears s w →
    exec (.regRead w msgTag off) s = .next (s.hostRead w msgTag off))
  ∧ (∀ (s : State) (w : Who) (msgTag off : Nat) (val : Word), Hears s w →
    exec (.regWrite w msgTag off val) s = .next (s.hostWrite w msgTag off val))
  ∧ (∀ (s : State) (h : FrameHdr) (ents : List Access), On s →
    exec (.regReq h ents) s = .next (s.regReq h ents))
  ∧ (∀ (s : State) (session sequence : Nat) (intact : Bool) (ents : List Access), On s →
    exec (.mortarReg session sequence intact ents) s = .next (s.mortarReg session sequence intact ents))
  ∧ (∀ (s : State) (session : Nat) (ents : List Access), On s →
    exec (.preludeReg session ents) s = .next (s.preludeReg session ents))
  ∧ (∀ (s : State) (w : Who) (inBond : Nat) (wm : Worm), Up s w →
    exec (.mgmtOp w inBond wm) s = .next (s.mgmtOp w wm))
  -- REGISTER_WRITE: where the path may make the access, it is made and its completion shown
  ∧ (∀ (s t : State) (p : Place) (path : Path) (off size : Nat) (val : Word), Alive s p → t = s.jtagAttach p path →
    t.pathGate p path off = none →
    exec (.registerWrite p path off size val) s =
      let r := t.access p path off size (some val)
      dieDoes r.1 p fun d => d.emit (.access path r.2.1 0))
  -- where it may not, nothing but the completion is shown; over the host's path that is a write of any register but those of R279
  ∧ (∀ (s t : State) (p : Place) (path : Path) (off size status : Nat) (val : Word), Alive s p → t = s.jtagAttach p path →
    t.pathGate p path off = some status →
    exec (.registerWrite p path off size val) s = dieDoes t p fun d => d.emit (.access path status 0))
  ∧ (∀ (s : State) (w : Who) (off : Nat), hostWritable (s.agt w).die.part off = false → s.pathGate (.agt w) .host off = some 7)
  -- a debug attach comes with the first JTAG access alone
  ∧ (∀ (s : State) (p : Place) (path : Path), path ≠ .jtag ∨ (s.die p).attached = true → s.jtagAttach p path = s)
  -- TRIG_READ of the upper word takes the entry out; at the controller over a path that may make it
  ∧ (∀ (s t : State) (w : Who) (path : Path), Up s w → t = s.jtagAttach (.agt w) path →
    exec (.trigRead (.agt w) path) s =
      let r := t.readReg (.agt w) path Reg.PLB_TRIG_HI
      dieDoes r.1 (.agt w) fun d => d.emit (.access path r.2.1 r.2.2))
  ∧ (∀ (s t : State) (path : Path), On s → t = s.jtagAttach .ctl path →
    t.pathGate .ctl path (t.ctl.die.part.offOf Reg.PLB_TRIG_HI) = none →
    exec (.trigRead .ctl path) s =
      let r := t.readReg .ctl path Reg.PLB_TRIG_HI
      dieDoes r.1 .ctl fun d => d.emit (.access path r.2.1 r.2.2))
  ∧ (∀ (s t : State) (path : Path) (status : Nat), On s → t = s.jtagAttach .ctl path →
    t.pathGate .ctl path (t.ctl.die.part.offOf Reg.PLB_TRIG_HI) = some status →
    exec (.trigRead .ctl path) s = dieDoes t .ctl fun d => d.emit (.access path status 0))
  -- REG_READ and REG_WRITE from the host
  ∧ (∀ (s : State) (w : Who) (tag off : Nat), Hears s w → off < 0x100000 →
    exec (.regRead w tag off) s =
      let r := (s.onAgt w credited).access (.agt w) .host off 8 none
      agtDoes r.1 w fun a => a.regValue tag off r.2.1 (some r.2.2))
  ∧ (∀ (s : State) (w : Who) (tag off : Nat), Hears s w → 0x100000 ≤ off →
    exec (.regRead w tag off) s = agtDoes (s.onAgt w credited) w fun a => a.refuseReg tag off 1 (some 0))
  ∧ (∀ (s t : State) (w : Who) (tag off : Nat) (val : Word), Hears s w → off < 0x100000 → t = s.onAgt w credited →
    hostWritable (t.agt w).die.part off = true →
    exec (.regWrite w tag off val) s =
      let r := t.access (.agt w) .host off 8 (some val)
      agtDoes r.1 w fun a => a.regValue tag off r.2.1 none)
  ∧ (∀ (s t : State) (w : Who) (tag off : Nat) (val : Word), Hears s w → off < 0x100000 → t = s.onAgt w credited →
    hostWritable (t.agt w).die.part off = false →
    exec (.regWrite w tag off val) s = agtDoes t w fun a => a.refuseReg tag off 2 none)
  -- REG_REQ: entries in order, each through the port's gate, returned completed
  ∧ (∀ (s t : State) (h : FrameHdr) (ents : List Access), On s → (s.ctl.frameIn h).2 = true → t = s.onCtl (fun c => (c.frameIn h).1) →
    ents ≠ [] → ents.length ≤ 256 → ((t.ctl.port h.port).waiting.filter (·.ftype = 4)).length < 64 → t.ctl.stepDone 4 = true →
    exec (.regReq h ents) s =
      let r := t.entries .ctl (.skein h.port) (fun s e => s.ctl.skeinGate h.port e.offset) ents
      ctlDoes r.1 fun c => c.sendFrame h.port (txFrame 4 0 h.id 0 r.2))
  -- one beyond the 64 whose answers have not left is discarded
  ∧ (∀ (s t : State) (h : FrameHdr) (ents : List Access), On s → t = s.onCtl (fun c => (c.frameIn h).1) →
    64 ≤ ((t.ctl.port h.port).waiting.filter (·.ftype = 4)).length → exec (.regReq h ents) s = .next t)
  -- before step 4 only the prelude's offsets pass a port's gate; then NETWORK denies every entry
  ∧ (∀ (c : Ctl) (port off : Nat), c.stepDone 4 = false → preludeOffset c.die.part off = false → c.skeinGate port off = some 6)
  ∧ (∀ (c : Ctl) (port off : Nat), c.stepDone 4 = true → c.keystone = false → c.skeinGate port off = some 7)
  -- MORTAR_REG in an open session
  ∧ (∀ (s t : State) (id sequence : Nat) (intact : Bool) (ents : List Access) (m : Mortar), On s →
    (s.ctl.mortarIn id sequence intact).2 = some m → t = s.onCtl (fun c => (c.mortarIn id sequence intact).1) → ents.length ≤ 256 →
    exec (.mortarReg id sequence intact ents) s =
      let r := t.entries .ctl (.mortar id) (fun _ _ => none) ents
      ctlDoes r.1 fun c => match c.mortarOf id with
        | some m => c.mortarSend m 0x10 r.2
        | none => c)
  ∧ (∀ (c : Ctl) (id off : Nat), c.stepDone 4 = false →
    c.mortarGate id off = if preludeOffset c.die.part off = true then none else some 6)
  -- PRELUDE_REG before step 4; from then on it closes the connection
  ∧ (∀ (s : State) (id : Nat) (ents : List Access) (m : Mortar), On s → s.ctl.mortarOf id = some m → s.ctl.stepDone 4 = false → m.phase ≠ 2 →
    ents.length ≤ 256 →
    exec (.preludeReg id ents) s =
      let r := s.entries .ctl (.mortar id) (fun s e => s.ctl.mortarGate id e.offset) ents
      ctlDoes r.1 fun c => match c.mortarOf id with
        | some m => c.mortarSend m 0x20 r.2
        | none => c)
  ∧ (∀ (s : State) (id : Nat) (ents : List Access) (m : Mortar), On s → s.ctl.mortarOf id = some m → s.ctl.stepDone 4 = true →
    exec (.preludeReg id ents) s = ctlDoes s fun c => c.closeMortar id)
  -- MGMT_OP: a request that was answered before gets the same response and changes nothing
  ∧ (∀ (s : State) (w : Who) (bond : Nat) (wm : Worm) (k : MgmtKept), Up s w → bitOf (byteAt wm.payload 5) 0 = false →
    markPriv (wormMark wm) = 2 →
    ((s.agt w).mgmt.find? fun k => k.fid = markFid (wormMark wm) && k.opId = fieldAt wm.payload 0 4) = some k →
    exec (.mgmtOp w bond wm) s = agtDoes s w fun a => a.sendResponse (markFid (wormMark wm)) k.response)
  ∧ (∀ (s : State) (w : Who) (bond : Nat) (wm : Worm), Up s w → bitOf (byteAt wm.payload 5) 0 = false → markPriv (wormMark wm) = 2 →
    ((s.agt w).mgmt.find? fun k => k.fid = markFid (wormMark wm) && k.opId = fieldAt wm.payload 0 4) = none →
    requestEntries wm.payload ≠ [] → byteAt wm.payload 4 ≤ 64 →
    exec (.mgmtOp w bond wm) s =
      let fid := markFid (wormMark wm)
      let p := wm.payload
      let r := s.entries (.agt w) (.mgmt fid) (fun _ _ => none) (requestEntries p)
      let resp := le 4 (fieldAt p 0 4) ++ le 1 (requestEntries p).length ++ le 1 1 ++ le 10 0 ++ r.2
      agtDoes r.1 w fun a => (a.keepMgmt { fid := fid, opId := fieldAt p 0 4, response := resp }).sendResponse fid resp)

/-! ## Counters -/

/-- R43, R144: the clear of each block's counters takes every counter of the block to zero, its saturation bit with it, and leaves every
other register. -/
def Obligations.CountersCleared : Prop :=
  -- at an agent
  (∀ (s : State) (w : Who), Up s w → Takes (s.agt w).die Blk.LNK →
    exec (.lnkClearCounters w) s = agtDoes s w fun a => a.onDie (·.clearCounters Blk.LNK))
  ∧ (∀ (s : State) (w : Who), Up s w → Takes (s.agt w).die Blk.LKP → exec (.lkpClearCounters w) s = agtDoes s w Agt.lkpClear)
  ∧ (∀ (s : State) (w : Who), Up s w → Takes (s.agt w).die Blk.AGT →
    exec (.agtHifClearCounters w) s = agtDoes s w fun a => a.onDie (·.clearCounters Blk.AGT))
  ∧ (∀ (s : State) (w : Who), Up s w → Takes (s.agt w).die Blk.PRL →
    exec (.prlClearCounters w) s = agtDoes s w fun a => a.onDie (·.clearCounters Blk.PRL))
  ∧ (∀ (s : State) (w : Who), Up s w → Takes (s.agt w).die Blk.WCH →
    exec (.wchClearCounters w) s = agtDoes s w fun a => a.onDie (·.clearCounters Blk.WCH))
  ∧ (∀ (s : State) (w : Who), Up s w → Takes (s.agt w).die Blk.GCM →
    exec (.gcmClearCounters w) s = agtDoes s w fun a => a.onDie (·.clearCounters Blk.GCM))
  ∧ (∀ (s : State) (w : Who), Up s w → Takes (s.agt w).die Blk.MTP →
    exec (.mtpClearCounters w) s = agtDoes s w fun a => a.onDie (·.clearCounters Blk.MTP))
  ∧ (∀ (s : State) (w : Who), Up s w → Takes (s.agt w).die Blk.BLK →
    exec (.blkClearCounters w) s = agtDoes s w fun a => a.onDie (·.clearCounters Blk.BLK))
  ∧ (∀ (s : State) (w : Who), Up s w → Takes (s.agt w).die Blk.TRY →
    exec (.tryClearCounters w) s = agtDoes s w fun a => a.onDie (·.clearCounters Blk.TRY))
  -- at either die
  ∧ (∀ (s : State) (p : Place), Alive s p → Takes (s.die p) Blk.PLB →
    exec (.plbClearCounters p) s = dieDoes s p (·.clearCounters Blk.PLB))
  ∧ (∀ (s : State) (p : Place), Alive s p → Takes (s.die p) Blk.FLC →
    exec (.flcClearCounters p) s = dieDoes s p (·.clearCounters Blk.FLC))
  ∧ (∀ (s : State) (p : Place), Alive s p → Takes (s.die p) Blk.EVR →
    exec (.evrClearCounters p) s = dieDoes s p (·.clearCounters Blk.EVR))
  ∧ (∀ (s : State) (p : Place), Alive s p → Takes (s.die p) Blk.MBX →
    exec (.mbxClearCounters p) s = dieDoes s p (·.clearCounters Blk.MBX))
  -- at the controller
  ∧ (∀ (s : State), On s → Takes s.ctl.die Blk.FAB → exec .fabClearCounters s = ctlDoes s fun c => c.onDie (·.clearCounters Blk.FAB))
  ∧ (∀ (s : State), On s → Takes s.ctl.die Blk.SOL → exec .solClearCounters s = ctlDoes s fun c => c.onDie (·.clearCounters Blk.SOL))
  ∧ (∀ (s : State), On s → Takes s.ctl.die Blk.ADM → exec .admClearCounters s = ctlDoes s fun c => c.onDie (·.clearCounters Blk.ADM))
  ∧ (∀ (s : State), On s → Takes s.ctl.die Blk.RCV → exec .rcvClearCounters s = ctlDoes s fun c => c.onDie (·.clearCounters Blk.RCV))
  ∧ (∀ (s : State), On s → Takes s.ctl.die Blk.DMP → exec .dmpClearCounters s = ctlDoes s fun c => c.onDie (·.clearCounters Blk.DMP))
  ∧ (∀ (s : State), On s → Takes s.ctl.die Blk.TEL → exec .telClearCounters s = ctlDoes s fun c => c.onDie (·.clearCounters Blk.TEL))
  ∧ (∀ (s : State), On s → Takes s.ctl.die Blk.WER → exec .werClearCounters s = ctlDoes s fun c => c.onDie (·.clearCounters Blk.WER))
  ∧ (∀ (s : State), On s → Takes s.ctl.die Blk.GAU → exec .gauClearCounters s = ctlDoes s fun c => c.onDie (·.clearCounters Blk.GAU))
  ∧ (∀ (s : State), On s → Takes s.ctl.die Blk.KST → exec .kstClearCounters s = ctlDoes s fun c => c.onDie (·.clearCounters Blk.KST))
  ∧ (∀ (s : State), On s → Takes s.ctl.die Blk.MTR → exec .mtrClearCounters s = ctlDoes s fun c => c.onDie (·.clearCounters Blk.MTR))
  ∧ (∀ (s : State), On s → Takes s.ctl.die Blk.SKN → exec .sknClearCounters s = ctlDoes s fun c => c.onDie (·.clearCounters Blk.SKN))
  ∧ (∀ (s : State), On s → Takes s.ctl.die Blk.MNP → exec .mnpClearCounters s = ctlDoes s fun c => c.onDie (·.clearCounters Blk.MNP))
  ∧ (∀ (s : State), On s → Takes s.ctl.die Blk.MEM → exec .memClearCounters s = ctlDoes s fun c => c.onDie (·.clearCounters Blk.MEM))
  ∧ (∀ (s : State), On s → Takes s.ctl.die Blk.FDS → exec .fdsClearCounters s = ctlDoes s fun c => c.onDie (·.clearCounters Blk.FDS))
  -- what the clear does
  ∧ (∀ (d : Die) (blk k : Nat), k ∈ countersOf blk → (d.clearCounters blk).get k = resetOf k)
  ∧ (∀ (d : Die) (blk k : Nat), k ∉ countersOf blk → (d.clearCounters blk).get k = d.get k)
  ∧ (∀ blk ∈ pelronBlocks ++ twidelBlocks, ∀ k ∈ countersOf blk, resetOf k = 0)


/-! ## The block as a whole -/

namespace Sys2Proof.Claim

/-- The agent that a command reaches and at which all it does happens. -/
def agentOf : Instr → Option Who
  | .agentResetDeassert w _ _ | .agentResetAssert w | .pwrgdFall w | .selfTestDone w _ | .ucieModuleFail w _
  | .laneRetrainTimer w _ | .laneRejoin w _ | .laneLoss w _ | .identityBlock w _ _ | .keyEncaps w _ _ | .lnkRetrain w
  | .lnkClearCounters w | .patternData w _ _ | .patternStreamAbandon w | .epochSlotFree w | .lookupRequest w _ _ _ _ _
  | .errorQueueSend w _ | .rxWorm w _ _ _ | .inject w _ _ _ _ _ | .reqInjectDeferred w _ | .requestTimeout w _
  | .injStallInterval w _ | .presentStart w _ | .accept w _ | .acceptLate w _ | .slotHold w _ _ _ | .mirrorAck w _ _ _
  | .lkpLock w | .lkpClearCounters w | .rspSpaceReturn w _ | .cgRead w _ _ | .cgArm w _ _ _ _ | .cgClear w _ _
  | .reqRelease w _ _ | .heartbeat w _ | .progress w _ _ | .msrExtend w _ _ _ _ _ | .phyResult w _ | .memdata w _ _
  | .resetDone w _ _ _ | .hostReady w | .hostCounts w _ _ _ _ | .unknownMessage w _ _ | .agtHifClearCounters w | .probeSend w
  | .probeReceive w _ _ _ | .linkSettled w _ | .parentLoss w | .holdoverExpire w | .plbReload w | .plbParentWrite w _
  | .injectRunLaunch w _ _ _ _ | .emitRunSelect w _ _ _ _ _ | .emitRunLaunch w _ _ _ _ | .purlInput w _ _ _ _
  | .purlRangeStart w _ | .purlLaneFence w _ | .prlStoAccess w _ _ | .prlClearCounters w | .watchExpire w _
  | .recoveryCmd w _ _ _ | .recoveryLevelTimeout w | .trayAck w | .bindOffDrainComplete w | .chunkFetch w _ _ _ | .chunkAck w _
  | .wchClearCounters w | .telemetryRecordSend w _ | .keyWrap w _ _ | .keySlotUnusedTimeout w _ | .keySlotRetire w _
  | .keyExpire w _ | .gcmClearCounters w | .measureReq w _ _ | .meterEncaps w _ _ | .tapIntervalRecord w _ _
  | .mtpClearCounters w | .evrFetch w _ _ | .relay w _ _ _ | .fwChunk w _ _ | .fwVerifyDone w | .fwProgramDone w _
  | .fwStitchesSend w | .fwQuery w _ | .fwActivate w _ _ | .fwCommit w _ | .fwAbandon w _ | .blkClearCounters w
  | .tryClearCounters w | .vcoreFloorWrite w _ | .ucieModuleTrained w _ | .fwCoreRestartDone w | .trayAckRelease w
  | .controllerNotice w _ _ _ | .plbClearCounters (.agt w) | .snapshotReadTimeout (.agt w) _ | .enterSafe (.agt w) _
  | .flcSelfCheck (.agt w) _ | .flcInject (.agt w) _ | .flcAlertClear (.agt w) _ | .flcClearCounters (.agt w)
  | .evrClearCounters (.agt w) | .mbxA (.agt w) _ _ | .mbxASend (.agt w) _ _ _ _ | .mbxARetry (.agt w) _ _
  | .mbxBSend (.agt w) _ _ | .mbxBPop (.agt w) _ _ | .mbxClearCounters (.agt w) | .cvuStart (.agt w) _ _ | .cvuAbort (.agt w) _
  | .cvuContextWrite (.agt w) _ _ _ => some w
  | _ => none

/-- Nothing is left to send: every worm and every notice that a command gave rise to has left. -/
def NothingQueued (s : State) : Prop := s.ctl.die.fwdq = [] ∧ s.ctl.die.notes = [] ∧ s.twd.die.fwdq = [] ∧ s.emb.die.fwdq = []

/-- A head whose fields lie in the widths of R105. -/
def HeadFits (w : Worm) : Prop :=
  w.version < 2 ^ 4 ∧ w.cls < 4 ∧ w.epoch < 2 ∧ w.scheduled < 2 ∧ w.partition < 2 ^ 12 ∧ w.dstFid < 2 ^ 18 ∧ w.srcFid < 2 ^ 18
  ∧ w.hopLimit < 2 ^ 6 ∧ w.mcast < 4 ∧ w.irack < 2 ^ 11 ∧ w.phase < 2 ∧ w.age < 2 ^ 10 ∧ w.length < 2 ^ 6 ∧ w.op < 2 ^ 8
  ∧ w.keySlot < 2 ^ 8 ∧ w.cg < 2 ^ 20 ∧ w.offset < 2 ^ 46 ∧ w.headerCheck < 2 ^ 16 ∧ w.enc < 2 ∧ w.flowSeq < 2 ^ 32
  ∧ w.reserved < 2 ^ 33 ∧ w.operand.length = 32

end Sys2Proof.Claim

/-- Log entry 1 (the model's choice): the block takes commands from a queue, first in, first out. A step runs the command at the front with
the queue's rest; on an empty queue it idles. -/
def Obligations.StepTakesFront : Prop :=
  (∀ (s : State) (c : Instr) (rest : List Instr), s.pending = c :: rest → step s = exec c { s with pending := rest })
  ∧ (∀ (s : State) (c : Instr), step { s with pending := c :: s.pending } = exec c s)
  ∧ (∀ (s : State), s.pending = [] → step s = .next s)

/-- Log entry 1: no command changes the queue; so a step takes one command off it and no other. Every step answers a next state. -/
def Obligations.QueueFirstInFirstOut : Prop :=
  (∀ (c : Instr) (s : State), ∃ t, exec c s = .next t ∧ t.pending = s.pending)
  ∧ (∀ (s : State), ∃ t, step s = .next t ∧ t.pending = s.pending.drop 1)

/-- R19, R461, R463: what a command gives rise to leaves with it. If nothing waits to be sent, nothing waits after any step. -/
def Obligations.NothingQueuedStays : Prop := ∀ (s t : State), NothingQueued s → step s = .next t → NothingQueued t

/-- The state after reset: nothing is queued, no memory listed, every register at its reset value, the agents held in agent reset, the
controller out of controller reset (log entry 8 says why), ALERT_N not asserted, neither part in its safe state. -/
def Obligations.ResetState : Prop :=
  State.reset.pending = [] ∧ NothingQueued State.reset
  ∧ (∀ (p : Place) (key : Nat), (State.reset.die p).get key = resetOf key)
  ∧ (∀ (p : Place), (State.reset.die p).mem = [] ∧ (State.reset.die p).out = [] ∧ (State.reset.die p).units = []
    ∧ (State.reset.die p).alertN = true ∧ (State.reset.die p).safe = false ∧ (State.reset.die p).clk.count = 0)
  ∧ On State.reset ∧ (∀ (w : Who), (State.reset.agt w).pins.rstN = false)
  ∧ (∀ (w : Who), (State.reset.agt w).fwd.bonds = [] ∧ (State.reset.agt w).flow.tracker = [] ∧ (State.reset.agt w).gcm.slots = [])

/-- R105, R465: the bits of a head flit and the bytes of a class A message, read back, give every field. -/
def Obligations.HeadAndMessageRoundTrip : Prop :=
  (∀ (w : Worm), HeadFits w → wormOfHead (headBits w) = { w with payload := [], tag := [] })
  ∧ (∀ (w : Worm), HeadFits w → wormOfHead (leNat (headBytes w)) = { w with payload := [], tag := [] })
  ∧ (∀ (v w : Worm), HeadFits v → HeadFits w → headBytes v = headBytes w → { v with payload := [], tag := [] } = { w with payload := [], tag := [] })
  ∧ (∀ (m : MsgA), m.mtype < 256 → m.flags < 256 → m.seq < 2 ^ 32 → m.tag < 2 ^ 32 → m.floor < 2 ^ 32 → m.body.length ≤ 240 →
    msgOfBytes m.bytes = m ∧ m.bytes.length = 256)

/-- R10: an access of another size or alignment than an aligned 64-bit word, and one at an offset where no register is defined, has no effect,
reads zero and completes with its status. (What a path may not access is denied first, R279 and R293.) -/
def Obligations.AccessSizeAndUnmapped : Prop :=
  (∀ (s : State) (p : Place) (path : Path) (off size : Nat) (wr : Option Word), size ≠ 8 ∨ off % 8 ≠ 0 →
    s.access p path off size wr = (s, 1, 0))
  ∧ (∀ (s : State) (p : Place) (path : Path) (off : Nat) (wr : Option Word), off % 8 = 0 →
    (((s.die p).part.keyAt off).bind fun k => (s.die p).part.row k) = none → s.access p path off 8 wr = (s, 2, 0))
  ∧ (∀ (s t : State) (p : Place) (path : Path) (off size : Nat) (val : Word), Alive s p → t = s.jtagAttach p path →
    t.pathGate p path off = none → size ≠ 8 ∨ off % 8 ≠ 0 →
    exec (.registerWrite p path off size val) s = dieDoes t p fun d => d.emit (.access path 1 0))
  ∧ (∀ (s t : State) (p : Place) (path : Path) (off : Nat) (val : Word), Alive s p → t = s.jtagAttach p path →
    t.pathGate p path off = none → off % 8 = 0 → (((t.die p).part.keyAt off).bind fun k => (t.die p).part.row k) = none →
    exec (.registerWrite p path off 8 val) s = dieDoes t p fun d => d.emit (.access path 2 0))

/-- R11, R12, R13, R440, R443, R520: writes that a fence, the safe state, the access type or a lock turns away, the bits a write
changes, and the latch of a wide value. -/
def Obligations.RegisterWrites : Prop :=
  -- a fenced block's registers take no write: FENCED
  (∀ (s : State) (p : Place) (path : Path) (r : RegRow) (key : Nat) (val : Word), isChanReg key = false →
    (s.die p).blockFenced (key / 0x10000) = true → s.writeReg p path r key val = (s.onDie p (·.noteFenced (key / 0x10000)), 4))
  -- in the safe state FROZEN, but for FLC, EVR, DMP and RCV
  ∧ (∀ (s : State) (p : Place) (path : Path) (r : RegRow) (key : Nat) (val : Word), isChanReg key = false →
    (s.die p).blockFenced (key / 0x10000) = false → key / 0x10000 ≠ Blk.CVU → key ≠ Reg.CST_CTL → (s.die p).safe = true →
    key / 0x10000 ≠ Blk.FLC → key / 0x10000 ≠ Blk.EVR → key / 0x10000 ≠ Blk.DMP → key / 0x10000 ≠ Blk.RCV →
    s.writeReg p path r key val = (s, 5))
  -- a read-only register ignores it
  ∧ (∀ (s : State) (p : Place) (path : Path) (r : RegRow) (key : Nat) (val : Word), isChanReg key = false →
    (s.die p).blockFenced (key / 0x10000) = false → key / 0x10000 ≠ Blk.CVU → (s.die p).safe = false → r.acc = .ro →
    s.writeReg p path r key val = (s, 0))
  -- a locked register ignores it, with one LOCKED_WRITE
  ∧ (∀ (s : State) (p : Place) (path : Path) (r : RegRow) (key : Nat) (val : Word), isChanReg key = false →
    (s.die p).blockFenced (key / 0x10000) = false → key / 0x10000 ≠ Blk.CVU → (s.die p).safe = false → r.acc = .rwl →
    (s.die p).locked key = true → s.writeReg p path r key val = (s.onDie p (·.raise (Ev.LOCKED_WRITE (key / 0x10000))), 3))
  -- a plain write changes the writable bits of its register, and no other register
  ∧ (∀ (d : Die) (key mask val j : Nat), j < 64 →
    ((d.setMasked key mask val).get key).toNat.testBit j = if mask.testBit j = true then val.testBit j else (d.getN key).testBit j)
  ∧ (∀ (d : Die) (key mask val k : Nat), k ≠ key → (d.setMasked key mask val).get k = d.get k)
  -- a set value reads back, another register keeps its own
  ∧ (∀ (d : Die) (key k : Nat) (v : Word), (d.set key v).get k = if k = key then v else d.get k)
  -- a counter that would pass 2^48 − 1 holds it and shows so
  ∧ (∀ (w : Word) (n : Nat), (counterAdd w n).toNat % 2 ^ 48 = min (w.toNat % 2 ^ 48 + n) (2 ^ 48 - 1) ∨ 2 ^ 63 ≤ w.toNat)
  ∧ (∀ (w : Word) (n : Nat), 2 ^ 48 - 1 < w.toNat % 2 ^ 48 + n ∨ 2 ^ 63 ≤ w.toNat → 2 ^ 63 ≤ (counterAdd w n).toNat)
  -- the words latched over a path are those that the read of the lowest word found
  ∧ (∀ (d : Die) (path : Path) (base : Nat) (ws : List (Nat × Word)), (d.setLatch path base ws).latched path base = ws)
  ∧ (∀ (d : Die) (path other : Path) (base k : Nat) (ws : List (Nat × Word)), path ≠ other ∨ base ≠ k →
    (d.setLatch path base ws).latched other k = d.latched other k)

/-- R477, R484: the frame of NARROW_WRITE. While no code word shows an error and no channel is fenced, memory holds the data where it was
written, every other byte as before, and keeps its canonical form. -/
def Obligations.NarrowWriteBytes : Prop := ∀ (s : State) (addr : Nat) (data : Bytes),
  On s → addr + data.length ≤ s.ctl.capacity → s.ctl.memu.errors = [] → (∀ n, (s.ctl.chan n).state ≠ 3) →
  ∃ t, exec (.narrowWrite addr data) s = .next t
    ∧ (∀ x, mbyte t.ctl.die.mem x = if addr ≤ x ∧ x < addr + data.length then data.getD (x - addr) 0 else mbyte s.ctl.die.mem x)
    ∧ (Memory.wf s.ctl.die.mem = true → Memory.wf t.ctl.die.mem = true)
    ∧ (∀ w, (t.agt w).die.mem = (s.agt w).die.mem)

/-- R16, R19, R522: frames. An agent's commands change that agent alone: not the other one, and not the controller but for FAB_AGENT, in
which the embedded agent shows. What follows a command's own effect (timers, high-water marks, identity blocks, the worms and notices
sent) leaves the rest of the state as the effect left it. -/
def Obligations.WhatCommandsLeaveAlone : Prop :=
  (∀ (i : Instr) (w : Who) (s t : State), agentOf i = some w → exec i s = .next t →
    t.pending = s.pending
    ∧ (w = .twd → t.ctl = s.ctl ∧ t.emb = s.emb)
    ∧ (w = .emb → t.twd = s.twd ∧ (t.ctl = s.ctl ∨ t.ctl = s.ctl.showAgent t.emb)))
  -- a command at the controller does not reach the packaged agent
  ∧ (∀ (s : State) (f : Ctl → Ctl), (s.onCtl f).twd = s.twd ∧ (s.onCtl f).pending = s.pending)
  -- after an effect at an agent
  ∧ (∀ (s : State) (w : Who) (f : Agt → Agt),
    let b := f (s.agt w)
    let r := (s.onAgt w f).agt w
    r.dieId = b.dieId ∧ r.pins = b.pins ∧ r.cast = b.cast ∧ r.gcm = b.gcm ∧ r.purl = b.purl ∧ r.msr = b.msr ∧ r.tap = b.tap
    ∧ r.fwrx = b.fwrx ∧ r.mgmt = b.mgmt ∧ r.die.part = b.die.part ∧ r.die.testEn = b.die.testEn ∧ r.die.clk = b.die.clk
    ∧ r.die.evr = b.die.evr ∧ r.die.units = b.die.units ∧ r.die.pat = b.die.pat ∧ r.die.mbx = b.die.mbx ∧ r.die.cvu = b.die.cvu
    ∧ r.die.mem = b.die.mem ∧ r.die.resource = b.die.resource ∧ r.die.fw = b.die.fw ∧ r.die.fwdq = [])
  -- after an effect at the controller that does not enter the safe state
  ∧ (∀ (s : State) (f : Ctl → Ctl), (f s.ctl).die.safe = s.ctl.die.safe →
    let b := f s.ctl
    let r := (s.onCtl f).ctl
    r.sol = b.sol ∧ r.shards = b.shards ∧ r.adm = b.adm ∧ r.cst = b.cst ∧ r.kst = b.kst ∧ r.meter = b.meter ∧ r.flash = b.flash
    ∧ r.ports = b.ports ∧ r.qps = b.qps ∧ r.ops = b.ops ∧ r.fds = b.fds ∧ r.rcv = b.rcv ∧ r.tel = b.tel ∧ r.pwr = b.pwr
    ∧ r.die.mem = b.die.mem ∧ r.die.evr = b.die.evr ∧ r.die.units = b.die.units ∧ r.die.mbx = b.die.mbx ∧ r.die.pat = b.die.pat
    ∧ r.die.clk = b.die.clk ∧ r.die.fwdq = [] ∧ r.die.notes = [])

/-- R45: what reference tick k adds with rate 0, and what five ticks in a row add. -/
def Obligations.ReferenceTicks : Prop :=
  (∀ (k : Clk), k.load = none → k.rate = 0 →
    k.step.count = (k.count + (if k.tick % 5 = 2 ∨ k.tick % 5 = 4 then 419431 else 419430) * 2 ^ 40) % 2 ^ 120 ∧ k.step.tick = k.tick + 1)
  ∧ (∀ (k : Clk), k.load = none → k.rate = 0 → k.count < 2 ^ 120 →
    k.step.step.step.step.step.count = (k.count + 2097152 * 2 ^ 40) % 2 ^ 120)
end

