-- ==== Sys2Proof/Laws/Containers.lean ====
section
/-! SUPPORT. Tables, byte memory and the register file: what a store and a read give, and that every operation keeps the canonical
form. -/

namespace Sys2Proof.Machine

variable {α : Type}

/-! ## Strictly rising lists -/

/-- The indices of a table rise strictly, as a property of pairs. -/
theorem tsorted_iff_pairwise (t : Tbl α) : tsorted t = true ↔ t.Pairwise (fun x y => x.1 < y.1) := by
  induction t with
  | nil => simp [tsorted]
  | cons a t ih =>
    cases t with
    | nil => simp [tsorted]
    | cons b t =>
      simp only [tsorted, Bool.and_eq_true, decide_eq_true_eq, ih]
      constructor
      · rintro ⟨h, hp⟩
        refine List.pairwise_cons.2 ⟨fun y hy => ?_, hp⟩
        rcases List.mem_cons.1 hy with rfl | hy
        · exact h
        · exact Nat.lt_trans h ((List.pairwise_cons.1 hp).1 y hy)
      · intro hp
        exact ⟨(List.pairwise_cons.1 hp).1 b (by simp), (List.pairwise_cons.1 hp).2⟩

/-- A part of a table kept by a filter is a table. -/
theorem tsorted_filter (p : Nat × α → Bool) {t : Tbl α} (h : tsorted t = true) : tsorted (t.filter p) = true := by
  rw [tsorted_iff_pairwise] at *
  exact h.filter p

/-- Storing keeps the indices rising. -/
theorem tsorted_tset (i : Nat) (v : α) {t : Tbl α} (h : tsorted t = true) : tsorted (tset t i v) = true := by
  rw [tsorted_iff_pairwise] at *
  unfold tset
  refine List.pairwise_append.2 ⟨h.filter _, List.pairwise_cons.2 ⟨?_, h.filter _⟩, ?_⟩
  · intro y hy
    simpa using (List.mem_filter.1 hy).2
  · intro x hx y hy
    have hx' : x.1 < i := by simpa using (List.mem_filter.1 hx).2
    rcases List.mem_cons.1 hy with rfl | hy
    · exact hx'
    · have : i < y.1 := by simpa using (List.mem_filter.1 hy).2
      omega

/-- Removing keeps the indices rising. -/
theorem tsorted_tdel (i : Nat) {t : Tbl α} (h : tsorted t = true) : tsorted (tdel t i) = true := tsorted_filter _ h

/-! ## Reading a table -/

theorem tget_nil (i : Nat) : tget ([] : Tbl α) i = none := rfl

theorem tget_cons (p : Nat × α) (t : Tbl α) (i : Nat) : tget (p :: t) i = if p.1 = i then some p.2 else tget t i := by
  unfold tget
  by_cases h : p.1 = i <;> simp [h]

theorem tget_append (t u : Tbl α) (i : Nat) : tget (t ++ u) i = (tget t i).or (tget u i) := by
  induction t with
  | nil => simp [tget]
  | cons p t ih =>
    rw [List.cons_append, tget_cons, tget_cons, ih]
    split <;> simp

/-- What a filter that only looks at the index keeps of an entry. -/
theorem tget_filter (q : Nat → Bool) (t : Tbl α) (i : Nat) : tget (t.filter fun p => q p.1) i = if q i then tget t i else none := by
  induction t with
  | nil => simp [tget]
  | cons p t ih =>
    rw [List.filter_cons]
    by_cases hp : q p.1 = true
    · rw [if_pos hp, tget_cons, tget_cons, ih]
      by_cases he : p.1 = i
      · subst he; simp [hp]
      · simp [he]
    · rw [if_neg hp, ih, tget_cons]
      by_cases he : p.1 = i
      · subst he; simp [hp]
      · simp [he]

/-- Reading the entry just stored. -/
@[simp] theorem tget_tset_same (t : Tbl α) (i : Nat) (v : α) : tget (tset t i v) i = some v := by
  unfold tset
  rw [tget_append, tget_filter (fun x => decide (x < i)), tget_cons]
  simp

/-- Reading another entry. -/
theorem tget_tset_other {t : Tbl α} {i j : Nat} (v : α) (h : i ≠ j) : tget (tset t i v) j = tget t j := by
  unfold tset
  rw [tget_append, tget_filter (fun x => decide (x < i)), tget_cons, tget_filter (fun x => decide (i < x))]
  simp only [h, if_false, decide_eq_true_eq]
  by_cases h1 : j < i
  · have h2 : ¬ i < j := by omega
    simp [h1, h2]
  · have h2 : i < j := by omega
    simp [h1, h2]

/-- A removed entry is not there. -/
@[simp] theorem tget_tdel_same (t : Tbl α) (i : Nat) : tget (tdel t i) i = none := by
  unfold tdel
  rw [tget_filter (fun x => decide (x ≠ i))]
  simp

/-- Reading an entry other than the removed one. -/
theorem tget_tdel_other {t : Tbl α} {i j : Nat} (h : i ≠ j) : tget (tdel t i) j = tget t j := by
  unfold tdel
  rw [tget_filter (fun x => decide (x ≠ i))]
  simp [Ne.symm h]

/-! ## The register file -/

/-- A register reads what was stored in it. -/
@[simp] theorem rfGet_rfSet_same (rf : Tbl Word) (k : Nat) (v : Word) : rfGet (rfSet rf k v) k = v := by
  unfold rfGet rfSet
  split
  · rename_i h; simp [h]
  · simp

/-- Storing one register leaves every other as it was. -/
theorem rfGet_rfSet_other {rf : Tbl Word} {k j : Nat} (v : Word) (h : k ≠ j) : rfGet (rfSet rf k v) j = rfGet rf j := by
  unfold rfGet rfSet
  split
  · rw [tget_tdel_other h]
  · rw [tget_tset_other v h]

/-- Storing a register keeps the register file's canonical form. -/
theorem Rf.wf_rfSet {rf : Tbl Word} (k : Nat) (v : Word) (h : Rf.wf rf = true) : Rf.wf (rfSet rf k v) = true := by
  unfold Rf.wf at *
  simp only [Bool.and_eq_true, List.all_eq_true, decide_eq_true_eq] at *
  unfold rfSet
  split
  · exact ⟨tsorted_tdel k h.1, fun p hp => h.2 p (List.mem_filter.1 hp).1⟩
  · rename_i hv
    refine ⟨tsorted_tset k v h.1, fun p hp => ?_⟩
    unfold tset at hp
    rcases List.mem_append.1 hp with hp | hp
    · exact h.2 p (List.mem_filter.1 hp).1
    · rcases List.mem_cons.1 hp with rfl | hp
      · exact hv
      · exact h.2 p (List.mem_filter.1 hp).1

/-! ## Byte memory -/

/-- A memory is a table of bytes. -/
theorem mbyte_eq (m : Mem) (a : Nat) : mbyte m a = (tget m a).getD 0 := rfl

theorem tget_cellsAt (bs : Bytes) (a x : Nat) :
    (tget (cellsAt a bs) x).getD 0 = if a ≤ x ∧ x < a + bs.length then bs.getD (x - a) 0 else 0 := by
  induction bs generalizing a with
  | nil => simp [cellsAt, tget]
  | cons b bs ih =>
    unfold cellsAt
    by_cases hx : x = a
    · subst hx
      split
      · rename_i hb
        rw [ih, if_neg (by omega), if_pos (by simp)]; simp [hb]
      · rw [tget_cons]; simp
    · have hstep : (tget (cellsAt (a + 1) bs) x).getD 0 = if a ≤ x ∧ x < a + (b :: bs).length then (b :: bs).getD (x - a) 0 else 0 := by
        rw [ih]
        by_cases h1 : a + 1 ≤ x ∧ x < a + 1 + bs.length
        · have h2 : a ≤ x ∧ x < a + (b :: bs).length := by simp; omega
          have h3 : x - a = (x - (a + 1)) + 1 := by omega
          rw [if_pos h1, if_pos h2, h3]; simp
        · have h2 : ¬ (a ≤ x ∧ x < a + (b :: bs).length) := by simp; omega
          rw [if_neg h1, if_neg h2]
      split
      · exact hstep
      · rw [tget_cons, if_neg (by simpa using fun h => hx h.symm)]; exact hstep

theorem tget_cellsAt_out {bs : Bytes} {a x : Nat} (h : x < a ∨ a + bs.length ≤ x) : tget (cellsAt a bs) x = none := by
  induction bs generalizing a with
  | nil => rfl
  | cons b bs ih =>
    have h' : x < a + 1 ∨ a + 1 + bs.length ≤ x := by simp at h; omega
    have ha : a ≠ x := by simp at h; omega
    unfold cellsAt
    split
    · exact ih h'
    · rw [tget_cons, if_neg (by simpa using ha)]; exact ih h'

/-- What memory reads after a write: the byte written, and outside the written range what it read before. -/
theorem mbyte_mwrite (m : Mem) (a : Nat) (bs : Bytes) (x : Nat) :
    mbyte (mwrite m a bs) x = if a ≤ x ∧ x < a + bs.length then bs.getD (x - a) 0 else mbyte m x := by
  rw [mbyte_eq, mbyte_eq]
  unfold mwrite
  rw [tget_append, tget_append, tget_filter (fun y => decide (y < a)), tget_filter (fun y => decide (a + bs.length ≤ y))]
  by_cases h : a ≤ x ∧ x < a + bs.length
  · have h1 : ¬ x < a := by omega
    have h2 : ¬ a + bs.length ≤ x := by omega
    have hc := tget_cellsAt bs a x
    rw [if_pos h] at hc
    simp only [h1, h2, h, decide_false, Option.none_or, Bool.false_eq_true, if_false, and_self, if_true, Option.or_none]
    exact hc
  · have hc : tget (cellsAt a bs) x = none := tget_cellsAt_out (by omega)
    rw [if_neg h]
    by_cases h1 : x < a
    · have h2 : ¬ a + bs.length ≤ x := by omega
      simp [h1, h2, hc]
    · have h2 : a + bs.length ≤ x := by omega
      simp [h1, h2, hc]

theorem cellsAt_mem {bs : Bytes} {a : Nat} {c : Host.Cell} (h : c ∈ cellsAt a bs) : a ≤ c.1 ∧ c.1 < a + bs.length ∧ c.2 ≠ 0 := by
  induction bs generalizing a with
  | nil => simp [cellsAt] at h
  | cons b bs ih =>
    unfold cellsAt at h
    split at h
    · have := ih h; simp only [List.length_cons]; exact ⟨by omega, by omega, this.2.2⟩
    · rename_i hb
      rcases List.mem_cons.1 h with rfl | h
      · exact ⟨Nat.le_refl _, by simp, hb⟩
      · have := ih h; simp only [List.length_cons]; exact ⟨by omega, by omega, this.2.2⟩

theorem cellsAt_sorted (bs : Bytes) (a : Nat) : (cellsAt a bs).Pairwise (fun x y => x.1 < y.1) := by
  induction bs generalizing a with
  | nil => simp [cellsAt]
  | cons b bs ih =>
    unfold cellsAt
    split
    · exact ih (a + 1)
    · refine List.pairwise_cons.2 ⟨fun y hy => ?_, ih (a + 1)⟩
      have := cellsAt_mem hy; omega

/-- A write keeps the canonical form of a memory. -/
theorem Memory.wf_mwrite {m : Mem} (a : Nat) (bs : Bytes) (h : Memory.wf m = true) : Memory.wf (mwrite m a bs) = true := by
  unfold Memory.wf at *
  simp only [Bool.and_eq_true, List.all_eq_true, decide_eq_true_eq] at *
  obtain ⟨hs, hz⟩ := h
  rw [tsorted_iff_pairwise] at *
  unfold mwrite
  refine ⟨?_, fun c hc => ?_⟩
  · refine List.pairwise_append.2 ⟨List.pairwise_append.2 ⟨hs.filter _, cellsAt_sorted bs a, ?_⟩, hs.filter _, ?_⟩
    · intro x hx y hy
      have h1 : x.1 < a := by simpa using (List.mem_filter.1 hx).2
      have := cellsAt_mem hy; omega
    · intro x hx y hy
      have h2 : a + bs.length ≤ y.1 := by simpa using (List.mem_filter.1 hy).2
      rcases List.mem_append.1 hx with hx | hx
      · have h1 : x.1 < a := by simpa using (List.mem_filter.1 hx).2
        omega
      · have := cellsAt_mem hx; omega
  · rcases List.mem_append.1 hc with hc | hc
    · rcases List.mem_append.1 hc with hc | hc
      · exact hz c (List.mem_filter.1 hc).1
      · exact (cellsAt_mem hc).2.2
    · exact hz c (List.mem_filter.1 hc).1

/-- Reading a range is reading its bytes. -/
theorem mread_byte (m : Mem) (a n i : Nat) (h : i < n) : (mread m a n).getD i 0 = mbyte m (a + i) := by
  have hp : mbyte (m.filter fun c => a ≤ c.1 && c.1 < a + n) (a + i) = mbyte m (a + i) := by
    rw [mbyte_eq, mbyte_eq, tget_filter (fun y => decide (a ≤ y) && decide (y < a + n))]
    simp [h]
  unfold mread
  simp [h, hp]

end Sys2Proof.Machine
end

