-- ==== Sys2Proof/Laws/State.lean ====
section
/-! SUPPORT. One lemma per field and update of the state's records, each true by rfl, so that no proof unfolds a record update. -/

namespace Sys2Proof.Machine

/-! ## Registers of a die -/

@[simp] theorem Die.set_part (d : Die) (k : Nat) (v : Word) : (d.set k v).part = d.part := rfl
@[simp] theorem Die.set_latches (d : Die) (k : Nat) (v : Word) : (d.set k v).latches = d.latches := rfl
@[simp] theorem Die.set_held (d : Die) (k : Nat) (v : Word) : (d.set k v).held = d.held := rfl
@[simp] theorem Die.set_testEn (d : Die) (k : Nat) (v : Word) : (d.set k v).testEn = d.testEn := rfl
@[simp] theorem Die.set_clk (d : Die) (k : Nat) (v : Word) : (d.set k v).clk = d.clk := rfl
@[simp] theorem Die.set_evr (d : Die) (k : Nat) (v : Word) : (d.set k v).evr = d.evr := rfl
@[simp] theorem Die.set_units (d : Die) (k : Nat) (v : Word) : (d.set k v).units = d.units := rfl
@[simp] theorem Die.set_attached (d : Die) (k : Nat) (v : Word) : (d.set k v).attached = d.attached := rfl
@[simp] theorem Die.set_injectNs (d : Die) (k : Nat) (v : Word) : (d.set k v).injectNs = d.injectNs := rfl
@[simp] theorem Die.set_injected (d : Die) (k : Nat) (v : Word) : (d.set k v).injected = d.injected := rfl
@[simp] theorem Die.set_pat (d : Die) (k : Nat) (v : Word) : (d.set k v).pat = d.pat := rfl
@[simp] theorem Die.set_mbx (d : Die) (k : Nat) (v : Word) : (d.set k v).mbx = d.mbx := rfl
@[simp] theorem Die.set_cvu (d : Die) (k : Nat) (v : Word) : (d.set k v).cvu = d.cvu := rfl
@[simp] theorem Die.set_trig (d : Die) (k : Nat) (v : Word) : (d.set k v).trig = d.trig := rfl
@[simp] theorem Die.set_mem (d : Die) (k : Nat) (v : Word) : (d.set k v).mem = d.mem := rfl
@[simp] theorem Die.set_evrEnts (d : Die) (k : Nat) (v : Word) : (d.set k v).evrEnts = d.evrEnts := rfl
@[simp] theorem Die.set_gaugeTab (d : Die) (k : Nat) (v : Word) : (d.set k v).gaugeTab = d.gaugeTab := rfl
@[simp] theorem Die.set_regions (d : Die) (k : Nat) (v : Word) : (d.set k v).regions = d.regions := rfl
@[simp] theorem Die.set_resource (d : Die) (k : Nat) (v : Word) : (d.set k v).resource = d.resource := rfl
@[simp] theorem Die.set_fw (d : Die) (k : Nat) (v : Word) : (d.set k v).fw = d.fw := rfl
@[simp] theorem Die.set_fwdq (d : Die) (k : Nat) (v : Word) : (d.set k v).fwdq = d.fwdq := rfl
@[simp] theorem Die.set_out (d : Die) (k : Nat) (v : Word) : (d.set k v).out = d.out := rfl
@[simp] theorem Die.set_alertN (d : Die) (k : Nat) (v : Word) : (d.set k v).alertN = d.alertN := rfl
@[simp] theorem Die.set_notes (d : Die) (k : Nat) (v : Word) : (d.set k v).notes = d.notes := rfl
@[simp] theorem Die.set_fencedNs (d : Die) (k : Nat) (v : Word) : (d.set k v).fencedNs = d.fencedNs := rfl
@[simp] theorem Die.set_free (d : Die) (k : Nat) (v : Word) : (d.set k v).free = d.free := rfl

/-- Storing a field of a register is storing the register. -/
theorem Die.fset_eq (d : Die) (f : Fld) (v : Nat) :
    d.fset f v = d.set f.reg (BitVec.ofNat 64 (putBits (d.getN f.reg) f.hi f.lo v)) := rfl

@[simp] theorem Die.fset_part (d : Die) (f : Fld) (v : Nat) : (d.fset f v).part = d.part := rfl
@[simp] theorem Die.setN_part (d : Die) (k v : Nat) : (d.setN k v).part = d.part := rfl

/-- A register reads what was stored in it. -/
@[simp] theorem Die.get_set_same (d : Die) (k : Nat) (v : Word) : (d.set k v).get k = v := rfGet_rfSet_same _ _ _

/-- Storing one register leaves every other as it was. -/
theorem Die.get_set_other {d : Die} {k j : Nat} (v : Word) (h : k ≠ j) : (d.set k v).get j = d.get j := rfGet_rfSet_other v h

theorem Die.getN_set_other {d : Die} {k j : Nat} (v : Word) (h : k ≠ j) : (d.set k v).getN j = d.getN j := by
  unfold Die.getN; rw [Die.get_set_other v h]

/-- A field of another register is as it was. -/
theorem Die.fget_set_other {d : Die} {k : Nat} {f : Fld} (v : Word) (h : k ≠ f.reg) : (d.set k v).fget f = d.fget f := by
  unfold Die.fget; rw [Die.getN_set_other v h]

/-- Bits of another register are as they were. -/
theorem Die.bget_set_other {d : Die} {k j : Nat} (hi lo : Nat) (v : Word) (h : k ≠ j) : (d.set k v).bget j hi lo = d.bget j hi lo := by
  unfold Die.bget; rw [Die.getN_set_other v h]

/-- Storing a register keeps the register file's canonical form. -/
theorem Die.rf_wf_set {d : Die} (k : Nat) (v : Word) (h : Rf.wf d.rf = true) : Rf.wf (d.set k v).rf = true := Rf.wf_rfSet k v h

/-! ## Output -/

@[simp] theorem Die.emit_part (d : Die) (x : Out) : (d.emit x).part = d.part := rfl
@[simp] theorem Die.emit_rf (d : Die) (x : Out) : (d.emit x).rf = d.rf := rfl
@[simp] theorem Die.emit_latches (d : Die) (x : Out) : (d.emit x).latches = d.latches := rfl
@[simp] theorem Die.emit_held (d : Die) (x : Out) : (d.emit x).held = d.held := rfl
@[simp] theorem Die.emit_testEn (d : Die) (x : Out) : (d.emit x).testEn = d.testEn := rfl
@[simp] theorem Die.emit_clk (d : Die) (x : Out) : (d.emit x).clk = d.clk := rfl
@[simp] theorem Die.emit_evr (d : Die) (x : Out) : (d.emit x).evr = d.evr := rfl
@[simp] theorem Die.emit_units (d : Die) (x : Out) : (d.emit x).units = d.units := rfl
@[simp] theorem Die.emit_attached (d : Die) (x : Out) : (d.emit x).attached = d.attached := rfl
@[simp] theorem Die.emit_injectNs (d : Die) (x : Out) : (d.emit x).injectNs = d.injectNs := rfl
@[simp] theorem Die.emit_injected (d : Die) (x : Out) : (d.emit x).injected = d.injected := rfl
@[simp] theorem Die.emit_pat (d : Die) (x : Out) : (d.emit x).pat = d.pat := rfl
@[simp] theorem Die.emit_mbx (d : Die) (x : Out) : (d.emit x).mbx = d.mbx := rfl
@[simp] theorem Die.emit_cvu (d : Die) (x : Out) : (d.emit x).cvu = d.cvu := rfl
@[simp] theorem Die.emit_trig (d : Die) (x : Out) : (d.emit x).trig = d.trig := rfl
@[simp] theorem Die.emit_mem (d : Die) (x : Out) : (d.emit x).mem = d.mem := rfl
@[simp] theorem Die.emit_evrEnts (d : Die) (x : Out) : (d.emit x).evrEnts = d.evrEnts := rfl
@[simp] theorem Die.emit_gaugeTab (d : Die) (x : Out) : (d.emit x).gaugeTab = d.gaugeTab := rfl
@[simp] theorem Die.emit_regions (d : Die) (x : Out) : (d.emit x).regions = d.regions := rfl
@[simp] theorem Die.emit_resource (d : Die) (x : Out) : (d.emit x).resource = d.resource := rfl
@[simp] theorem Die.emit_fw (d : Die) (x : Out) : (d.emit x).fw = d.fw := rfl
@[simp] theorem Die.emit_fwdq (d : Die) (x : Out) : (d.emit x).fwdq = d.fwdq := rfl
@[simp] theorem Die.emit_alertN (d : Die) (x : Out) : (d.emit x).alertN = d.alertN := rfl
@[simp] theorem Die.emit_notes (d : Die) (x : Out) : (d.emit x).notes = d.notes := rfl
@[simp] theorem Die.emit_fencedNs (d : Die) (x : Out) : (d.emit x).fencedNs = d.fencedNs := rfl
@[simp] theorem Die.emit_free (d : Die) (x : Out) : (d.emit x).free = d.free := rfl
@[simp] theorem Die.emit_out (d : Die) (x : Out) : (d.emit x).out = d.out ++ [x] := rfl
@[simp] theorem Die.emit_get (d : Die) (x : Out) (k : Nat) : (d.emit x).get k = d.get k := rfl
@[simp] theorem Die.emit_fget (d : Die) (x : Out) (f : Fld) : (d.emit x).fget f = d.fget f := rfl

/-! ## An effect on the die of an agent or of the controller -/

@[simp] theorem Agt.onDie_die (a : Agt) (f : Die → Die) : (a.onDie f).die = f a.die := rfl
@[simp] theorem Agt.onDie_dieId (a : Agt) (f : Die → Die) : (a.onDie f).dieId = a.dieId := rfl
@[simp] theorem Agt.onDie_parentPending (a : Agt) (f : Die → Die) : (a.onDie f).parentPending = a.parentPending := rfl
@[simp] theorem Agt.onDie_pins (a : Agt) (f : Die → Die) : (a.onDie f).pins = a.pins := rfl
@[simp] theorem Agt.onDie_cast (a : Agt) (f : Die → Die) : (a.onDie f).cast = a.cast := rfl
@[simp] theorem Agt.onDie_fwd (a : Agt) (f : Die → Die) : (a.onDie f).fwd = a.fwd := rfl
@[simp] theorem Agt.onDie_flow (a : Agt) (f : Die → Die) : (a.onDie f).flow = a.flow := rfl
@[simp] theorem Agt.onDie_gcm (a : Agt) (f : Die → Die) : (a.onDie f).gcm = a.gcm := rfl
@[simp] theorem Agt.onDie_purl (a : Agt) (f : Die → Die) : (a.onDie f).purl = a.purl := rfl
@[simp] theorem Agt.onDie_msr (a : Agt) (f : Die → Die) : (a.onDie f).msr = a.msr := rfl
@[simp] theorem Agt.onDie_rcv (a : Agt) (f : Die → Die) : (a.onDie f).rcv = a.rcv := rfl
@[simp] theorem Agt.onDie_tel (a : Agt) (f : Die → Die) : (a.onDie f).tel = a.tel := rfl
@[simp] theorem Agt.onDie_tap (a : Agt) (f : Die → Die) : (a.onDie f).tap = a.tap := rfl
@[simp] theorem Agt.onDie_fwrx (a : Agt) (f : Die → Die) : (a.onDie f).fwrx = a.fwrx := rfl
@[simp] theorem Agt.onDie_mgmt (a : Agt) (f : Die → Die) : (a.onDie f).mgmt = a.mgmt := rfl
@[simp] theorem Agt.onDie_shareHigh (a : Agt) (f : Die → Die) : (a.onDie f).shareHigh = a.shareHigh := rfl

@[simp] theorem Ctl.onDie_die (c : Ctl) (f : Die → Die) : (c.onDie f).die = f c.die := rfl
@[simp] theorem Ctl.onDie_sol (c : Ctl) (f : Die → Die) : (c.onDie f).sol = c.sol := rfl
@[simp] theorem Ctl.onDie_shards (c : Ctl) (f : Die → Die) : (c.onDie f).shards = c.shards := rfl
@[simp] theorem Ctl.onDie_adm (c : Ctl) (f : Die → Die) : (c.onDie f).adm = c.adm := rfl
@[simp] theorem Ctl.onDie_cst (c : Ctl) (f : Die → Die) : (c.onDie f).cst = c.cst := rfl
@[simp] theorem Ctl.onDie_kst (c : Ctl) (f : Die → Die) : (c.onDie f).kst = c.kst := rfl
@[simp] theorem Ctl.onDie_meter (c : Ctl) (f : Die → Die) : (c.onDie f).meter = c.meter := rfl
@[simp] theorem Ctl.onDie_memu (c : Ctl) (f : Die → Die) : (c.onDie f).memu = c.memu := rfl
@[simp] theorem Ctl.onDie_flash (c : Ctl) (f : Die → Die) : (c.onDie f).flash = c.flash := rfl
@[simp] theorem Ctl.onDie_ports (c : Ctl) (f : Die → Die) : (c.onDie f).ports = c.ports := rfl
@[simp] theorem Ctl.onDie_qps (c : Ctl) (f : Die → Die) : (c.onDie f).qps = c.qps := rfl
@[simp] theorem Ctl.onDie_mortar (c : Ctl) (f : Die → Die) : (c.onDie f).mortar = c.mortar := rfl
@[simp] theorem Ctl.onDie_nextMortar (c : Ctl) (f : Die → Die) : (c.onDie f).nextMortar = c.nextMortar := rfl
@[simp] theorem Ctl.onDie_ops (c : Ctl) (f : Die → Die) : (c.onDie f).ops = c.ops := rfl
@[simp] theorem Ctl.onDie_nextOp (c : Ctl) (f : Die → Die) : (c.onDie f).nextOp = c.nextOp := rfl
@[simp] theorem Ctl.onDie_fds (c : Ctl) (f : Die → Die) : (c.onDie f).fds = c.fds := rfl
@[simp] theorem Ctl.onDie_rcv (c : Ctl) (f : Die → Die) : (c.onDie f).rcv = c.rcv := rfl
@[simp] theorem Ctl.onDie_tel (c : Ctl) (f : Die → Die) : (c.onDie f).tel = c.tel := rfl
@[simp] theorem Ctl.onDie_pwr (c : Ctl) (f : Die → Die) : (c.onDie f).pwr = c.pwr := rfl
@[simp] theorem Ctl.onDie_dieId (c : Ctl) (f : Die → Die) : (c.onDie f).dieId = c.dieId := rfl
@[simp] theorem Ctl.onDie_base (c : Ctl) (f : Die → Die) : (c.onDie f).base = c.base := rfl

/-! ## Storing an agent -/

@[simp] theorem State.mk_ctl (c : Ctl) (t e : Agt) (q : List Instr) : (State.mk c t e q).ctl = c := rfl
@[simp] theorem State.mk_twd (c : Ctl) (t e : Agt) (q : List Instr) : (State.mk c t e q).twd = t := rfl
@[simp] theorem State.mk_emb (c : Ctl) (t e : Agt) (q : List Instr) : (State.mk c t e q).emb = e := rfl
@[simp] theorem State.mk_pending (c : Ctl) (t e : Agt) (q : List Instr) : (State.mk c t e q).pending = q := rfl
@[simp] theorem State.agt_twd (s : State) : s.agt .twd = s.twd := rfl
@[simp] theorem State.agt_emb (s : State) : s.agt .emb = s.emb := rfl

theorem State.setAgt_twd (s : State) (a : Agt) : s.setAgt .twd a = State.mk s.ctl a s.emb s.pending := rfl
theorem State.setAgt_emb (s : State) (a : Agt) : s.setAgt .emb a = State.mk (s.ctl.showAgent a) s.twd a s.pending := rfl

/-- Storing an agent leaves the queue. -/
@[simp] theorem State.setAgt_pending (s : State) (w : Who) (a : Agt) : (s.setAgt w a).pending = s.pending := by
  cases w
  · rw [State.setAgt_twd, State.mk_pending]
  · rw [State.setAgt_emb, State.mk_pending]

/-- The agent just stored. -/
@[simp] theorem State.agt_setAgt_same (s : State) (w : Who) (a : Agt) : (s.setAgt w a).agt w = a := by
  cases w
  · rw [State.setAgt_twd, State.agt_twd, State.mk_twd]
  · rw [State.setAgt_emb, State.agt_emb, State.mk_emb]

/-- Storing one agent leaves the other. -/
theorem State.agt_setAgt_other {s : State} {w v : Who} (a : Agt) (h : w ≠ v) : (s.setAgt w a).agt v = s.agt v := by
  cases w <;> cases v
  · exact absurd rfl h
  · rw [State.setAgt_twd, State.agt_emb, State.mk_emb, State.agt_emb]
  · rw [State.setAgt_emb, State.agt_twd, State.mk_twd, State.agt_twd]
  · exact absurd rfl h

/-- Storing the packaged agent leaves the controller. -/
@[simp] theorem State.setAgt_twd_ctl (s : State) (a : Agt) : (s.setAgt .twd a).ctl = s.ctl := by
  rw [State.setAgt_twd, State.mk_ctl]

/-- Storing the embedded agent sets FAB_AGENT and nothing else of the controller. -/
@[simp] theorem State.setAgt_emb_ctl (s : State) (a : Agt) : (s.setAgt .emb a).ctl = s.ctl.showAgent a := by
  rw [State.setAgt_emb, State.mk_ctl]

end Sys2Proof.Machine
end

