-- ==== Sys2Proof/Laws/Wrap.lean ====
section
/-! SUPPORT. The frame in which every command runs: what `State.onAgt` and `State.onCtl` leave alone, and how a command's answer is
read from the effect it runs. -/

namespace Sys2Proof.Machine

/-! ## Reading a command's answer -/

theorem State.onAgt_congr {s : State} {w : Who} {f g : Agt → Agt} (h : f (s.agt w) = g (s.agt w)) : s.onAgt w f = s.onAgt w g := by
  unfold State.onAgt; simp only [h]

theorem State.onCtl_congr {s : State} {f g : Ctl → Ctl} (h : f s.ctl = g s.ctl) : s.onCtl f = s.onCtl g := by
  unfold State.onCtl; simp only [h]

theorem State.onDie_congr {s : State} {p : Place} {f g : Die → Die} (h : f (s.die p) = g (s.die p)) : s.onDie p f = s.onDie p g := by
  cases p with
  | ctl =>
    simp only [State.die] at h
    simp only [State.onDie]
    apply State.onCtl_congr
    simp only [Ctl.onDie, h]
  | agt w =>
    simp only [State.die] at h
    simp only [State.onDie]
    apply State.onAgt_congr
    simp only [Agt.onDie, h]

/-- A command at an agent out of reset answers what its effect, or any effect equal to it there, gives. -/
theorem State.agtNext_up {s : State} {w : Who} {f g : Agt → Agt} (hu : (s.agt w).pins.rstN = true) (h : f (s.agt w) = g (s.agt w)) :
    s.agtNext w f = .next (s.onAgt w g) := by
  unfold State.agtNext
  rw [if_pos hu, State.onAgt_congr h]

/-- The same of a command that says which outputs are busy. -/
theorem State.agtNext_busy {s : State} {w : Who} {f g : Agt → Agt} {busy : List Nat} (hu : (s.agt w).pins.rstN = true)
    (h : f (s.agt w) = g (s.agt w)) : s.agtNext w f busy = .next (s.onAgt w g busy) := by
  unfold State.agtNext State.onAgt
  rw [if_pos hu]
  simp only [h]

/-- A host message that reaches the agent: its credit is returned and its effect runs. -/
theorem State.agtNext_hears {s : State} {w : Who} {f : Agt → Agt} (h : (s.agt w).hearing = true) :
    s.agtNext w (·.hears f) = .next (s.onAgt w fun a => f (a.emitCredit a.control 0 1)) := by
  unfold Agt.hearing at h
  simp only [Bool.and_eq_true] at h
  refine State.agtNext_up h.1 ?_
  unfold Agt.hears
  rw [if_neg]
  rw [Option.isNone_iff_eq_none]
  intro hn
  rw [hn] at h
  exact absurd h.2 (by decide)

/-- The same at the running controller. -/
theorem State.ctlNext_on {s : State} {f g : Ctl → Ctl} (hu : s.ctl.running = true) (h : f s.ctl = g s.ctl) :
    s.ctlNext f = .next (s.onCtl g) := by
  unfold State.ctlNext
  rw [if_pos hu, State.onCtl_congr h]

/-- The same at a unit that both dies have. -/
theorem State.dieNext_alive {s : State} {p : Place} {f g : Die → Die} (hu : s.alive p = true) (h : f (s.die p) = g (s.die p)) :
    s.dieNext p f = .next (s.onDie p g) := by
  rw [← State.onDie_congr h]
  cases p with
  | ctl => exact State.ctlNext_on (g := fun c => c.onDie f) hu rfl
  | agt w => exact State.agtNext_up (g := fun a => a.onDie f) hu rfl

/-- A write of a block that is there, not fenced and not frozen has its effect. -/
theorem Agt.written_takes {a : Agt} {b : Nat} {f : Agt → Agt} (h : (a.die.turnsAway b).isNone = true) : a.written b f = f a := by
  unfold Agt.written; rw [Option.isNone_iff_eq_none] at h; rw [h]

theorem Ctl.written_takes {c : Ctl} {b : Nat} {f : Ctl → Ctl} (h : (c.die.turnsAway b).isNone = true) : c.written b f = f c := by
  unfold Ctl.written; rw [Option.isNone_iff_eq_none] at h; rw [h]

theorem Die.written_takes {d : Die} {b : Nat} {f : Die → Die} (h : (d.turnsAway b).isNone = true) : d.written b f = f d := by
  unfold Die.written; rw [Option.isNone_iff_eq_none] at h; rw [h]

/-! ## What stays at an agent -/

/-- Counting leaves every other register, so the agent's FID and mode, as it was. -/
theorem Agt.fid_count (a : Agt) {k : Nat} (h : Fl.AGT_IDENT_fid.reg ≠ k) : (a.count k).fid = a.fid := by
  unfold Agt.fid Die.fget Die.getN Die.get
  congr 2
  exact rfGet_rfSet_other _ (Ne.symm h)

theorem Agt.isSwitch_count (a : Agt) {k : Nat} (h : Fl.AGT_IDENT_mode.reg ≠ k) : (a.count k).isSwitch = a.isSwitch := by
  unfold Agt.isSwitch Agt.mode Die.fget Die.getN Die.get
  have e : rfGet (a.count k).die.rf Fl.AGT_IDENT_mode.reg = rfGet a.die.rf Fl.AGT_IDENT_mode.reg := rfGet_rfSet_other _ (Ne.symm h)
  rw [e]


theorem Agt.emit_fwdq (a : Agt) (o : Out) : (a.emit o).die.fwdq = a.die.fwdq := rfl

theorem Agt.count_fwdq (a : Agt) (k : Nat) : (a.count k).die.fwdq = a.die.fwdq := rfl

theorem Agt.emitTx_fwdq (a : Agt) (b : Nat) (w : Worm) : (a.emitTx b w).die.fwdq = a.die.fwdq := by
  unfold Agt.emitTx; split <;> rfl

theorem Agt.sendOn_fwdq (a : Agt) (w : Worm) (b : Nat) (d : Bool) : (a.sendOn w b d).die.fwdq = a.die.fwdq := by
  unfold Agt.sendOn; cases d <;> exact Agt.emitTx_fwdq _ _ _

theorem Agt.park_fwdq (a : Agt) (w : Worm) (b : Nat) : (a.park w b).die.fwdq = a.die.fwdq := by
  unfold Agt.park; split <;> rfl

/-- A worm that an endpoint injects leaves the queue as it is. -/
theorem Agt.tryForward_fwdq {a b : Agt} {w : Worm} {bond : Nat} {busy : List Nat} (h : a.tryForward w bond busy = some b) :
    b.die.fwdq = a.die.fwdq := by
  have hc : (a.count Reg.LKP_CNT_LOOKUPS).die.fwdq = a.die.fwdq := rfl
  unfold Agt.tryForward at h
  revert h hc
  generalize a.count Reg.LKP_CNT_LOOKUPS = c
  intro h hc
  simp only at h
  split at h
  · obtain ⟨x, _, rfl⟩ := Option.map_eq_some_iff.mp h
    rw [Agt.sendOn_fwdq, hc]
  · split at h
    · cases h; exact hc
    · split at h
      · cases h; rw [Agt.emitTx_fwdq, hc]
      · cases h
  all_goals (cases h; exact hc)

theorem Agt.tryForward_getD_fwdq (a d : Agt) (w : Worm) (bond : Nat) (busy : List Nat) (hd : d.die.fwdq = a.die.fwdq) :
    ((a.tryForward w bond busy).getD d).die.fwdq = a.die.fwdq := by
  cases h : a.tryForward w bond busy with
  | none => exact hd
  | some b => exact Agt.tryForward_fwdq h

theorem Agt.sendStamped_fwdq (a : Agt) (w : Worm) (b : Nat) (busy : List Nat) : (a.sendStamped w b busy).die.fwdq = a.die.fwdq := by
  unfold Agt.sendStamped
  split
  · split
    · exact Agt.emitTx_fwdq _ _ _
    · rw [Agt.emitTx_fwdq]; rfl
  · exact Agt.tryForward_getD_fwdq _ _ _ _ _ (Agt.park_fwdq _ _ _)

/-- A worm that an agent sends leaves its queue as it is. -/
theorem Agt.originate_fwdq (a : Agt) (m : FwdMsg) (busy : List Nat) : (a.originate m busy).die.fwdq = a.die.fwdq := by
  unfold Agt.originate
  repeat' split
  all_goals first
    | rfl
    | exact Agt.sendStamped_fwdq _ _ _ _

theorem Agt.originates_fwdq (l : List FwdMsg) (busy : List Nat) (a : Agt) :
    (l.foldl (fun a m => a.originate m busy) a).die.fwdq = a.die.fwdq := by
  induction l generalizing a with
  | nil => rfl
  | cons m l ih => rw [List.foldl_cons, ih, Agt.originate_fwdq]

/-- The queue of an agent is empty once it is flushed. -/
@[simp] theorem Agt.flush_fwdq (a : Agt) (busy : List Nat) : (a.flush busy).die.fwdq = [] := by
  unfold Agt.flush; simp only [Agt.originates_fwdq]

/-- Nothing an agent's command gave rise to is left queued. -/
@[simp] theorem Agt.settle_fwdq (before a : Agt) (busy : List Nat) : (Agt.settle before a busy).die.fwdq = [] := by
  unfold Agt.settle; simp only [Agt.flush_fwdq]

/-! ## What stays in the state -/

@[simp] theorem State.onAgt_pending (s : State) (w : Who) (f : Agt → Agt) (busy : List Nat) : (s.onAgt w f busy).pending = s.pending := by
  unfold State.onAgt; exact State.setAgt_pending _ _ _

@[simp] theorem State.onAgt_agt (s : State) (w : Who) (f : Agt → Agt) (busy : List Nat) :
    (s.onAgt w f busy).agt w = Agt.settle (s.agt w) (f (s.agt w)) busy := by
  unfold State.onAgt; exact State.agt_setAgt_same _ _ _

theorem State.onAgt_other {s : State} {w v : Who} (f : Agt → Agt) (busy : List Nat) (h : w ≠ v) : (s.onAgt w f busy).agt v = s.agt v := by
  unfold State.onAgt; exact State.agt_setAgt_other _ h

@[simp] theorem State.onAgt_twd_ctl (s : State) (f : Agt → Agt) (busy : List Nat) : (s.onAgt .twd f busy).ctl = s.ctl := by
  unfold State.onAgt; exact State.setAgt_twd_ctl _ _

/-- The controller shows its embedded agent after that agent's commands. -/
theorem State.onAgt_emb_ctl (s : State) (f : Agt → Agt) : (s.onAgt .emb f).ctl = s.ctl.showAgent ((s.onAgt .emb f).agt .emb) := by
  have h (a : Agt) : (s.setAgt .emb a).ctl = s.ctl.showAgent ((s.setAgt .emb a).agt .emb) := by
    rw [State.agt_setAgt_same, State.setAgt_emb_ctl]
  exact h _

@[simp] theorem State.sendCtl_pending (s : State) : s.sendCtl.pending = s.pending := by
  unfold State.sendCtl
  simp only
  split <;> simp

@[simp] theorem State.sendCtl_twd (s : State) : s.sendCtl.twd = s.twd := by
  unfold State.sendCtl
  simp only
  split
  · rfl
  · exact State.onAgt_other (v := .twd) _ _ (by decide)

@[simp] theorem State.onCtl_pending (s : State) (f : Ctl → Ctl) : (s.onCtl f).pending = s.pending := by
  unfold State.onCtl; simp

@[simp] theorem State.onCtl_twd (s : State) (f : Ctl → Ctl) : (s.onCtl f).twd = s.twd := by
  unfold State.onCtl; simp

@[simp] theorem State.onDie_pending (s : State) (p : Place) (f : Die → Die) : (s.onDie p f).pending = s.pending := by
  cases p
  · simp only [State.onDie]; exact State.onCtl_pending _ _
  · simp only [State.onDie]; exact State.onAgt_pending _ _ _ _

end Sys2Proof.Machine
end

