-- ==== Sys2Proof/Safety.lean ====
section
/-! DEFINITION. What a safe run is. No command of the table stops the block, so a run is safe when every step answers a next state, and
the data a state holds is in its one canonical form: memories and register files list nothing that they need not list, so equal
contents are equal data. -/

namespace Sys2Proof.Machine

/-- A die's data in canonical form. -/
def Die.canonical (d : Die) : Bool := Rf.wf d.rf && Memory.wf d.mem

/-- The state's data in canonical form. -/
def State.canonical (s : State) : Bool := s.ctl.die.canonical && s.twd.die.canonical && s.emb.die.canonical

/-- Whether n steps from a state all answer next states. -/
def runsOn : Nat → State → Bool
  | 0, _ => true
  | n + 1, s => match step s with
    | .next t => runsOn n t
    | .fault _ | .refused _ => false

/-- A safe state: canonical, and every number of steps from it runs on. -/
def State.Safe (s : State) : Prop := s.canonical = true ∧ ∀ n, runsOn n s = true

end Sys2Proof.Machine
end

