-- ==== Sys2Proof/WellFormed.lean ====
section
/-! DEFINITION. When a command is well-formed: each operand lies in the width that the rule named at its constructor gives the field
that carries it. The meanings are total and do not rest on it; a command outside these widths is one that nothing in the spec can send. -/

namespace Sys2Proof

/-- A number that a field of n bits carries. -/
def fits (n x : Nat) : Bool := decide (x < 2 ^ n)

def u1 (x : Nat) : Bool := fits 1 x
def u2 (x : Nat) : Bool := fits 2 x
def u3 (x : Nat) : Bool := fits 3 x
def u8 (x : Nat) : Bool := fits 8 x
def u10 (x : Nat) : Bool := fits 10 x
def u12 (x : Nat) : Bool := fits 12 x
def u16 (x : Nat) : Bool := fits 16 x
/-- A FID (R33). -/
def u18 (x : Nat) : Bool := fits 18 x
def u22 (x : Nat) : Bool := fits 22 x
def u32 (x : Nat) : Bool := fits 32 x
def u64 (x : Nat) : Bool := fits 64 x
/-- A time in units of 2^-16 ns (R46). -/
def u80 (x : Nat) : Bool := fits 80 x
def u128 (x : Nat) : Bool := fits 128 x
def u512 (x : Nat) : Bool := fits 512 x

/-- A head flit (R105): every field in its width, 32 operand bytes. -/
def headOk (w : Worm) : Bool :=
  fits 4 w.version && u2 w.cls && u1 w.epoch && u1 w.scheduled && u12 w.partition && u18 w.dstFid && u18 w.srcFid && fits 6 w.hopLimit
    && u2 w.mcast && fits 11 w.irack && u1 w.phase && u10 w.age && fits 6 w.length && u8 w.op && u8 w.keySlot && fits 20 w.cg
    && fits 46 w.offset && u16 w.headerCheck && u1 w.enc && u32 w.flowSeq && fits 33 w.reserved && decide (w.operand.length = 32)

/-- A worm (R102): its head, as many payload bytes as its data flits carry, and the 16 bytes of its tag where enc is 1. -/
def wormOk (w : Worm) : Bool :=
  headOk w && decide (w.payload.length = 64 * w.length) && decide (w.tag.length = 16 * w.enc)

/-- Units of a worm: a module and 64-bit tags (R267). -/
def unitsOk (u : Units) : Bool := u8 u.modl && u.tags.all u64

/-- An identity block (R300). -/
def blockOk (b : IdBlock) : Bool :=
  u18 b.fid && u8 b.mode && u8 b.lane && u8 b.bond && u8 b.state && u32 b.fwVersion && u16 b.linkLevel && u8 b.epochBit && u8 b.cls
    && u64 b.dieId && u128 b.patternDigest && u32 b.skew && u8 b.patCode && u8 b.patDetail && u64 b.fabricId && u32 b.patStream && u32 b.patNext

/-- An access entry (R456): one aligned 64-bit access. -/
def accessOk (e : Access) : Bool := u32 e.offset && u8 e.kind && decide (e.size = 8)

/-- A work entry (R457). -/
def workOk (e : WorkEntry) : Bool := u8 e.opcode && u32 e.length && u64 e.addr && u64 e.wrId

/-- A frame header (R452). -/
def frameOk (h : FrameHdr) : Bool := u1 h.port && u8 h.ftype && u10 h.qp && u64 h.sequence && u64 h.id && u32 h.offset

/-- A connection: a Skein port, or 2 where the control node relays it (R399, R454). -/
def connOk (c : Conn) : Bool := decide (c.port ≤ 2)

/-- A TRAIN entry (03): settings are its bytes 4 to 23. -/
def trainOk (e : TrainEnt) : Bool := u8 e.lane && u8 e.reach && u8 e.preset && u8 e.flags && decide (e.settings.length = 20)

/-- A wear entry (R368). -/
def wearOk (e : WearEnt) : Bool := u8 e.kind && u8 e.monitor && u32 e.sample

/-- When a command is well-formed. -/
def Instr.wellFormed : Instr → Bool
  | .registerWrite _ _ off size _ => u32 off && u8 size
  | .agentResetDeassert _ modeSel _ => u2 modeSel
  | .agentResetAssert _ => true
  | .pwrgdFall _ => true
  | .selfTestDone _ _ => true
  | .ucieModuleFail _ module => u3 module
  | .laneTrainDone _ lane _ cls eyeH eyeW settings => u8 lane && u2 cls && u16 eyeH && u16 eyeW && decide (settings.length = 20)
  | .laneRetrainTimer _ lane => u8 lane
  | .laneRejoin _ lane => u8 lane
  | .laneLoss _ lane => u8 lane
  | .identityBlock _ lane blk => u8 lane && blockOk blk
  | .neighbourReport fid lanes blk => u18 fid && lanes.all u8 && blockOk blk
  | .keyEncaps _ inBond wm => u8 inBond && wormOk wm
  | .nameResultTimeout dieId => u64 dieId
  | .trainSave fid ents => u18 fid && ents.all trainOk
  | .lnkRetrain _ => true
  | .lnkClearCounters _ => true
  | .fabRetrain => true
  | .fabClearCounters => true
  | .patStart _ => true
  | .patAbort _ => true
  | .patternData _ inBond wm => u8 inBond && wormOk wm
  | .patternStreamAbandon _ => true
  | .patternStaged _ => true
  | .patternActivate _ => true
  | .epochSlotFree _ => true
  | .lookupRequest _ inBond wm syndrome _ mcastLost => u8 inBond && headOk wm && u16 syndrome && u8 mcastLost
  | .errorQueueSend _ _ => true
  | .rxWorm _ units wm busy => unitsOk units && wormOk wm && busy.all u8
  | .inject _ wm reqTag _ units busy => wormOk wm && u32 reqTag && unitsOk units && busy.all u8
  | .reqInjectDeferred _ busy => busy.all u8
  | .requestTimeout _ reqTag => u32 reqTag
  | .injStallInterval _ cls => u2 cls
  | .presentStart _ cls => u2 cls
  | .accept _ cls => u2 cls
  | .acceptLate _ cls => u2 cls
  | .slotHold _ course slot lead => u64 course && u16 slot && u32 lead
  | .mirrorAck _ copy first count => u8 copy && u16 first && u8 count
  | .lkpLock _ => true
  | .lkpClearCounters _ => true
  | .rspSpaceReturn _ flits => u32 flits
  | .cgRead _ msgTag group => u32 msgTag && u32 group
  | .cgArm _ msgTag group targetWorms targetBytes => u32 msgTag && u32 group && u32 targetWorms && u64 targetBytes
  | .cgClear _ msgTag group => u32 msgTag && u32 group
  | .reqRelease _ msgTag reqTag => u32 msgTag && u32 reqTag
  | .heartbeat _ timer => u8 timer
  | .progress _ timer engine => u8 timer && u8 engine
  | .msrExtend _ msgTag register partition kind _ => u32 msgTag && u8 register && u16 partition && u32 kind
  | .regRead _ msgTag off => u32 msgTag && u32 off
  | .regWrite _ msgTag off _ => u32 msgTag && u32 off
  | .phyResult _ _ => true
  | .memdata _ tag data => u32 tag && decide (data.length ≤ 65536)
  | .resetDone _ level target result => u8 level && u8 target && u8 result
  | .hostReady _ => true
  | .hostCounts _ window first ents _ => u64 window && u8 first && decide (1 ≤ ents.length ∧ ents.length ≤ 27) && ents.all fun p => u16 p.1 && u16 p.2
  | .unknownMessage _ mtype msgTag => u8 mtype && u32 msgTag
  | .agtHifClearCounters _ => true
  | .probeSend _ => true
  | .probeReceive _ bond wm t2 => u8 bond && wormOk wm && u80 t2
  | .linkSettled _ bond => u8 bond
  | .parentLoss _ => true
  | .holdoverExpire _ => true
  | .plbReload _ => true
  | .plbClearCounters _ => true
  | .plbParentWrite _ _ => true
  | .masterModeWrite _ => true
  | .masterLock => true
  | .masterLoad _ => true
  | .masterRateWrite _ => true
  | .triggerEdge _ stamp => u80 stamp
  | .trigRead _ _ => true
  | .courseMark _ course => u64 course
  | .injectRunLaunch _ course slot outBond collective => u64 course && u16 slot && u8 outBond && u32 collective
  | .emitRunSelect _ course slot outBond collective _ => u64 course && u16 slot && u8 outBond && u32 collective
  | .emitRunLaunch _ course slot outBond collective => u64 course && u16 slot && u8 outBond && u32 collective
  | .purlInput _ inBond course slot wm => u8 inBond && u64 course && u16 slot && wormOk wm
  | .purlRangeStart _ collective => u32 collective
  | .purlLaneFence _ _ => true
  | .prlStoAccess _ _ _ => true
  | .prlClearCounters _ => true
  | .solverFullTask => true
  | .solverFailureTask => true
  | .solverReleaseTask => true
  | .admissionTask => true
  | .compileTask => true
  | .plumbTreeTask => true
  | .shardTask => true
  | .taskPreempt => true
  | .tileFence tile => u16 tile
  | .solTileEn _ => true
  | .solClearCounters => true
  | .shdRead index => u22 index
  | .shdWrite index => u22 index
  | .shdDelete index => u22 index
  | .shardReady fid partition model granule digest => u18 fid && u12 partition && u32 model && u32 granule && u512 digest
  | .admSubmit => true
  | .admRelease => true
  | .admClearCounters => true
  | .admRingConsWrite _ => true
  | .failover fid bond farFid time => u18 fid && u8 bond && u18 farFid && u64 time
  | .restoredBondTimer => true
  | .watchExpire _ timer => u8 timer
  | .recoveryCmd _ level target flags => u8 level && u8 target && u8 flags
  | .recoveryLevelTimeout _ => true
  | .trayAck _ => true
  | .bindOffDrainComplete _ => true
  | .dumpBlockTimeout _ block => u16 block
  | .dumpComplete _ => true
  | .chunkXfer wm => wormOk wm
  | .chunkFetch _ sequence count _ => u32 sequence && u32 count
  | .chunkAck _ sequence => u32 sequence
  | .wchClearCounters _ => true
  | .rcvCmd _ => true
  | .recoveryReport fid level target result origin dumpSeq => u18 fid && u8 level && u8 target && u8 result && u8 origin && u32 dumpSeq
  | .recoveryReportTimeout => true
  | .funcReinit _ => true
  | .funcReinitTimeout block => u8 block
  | .funcHung block => u8 block
  | .ctrlReset _ => true
  | .rcvClearCounters => true
  | .roleActive _ => true
  | .mirrorSend => true
  | .dmpStart => true
  | .dmpClearCounters => true
  | .cstRun _ => true
  | .cstAbort => true
  | .cstStepComplete code detail _ ms defects found => u8 code && u32 detail && u64 ms && defects.all u16 && found.all fun x => u18 x.1 && fits 12 x.2
  | .cstStepTimeout ms unaligned => u64 ms && unaligned.all u18
  | .discoveryQuiet found => found.all fun x => u18 x.1 && fits 12 x.2
  | .telemetryRecordSend _ window => u64 window
  | .telemetryRecord fid _ => u18 fid
  | .mapClose => true
  | .tenantWindowEnd window => u64 window
  | .telCfgWrite _ => true
  | .telConfigChange _ => true
  | .telClearCounters => true
  | .healthSample _ _ => true
  | .gaugeMeasure _ region dMeas mv _ => u16 region && u32 dMeas && u16 mv
  | .gaugeExceedExit _ region => u16 region
  | .gaugeReport fid region delay ratio _ => u18 fid && u16 region && u32 delay.worst && u32 ratio.dMeas && u32 ratio.ref
  | .wearSampleTake _ ents => ents.all wearOk
  | .wearSample fid dieId ents => u18 fid && u64 dieId && ents.all wearOk
  | .werClearCounters => true
  | .gauClearCounters => true
  | .kstLoadCerts => true
  | .kstEnrol => true
  | .rollbackCommit _ => true
  | .kstClearCounters => true
  | .getVersion c => connOk c
  | .getCapabilities c version flags => connOk c && u8 version && u32 flags
  | .negotiateAlgorithms c version algs => connOk c && u8 version && algs.all u16
  | .getDigests c => connOk c
  | .getCertificate c slot offset length => connOk c && u8 slot && u16 offset && u16 length
  | .challenge c _ => connOk c
  | .getMeasurements c block _ _ => connOk c && u8 block
  | .keyExchange c reqSession ek => connOk c && u16 reqSession && decide (ek.length = 1568)
  | .finish c session _ _ _ => connOk c && u32 session
  | .keyUpdate c session tagOp => connOk c && u32 session && u8 tagOp
  | .spdmHeartbeat c session => connOk c && u32 session
  | .spdmHeartbeatSend port => u1 port
  | .endSession c session => connOk c && u32 session
  | .chunkSend c handle seq _ data => connOk c && u8 handle && u16 seq && decide (data.length ≤ 65536)
  | .chunkGet c handle seq => connOk c && u8 handle && u16 seq
  | .unsupportedRequest c code => connOk c && u8 code
  | .keyDeliver c session key use flags _ => connOk c && u32 session && decide (key.length ≤ 1024) && u8 use && u32 flags
  | .keyDestroy c session keyId => connOk c && u32 session && u128 keyId
  | .fabricReport c session _ => connOk c && u32 session
  | .partitionReport c session tag _ => connOk c && u32 session && u12 tag
  | .operatorKeys c session op key => connOk c && u32 session && u8 op && decide (key.length ≤ 1024)
  | .keyWrap _ inBond wm => u8 inBond && wormOk wm
  | .keyResult fid slot status wrapCounter => u18 fid && u8 slot && u8 status && u64 wrapCounter
  | .keySlotUnusedTimeout _ slot => u8 slot
  | .keySlotRetire _ slot => u8 slot
  | .rekey tag => u12 tag
  | .keyExpire _ slot => u8 slot
  | .gcmClearCounters _ => true
  | .measureReq _ _ mask => u8 mask
  | .measureReport fid register agentState lastSeq extendSeq _ _ _ =>
    u18 fid && u8 register && u8 agentState && u64 lastSeq && u64 extendSeq
  | .measureTimeout fid => u18 fid
  | .debugAttach _ => true
  | .meterLoadFw _ => true
  | .meterLoadPattern => true
  | .mtrClearCounters => true
  | .meterStart => true
  | .meterEncaps _ inBond wm => u8 inBond && wormOk wm
  | .meterEncapsRetry => true
  | .tapIntervalRecord _ interval _ => u64 interval
  | .meterTap wm => wormOk wm
  | .meterIntervalClose interval _ => u64 interval
  | .meterOpen tag inst course => u12 tag && u16 inst && u64 course
  | .meterClose tag inst course => u12 tag && u16 inst && u64 course
  | .meterBatchClose => true
  | .meterBatchSigned => true
  | .mtrRingConsWrite _ => true
  | .mtpClearCounters _ => true
  | .eventRaise _ code inst => u16 code && u16 inst
  | .snapshotComplete _ => true
  | .snapshotReadTimeout _ index => u8 index
  | .faultReport _ block inst => u8 block && u16 inst
  | .enterSafe _ _ => true
  | .flcSelfCheck _ _ => true
  | .flcInject _ _ => true
  | .flcInjectTick _ => true
  | .flcAlertClear _ _ => true
  | .flcClearCounters _ => true
  | .evrRetainedClear _ => true
  | .evrClearCounters _ => true
  | .eventRecord wm => wormOk wm
  | .evrFetch _ first count => u32 first && u32 count
  | .fallbackCopy _ => true
  | .opsecSave => true
  | .agentOpsecSave dieId opsec => u64 dieId && u64 opsec
  | .skeinLinkUp port lanes => u1 port && u2 lanes
  | .skeinLinkFrame h => frameOk h
  | .regReq h ents => frameOk h && ents.all accessOk
  | .doorbell h ents => frameOk h && ents.all workOk
  | .qpWrite qp => u10 qp
  | .qpRead qp => u10 qp
  | .mirrorOut qp => u10 qp
  | .mirrorIn qp _ => u10 qp
  | .skeinData h data => frameOk h && decide (data.length ≤ 65536)
  | .qpWriteTimeout qp wrId => u10 qp && u64 wrId
  | .sknClearCounters => true
  | .mortarConnect => true
  | .clientHello session _ ek _ => u64 session && decide (ek.length = 1568)
  | .clientFinish session _ => u64 session
  | .mortarHandshakeTimeout session => u64 session
  | .mortarReg session sequence _ ents => u64 session && u64 sequence && ents.all accessOk
  | .mortarMemWrite session sequence _ addr data => u64 session && u64 sequence && u64 addr && decide (data.length ≤ 65536)
  | .mortarMemRead session sequence _ addr length => u64 session && u64 sequence && u64 addr && u32 length
  | .mortarKeepalive session sequence _ => u64 session && u64 sequence
  | .mortarClose session sequence _ => u64 session && u64 sequence
  | .preludeReg session ents => u64 session && ents.all accessOk
  | .mortarIdleTimeout session => u64 session
  | .mnpCloseAll => true
  | .mnpSave _ => true
  | .mnpClearCounters => true
  | .mbxA _ wm _ => wormOk wm
  | .mbxASend _ peer mtype flags body => u18 peer && u8 mtype && u8 flags && decide (body.length ≤ 240)
  | .mbxAck _ wm => wormOk wm
  | .mbxARetry _ peer seq => u18 peer && u32 seq
  | .relay _ inBond wm _ => u8 inBond && wormOk wm
  | .patternProgress fid stream next => u18 fid && u32 stream && u32 next
  | .mgmtOp _ inBond wm => u8 inBond && wormOk wm
  | .mgmtOpResponse wm => wormOk wm
  | .mgmtOpTimeout => true
  | .mbxRmtGo _ => true
  | .mbxBSend _ channel _ => fits 6 channel
  | .mbxBPop _ channel _ => fits 6 channel
  | .mbxClearCounters _ => true
  | .narrowWrite addr data => u64 addr && decide (data.length ≤ 65536)
  | .mergeWriteback codeword => u64 codeword
  | .scrubRead errs => errs.all fun p => decide (p.1 < 144) && u8 p.2
  | .rowSpare channel row => fits 7 channel && u32 row
  | .memClearCounters => true
  | .cvuStart _ unit _ => u3 unit
  | .cvuAbort _ unit => u3 unit
  | .cvuComplete _ unit => u3 unit
  | .cvuContextWrite _ unit reg _ => u3 unit && u1 reg
  | .fdsStage => true
  | .fdsDistribute => true
  | .fdsActivate => true
  | .fdsCommit => true
  | .fdsAbandon => true
  | .fdsClearCounters => true
  | .fwPassChunk => true
  | .fwChunk _ inBond wm => u8 inBond && wormOk wm
  | .fwVerifyDone _ => true
  | .fwProgramDone _ _ => true
  | .fwStitchesSend _ => true
  | .fwQuery _ imageId => u32 imageId
  | .fwQuerySend => true
  | .fwStitches fid imageId count missing state _ => u18 fid && u32 imageId && u16 count && u16 missing && u8 state
  | .fwRepairRound => true
  | .fwReady fid imageId version _ => u18 fid && u32 imageId && u32 version
  | .fwRefused fid imageId reason => u18 fid && u32 imageId && u8 reason
  | .fwActivate _ imageId course => u32 imageId && u64 course
  | .fwActivationCourse _ => true
  | .fwResult fid imageId result course version => u18 fid && u32 imageId && u8 result && u64 course && u32 version
  | .fwCommit _ imageId => u32 imageId
  | .fwAbandon _ imageId => u32 imageId
  | .blkClearCounters _ => true
  | .tryClearCounters _ => true
  | .vcoreFloorWrite _ _ => true
  | .modEnAssert => true
  | .controllerLeaveReset _ => true
  | .controllerRstN ns => u64 ns
  | .powerDownTrigger _ => true
  | .refclkLoss _ => true
  | .referenceTick _ => true
  | .ucieModuleTrained _ module => u3 module
  | .fwCoreRestartDone _ => true
  | .skeinLinkDown port lanes => u1 port && u2 lanes
  | .mgmtPortLinkChange port link => u1 port && u2 link
  | .powerDownEnd => true
  | .trayAckRelease _ => true
  | .patternResultTake fid _ result code detail rowSeq => u18 fid && u8 result && u8 code && u8 detail && u64 rowSeq
  | .controllerNotice _ code partition body => u16 code && u16 partition && decide (body.length ≤ 240)

end Sys2Proof
end

