-- ==== Sys2Proof/Tests/Slice0.lean ====
section
/-! SUPPORT. Tests: the smoke tests of well-formedness, for every statement with hypotheses a witness (named after the statement) of
states and operands that meet them, clause by clause, and small tests of single commands whose expected values are worked from the
spec's text. -/

open Sys2Proof Sys2Proof.Machine Sys2Proof.Claim

namespace Sys2Proof.Tests

set_option Elab.async false

/-! ## Helpers -/

/-- Both agents out of agent reset. -/
def up : State :=
  { State.reset with
    twd := { State.reset.twd with pins := { State.reset.twd.pins with rstN := true } },
    emb := { State.reset.emb with pins := { State.reset.emb.pins with rstN := true } } }

/-- The same with another packaged agent, or another controller. -/
def twdIs (f : Agt → Agt) : State := { up with twd := f up.twd }
def ctlIs (f : Ctl → Ctl) : State := { up with ctl := f up.ctl }

/-- Fields of registers set. -/
def Df (l : List (Fld × Nat)) (d : Die) : Die := l.foldl (fun d p => d.fset p.1 p.2) d
def Af (l : List (Fld × Nat)) (a : Agt) : Agt := a.onDie (Df l)
def Cf (l : List (Fld × Nat)) (c : Ctl) : Ctl := c.onDie (Df l)

/-- A REQ head without payload. -/
def wm0 : Worm :=
  { version := 1, cls := 0, epoch := 0, scheduled := 0, partition := 0, dstFid := 0, srcFid := 0, hopLimit := 8, mcast := 0, irack := 0,
    phase := 1, age := 0, length := 0, op := 1, keySlot := 0, cg := 0, offset := 0, headerCheck := 0, enc := 0, flowSeq := 0,
    reserved := 0, operand := List.replicate 32 0, payload := [], tag := [] }

/-- A FWD head. -/
def fwd0 : Worm := { wm0 with cls := 2, op := 0x81 }

/-- A bond on lane 3 that is active. -/
def bond3 : Bond :=
  { reach := 0, farBond := 1, farFid := 9, lanes := [3], active := [3], down := false, reachFail := false, link := Link.new 0 }

/-- A partition with host access. -/
def part0 : PartEnt := { flags := 1, trafficSlot := 0xFF, dumpSlot := 0xFF, cgBase := 0, cgCount := 16, routeSeed := 0, iset := 0 }

/-- A route entry over bond 3, valid. -/
def route3 : Nat := 3 + 0xFF * 2 ^ 8 + 0xFF * 2 ^ 16 + 2 ^ 29

/-- An agent named 5 whose slot 0 sends FID 9 over bond 3. -/
def named (mode : Nat) (a : Agt) : Agt :=
  let a := Af [(Fl.AGT_IDENT_mode, mode), (Fl.AGT_IDENT_fid, 5), (Fl.LKP_STATUS_slot0_valid, 1)] a
  { a with fwd := { a.fwd with bonds := [(3, bond3)], slot0 := { fid := [(9, route3)], iset := [], mcast := [] }, parts := [(7, part0)] } }

def switch5 : State := twdIs (named 1)
def end5 : State := twdIs (named 0)

/-- At a fabric time and a time since the part's power came up, both ns. -/
def atNs (ns : Nat) (d : Die) : Die := { d with clk := { d.clk with count := ns * 2 ^ 56, tick := (5 * ns + 31) / 32 } }
def agtAt (ns : Nat) (a : Agt) : Agt := a.onDie (atNs ns)
def ctlAt (ns : Nat) (c : Ctl) : Ctl := c.onDie (atNs ns)

/-- With another flow part. -/
def flowIs (f : Flow → Flow) (a : Agt) : Agt := { a with flow := f a.flow }

/-- A course geometry in force. -/
def geom1 : Geom := { slotCode := 0, countCode := 0, guard := 1 }

/-- The units of a worm of n flits on bond b, over module k. -/
def unitsOn (k kind b n : Nat) : Units := { modl := k, tags := unitTags kind b 0 0 0 n }

/-! ## The commands' own conditions -/

/-- What the completion clauses ask of the state alone: both agents up and hearing, the controller on, its meter powered, no block that
turns a write away. -/
theorem witness_Completion :
    (∀ w ∈ [Who.twd, Who.emb], Up up w ∧ Hears up w ∧ Alive up (.agt w))
    ∧ On up ∧ Alive up .ctl ∧ Metering up
    ∧ (∀ b ∈ twidelBlocks, Takes up.twd.die b) ∧ (∀ b ∈ pelronBlocks, Takes up.ctl.die b) := by decide +kernel
/-! ## Lookups, worms, host messages -/

/-- A switch with this COURSE entry, its fabric time in slot 0 of course 0. -/
def coursed (action : Nat) : State :=
  twdIs fun a => let a := Af [(Fl.PLB_STATUS_chain_locked, 1)] (named 1 a)
    { a with fwd := { a.fwd with geom := some geom1, course :=
        [{ course := 0, slot := 1, outBond := 3, action := action, collective := 0, partition := 0, inBond := 2 }] } }

/-- A switch whose epoch slot 0 holds a tree entry of mode 3 and root 0. -/
def treed : State :=
  twdIs fun a => let a := named 1 a
    { a with fwd := { a.fwd with slot0 := { a.fwd.slot0 with mcast := [(4096, 2 ^ 13 + 2 ^ 12 + 5)] } } }

def lookedUp (s : State) (w : Worm) (inBond syndrome : Nat) : Worm × Verdict :=
  (s.twd.count Reg.LKP_CNT_LOOKUPS).lookupOf (requestBits w inBond syndrome) w

def to9 : Worm := { wm0 with dstFid := 9 }

theorem witness_LookupForwarded :
    (∃ (s : State) (w : Who) (inBond : Nat) (syn : Nat) (p : Nat) (sd : Nat) (t : Nat) (m : Nat) (st : Nat) (wm : Worm) (w' : Worm),
      Up s w ∧ (s.agt w).isSwitch = true ∧ (s.agt w).fid ≠ 0x3FFFF ∧ ((s.agt w).count Reg.LKP_CNT_LOOKUPS).lookupOf (requestBits wm inBond syn) wm = (w', .forward p sd t m st))
    ∧ (∃ (s : State) (w : Who) (inBond : Nat) (syn : Nat) (b : Nat) (wm : Worm) (w' : Worm),
      Up s w ∧ (s.agt w).isSwitch = true ∧ (s.agt w).fid ≠ 0x3FFFF ∧ ((s.agt w).count Reg.LKP_CNT_LOOKUPS).lookupOf (requestBits wm inBond syn) wm = (w', .scheduled b))
    ∧ (∃ (s : State) (w : Who) (inBond : Nat) (syn : Nat) (dims : Nat) (down : Bool) (own : Bool) (wm : Worm) (w' : Worm),
      Up s w ∧ (s.agt w).isSwitch = true ∧ (s.agt w).fid ≠ 0x3FFFF ∧ ((s.agt w).count Reg.LKP_CNT_LOOKUPS).lookupOf (requestBits wm inBond syn) wm = (w', .multicast dims down own))
    ∧ (∃ (s : State) (w : Who) (inBond : Nat) (syn : Nat) (wm : Worm) (w' : Worm) (v : Verdict),
      Up s w ∧ (s.agt w).isSwitch = true ∧ (s.agt w).fid ≠ 0x3FFFF ∧ (v = .eject ∨ v = .toAgent) ∧ ((s.agt w).count Reg.LKP_CNT_LOOKUPS).lookupOf (requestBits wm inBond syn) wm = (w', v)) :=
  ⟨⟨switch5, .twd, 2, 0, 3, 0xFF, 0xFF, 0, 0, to9, (lookedUp switch5 to9 2 0).1, by decide +kernel⟩,
    ⟨coursed 2, .twd, 2, 0, 3, { wm0 with scheduled := 1 }, (lookedUp (coursed 2) ({ wm0 with scheduled := 1 }) 2 0).1, by decide +kernel⟩,
    ⟨treed, .twd, 2, 0, 5, false, true, { wm0 with mcast := 3, phase := 0 }, (lookedUp treed ({ wm0 with mcast := 3, phase := 0 }) 2 0).1, by decide +kernel⟩,
    ⟨coursed 3, .twd, 2, 0, { wm0 with scheduled := 1 }, (lookedUp (coursed 3) ({ wm0 with scheduled := 1 }) 2 0).1, .eject, by decide +kernel⟩⟩

theorem witness_LookupHeaderFail :
    (∃ (s : State) (w : Who) (inBond : Nat) (syn : Nat) (wm : Worm) (w' : Worm),
      Up s w ∧ (s.agt w).isSwitch = true ∧ (s.agt w).fid ≠ 0x3FFFF ∧ ((s.agt w).count Reg.LKP_CNT_LOOKUPS).lookupOf (requestBits wm inBond syn) wm = (w', .silent))
    ∧ (∃ (s : State) (w : Who) (inBond : Nat) (syn : Nat) (st : Nat) (wm : Worm) (w' : Worm),
      Up s w ∧ (s.agt w).isSwitch = true ∧ (s.agt w).fid ≠ 0x3FFFF ∧ ((s.agt w).count Reg.LKP_CNT_LOOKUPS).lookupOf (requestBits wm inBond syn) wm = (w', .drop st)) :=
  ⟨⟨switch5, .twd, 2, 1, wm0, (lookedUp switch5 wm0 2 1).1, by decide +kernel⟩,
    ⟨switch5, .twd, 2, 0, 2, { to9 with hopLimit := 0 }, (lookedUp switch5 ({ to9 with hopLimit := 0 }) 2 0).1, by decide +kernel⟩⟩

def track1 (held : Option Nat) : Track :=
  { dst := 9, partition := 7, seq := 0, op := 1, cg := 0, reqTag := 4, injNs := 0, deadline := 0, fingerprint := [], flits := 2, heldStatus := held }

def staged1 : Staged := { wm := { wm0 with cls := 1, op := 0x41, dstFid := 9 }, reqTag := 4, retry := false, waited := false }
def staged0 : Staged := { wm := { wm0 with op := 0x03, dstFid := 9 }, reqTag := 5, retry := false, waited := false }

def fwd5 : Worm := sealHead { fwd0 with dstFid := 5 }
def sealed9 : Worm := sealHead to9
def arrived (a : Agt) (w : Worm) : Worm × Verdict := (a.count Reg.LKP_CNT_LOOKUPS).lookupArrive w 2 (syndromeOf w)

/-- A member endpoint with a credit of each class and an INJECT run of collective 0. -/
def sender : State :=
  twdIs fun a => let a := named 0 a
    let a : Agt := { a with fwd := { a.fwd with course := [{ course := 0, slot := 1, outBond := 3, action := 1, collective := 0, partition := 7, inBond := 0 }] } }
    flowIs (fun f => { f with credReq := 1, credRsp := 1, credCol := 1 }) a

/-- A member endpoint with a reply and a request staged, past the plumb slot. -/
def staging2 : State :=
  twdIs fun a => flowIs (fun f => { f with stRsp := [staged1], stReq := [staged0] }) (agtAt 1000 (Af [(Fl.LKP_RSP_SPACE_space_flits, 100)] (named 0 a)))

def col2 : Worm := { wm0 with cls := 3, op := 0xC2 }

theorem witness_EndpointWorms :
    (∃ (s : State) (w : Who) (u : Units) (wm : Worm) (w' : Worm),
      Up s w ∧ (s.agt w).unitsOk 2 u wm = true ∧ (s.agt w).isSwitch = false ∧ wm.op ≠ 0xC1 ∧ (s.agt w).fid ≠ 0x3FFFF ∧ ((s.agt w).count Reg.LKP_CNT_LOOKUPS).lookupArrive wm (tagBond (u.tags.getD 0 0)) (syndromeOf wm) = (w', .eject) ∧ w'.cls = 2)
    ∧ (∃ (s : State) (w : Who) (u : Units) (wm : Worm),
      Up s w ∧ (s.agt w).unitsOk 2 u wm = true ∧ (wm.op = 0xC1 ∨ (s.agt w).isSwitch = true))
    ∧ (∃ (s : State) (w : Who) (u : Units) (p : Nat) (sd : Nat) (t : Nat) (m : Nat) (st : Nat) (b : Nat) (dfl : Bool) (wm : Worm) (w' : Worm) (busy : List Nat),
      Up s w ∧ (s.agt w).unitsOk 2 u wm = true ∧ (s.agt w).isSwitch = false ∧ wm.op ≠ 0xC1 ∧ (s.agt w).fid ≠ 0x3FFFF ∧ ((s.agt w).count Reg.LKP_CNT_LOOKUPS).lookupArrive wm (tagBond (u.tags.getD 0 0)) (syndromeOf wm) = (w', .forward p sd t m st) ∧ ((((s.agt w).count Reg.LKP_CNT_LOOKUPS).count Reg.LKP_CNT_BOUNCED).tapCount wm.partition 2 (64 * (1 + wm.length))).pick w'.epoch p sd t m busy = some (b, dfl))
    ∧ (∃ (s : State) (w : Who) (x : Worm) (rest : List Worm),
      Up s w ∧ (s.agt w).fwd.errQ = x :: rest)
    ∧ (∃ (s : State) (w : Who) (wm : Worm) (reqTag : Nat) (retry : Bool) (u : Units) (b : Agt),
      Up s w ∧ (s.agt w).unitsOk 5 u wm = true ∧ (s.agt w).mode = 0 ∧ (s.agt w).takeCredit (wm.op / 64 % 4) = some b ∧ (b.count Reg.AGT_CNT_INJECTED).injectFault wm (wm.op / 64 % 4) reqTag retry = 0)
    ∧ (∃ (s : State) (w : Who) (wm : Worm) (reqTag : Nat) (n : Nat) (retry : Bool) (u : Units) (b : Agt),
      Up s w ∧ (s.agt w).unitsOk 5 u wm = true ∧ (s.agt w).mode = 0 ∧ (s.agt w).takeCredit (wm.op / 64 % 4) = some b ∧ (b.count Reg.AGT_CNT_INJECTED).injectFault wm (wm.op / 64 % 4) reqTag retry = n ∧ n ≠ 0)
    ∧ (∃ (s : State) (w : Who) (st : Staged) (rq : Staged) (rest : List Staged) (more : List Staged) (busy : List Nat) (b : Agt) (c : Agt),
      Up s w ∧ (s.agt w).flow.stRsp = st :: rest ∧ (s.agt w).tryRsp st busy = some b ∧ (b.flush busy).flow.stReq = rq :: more ∧ (b.flush busy).tryReq rq busy = some c)
    ∧ (∃ (s : State) (w : Who) (reqTag : Nat) (t : Track),
      Up s w ∧ (s.agt w).flow.tracker.find? (fun t => t.heldStatus.isNone && t.reqTag = reqTag) = some t ∧ t.deadline ≤ (s.agt w).die.up) :=
  ⟨⟨end5, .twd, unitsOn 1 2 2 1, fwd5, (arrived end5.twd fwd5).1, by decide +kernel⟩,
    ⟨end5, .twd, unitsOn 1 2 2 1, { wm0 with op := 0xC1 }, by decide +kernel⟩,
    ⟨twdIs fun a => agtAt 1000 (named 0 a), .twd, unitsOn 1 2 2 1, 3, 0xFF, 0xFF, 0, 3, 3, false, sealed9, (arrived end5.twd sealed9).1, [], by decide +kernel⟩,
    ⟨twdIs fun a => { named 1 a with fwd := { (named 1 a).fwd with errQ := [wm0] } }, .twd, wm0, [], by decide +kernel⟩,
    ⟨sender, .twd, col2, 0, false, unitsOn 1 5 0 1, (sender.twd.takeCredit 3).getD up.twd, by decide +kernel⟩,
    ⟨sender, .twd, { wm0 with mcast := 1 }, 0, 1, false, unitsOn 1 5 0 1, (sender.twd.takeCredit 0).getD up.twd, by decide +kernel⟩,
    ⟨staging2, .twd, staged1, staged0, [], [], [], (staging2.twd.tryRsp staged1 []).getD up.twd, ((((staging2.twd.tryRsp staged1 []).getD up.twd).flush []).tryReq staged0 []).getD up.twd, by decide +kernel⟩,
    ⟨twdIs fun a => flowIs (fun f => { f with tracker := [track1 none] }) (named 0 a), .twd, 4, track1 none, by decide +kernel⟩⟩

def holding1 : Holding := { wm := wm0, reqTag := 4, status := 0 }

theorem witness_Presentation :
    (∃ (s : State) (w : Who) (cls : Nat) (k : Nat) (h : Holding),
      Up s w ∧ tget (s.agt w).flow.holding cls = some h ∧ (s.agt w).presentOpen cls = false ∧ (s.agt w).die.fget Fl.AGT_HIF_STATUS_host_ready = 1 ∧ (s.agt w).bondModule (s.agt w).flow.presentNext = some k)
    ∧ (∃ (s : State) (w : Who) (cls : Nat) (k : Nat),
      Up s w ∧ tget (s.agt w).flow.presenting cls = some (k, false))
    ∧ (∃ (s : State) (w : Who) (cls : Nat) (k : Nat),
      Up s w ∧ tget (s.agt w).flow.presenting cls = some (k, true))
    ∧ (∃ (s : State) (w : Who) (cls : Nat) (h : Holding),
      Up s w ∧ tget (s.agt w).flow.holding cls = some h ∧ (s.agt w).presentOpen cls = true) :=
  ⟨⟨twdIs fun a => Af [(Fl.AGT_HIF_STATUS_host_ready, 1)] (flowIs (fun f => { f with holding := [(0, holding1)] }) a), .twd, 0, 1, holding1, by decide +kernel⟩,
    ⟨twdIs (flowIs fun f => { f with presenting := [(0, 1, false)] }), .twd, 0, 1, by decide +kernel⟩,
    ⟨twdIs (flowIs fun f => { f with presenting := [(0, 1, true)] }), .twd, 0, 1, by decide +kernel⟩,
    ⟨twdIs fun a => (flowIs (fun f => { f with holding := [(0, holding1)] }) a).setPresent 0 true, .twd, 0, holding1, by decide +kernel⟩⟩

theorem witness_HoldsAndSpace :
    (∃ (s : State) (w : Who) (course : Nat) (slot : Nat) (lead : Nat),
      Up s w ∧ (s.agt w).isSwitch = true ∧ 96 ≤ lead ∧ lead ≤ 1000 ∧ (s.agt w).isPlumbSlot course slot = false)
    ∧ (∃ (s : State) (w : Who) (course : Nat) (slot : Nat) (lead : Nat),
      Up s w ∧ (s.agt w).isSwitch = true ∧ 96 ≤ lead ∧ lead ≤ 1000 ∧ (s.agt w).isPlumbSlot course slot = true)
    ∧ (∃ (s : State) (w : Who) (lead : Nat),
      Up s w ∧ (lead < 96 ∨ 1000 < lead))
    ∧ (∃ (s : State) (w : Who) (lead : Nat),
      Up s w ∧ (lead < 96 ∨ 1000 < lead))
    ∧ (∃ (s : State) (w : Who) (n : Nat),
      Hears s w ∧ n ≤ (s.agt w).reserved)
    ∧ (∃ (s : State) (w : Who) (n : Nat),
      Hears s w ∧ (s.agt w).reserved < n) :=
  ⟨⟨switch5, .twd, 0, 1, 96, by decide +kernel⟩,
    ⟨switch5, .twd, 0, 0, 1000, by decide +kernel⟩,
    ⟨up, .twd, 95, by decide +kernel⟩,
    ⟨up, .twd, 1001, by decide +kernel⟩,
    ⟨up, .twd, 0, by decide +kernel⟩,
    ⟨up, .twd, 1, by decide +kernel⟩⟩

theorem witness_CompletionGroups :
    (∃ (s : State) (w : Who) (g : Nat),
      Hears s w ∧ g < 2 ^ 20)
    ∧ (∃ (s : State) (w : Who) (g : Nat),
      Hears s w ∧ 2 ^ 20 ≤ g)
    ∧ (∃ (s : State) (w : Who) (g : Nat) (k : Nat),
      Hears s w ∧ g < 2 ^ 20 ∧ ((s.agt w).cgCtx g).armed = false ∧ ((List.range 256).find? fun k => (tget (s.agt w).flow.arms k).isNone) = some k)
    ∧ (∃ (s : State) (w : Who) (g : Nat),
      Hears s w ∧ g < 2 ^ 20)
    ∧ (∃ (s : State) (w : Who) (reqTag : Nat) (t : Track),
      Hears s w ∧ (s.agt w).heldEntry reqTag = some t) :=
  ⟨⟨up, .twd, 2 ^ 20 - 1, by decide +kernel⟩,
    ⟨up, .twd, 2 ^ 20, by decide +kernel⟩,
    ⟨up, .twd, 2 ^ 20 - 1, 0, by decide +kernel⟩,
    ⟨up, .twd, 0, by decide +kernel⟩,
    ⟨twdIs (flowIs fun f => { f with tracker := [track1 (some 0)] }), .twd, 4, track1 (some 0), by decide +kernel⟩⟩

theorem witness_HostMessages :
    (∃ (s : State) (w : Who) (i : Nat) (partition : Nat),
      Hears s w ∧ i < 16 ∧ (s.agt w).extendDenied i partition = false) :=
  ⟨up, .twd, 4, 0, by decide +kernel⟩

/-! ## Watches, recovery, dumps -/

/-- A running watch timer of 10 µs. -/
def timer1 : Timer := { firstLevel := 1, timeoutUs := 10, graceUs := 100, startNs := some 0, expired := false }

/-- The packaged agent, in host service at this time, whose timer 15 has this owner and stands so. -/
def watched (owner : Nat) (t : Timer) (ns : Nat) : State :=
  twdIs fun a => { agtAt ns a with
    die := { (agtAt ns a).die with resource := { a.die.resource with timers := List.replicate 15 0 ++ [owner] } },
    rcv := { a.rcv with timers := [(15, t)] } }

/-- In a recovery at this level and state. -/
def recovering (level st : Nat) : State := twdIs (Af [(Fl.WCH_STATUS_level, level), (Fl.WCH_STATUS_state, st)])

/-- The same, its level's wait begun 0 ns ago at this time. -/
def waiting (level st ns : Nat) : State :=
  twdIs fun a => let a := agtAt ns (Af [(Fl.WCH_STATUS_level, level), (Fl.WCH_STATUS_state, st)] a)
    { a with rcv := { a.rcv with sinceNs := a.die.up } }

theorem witness_WatchTimers :
    (∃ (s : State) (w : Who) (k : Nat) (start : Nat) (t : Timer),
      Up s w ∧ tget (s.agt w).rcv.timers k = some t ∧ t.startNs = some start ∧ (s.agt w).inRecovery = false ∧ (s.agt w).die.resource.timers.getD k 0 ≠ 0 ∧ (s.agt w).die.resource.timers.getD k 0 ≠ 6 ∧ start + t.timeoutUs * 1000 ≤ (s.agt w).die.up)
    ∧ (∃ (s : State) (w : Who),
      Up s w ∧ (s.agt w).inRecovery = true)
    ∧ (∃ (s : State) (w : Who) (k : Nat) (start : Nat) (t : Timer),
      Hears s w ∧ tget (s.agt w).rcv.timers k = some t ∧ t.startNs = some start ∧ t.expired = false ∧ (credited (s.agt w)).die.takeWait Blk.WCH = (false, (credited (s.agt w)).die) ∧ (credited (s.agt w)).die.up ≤ start + t.timeoutUs * 1000)
    ∧ (∃ (s : State) (w : Who) (k : Nat) (start : Nat) (t : Timer),
      Hears s w ∧ tget (s.agt w).rcv.timers k = some t ∧ t.startNs = some start ∧ t.expired = false ∧ (credited (s.agt w)).die.takeWait Blk.WCH = (false, (credited (s.agt w)).die) ∧ start + t.timeoutUs * 1000 < (credited (s.agt w)).die.up)
    ∧ (∃ (s : State) (w : Who) (k : Nat) (t : Timer),
      Hears s w ∧ tget (s.agt w).rcv.timers k = some t)
    ∧ (∃ (s : State) (w : Who) (k : Nat),
      Hears s w ∧ tget (s.agt w).rcv.timers k = none)
    ∧ Takes up.twd.die Blk.WCH :=
  ⟨⟨watched 5 timer1 10001, .twd, 15, 0, timer1, by decide +kernel⟩,
    ⟨recovering 1 1, .twd, by decide +kernel⟩,
    ⟨watched 1 timer1 9990, .twd, 15, 0, timer1, by decide +kernel⟩,
    ⟨watched 2 timer1 10100, .twd, 15, 0, timer1, by decide +kernel⟩,
    ⟨watched 6 { timer1 with expired := true } 0, .twd, 15, { timer1 with expired := true }, by decide +kernel⟩,
    ⟨up, .twd, 15, by decide +kernel⟩,
    by decide +kernel⟩

def level1 : Agt := (recovering 1 3).twd

/-- Past every bound at level 1 with no answer. -/
def late1 : State := twdIs fun a => agtAt 100000000000 (Af [(Fl.WCH_STATUS_level, 1), (Fl.WCH_STATUS_state, 3)] a)

theorem witness_RecoveryWaits :
    (∃ (s : State) (w : Who),
      Up s w ∧ (s.agt w).levelLate = true)
    ∧ (∃ (a : Agt) (n : Nat),
      a.rcv.escalate = true ∧ a.recLevel < 5 ∧ a.die.safe = false ∧ (a.report a.recLevel reportFailed).levelFrom (a.recLevel + 1) = some n)
    ∧ (∃ (a : Agt),
      (a.rcv.escalate = false ∨ a.die.safe = true))
    ∧ (∃ (s : State) (w : Who) (level : Nat),
      Hears s w ∧ (credited (s.agt w)).recState = 3 ∧ (credited (s.agt w)).recLevel = level ∧ level ≤ 3 ∧ (credited (s.agt w)).levelLate = false ∧ (credited (s.agt w)).die.takeWait Blk.WCH = (false, (credited (s.agt w)).die))
    ∧ (∃ (s : State) (w : Who) (level : Nat),
      Hears s w ∧ (credited (s.agt w)).recState = 3 ∧ (credited (s.agt w)).recLevel = level ∧ level ≤ 3 ∧ (credited (s.agt w)).levelLate = false ∧ (credited (s.agt w)).die.takeWait Blk.WCH = (false, (credited (s.agt w)).die))
    ∧ (∃ (s : State) (w : Who) (level : Nat) (result : Nat),
      Hears s w ∧ (credited (s.agt w)).recState = 3 ∧ (credited (s.agt w)).recLevel = level ∧ (credited (s.agt w)).levelLate = false ∧ (credited (s.agt w)).die.takeWait Blk.WCH = (false, (credited (s.agt w)).die) ∧ (result = 1 ∨ result = 2))
    ∧ (∃ (s : State) (w : Who) (level : Nat) (result : Nat),
      Hears s w ∧ (credited (s.agt w)).recState = 3 ∧ (credited (s.agt w)).recLevel = level ∧ (credited (s.agt w)).levelLate = false ∧ (credited (s.agt w)).die.takeWait Blk.WCH = (false, (credited (s.agt w)).die) ∧ (result = 1 ∨ result = 2))
    ∧ (∃ (s : State) (w : Who),
      Hears s w ∧ (credited (s.agt w)).recState = 3 ∧ (credited (s.agt w)).recLevel = 4 ∧ (credited (s.agt w)).levelLate = false ∧ (credited (s.agt w)).die.takeWait Blk.WCH = (false, (credited (s.agt w)).die))
    ∧ (∃ (s : State) (w : Who) (level : Nat),
      Hears s w ∧ ((credited (s.agt w)).recState ≠ 3 ∨ (credited (s.agt w)).recLevel ≠ level))
    ∧ (∃ (s : State) (w : Who) (level : Nat),
      Hears s w ∧ (credited (s.agt w)).recState = 3 ∧ (credited (s.agt w)).recLevel = level ∧ (credited (s.agt w)).levelLate = true ∧ (credited (s.agt w)).die.takeWait Blk.WCH = (false, (credited (s.agt w)).die))
    ∧ (∃ (s : State) (w : Who),
      Hears s w ∧ ((credited (s.agt w)).onDie fun d => d.fset Fl.AGT_HIF_STATUS_host_ready 1).recomputeSpace.reopen.castState ≠ 2 ∧ ((credited (s.agt w)).onDie fun d => d.fset Fl.AGT_HIF_STATUS_host_ready 1).recomputeSpace.reopen.recState = 0 ∧ (credited (s.agt w)).pins.rstN = true)
    ∧ (∃ (s : State) (w : Who),
      (s.agt w).pins.trayReqN = true)
    ∧ (∃ (s : State) (w : Who),
      (s.agt w).pins.trayReqN = false)
    ∧ (∃ (s : State) (w : Who),
      Up s w ∧ (s.agt w).die.fget Fl.WCH_STATUS_bind_off ≠ 0 ∧ (s.agt w).rcv.drained = false ∧ ((s.agt w).flow.tracker.any fun t => t.heldStatus.isNone) = false) :=
  ⟨⟨late1, .twd, by decide +kernel⟩,
    ⟨{ level1 with rcv := { level1.rcv with escalate := true } }, 2, by decide +kernel⟩,
    ⟨level1, by decide +kernel⟩,
    ⟨waiting 3 3 1000, .twd, 3, by decide +kernel⟩,
    ⟨waiting 1 3 1000, .twd, 1, by decide +kernel⟩,
    ⟨waiting 1 3 1000, .twd, 1, 1, by decide +kernel⟩,
    ⟨waiting 4 3 1000, .twd, 4, 2, by decide +kernel⟩,
    ⟨waiting 4 3 1000, .twd, by decide +kernel⟩,
    ⟨recovering 3 4, .twd, 3, by decide +kernel⟩,
    ⟨late1, .twd, 1, by decide +kernel⟩,
    ⟨up, .twd, by decide +kernel⟩,
    ⟨up, .twd, by decide +kernel⟩,
    ⟨twdIs fun a => { a with pins := { a.pins with trayReqN := false } }, .twd, by decide +kernel⟩,
    ⟨twdIs (Af [(Fl.WCH_STATUS_bind_off, 1)]), .twd, by decide +kernel⟩⟩

def dump1 : Dump :=
  { trigger := 0, level := 1, startNs := 0, blocks := [], todo := [], reads := [(3, 20, 1)], begunNs := 0, issuedNs := 1000,
    halves := [(20, 0, [])], shareFull := false, noKey := false }

/-- In a dump at this time, with a kept record. -/
def dumping (ns : Nat) : State :=
  twdIs fun a => let a := agtAt ns a
    { a with rcv := { a.rcv with dump := some dump1, records := [{ sequence := 2 ^ 32, bytes := [] }] } }

theorem witness_RecoveryCommandsAndDumps :
    (∃ (s : State) (w : Who) (level : Nat) (flags : Nat) (lv : Nat),
      Up s w ∧ (s.agt w).die.safe = false ∧ bitOf flags 1 = false ∧ 1 ≤ level ∧ level ≤ 5 ∧ ((s.agt w).isSwitch = false ∨ 4 ≤ level) ∧ (s.agt w).recLevel = 0 ∧ (s.agt w).levelFrom level = some lv)
    ∧ (∃ (s : State) (w : Who) (level : Nat) (flags : Nat) (lv : Nat),
      Up s w ∧ (s.agt w).die.safe = false ∧ bitOf flags 1 = false ∧ 1 ≤ level ∧ level ≤ 5 ∧ ((s.agt w).isSwitch = false ∨ 4 ≤ level) ∧ (s.agt w).recLevel = 0 ∧ (s.agt w).levelFrom level = some lv)
    ∧ (∃ (s : State) (w : Who) (level : Nat) (flags : Nat),
      Up s w ∧ (s.agt w).die.safe = false ∧ bitOf flags 1 = false ∧ 1 ≤ level ∧ level ≤ 5 ∧ ((s.agt w).isSwitch = false ∨ 4 ≤ level) ∧ level ≤ (s.agt w).recLevel)
    ∧ (∃ (s : State) (w : Who) (level : Nat) (flags : Nat) (lv : Nat),
      Up s w ∧ (s.agt w).die.safe = false ∧ bitOf flags 1 = false ∧ 1 ≤ level ∧ level ≤ 5 ∧ ((s.agt w).isSwitch = false ∨ 4 ≤ level) ∧ (s.agt w).recLevel ≠ 0 ∧ (s.agt w).recLevel < level ∧ (s.agt w).levelFrom level = some lv)
    ∧ (∃ (s : State) (w : Who) (level : Nat) (flags : Nat),
      Up s w ∧ (s.agt w).die.safe = false ∧ bitOf flags 1 = false ∧ (level = 0 ∨ 5 < level ∨ ((s.agt w).isSwitch = true ∧ level < 4)))
    ∧ (∃ (s : State) (w : Who) (level : Nat) (flags : Nat),
      Up s w ∧ (s.agt w).die.safe = false ∧ bitOf flags 1 = false ∧ (level = 0 ∨ 5 < level ∨ ((s.agt w).isSwitch = true ∧ level < 4)))
    ∧ (∃ (s : State) (w : Who) (level : Nat) (flags : Nat),
      Up s w ∧ (s.agt w).die.safe = false ∧ bitOf flags 1 = false ∧ (level = 0 ∨ 5 < level ∨ ((s.agt w).isSwitch = true ∧ level < 4)))
    ∧ (∃ (s : State) (w : Who) (tag : Nat) (blk : Nat) (data : Bytes) (lo : Bytes) (d : Dump),
      Up s w ∧ (s.agt w).rcv.dump = some d ∧ d.reads.find? (fun x => x.1 = tag) = some (tag, blk, 1) ∧ (s.agt w).die.takeWait Blk.WCH = (false, (s.agt w).die) ∧ data.length = 2048 ∧ (s.agt w).die.up ≤ d.issuedNs + 2000 ∧ d.halves.find? (fun x => x.1 = blk && x.2.1 = 0) = some (blk, 0, lo) ∧ d.halves.find? (fun x => x.1 = blk && x.2.1 = 1) = none)
    ∧ (∃ (s : State) (w : Who) (tag : Nat) (blk : Nat) (half : Nat) (d : Dump),
      Up s w ∧ (s.agt w).rcv.dump = some d ∧ d.reads.find? (fun x => x.1 = tag) = some (tag, blk, half) ∧ (s.agt w).die.takeWait Blk.WCH = (false, (s.agt w).die) ∧ d.issuedNs + 2000 < (s.agt w).die.up)
    ∧ (∃ (s : State) (w : Who),
      Up s w ∧ (s.agt w).rcv.dump = none)
    ∧ (∃ (s : State) (w : Who) (blk : Nat) (d : Dump),
      Up s w ∧ (s.agt w).rcv.dump = some d ∧ d.result blk = none ∧ blk < 16 ∧ d.begunNs + 2000 ≤ (s.agt w).die.up)
    ∧ (∃ (s : State) (w : Who) (blk : Nat) (d : Dump),
      Up s w ∧ (s.agt w).rcv.dump = some d ∧ d.result blk = none ∧ 16 ≤ blk ∧ d.reads.any (fun x => x.2.1 = blk) = true ∧ d.issuedNs + 2000 ≤ (s.agt w).die.up)
    ∧ (∃ (s : State) (blk : Nat) (d : Dump),
      On s ∧ s.ctl.rcv.dump = some d ∧ d.result blk = none ∧ blk < 108 ∧ d.begunNs + 2000 ≤ s.ctl.die.up)
    ∧ (∃ (s : State) (w : Who) (seq : Nat) (r : DumpRec),
      Up s w ∧ ((s.agt w).rcv.records.find? fun r => r.sequence % 2 ^ 32 = seq) = some r) :=
  ⟨⟨up, .twd, 1, 0, 1, by decide +kernel⟩,
    ⟨switch5, .twd, 4, 0, 4, by decide +kernel⟩,
    ⟨recovering 5 1, .twd, 5, 0, by decide +kernel⟩,
    ⟨recovering 1 3, .twd, 2, 0, 2, by decide +kernel⟩,
    ⟨up, .twd, 0, 0, by decide +kernel⟩,
    ⟨up, .twd, 6, 0, by decide +kernel⟩,
    ⟨switch5, .twd, 3, 0, by decide +kernel⟩,
    ⟨dumping 2990, .twd, 3, 20, List.replicate 2048 0, [], dump1, by decide +kernel⟩,
    ⟨dumping 3100, .twd, 3, 20, 1, dump1, by decide +kernel⟩,
    ⟨up, .twd, by decide +kernel⟩,
    ⟨dumping 2000, .twd, 15, dump1, by decide +kernel⟩,
    ⟨dumping 3100, .twd, 20, dump1, by decide +kernel⟩,
    ⟨ctlIs fun c => { ctlAt 2100 c with rcv := { c.rcv with dump := some dump1 } }, 107, dump1, by decide +kernel⟩,
    ⟨dumping 0, .twd, 0, { sequence := 2 ^ 32, bytes := [] }, by decide +kernel⟩⟩

/-! ## Patterns and cast-on -/

/-- A PATTERN_DATA worm of this stream, offset and file length whose payload is one flit. -/
def patWorm (stream off fileLen : Nat) : Worm :=
  { fwd0 with
    operand := le 8 0 ++ le 4 stream ++ le 4 off ++ le 4 fileLen ++ le 4 (crc32c (List.replicate (min 64 (fileLen - off)) 7)) ++ le 8 0,
    payload := List.replicate 64 7 }

/-- The packaged agent with this loader state and FID. -/
def loading (st : Nat) (f : Loader → Loader) : State :=
  twdIs fun a => let a := Af [(Fl.PAT_STATUS_state, st), (Fl.AGT_IDENT_fid, 5)] a; { a with die := { a.die with pat := f a.die.pat } }

/-- The controller with this loader state. -/
def ctlLoading (st : Nat) (f : Loader → Loader) : State :=
  ctlIs fun c => let c := Cf [(Fl.PAT_STATUS_state, st)] c; { c with die := { c.die with pat := f c.die.pat } }

theorem witness_PatternStream :
    (∃ (s : State) (w : Who) (wm : Worm),
      Up s w ∧ (s.agt w).die.fget Fl.PAT_STATUS_state = 0 ∧ Worm.opnd wm 12 4 = 0 ∧ (s.agt w).fid ≠ 0x3FFFF ∧ crc32c (slice wm.payload 0 (min wm.payload.length (min 2048 (Worm.opnd wm 16 4)))) = Worm.opnd wm 20 4)
    ∧ (∃ (s : State) (w : Who) (wm : Worm),
      Up s w ∧ (s.agt w).die.fget Fl.PAT_STATUS_state = 1 ∧ Worm.opnd wm 8 4 = (s.agt w).die.pat.stream ∧ Worm.opnd wm 12 4 = (s.agt w).die.pat.bytes.length ∧ crc32c (slice wm.payload 0 (min wm.payload.length (min 2048 (Worm.opnd wm 16 4 - Worm.opnd wm 12 4)))) = Worm.opnd wm 20 4)
    ∧ (∃ (s : State) (w : Who) (wm : Worm),
      Up s w ∧ (s.agt w).die.fget Fl.PAT_STATUS_state ≠ 0 ∧ Worm.opnd wm 12 4 = 0 ∧ Worm.opnd wm 8 4 ≠ (s.agt w).die.pat.stream)
    ∧ (∃ (s : State) (w : Who) (wm : Worm),
      Up s w ∧ (s.agt w).die.fget Fl.PAT_STATUS_state = 1 ∧ Worm.opnd wm 8 4 = (s.agt w).die.pat.stream ∧ Worm.opnd wm 12 4 < (s.agt w).die.pat.bytes.length)
    ∧ (∃ (s : State) (w : Who),
      Up s w ∧ (s.agt w).die.up < (s.agt w).die.pat.acceptedNs + 20000000)
    ∧ (∃ (s : State) (w : Who),
      Up s w ∧ (s.agt w).die.fget Fl.PAT_STATUS_state = 1 ∧ (s.agt w).die.pat.acceptedNs + 20000000 ≤ (s.agt w).die.up)
    ∧ (∃ (s : State) (w : Who),
      Up s w ∧ (s.agt w).regime = false ∧ (s.agt w).die.getN Reg.LKP_SLOT_FREE_AT ≠ 0 ∧ (s.agt w).die.getN Reg.LKP_SLOT_FREE_AT ≤ (s.agt w).die.ns)
    ∧ (∃ (s : State),
      On s ∧ Takes s.ctl.die Blk.PAT ∧ s.ctl.die.fget Fl.PAT_STATUS_state ≠ 0)
    ∧ (∃ (s : State) (c : Ctl) (b : Bytes),
      On s ∧ Takes s.ctl.die Blk.PAT ∧ s.ctl.die.fget Fl.PAT_STATUS_state = 0 ∧ s.ctl.memRead (s.ctl.die.getN Reg.PAT_SRC_ADDR) (s.ctl.die.getN Reg.PAT_SRC_LEN) = (c, b, false) ∧ 256 ≤ b.length)
    ∧ (∃ (s : State) (w : Who),
      Up s w ∧ Takes (s.agt w).die Blk.PAT ∧ 1 ≤ (s.agt w).die.fget Fl.PAT_STATUS_state ∧ (s.agt w).die.fget Fl.PAT_STATUS_state ≤ 3)
    ∧ (∃ (s : State),
      On s ∧ Takes s.ctl.die Blk.PAT ∧ 1 ≤ s.ctl.die.fget Fl.PAT_STATUS_state ∧ s.ctl.die.fget Fl.PAT_STATUS_state ≤ 3) :=
  ⟨⟨loading 0 id, .twd, patWorm 9 0 64, by decide +kernel⟩,
    ⟨loading 1 fun p => { p with stream := 9, bytes := List.replicate 64 7, fileLen := 65 }, .twd, patWorm 9 64 65, by decide +kernel⟩,
    ⟨loading 3 fun p => { p with stream := 8 }, .twd, patWorm 9 0 64, by decide +kernel⟩,
    ⟨loading 1 fun p => { p with stream := 9, bytes := List.replicate 65 7, fileLen := 65 }, .twd, patWorm 9 64 65, by decide +kernel⟩,
    ⟨twdIs (agtAt 19999990), .twd, by decide +kernel⟩,
    ⟨twdIs fun a => agtAt 20000000 (Af [(Fl.PAT_STATUS_state, 1)] a), .twd, by decide +kernel⟩,
    ⟨twdIs fun a => agtAt 1 ((Af [(Fl.AGT_CST_STATUS_cast_on_regime, 0)] a).onDie fun d => d.setN Reg.LKP_SLOT_FREE_AT 1), .twd, by decide +kernel⟩,
    ⟨ctlLoading 2 id, by decide +kernel⟩,
    ⟨ctlIs (fun c => c.onDie fun d => (d.setN Reg.PAT_SRC_ADDR 0).setN Reg.PAT_SRC_LEN 256), ((ctlIs (fun c => c.onDie fun d => (d.setN Reg.PAT_SRC_ADDR 0).setN Reg.PAT_SRC_LEN 256)).ctl.memRead ((ctlIs (fun c => c.onDie fun d => (d.setN Reg.PAT_SRC_ADDR 0).setN Reg.PAT_SRC_LEN 256)).ctl.die.getN Reg.PAT_SRC_ADDR) ((ctlIs (fun c => c.onDie fun d => (d.setN Reg.PAT_SRC_ADDR 0).setN Reg.PAT_SRC_LEN 256)).ctl.die.getN Reg.PAT_SRC_LEN)).1, ((ctlIs (fun c => (((ctlIs (fun c => c.onDie fun d => (d.setN Reg.PAT_SRC_ADDR 0).setN Reg.PAT_SRC_LEN 256)).ctl.memRead ((ctlIs (fun c => c.onDie fun d => (d.setN Reg.PAT_SRC_ADDR 0).setN Reg.PAT_SRC_LEN 256)).ctl.die.getN Reg.PAT_SRC_ADDR) ((ctlIs (fun c => c.onDie fun d => (d.setN Reg.PAT_SRC_ADDR 0).setN Reg.PAT_SRC_LEN 256)).ctl.die.getN Reg.PAT_SRC_LEN)).1).onDie fun d => (d.setN Reg.PAT_SRC_ADDR 0).setN Reg.PAT_SRC_LEN 256)).ctl.memRead ((ctlIs (fun c => (((ctlIs (fun c => c.onDie fun d => (d.setN Reg.PAT_SRC_ADDR 0).setN Reg.PAT_SRC_LEN 256)).ctl.memRead ((ctlIs (fun c => c.onDie fun d => (d.setN Reg.PAT_SRC_ADDR 0).setN Reg.PAT_SRC_LEN 256)).ctl.die.getN Reg.PAT_SRC_ADDR) ((ctlIs (fun c => c.onDie fun d => (d.setN Reg.PAT_SRC_ADDR 0).setN Reg.PAT_SRC_LEN 256)).ctl.die.getN Reg.PAT_SRC_LEN)).1).onDie fun d => (d.setN Reg.PAT_SRC_ADDR 0).setN Reg.PAT_SRC_LEN 256)).ctl.die.getN Reg.PAT_SRC_ADDR) ((ctlIs (fun c => (((ctlIs (fun c => c.onDie fun d => (d.setN Reg.PAT_SRC_ADDR 0).setN Reg.PAT_SRC_LEN 256)).ctl.memRead ((ctlIs (fun c => c.onDie fun d => (d.setN Reg.PAT_SRC_ADDR 0).setN Reg.PAT_SRC_LEN 256)).ctl.die.getN Reg.PAT_SRC_ADDR) ((ctlIs (fun c => c.onDie fun d => (d.setN Reg.PAT_SRC_ADDR 0).setN Reg.PAT_SRC_LEN 256)).ctl.die.getN Reg.PAT_SRC_LEN)).1).onDie fun d => (d.setN Reg.PAT_SRC_ADDR 0).setN Reg.PAT_SRC_LEN 256)).ctl.die.getN Reg.PAT_SRC_LEN)).2.1, by decide +kernel⟩,
    ⟨loading 3 id, .twd, by decide +kernel⟩,
    ⟨ctlLoading 1 id, by decide +kernel⟩⟩

def header1 : Header :=
  { magic := 0, version := 1, kind := 0, authKind := 0, scopeKind := 0, scopeValue := 0, epoch := 0, sequence := 1, length := 256,
    rowCount := 0, authLength := 0, rowsDigest := [], signerKey := 0, fwMin := 0, fwMax := 0, baseDigest := [], reservedZero := true }

def pattern1 (course : Nat) (imm : Bool) : Pattern :=
  { header := header1, headerBytes := [], rows := [], activateCourse := course, immediate := imm }

def staging (st course : Nat) (imm : Bool) : State :=
  twdIs fun a => { (loading st fun l => { l with pattern := some (pattern1 course imm) }).twd with fwd := { a.fwd with geom := some geom1 } }

def rowOf (t : Nat) (payload : Bytes) : Row :=
  { rtype := t, flags := 0, reserved := 0, targetKind := 0, target := 0, seq := 0, payload := payload, crc := 0 }

/-- An EPOCH row and an END row, the rows part's digest with them. -/
def patternE : Pattern :=
  { pattern1 0 false with header := { header1 with kind := 1, rowCount := 2, rowsDigest := digestBytes (Config.shake256 []) },
                          rows := [rowOf 0x11 [], rowOf 0x7F []] }

/-- A WATCH row that asks for timer 15, which has no owner by default. -/
def patternW : Pattern := { pattern1 0 true with header := { header1 with kind := 1 }, rows := [rowOf 0x0E (le 1 1 ++ le 1 15 ++ le 1 1 ++ List.replicate 21 0)] }

theorem fileFail_passes : fileFail patternE.header patternE.rows (rowsPart []) = none := by
  have h : rowsPart [] = [] := by decide
  have o : orderOk patternE.header patternE.rows = true := by decide
  simp [fileFail, h, o, firstFail]
  rfl

theorem begun_witness_PatternStaging :
    ∃ (s : State) (p : Pattern), Up s .twd ∧ s.twd.die.pat.pattern = some p ∧ s.twd.die.fget Fl.PAT_STATUS_state = 2 ∧ s.twd.fwd.mirrorWait = []
      ∧ s.twd.patRange p p.rows = none ∧ fileFail p.header p.rows (rowsPart s.twd.die.pat.bytes) = none ∧ s.twd.patFail p p.rows = none
      ∧ p.immediate = false ∧ s.twd.courseBegun p = true :=
  ⟨twdIs fun a => { (loading 2 fun l => { l with pattern := some patternE }).twd with fwd := { a.fwd with geom := some geom1 } }, patternE,
    by decide +kernel, rfl, by decide +kernel, rfl, by decide +kernel, fileFail_passes, by decide +kernel, rfl, by decide +kernel⟩

def ctlStaging (st course : Nat) (imm : Bool) : State := ctlLoading st fun l => { l with pattern := some (pattern1 course imm) }

theorem witness_PatternStaging :
    (∃ (s : State) (w : Who) (p : Pattern),
      Up s w ∧ (s.agt w).die.pat.pattern = some p ∧ (s.agt w).die.fget Fl.PAT_STATUS_state = 2 ∧ (s.agt w).fwd.mirrorWait = [] ∧ (s.agt w).patRange p p.rows = none ∧ ((p.immediate = true ∨ (s.agt w).courseBegun p = false)))
    ∧ (∃ (s : State) (w : Who) (p : Pattern),
      Up s w ∧ (s.agt w).die.pat.pattern = some p ∧ (s.agt w).die.fget Fl.PAT_STATUS_state = 2 ∧ (s.agt w).fwd.mirrorWait = [] ∧ (s.agt w).patRange p p.rows = none ∧ ((p.immediate = true ∨ (s.agt w).courseBegun p = false)))
    ∧ (∃ (s : State) (w : Who) (p : Pattern) (f : Nat × Nat),
      Up s w ∧ (s.agt w).die.pat.pattern = some p ∧ (s.agt w).die.fget Fl.PAT_STATUS_state = 2 ∧ (s.agt w).fwd.mirrorWait = [] ∧ (s.agt w).patRange p p.rows = some f)
    ∧ (∃ (s : State) (p : Pattern),
      On s ∧ s.ctl.die.pat.pattern = some p ∧ s.ctl.die.fget Fl.PAT_STATUS_state = 2 ∧ (p.immediate = true ∨ s.ctl.courseBegun p = false))
    ∧ (∃ (s : State) (w : Who) (p : Pattern) (d : Die),
      Up s w ∧ (s.agt w).die.pat.pattern = some p ∧ (s.agt w).die.fget Fl.PAT_STATUS_state = 3 ∧ (s.agt w).courseBegun p = true ∧ (s.agt w).die.takeWait Blk.PAT = (false, d))
    ∧ (∃ (s : State) (p : Pattern) (d : Die),
      On s ∧ s.ctl.die.pat.pattern = some p ∧ s.ctl.die.fget Fl.PAT_STATUS_state = 3 ∧ (p.immediate = true ∨ s.ctl.courseBegun p = true) ∧ s.ctl.die.takeWait Blk.PAT = (false, d))
    ∧ (∃ (a : Agt),
      a.die.safe = true)
    ∧ (∃ (a : Agt) (p : Pattern),
      a.die.safe = false ∧ a.shareInUse p = false)
    ∧ (∃ (c : Ctl),
      c.die.safe = true)
    ∧ (∃ (c : Ctl),
      c.die.safe = false ∧ c.kst.jobs = []) :=
  ⟨⟨staging 2 0 true, .twd, pattern1 0 true, by decide +kernel⟩,
    ⟨staging 2 1 false, .twd, pattern1 1 false, by decide +kernel⟩,
    ⟨loading 2 fun l => { l with pattern := some patternW }, .twd, patternW, (2, 0x43), by decide +kernel⟩,
    ⟨ctlStaging 2 0 true, pattern1 0 true, by decide +kernel⟩,
    ⟨staging 3 0 false, .twd, pattern1 0 false, ((staging 3 0 false).twd.die.takeWait Blk.PAT).2, by decide +kernel⟩,
    ⟨ctlStaging 3 0 true, pattern1 0 true, ((ctlStaging 3 0 true).ctl.die.takeWait Blk.PAT).2, by decide +kernel⟩,
    ⟨Af [(Fl.FLC_STATUS_safe, 1)] up.twd, by decide +kernel⟩,
    ⟨up.twd, pattern1 0 true, by decide +kernel⟩,
    ⟨Cf [(Fl.FLC_STATUS_safe, 1)] up.ctl, by decide +kernel⟩,
    ⟨up.ctl, by decide +kernel⟩⟩

def idBlock1 : IdBlock :=
  { fid := 9, mode := 0, lane := 2, bond := 1, state := 5, fwVersion := 0, linkLevel := 0, epochBit := 0, cls := 0, dieId := 77,
    patternDigest := 0, skew := 0, patCode := 0, patDetail := 0, fabricId := 0, patStream := 0, patNext := 0 }

def agent1 : AgentRec :=
  { fid := 9, dieId := 77, rack := 0, slot := 9, plane := 0, mode := 0, state := 5, named := true, lost := false, purl := true,
    linkLevel := 0, fwVersion := 0, epochBit := 0, digest := 0, level := 0, castOn := false, namedAt := 0, epoch := 0, immediateNs := 0,
    purlFenced := false, bound := 0, parent := 0, unmet := false, remap := [], sponsor := none, naming := false }

def stream1 : Stream :=
  { fid := 9, stream := 4, bytes := [], next := 0, reported := 0, via := none, digest := 0, immediate := false }

/-- The controller with agent 9 and a stream to it. -/
def knows (naming : Bool) : State :=
  ctlIs fun c => { c with cst := { c.cst with
    agents := [(9, { agent1 with naming := naming })], streams := [stream1], reports := [(3, [1], idBlock1, 0)] } }

/-- The same with agent 9's naming accepted a second ago. -/
def knows1s : State := { knows true with ctl := ctlAt 1000000000 (knows true).ctl }

theorem witness_NamingReports :
    (∃ (s : State) (fid : Nat) (lanes : List Nat) (near : AgentRec),
      On s ∧ ((s.ctl.cst.agents.map (·.2)).find? fun a => a.fid = fid && a.named && !a.lost) = some near ∧ lanes ≠ [])
    ∧ (∃ (s : State) (dieId : Nat) (a : AgentRec) (r : Nat × List Nat × IdBlock × Nat),
      On s ∧ a.namedAt + 1000000000 ≤ s.ctl.die.up ∧ ((s.ctl.cst.agents.map (·.2)).find? fun a => a.dieId = dieId && a.naming) = some a ∧ (s.ctl.cst.reports.filter fun r => r.2.2.1.dieId = dieId).getLast? = some r)
    ∧ (∃ (s : State) (fid : Nat) (st : Stream),
      On s ∧ s.ctl.streamOf fid = some st)
    ∧ (tget (knows false).ctl.cst.agents 9 = some agent1 ∧ agent1.naming = false
      ∧ stream1.digest = leNat ((digestBytes 0).take 16)) :=
  ⟨⟨knows false, 9, [3], agent1, by decide +kernel⟩,
    ⟨knows1s, 77, { agent1 with naming := true }, (3, [1], idBlock1, 0), by decide +kernel⟩,
    ⟨knows false, 9, stream1, by decide +kernel⟩,
    by decide +kernel⟩

/-- After self test of a part whose lanes 0 to 2 and 67 do not work. -/
def tested (bad : List Nat) : Agt :=
  let b : Agt := (twdIs (Af [(Fl.AGT_CST_STATUS_state, 1)])).twd.mapPurl []
  { b with cast := { b.cast with banks := working 68 64 bad, ucieMap := [] } }

def moduleAt (f st : Nat) : State :=
  twdIs fun a => { a with cast := { a.cast with modules := [0, 0, 0, 0, 0, 0, 0, st] },
                          die := { a.die with resource := { a.die.resource with ucie := [1, 1, 1, 1, 1, 1, 1, f] } } }

theorem witness_AgentReset :
    (∃ (s : State) (w : Who) (modeSel : Nat),
      (s.agt w).pins.rstN = false ∧ ((s.agt w).die.part = .embedded ∨ modeSel % 4 < 2))
    ∧ (∃ (s : State) (w : Who) (modeSel : Nat),
      (s.agt w).pins.rstN = false ∧ (s.agt w).die.part ≠ .embedded ∧ 2 ≤ modeSel % 4)
    ∧ (let s := twdIs (Af [(Fl.AGT_CST_STATUS_state, 1)]);
      Up s .twd ∧ s.twd.castState = 1 ∧ (working 68 64 [0, 1, 2, 67]).length = 64 ∧ (tested [0, 1, 2, 67]).die.fget Fl.AGT_BOOT_rom_result ≠ 3)
    ∧ (∃ (s : State) (w : Who) (r : SelfTest),
      Up s w ∧ (s.agt w).castState = 1 ∧ ((working 68 64 r.badBanks).length < 64 ∨ r.badUcie ≠ []))
    ∧ (∃ (s : State) (w : Who) (r : SelfTest),
      Up s w ∧ (s.agt w).castState = 1 ∧ ((working 68 64 r.badBanks).length < 64 ∨ r.badUcie ≠ []))
    ∧ (∃ (s : State) (w : Who) (k : Nat),
      Up s w ∧ (s.agt w).cast.modules.getD k 0 = 1)
    ∧ (∃ (s : State) (w : Who) (k : Nat),
      Up s w ∧ k < 8 ∧ (s.agt w).cast.modules.getD k 0 ≠ 3 ∧ (s.agt w).die.resource.ucie.getD k 0 ≠ 0 ∧ (s.agt w).die.resource.ucie.getD k 0 ≠ 3)
    ∧ (∃ (s : State) (w : Who) (k : Nat),
      Up s w ∧ k < 8 ∧ (s.agt w).cast.modules.getD k 0 ≠ 3 ∧ (s.agt w).die.resource.ucie.getD k 0 = 3) :=
  ⟨⟨State.reset, .twd, 5, by decide +kernel⟩,
    ⟨State.reset, .twd, 6, by decide +kernel⟩,
    by decide +kernel,
    ⟨twdIs (Af [(Fl.AGT_CST_STATUS_state, 1)]), .twd, { badLanes := [], badBanks := [0, 1, 2, 3, 4], badUcie := [], ucieMap := [] }, by decide +kernel⟩,
    ⟨twdIs (Af [(Fl.AGT_CST_STATUS_state, 1)]), .twd, { badLanes := [], badBanks := [], badUcie := [448], ucieMap := [] }, by decide +kernel⟩,
    ⟨moduleAt 1 1, .twd, 7, by decide +kernel⟩,
    ⟨moduleAt 1 1, .twd, 7, by decide +kernel⟩,
    ⟨moduleAt 3 2, .twd, 7, by decide +kernel⟩⟩

/-- A lane in this state on bond 3, training from here, its next retry at this time. -/
def lane3 (st : Nat) (ready : Bool) (tr : Option TrainSrc := none) (retry : Nat := 0) : Lane :=
  { state := st, cls := 0, source := 0, bond := 3, trainings := 0, detail := 0, eyeH := 0, eyeW := 0, savedH := 0, savedW := 0,
    settings := [], far := none, ready := ready, retryNs := retry, training := tr }

/-- The packaged agent, a switch, with this lane 3 and these active lanes of bond 3. -/
def laned (l : Lane) (act : List Nat) : State :=
  twdIs fun a => let a := named 1 a; { a with fwd := { a.fwd with lanes := [(3, l)], bonds := [(3, { bond3 with active := act })] } }

/-- The embedded agent with this lane 3. -/
def elaned (l : Lane) : State := { up with emb := { up.emb with fwd := { up.emb.fwd with lanes := [(3, l)] } } }

theorem witness_Lanes :
    (∃ (s : State) (lane : Nat) (src : TrainSrc),
      (¬ ((s.emb.lane lane).state = 1 ∧ (s.emb.lane lane).training = some src)))
    ∧ (∃ (s : State) (lane : Nat) (src : TrainSrc),
      (s.emb.lane lane).state = 1 ∧ (s.emb.lane lane).training = some src)
    ∧ (∃ (s : State) (l : Nat) (h : Nat) (w : Nat) (src : TrainSrc),
      (s.twd.lane l).state = 1 ∧ (s.twd.lane l).training = some src ∧ eyeOk src (s.twd.lane l) h w = true)
    ∧ (∃ (s : State) (l : Nat) (h : Nat) (w : Nat) (src : TrainSrc),
      (s.twd.lane l).state = 1 ∧ (s.twd.lane l).training = some src ∧ eyeOk src (s.twd.lane l) h w = true)
    ∧ (∃ (s : State) (l : Nat) (h : Nat) (w : Nat) (src : TrainSrc),
      (s.twd.lane l).state = 1 ∧ (s.twd.lane l).training = some src ∧ eyeOk src (s.twd.lane l) h w = false)
    ∧ (∃ (s : State) (l : Nat) (h : Nat) (w : Nat) (src : TrainSrc),
      (s.twd.lane l).state = 1 ∧ (s.twd.lane l).training = some src ∧ eyeOk src (s.twd.lane l) h w = false)
    ∧ (∃ (s : State) (l : Nat) (h : Nat) (w : Nat) (src : TrainSrc),
      (s.emb.lane l).state = 1 ∧ (s.emb.lane l).training = some src ∧ eyeOk src (s.emb.lane l) h w = true)
    ∧ (∃ (s : State) (a : Who) (l : Nat) (src : TrainSrc),
      (((s.agt a).lane l).state ≠ 1 ∨ ((s.agt a).lane l).training ≠ some src))
    ∧ (∃ (s : State) (w : Who) (l : Nat),
      Up s w ∧ (s.agt w).die.up < ((s.agt w).lane l).retryNs)
    ∧ (∃ (s : State) (w : Who) (l : Nat),
      Up s w ∧ ((s.agt w).lane l).retryNs ≤ (s.agt w).die.up ∧ ((s.agt w).lane l).state = 5)
    ∧ (∃ (s : State) (w : Who) (l : Nat),
      Up s w ∧ ((s.agt w).lane l).retryNs ≤ (s.agt w).die.up ∧ ((s.agt w).lane l).state = 0 ∧ 0 < ((s.agt w).lane l).retryNs)
    ∧ (∃ (s : State) (w : Who) (l : Nat),
      Up s w ∧ ((s.agt w).lane l).ready = true ∧ ((s.agt w).lane l).state = 2)
    ∧ (∃ (s : State) (w : Who) (l : Nat) (b : Bond),
      Up s w ∧ ((s.agt w).lane l).trained = true ∧ tget (s.agt w).fwd.bonds ((s.agt w).lane l).bond = some b ∧ b.active.contains l = true ∧ 1 < b.active.length ∧ ((s.agt w).lane l).far = none)
    ∧ (∃ (s : State) (w : Who) (l : Nat) (b : Bond),
      Up s w ∧ ((s.agt w).lane l).trained = true ∧ tget (s.agt w).fwd.bonds ((s.agt w).lane l).bond = some b ∧ b.active = [l] ∧ ((s.agt w).lane l).far = none)
    ∧ (∃ (s : State) (w : Who),
      Up s w ∧ Takes (s.agt w).die Blk.LNK ∧ (s.agt w).die.bget Reg.LNK_LANE_SEL 7 0 < (s.agt w).laneCount ∧ [0, 2, 5].contains ((s.agt w).lane ((s.agt w).die.bget Reg.LNK_LANE_SEL 7 0)).state = true)
    ∧ (∃ (s : State),
      On s ∧ Up s .emb ∧ Takes s.ctl.die Blk.FAB ∧ s.ctl.die.bget Reg.FAB_LANE_SEL 4 0 < s.emb.laneCount ∧ [0, 2, 5].contains (s.emb.lane (s.ctl.die.bget Reg.FAB_LANE_SEL 4 0)).state = true) :=
  ⟨⟨elaned (lane3 5 false), 3, .boot, by decide +kernel⟩,
    ⟨elaned (lane3 1 false (some .full)), 3, .full, by decide +kernel⟩,
    ⟨laned (lane3 1 false (some .boot)) [], 3, 30, 256, .boot, by decide +kernel⟩,
    ⟨laned (lane3 1 false (some .full)) [], 3, 40, 358, .full, by decide +kernel⟩,
    ⟨laned (lane3 1 false (some .full)) [], 3, 40, 357, .full, by decide +kernel⟩,
    ⟨laned (lane3 1 false (some .boot)) [], 3, 29, 256, .boot, by decide +kernel⟩,
    ⟨elaned (lane3 1 false (some .saved)), 3, 0, 0, .saved, by decide +kernel⟩,
    ⟨laned (lane3 2 false) [], .twd, 3, .saved, by decide +kernel⟩,
    ⟨laned (lane3 5 false none 1) [], .twd, 3, by decide +kernel⟩,
    ⟨laned (lane3 5 false) [], .twd, 3, by decide +kernel⟩,
    ⟨twdIs fun _ => agtAt 10 (laned (lane3 0 false none 10) []).twd, .twd, 3, by decide +kernel⟩,
    ⟨laned (lane3 2 true) [], .twd, 3, by decide +kernel⟩,
    ⟨laned (lane3 2 false) [3, 4], .twd, 3, { bond3 with active := [3, 4] }, by decide +kernel⟩,
    ⟨laned (lane3 4 false) [3], .twd, 3, { bond3 with active := [3] }, by decide +kernel⟩,
    ⟨twdIs fun a => (named 1 a).onDie fun d => d.bset Reg.LNK_LANE_SEL 7 0 175, .twd, by decide +kernel⟩,
    ⟨{ (ctlIs fun c => c.onDie fun d => d.bset Reg.FAB_LANE_SEL 4 0 31) with emb := Af [(Fl.AGT_IDENT_mode, 2)] up.emb }, by decide +kernel⟩⟩

def blkOf (fabric : Nat) : IdBlock := { idBlock1 with fabricId := fabric }

theorem witness_IdentityAndKeys :
    (∃ (s : State) (w : Who) (l : Nat),
      Up s w ∧ ((s.agt w).lane l).trained = true)
    ∧ (∃ (a : Agt) (blk : IdBlock),
      blk.fabricId ≠ 0 ∧ a.die.getN Reg.AGT_FABRIC_ID ≠ 0 ∧ blk.fabricId ≠ a.die.getN Reg.AGT_FABRIC_ID)
    ∧ (∃ (a : Agt) (l : Nat) (blk : IdBlock),
      blk.fabricId = 0 ∧ (a.lane l).state = 2 ∧ levelsMeet a.die.fw.linkLevel blk.linkLevel = false)
    ∧ (∃ (s : State) (w : Who) (wm : Worm),
      Up s w ∧ markPriv (wormMark wm) = 2 ∧ (s.agt w).castState = 3)
    ∧ (∃ (s : State) (w : Who) (wm : Worm),
      Up s w ∧ markPriv (wormMark wm) ≠ 2)
    ∧ (∃ (s : State) (w : Who) (wm : Worm),
      Up s w ∧ markPriv (wormMark wm) = 2 ∧ (s.agt w).castState ≠ 3) :=
  ⟨⟨laned (lane3 2 false) [3], .twd, 3, by decide +kernel⟩,
    ⟨up.twd.onDie fun d => d.setN Reg.AGT_FABRIC_ID 8, blkOf 7, by decide +kernel⟩,
    ⟨(laned (lane3 2 false) [3]).twd, 3, { idBlock1 with linkLevel := 2 }, by decide +kernel⟩,
    ⟨twdIs (Af [(Fl.AGT_CST_STATUS_state, 3)]), .twd, { fwd0 with operand := le 8 (2 * 2 ^ 26) ++ List.replicate 24 0 }, by decide +kernel⟩,
    ⟨up, .twd, fwd0, by decide +kernel⟩,
    ⟨up, .twd, { fwd0 with operand := le 8 (2 * 2 ^ 26) ++ List.replicate 24 0 }, by decide +kernel⟩⟩

/-! ## Cast-on steps and Plumb -/

/-- The controller running step k. -/
def atStep (k : Nat) : State := ctlIs fun c => { c with cst := { c.cst with running := some (k, false) } }

/-- What the work of step k of it finds when the step is said to be done. -/
def workOf4 (k : Nat) : Ctl × Nat × Nat :=
  ({ (atStep k).ctl with die := ((atStep k).ctl.die.takeWait Blk.CST).2 } : Ctl).stepWork (atStep k).emb k false
    (({ (atStep k).ctl with die := ((atStep k).ctl.die.takeWait Blk.CST).2 } : Ctl).trainedFully k false false) []

/-- Step 7 since tick 0, at a tick, with no agent. -/
def step7 (tick : Nat) : State := ctlIs fun c => { c.onDie (fun d => { d with clk := { d.clk with tick := tick } }) with
    cst := { c.cst with running := some (7, false) } }

theorem witness_CastOnSteps :
    (∃ (s : State) (val : Word) (code : Nat),
      On s ∧ bitOf val.toNat 4 = true ∧ 1 ≤ bitsOf val.toNat 3 0 ∧ bitsOf val.toNat 3 0 ≤ 10 ∧ s.ctl.die.blockFenced Blk.CST = false ∧ s.ctl.stepRefusal (bitsOf val.toNat 3 0) = some code)
    ∧ (∃ (s : State) (val : Word),
      On s ∧ bitOf val.toNat 4 = true ∧ bitsOf val.toNat 3 0 = 3 ∧ s.ctl.die.blockFenced Blk.CST = false ∧ s.ctl.stepRefusal 3 = none)
    ∧ (∃ (c : Ctl),
      c.die.safe = true)
    ∧ (∃ (c : Ctl) (k : Nat),
      c.die.safe = false ∧ 2 ≤ k ∧ c.stepDone (k - 1) = false)
    ∧ (∃ (s : State) (k : Nat) (full : Bool),
      On s ∧ Takes s.ctl.die Blk.CST ∧ s.ctl.cst.running = some (k, full))
    ∧ (∃ (s : State) (k : Nat) (own : Nat) (ownDetail : Nat) (full : Bool) (fully : Bool) (defects : List Nat) (d : Die) (c' : Ctl),
      On s ∧ s.ctl.cst.running = some (k, full) ∧ s.ctl.stepBusy k = false ∧ s.ctl.die.takeWait Blk.CST = (false, d) ∧ ({ s.ctl with die := d } : Ctl).stepWork s.emb k full (({ s.ctl with die := d } : Ctl).trainedFully k full fully) defects = (c', own, ownDetail) ∧ own ≠ 0 ∧ k ≠ 7)
    ∧ (∃ (s : State) (k : Nat) (full : Bool) (fully : Bool) (defects : List Nat) (d : Die) (c' : Ctl),
      On s ∧ s.ctl.cst.running = some (k, full) ∧ s.ctl.stepBusy k = false ∧ s.ctl.die.takeWait Blk.CST = (false, d) ∧ ({ s.ctl with die := d } : Ctl).stepWork s.emb k full (({ s.ctl with die := d } : Ctl).trainedFully k full fully) defects = (c', 0, 0))
    ∧ (∃ (s : State) (k : Nat) (full : Bool),
      On s ∧ s.ctl.cst.running = some (k, full) ∧ s.ctl.stepBusy k = true)
    ∧ (∃ (s : State) (k : Nat) (full : Bool),
      On s ∧ s.ctl.cst.running = some (k, full) ∧ k ≠ 7 ∧ k ≠ 8)
    ∧ (∃ (s : State) (full : Bool),
      On s ∧ s.ctl.cst.running = some (7, full))
    ∧ (∃ (s : State) (full : Bool),
      On s ∧ s.ctl.cst.running = some (8, full) ∧ s.emb.plbState = 2)
    ∧ (∃ (s : State) (full : Bool),
      On s ∧ s.ctl.cst.running = some (8, full) ∧ s.emb.plbState ≠ 2)
    ∧ (∃ (s : State) (full : Bool),
      On s ∧ s.ctl.cst.running = some (7, full) ∧ s.ctl.cst.lastNaming + 156250000 * s.ctl.die.fget Fl.CST_CFG_quiet_s ≤ s.ctl.die.clk.tick ∧ ((∀ p ∈ s.ctl.cst.agents, (p.2.named = true ∨ p.2.naming = true) → p.2.lost = false → 5 ≤ p.2.state)))
    ∧ (∃ (s : State) (full : Bool),
      On s ∧ s.ctl.cst.running = some (7, full) ∧ s.ctl.die.clk.tick < s.ctl.cst.lastNaming + 156250000 * s.ctl.die.fget Fl.CST_CFG_quiet_s)
    ∧ (∃ (code : Nat),
      code ≠ 0) :=
  ⟨⟨up, 0x1A, 0xF1, by decide +kernel⟩,
    ⟨ctlIs (fun c => c.setStep 2 2 0 0 0 0), 0x13, by decide +kernel⟩,
    ⟨Cf [(Fl.FLC_STATUS_safe, 1)] up.ctl, by decide +kernel⟩,
    ⟨up.ctl, 2, by decide +kernel⟩,
    ⟨atStep 1, 1, false, by decide +kernel⟩,
    ⟨atStep 4, 4, 0x30, 1, false, false, [], ((atStep 4).ctl.die.takeWait Blk.CST).2, (workOf4 4).1, by decide +kernel⟩,
    ⟨atStep 3, 3, false, false, [], ((atStep 3).ctl.die.takeWait Blk.CST).2, (workOf4 3).1, by decide +kernel⟩,
    ⟨ctlIs fun c => { (atStep 6).ctl with base := none }, 6, false, by decide +kernel⟩,
    ⟨atStep 9, 9, false, by decide +kernel⟩,
    ⟨atStep 7, false, by decide +kernel⟩,
    ⟨{ atStep 8 with emb := Af [(Fl.PLB_STATUS_state, 2)] up.emb }, false, by decide +kernel⟩,
    ⟨atStep 8, false, by decide +kernel⟩,
    ⟨step7 (156250000 * up.ctl.die.fget Fl.CST_CFG_quiet_s), false, by decide +kernel⟩,
    ⟨step7 (156250000 * up.ctl.die.fget Fl.CST_CFG_quiet_s - 1), false, by decide +kernel⟩,
    ⟨1, by decide +kernel⟩⟩

/-- The packaged agent named 5 with this Plumb record on bond 3, its parent in use, and this state of its follower. -/
def plumbed (st : Nat) (alt : Nat) (l : Link) : State :=
  twdIs fun a =>
    let a := Af [(Fl.PLB_STATUS_state, st), (Fl.PLB_STATUS_parent_in_use, 3)] (named 1 a)
    let a := a.onDie fun d => d.setN Reg.PLB_PARENT (3 + alt * 2 ^ 8 + 0xFF * 2 ^ 16)
    { a with fwd := { a.fwd with bonds := [(3, { bond3 with link := l }), (4, { bond3 with link := { l with state := 2, farState := 8 } })] } }

/-- A probe to FID `dst` that echoes this time. -/
def probe (dst echo : Nat) : Worm :=
  sealHead { wm0 with cls := 3, op := 0xC1, dstFid := dst, operand := le 10 1000 ++ le 1 8 ++ le 1 3 ++ le 10 900 ++ le 10 echo }

def heard : Link := { Link.new 0 with sentCur := 800 }
def missed2 : Link := { Link.new 0 with missed := 2 }

/-- The agent after it took in `probe 5 800` with a stamp of 0, and the offset found. -/
def tookProbe (a : Agt) (b : Bond) : Agt × Int :=
  let wm := probe 5 800
  let a := a.modLink 3 (heardProbe b.link (Worm.opnd wm 10 1 % 16) (stampOf 0) (Worm.opnd wm 0 10))
  let e := exchange (Worm.opnd wm 0 10) (stampOf 0) (Worm.opnd wm 22 10) (Worm.opnd wm 12 10) (a.asym b)
  (a.tookExchange 3 e.1 e.2, e.2)

theorem witness_PlumbProbes :
    (∃ (s : State) (w : Who) (t : Nat),
      Up s w ∧ (s.agt w).probeInstant = some t ∧ (s.agt w).fid ≠ 0x3FFFF ∧ (s.agt w).lastProbe ≠ some t ∧ tget (s.agt w).fwd.bonds (s.agt w).parentBond = none ∧ (s.agt w).plbState ≠ 3)
    ∧ (∃ (s : State) (w : Who),
      Up s w ∧ (s.agt w).probeInstant = none)
    ∧ (∃ (s : State) (w : Who) (t : Nat),
      Up s w ∧ (s.agt w).probeInstant = some t ∧ (((s.agt w).fid = 0x3FFFF ∨ (s.agt w).lastProbe = some t)))
    ∧ (∃ (s : State) (w : Who) (n : Nat) (wm : Worm) (b : Bond),
      Up s w ∧ headerFault wm (syndromeOf wm) = false ∧ (s.agt w).fid ≠ 0x3FFFF ∧ wm.dstFid = (s.agt w).fid ∧ tget (s.agt w).fwd.bonds n = some b ∧ b.link.echoes (Worm.opnd wm 22 10) = false)
    ∧ (let s := plumbed 2 4 heard; let b : Bond := { bond3 with link := heard };
      Up s .twd ∧ headerFault (probe 5 800) (syndromeOf (probe 5 800)) = false ∧ s.twd.fid ≠ 0x3FFFF ∧ (probe 5 800).dstFid = s.twd.fid
        ∧ tget s.twd.fwd.bonds 3 = some b ∧ b.link.echoes (Worm.opnd (probe 5 800) 22 10) = true
        ∧ ((tookProbe s.twd b).1.modLink 3 id).fid = 5)
    ∧ (∃ (s : State) (w : Who) (wm : Worm),
      Up s w ∧ headerFault wm (syndromeOf wm) = false ∧ (s.agt w).fid ≠ 0x3FFFF ∧ wm.dstFid ≠ (s.agt w).fid)
    ∧ (∃ (s : State) (w : Who) (n : Nat) (b : Bond) (x : Bond),
      Up s w ∧ (s.agt w).parentBond < 0xFE ∧ tget (s.agt w).fwd.bonds (s.agt w).parentBond = some b ∧ ((2 ≤ b.link.missed ∨ b.link.stopped = true)) ∧ (((s.agt w).plbState = 1 ∨ (s.agt w).plbState = 2)) ∧ (s.agt w).alternates = [n] ∧ n ≠ (s.agt w).parentBond ∧ tget (s.agt w).fwd.bonds n = some x ∧ x.link.state = 2 ∧ bitOf x.link.farState 3 = true)
    ∧ (∃ (s : State) (w : Who) (b : Bond),
      Up s w ∧ (s.agt w).parentBond < 0xFE ∧ tget (s.agt w).fwd.bonds (s.agt w).parentBond = some b ∧ ((2 ≤ b.link.missed ∨ b.link.stopped = true)) ∧ (((s.agt w).plbState = 1 ∨ (s.agt w).plbState = 2)) ∧ (s.agt w).alternates = [])
    ∧ (∃ (s : State) (w : Who),
      Up s w ∧ (s.agt w).plbState = 3 ∧ (s.agt w).die.bget Reg.PLB_WINDOW 15 8 ≤ (s.agt w).die.fget Fl.PLB_STATUS_holdover_periods) :=
  ⟨⟨twdIs (named 0), .twd, 4 * 2 ^ 16, by decide +kernel⟩,
    ⟨twdIs (agtAt 10), .twd, by decide +kernel⟩,
    ⟨up, .twd, 4 * 2 ^ 16, by decide +kernel⟩,
    ⟨plumbed 2 4 (Link.new 0), .twd, 3, probe 5 0, bond3, by decide +kernel⟩,
    by decide +kernel,
    ⟨plumbed 2 4 (Link.new 0), .twd, probe 6 0, by decide +kernel⟩,
    ⟨plumbed 2 4 missed2, .twd, 4, { bond3 with link := missed2 }, { bond3 with link := { missed2 with state := 2, farState := 8 } }, by decide +kernel⟩,
    ⟨plumbed 2 0xFF missed2, .twd, { bond3 with link := missed2 }, by decide +kernel⟩,
    ⟨twdIs fun a => (Af [(Fl.PLB_STATUS_state, 3), (Fl.PLB_STATUS_holdover_periods, 8)] a).onDie fun d => d.bset Reg.PLB_WINDOW 15 8 8, .twd, by decide +kernel⟩⟩

/-- The controller's PLB_MASTER_CTL. -/
def mastered (mode : Nat) : State := ctlIs fun c => c.onDie fun d => d.bset Reg.PLB_MASTER_CTL 0 0 mode

def loLock : State := ctlIs (Cf [(Fl.CTL_LOCK_plumb, 1)])
def loHeld : HeldWrite := { path := .jtag, key := Reg.PLB_MASTER_LOAD_LO, val := 7 }

def trigs (n : Nat) : State := ctlIs fun c => { c with die := { c.die with trig := List.replicate n 0 } }

/-- A pin that marks every 2^16th course. -/
def marking : State :=
  twdIs fun a =>
    let a := a.onDie fun d => d.bset Reg.PLB_IO_CFG 4 0 16
    { a with die := { a.die with resource := { a.die.resource with plumbIo := 1 } } }

theorem witness_PlumbTime :
    (∃ (s : State) (w : Who),
      Up s w ∧ Takes (s.agt w).die Blk.PLB ∧ (s.agt w).tenant = none ∧ (s.agt w).fwd.course = [])
    ∧ (∃ (s : State) (w : Who),
      Up s w ∧ Takes (s.agt w).die Blk.PLB ∧ (s.agt w).tenant ≠ none)
    ∧ (∃ (s : State) (w : Who) (val : Word),
      Up s w ∧ Takes (s.agt w).die Blk.PLB ∧ bitsOf val.toNat 7 0 ≠ 0xFE)
    ∧ (∃ (s : State) (w : Who) (val : Word),
      Up s w ∧ Takes (s.agt w).die Blk.PLB ∧ bitsOf val.toNat 7 0 = 0xFE ∧ (s.agt w).mode ≠ 2)
    ∧ (∃ (s : State) (val : Word),
      On s ∧ Takes s.ctl.die Blk.PLB ∧ val.toNat % 2 = 1)
    ∧ (∃ (s : State) (val : Word),
      On s ∧ Takes s.ctl.die Blk.PLB ∧ val.toNat % 2 = 0 ∧ s.ctl.follows = true)
    ∧ (∃ (s : State),
      On s ∧ Takes s.ctl.die Blk.PLB ∧ s.ctl.die.fget Fl.CTL_LOCK_plumb = 1 ∧ s.ctl.die.heldLoad none = none)
    ∧ (∃ (s : State),
      On s ∧ Takes s.ctl.die Blk.PLB ∧ s.ctl.die.fget Fl.CTL_LOCK_plumb ≠ 1 ∧ s.ctl.die.heldLoad none = none)
    ∧ (∃ (s : State) (h : HeldWrite),
      On s ∧ Takes s.ctl.die Blk.PLB ∧ s.ctl.die.fget Fl.CTL_LOCK_plumb ≠ 1 ∧ s.ctl.die.heldLoad none = some h)
    ∧ (∃ (s : State),
      On s ∧ Takes s.ctl.die Blk.PLB ∧ s.ctl.follows = true)
    ∧ (∃ (s : State),
      On s ∧ Takes s.ctl.die Blk.PLB ∧ s.ctl.follows = false)
    ∧ (∃ (s : State),
      On s ∧ s.ctl.die.trig.length < 16)
    ∧ (∃ (s : State),
      On s ∧ 16 ≤ s.ctl.die.trig.length)
    ∧ (∃ (s : State) (w : Who),
      Up s w ∧ (s.agt w).die.resource.plumbIo ≠ 2)
    ∧ (∃ (s : State) (course : Nat),
      On s ∧ course % 2 ^ (min 16 (s.ctl.die.bget Reg.PLB_IO_CFG 4 0)) = 0)
    ∧ (∃ (s : State) (w : Who) (course : Nat),
      Up s w ∧ (s.agt w).die.resource.plumbIo = 1 ∧ course % 2 ^ (min 16 ((s.agt w).die.bget Reg.PLB_IO_CFG 4 0)) ≠ 0) :=
  ⟨⟨up, .twd, by decide +kernel⟩,
    ⟨switch5, .twd, by decide +kernel⟩,
    ⟨up, .twd, 0x103, by decide +kernel⟩,
    ⟨switch5, .twd, 0xFE, by decide +kernel⟩,
    ⟨up, 3, by decide +kernel⟩,
    ⟨mastered 1, 2, by decide +kernel⟩,
    ⟨loLock, by decide +kernel⟩,
    ⟨up, by decide +kernel⟩,
    ⟨ctlIs fun c => { c with die := { c.die with held := [loHeld] } }, loHeld, by decide +kernel⟩,
    ⟨mastered 1, by decide +kernel⟩,
    ⟨mastered 0, by decide +kernel⟩,
    ⟨trigs 15, by decide +kernel⟩,
    ⟨trigs 16, by decide +kernel⟩,
    ⟨up, .twd, by decide +kernel⟩,
    ⟨up, 0, by decide +kernel⟩,
    ⟨marking, .twd, 65535, by decide +kernel⟩⟩
/-! ## Purl, tap, meter -/

/-- A COURSE entry of slot 5 of course 0. -/
def course1 (action outBond inBond : Nat) : CourseEnt :=
  { course := 0, slot := 5, outBond := outBond, action := action, collective := 77, partition := 7, inBond := inBond }

def purlEnt1 : PurlEnt :=
  { collective := 77, partition := 7, op := 0, inFmt := 0, outFmt := 0, rounding := 0, overflow := 0, divisor := 1, seed := 0,
    elements := 2, fanIn := 2, laneBase := 0, laneCount := 4, storeOffset := 0, storeBytes := 4096 }

def desc1 (cs : List Chunk) : Desc :=
  { ent := purlEnt1, ended := false, chunks := cs, slots := 1, flags := 0, rounded := 0, incompleteSteps := [], taken := [] }

def chunk1 : Chunk :=
  { slot := 0, chunk := 0, step := 0, parent := 0xFF, inputs := [3], sent := [], nextSeg := 0, inputRange := false, state := 3,
    result := some (0, 2) }

/-- A chain-locked agent of this mode with one COURSE entry and these chunks. -/
def purling (mode : Nat) (x : CourseEnt) (cs : List Chunk) : State :=
  twdIs fun a =>
    let a := Af [(Fl.PLB_STATUS_chain_locked, 1)] (named mode a)
    { a with fwd := { a.fwd with course := [x] }, purl := { a.purl with descs := [(0, desc1 cs)], map := List.range 4 } }

/-- An input of chunk 0 of collective 77. -/
def input1 : Worm := { wm0 with cls := 3, op := 0xC2, partition := 7, length := 1, operand := le 4 77 ++ List.replicate 28 0 }

/-- The same with a geometry, so that T_s is later than 64 ns. -/
def purlingG (mode : Nat) (x : CourseEnt) (st : Staged) : State :=
  twdIs fun _ => let a := flowIs (fun f => { f with stCol := [st] }) (purling mode x []).twd
    { a with fwd := { a.fwd with geom := some geom1 } }

def stagedCol (since : Nat) : Staged := { wm := input1, reqTag := 0, retry := false, waited := false, since := since }

/-- An EMIT run whose worm was selected. -/
def emitting : State :=
  let a := (purling 1 (course1 5 3 0xFF) []).twd
  twdIs fun _ => { a with purl := { a.purl with emits := [(0, runStart a.fwd.course (course1 5 3 0xFF) 1024, 3, input1)] } }

theorem witness_PurlRuns :
    (∃ (s : State) (w : Who) (inBond : Nat) (course : Nat) (slot : Nat) (k : Nat) (wm : Worm) (x : CourseEnt) (d : Desc),
      Up s w ∧ (s.agt w).runEntry 4 course slot (fun x => x.inBond = inBond && x.partition = wm.partition) = some x ∧ (s.agt w).die.part.noPurl = false ∧ (s.agt w).isSwitch = true ∧ (s.agt w).descOf x.collective = some (k, d) ∧ (s.agt w).descEnded d = false ∧ Worm.opnd wm 0 4 = x.collective ∧ wm.op = 0xC2 ∧ Worm.opnd wm 12 1 = 0 ∧ d.wantLength 0 (Worm.opnd wm 8 4) (Worm.opnd wm 13 1) = some wm.length ∧ (s.agt w).purlTagOk d.ent.partition wm = true ∧ (((s.agt w).countDec wm true).purlFail d x course (runStart ((s.agt w).countDec wm true).fwd.course x 1024) (((s.agt w).countDec wm true).opened wm)) = none ∧ ((s.agt w).countDec wm true).fwd.course = (s.agt w).fwd.course)
    ∧ (∃ (s : State) (w : Who) (inBond : Nat) (course : Nat) (slot : Nat) (wm : Worm) (x : CourseEnt),
      Up s w ∧ (s.agt w).runEntry 4 course slot (fun x => x.inBond = inBond && x.partition = wm.partition) = some x ∧ (s.agt w).die.part.noPurl = false ∧ (s.agt w).isSwitch = true ∧ (s.agt w).descOf x.collective = none)
    ∧ (∃ (s : State) (w : Who) (course : Nat) (slot : Nat) (out : Nat) (col : Nat) (k : Nat) (flags : Nat) (count : Nat) (x : CourseEnt) (d : Desc) (c : Chunk),
      Up s w ∧ (s.agt w).runEntry 5 course slot (fun x => x.outBond = out && x.collective = col) = some x ∧ (s.agt w).die.part.noPurl = false ∧ (s.agt w).isSwitch = true ∧ (s.agt w).runSilent x none = false ∧ (s.agt w).runSilent x ((s.agt w).transitSlot x.partition) = false ∧ (s.agt w).descOf col = some (k, d) ∧ (s.agt w).descEnded d = false ∧ d.pickEmit out = some (c, false) ∧ c.result = some (flags, count))
    ∧ (∃ (s : State) (w : Who) (course : Nat) (slot : Nat) (out : Nat) (col : Nat) (k : Nat) (x : CourseEnt) (d : Desc),
      Up s w ∧ (s.agt w).runEntry 5 course slot (fun x => x.outBond = out && x.collective = col) = some x ∧ (s.agt w).die.part.noPurl = false ∧ (s.agt w).isSwitch = true ∧ (s.agt w).runSilent x none = false ∧ (s.agt w).runSilent x ((s.agt w).transitSlot x.partition) = false ∧ (s.agt w).descOf col = some (k, d) ∧ (s.agt w).descEnded d = false ∧ d.pickEmit out = none)
    ∧ (∃ (s : State) (w : Who) (course : Nat) (slot : Nat) (out : Nat) (col : Nat) (x : CourseEnt) (e : Nat × Nat × Nat × Worm),
      Up s w ∧ (s.agt w).runEntry 5 course slot (fun x => x.outBond = out && x.collective = col) = some x ∧ ((s.agt w).purl.emits.find? fun e => e.1 = course && e.2.1 = runStart (s.agt w).fwd.course x 1024 && e.2.2.1 = out) = some e ∧ (s.agt w).runSilent x none = false)
    ∧ (∃ (s : State) (w : Who) (course : Nat) (slot : Nat) (out : Nat) (col : Nat) (x : CourseEnt) (p : PartEnt) (st : Staged),
      Up s w ∧ (s.agt w).runEntry 1 course slot (fun x => x.outBond = out && x.collective = col) = some x ∧ tget (s.agt w).fwd.parts x.partition = some p ∧ p.trafficSlot = 0xFF ∧ (s.agt w).isSwitch = false ∧ (s.agt w).runSilent x none = false ∧ (s.agt w).presentedFor col ((s.agt w).runTime course (runStart (s.agt w).fwd.course x 1024)) = some st)
    ∧ (∃ (s : State) (w : Who) (course : Nat) (slot : Nat) (out : Nat) (col : Nat) (x : CourseEnt) (p : PartEnt),
      Up s w ∧ (s.agt w).runEntry 1 course slot (fun x => x.outBond = out && x.collective = col) = some x ∧ tget (s.agt w).fwd.parts x.partition = some p ∧ p.trafficSlot = 0xFF ∧ (s.agt w).isSwitch = false ∧ (s.agt w).runSilent x none = false ∧ ((∀ st ∈ (s.agt w).flow.stCol, Worm.opnd st.wm 0 4 = col → (s.agt w).runTime course (runStart (s.agt w).fwd.course x 1024) * 2 ^ 16 < st.since + 64 * 2 ^ 16))) :=
  ⟨⟨purling 1 (course1 4 0xFF 3) [], .twd, 3, 0, 5, 0, input1, course1 4 0xFF 3, desc1 [], by decide +kernel⟩,
    ⟨purling 1 { course1 4 0xFF 3 with collective := 78 } [], .twd, 3, 0, 5, input1, { course1 4 0xFF 3 with collective := 78 }, by decide +kernel⟩,
    ⟨purling 1 (course1 5 3 0xFF) [chunk1], .twd, 0, 5, 3, 77, 0, 0, 2, course1 5 3 0xFF, desc1 [chunk1], chunk1, by decide +kernel⟩,
    ⟨purling 1 (course1 5 3 0xFF) [], .twd, 0, 5, 3, 77, 0, course1 5 3 0xFF, desc1 [], by decide +kernel⟩,
    ⟨emitting, .twd, 0, 5, 3, 77, course1 5 3 0xFF, (0, runStart emitting.twd.fwd.course (course1 5 3 0xFF) 1024, 3, input1), by decide +kernel⟩,
    ⟨purlingG 0 (course1 1 3 0xFF) (stagedCol 0), .twd, 0, 5, 3, 77, course1 1 3 0xFF, part0, stagedCol 0, by decide +kernel⟩,
    ⟨purlingG 0 (course1 1 3 0xFF) (stagedCol (2 ^ 40)), .twd, 0, 5, 3, 77, course1 1 3 0xFF, part0, by decide +kernel⟩⟩

/-- A collective whose first course is this one, of a period of 2. -/
def ranged (course : Nat) : State :=
  twdIs fun _ => let a := (purling 1 { course1 4 0xFF 3 with course := course } [chunk1]).twd
    { a with fwd := { a.fwd with geom := some geom1, periods := [(7, 2)] } }

/-- A switch in test mode with PRL_STO_ADDR here. -/
def storeAt (addr : Nat) : State :=
  twdIs fun a => { (named 1 a) with die := { ((named 1 a).die.setN Reg.PRL_STO_ADDR addr) with testEn := true } }

def measured1 (ns : Nat) : State := twdIs fun a => { agtAt ns a with tap := { a.tap with cfg := [MeterEnt.initial] } }

theorem witness_PurlStoreAndTap :
    (∃ (s : State) (w : Who) (col : Nat) (k : Nat) (d : Desc),
      Up s w ∧ (s.agt w).descOf col = some (k, d) ∧ (s.agt w).inFirstCourse col d.ent.partition = true)
    ∧ (∃ (s : State) (w : Who) (col : Nat) (k : Nat) (d : Desc),
      Up s w ∧ (s.agt w).descOf col = some (k, d) ∧ (s.agt w).inFirstCourse col d.ent.partition = false)
    ∧ (∃ (s : State) (w : Who) (l : Nat),
      Up s w ∧ (s.agt w).die.part.noPurl = false ∧ l < (s.agt w).purl.map.length ∧ (s.agt w).purl.fencedLanes.contains l = false)
    ∧ (∃ (s : State) (w : Who),
      Up s w ∧ (s.agt w).die.part.noPurl = false ∧ (s.agt w).die.blockFenced Blk.PRL = false)
    ∧ (∃ (s : State) (w : Who),
      Up s w ∧ (s.agt w).die.part.noPurl = false ∧ (s.agt w).die.blockFenced Blk.PRL = false ∧ (s.agt w).die.frozen Blk.PRL = false ∧ (s.agt w).die.testEn = false)
    ∧ (∃ (s : State) (w : Who),
      Up s w ∧ (s.agt w).die.part.noPurl = false ∧ (s.agt w).isSwitch = true ∧ (s.agt w).die.blockFenced Blk.PRL = false ∧ (s.agt w).die.frozen Blk.PRL = false ∧ (s.agt w).die.testEn = true ∧ (s.agt w).die.getN Reg.PRL_STO_ADDR + 8 ≤ recordBase)
    ∧ (∃ (s : State) (w : Who),
      Up s w ∧ (s.agt w).die.part.noPurl = false ∧ (s.agt w).isSwitch = true ∧ (s.agt w).die.blockFenced Blk.PRL = false ∧ (s.agt w).die.frozen Blk.PRL = false ∧ (s.agt w).die.testEn = true ∧ recordBase < (s.agt w).die.getN Reg.PRL_STO_ADDR + 8 ∧ (s.agt w).die.getN Reg.PRL_STO_ADDR < storeSize)
    ∧ (∃ (s : State) (w : Who),
      Up s w ∧ (s.agt w).die.part.noPurl = false ∧ (s.agt w).isSwitch = true ∧ (s.agt w).die.blockFenced Blk.PRL = false ∧ (s.agt w).die.frozen Blk.PRL = false ∧ (s.agt w).die.testEn = true ∧ recordBase < (s.agt w).die.getN Reg.PRL_STO_ADDR + 8 ∧ (s.agt w).die.getN Reg.PRL_STO_ADDR < storeSize)
    ∧ (∃ (s : State) (w : Who) (interval : Nat) (us : Nat),
      Up s w ∧ us = max 1 (((s.agt w).tap.cfg.head?.map (·.intervalUs)).getD MeterEnt.initial.intervalUs) ∧ tapDueNs (s.agt w).fid us interval ≤ (s.agt w).die.ns ∧ (s.agt w).tap.sentNs < (interval + 1) * us * 1000 ∧ (s.agt w).tap.energyOn = true)
    ∧ (∃ (s : State) (w : Who) (interval : Nat),
      Up s w ∧ (s.agt w).die.ns < tapDueNs (s.agt w).fid (max 1 (((s.agt w).tap.cfg.head?.map (·.intervalUs)).getD MeterEnt.initial.intervalUs)) interval) :=
  ⟨⟨ranged 0, .twd, 77, 0, desc1 [chunk1], by decide +kernel⟩,
    ⟨ranged 1, .twd, 77, 0, desc1 [chunk1], by decide +kernel⟩,
    ⟨purling 1 (course1 5 3 0xFF) [chunk1], .twd, 3, by decide +kernel⟩,
    ⟨switch5, .twd, by decide +kernel⟩,
    ⟨switch5, .twd, by decide +kernel⟩,
    ⟨storeAt (recordBase - 8), .twd, by decide +kernel⟩,
    ⟨storeAt (recordBase - 7), .twd, by decide +kernel⟩,
    ⟨storeAt (storeSize - 1), .twd, by decide +kernel⟩,
    ⟨measured1 3000000000, .twd, 1, MeterEnt.initial.intervalUs, by decide +kernel⟩,
    ⟨up, .twd, 0, by decide +kernel⟩⟩

/-- A metrology image's header. -/
def image1 : Bytes := ascii "YFWI" ++ le 2 0x0100 ++ le 1 4 ++ List.replicate 249 0

/-- The controller with this state of the meter. -/
def metering (st : Nat) (f : Meter → Meter) : State := ctlIs fun c => { (Cf [(Fl.MTR_STATUS_state, st)] c) with meter := f c.meter }

def mkey1 : MKey := { fid := 5, dieId := 1, num := 0, keyId := 9, key := [], fresh := true, seen := false, covered := false, lastMac := none }

/-- A tap record of FID 5 under key 9. -/
def tap1 : Worm :=
  { fwd0 with op := 0x8C, length := 32, payload := le 4 0 ++ le 4 5 ++ le 8 9 ++ List.replicate 2032 0 }

/-- The meter loader's environment. -/
def meterEnv (c : Ctl) : LoadEnv :=
  { unit := 2, part := c.die.part, fid := 0x3FFFF, mode := 0, rack := 0, slot := 0, fabricId := 0, hop := 0, lkpLocked := false, epoch := 0,
    fw := c.meter.version, patternKey := none, lastSeq := [(seqKey 4 0, c.meter.patSeq)], floor := 0, aligned := true, parts := [] }

/-- A meter whose SRC registers name 256 bytes, this image before it. -/
def imaged (st : Nat) (img : Bytes) : State :=
  ctlIs fun c => (Cf [(Fl.MTR_STATUS_state, st)] c).onDie fun d => { (d.bset Reg.MTR_SRC_LEN 23 0 256) with mem := mwrite [] 0 img }

def loadRead (s : State) : Ctl × Bytes × Bool := s.ctl.memRead (s.ctl.die.getN Reg.MTR_SRC_ADDR) (s.ctl.die.bget Reg.MTR_SRC_LEN 23 0)

def to3 : Worm := { fwd0 with operand := le 8 (3 * 2 ^ 26) ++ List.replicate 24 0 }

def tapAt (test : Bool) : State :=
  twdIs fun a => { a with die := { a.die with testEn := test }, tap := { a.tap with slot0 := { a.tap.slot0 with held := true } } }

/-- The meter last asked for keys 10 s ago. -/
def keyAsking : State := ctlIs fun c => ctlAt 10000000000 { (Cf [(Fl.MTR_STATUS_state, 1)] c) with meter := { c.meter with retryNs := some 0 } }

theorem retry_witness_MeterIntake :
    Metering keyAsking ∧ (∀ t, keyAsking.ctl.meter.retryNs = some t → t ≤ keyAsking.ctl.die.up → t + 10000000000 ≤ keyAsking.ctl.die.up) := by
  refine ⟨by decide +kernel, fun t h _ => ?_⟩
  have h0 : keyAsking.ctl.meter.retryNs = some 0 := by decide +kernel
  have e : t = 0 := Option.some.inj (h.symm.trans h0)
  subst e
  decide +kernel

theorem witness_MeterIntake :
    (∃ (s : State),
      1 ≤ s.ctl.pwr.phase ∧ s.ctl.pwr.phase ≤ 3)
    ∧ (∃ (s : State) (val : Word),
      On s ∧ Takes s.ctl.die Blk.MTR ∧ bitsOf val.toNat 15 8 ≠ 0x3C)
    ∧ (∃ (s : State) (val : Word) (c : Ctl) (img : Bytes) (short : Bool),
      On s ∧ Takes s.ctl.die Blk.MTR ∧ s.ctl.sealed = true ∧ bitOf val.toNat 0 = true ∧ bitsOf val.toNat 15 8 = 0x3C ∧ s.ctl.die.fget Fl.MTR_STATUS_state ≠ 0 ∧ s.ctl.meter.loading = none ∧ s.ctl.memRead (s.ctl.die.getN Reg.MTR_SRC_ADDR) (s.ctl.die.bget Reg.MTR_SRC_LEN 23 0) = (c, img, short) ∧ (imageHdr img).formOk = true ∧ (imageHdr img).kind = 4 ∧ c.meter.rollback ≤ (imageHdr img).rollback ∧ c.meter.seals < 128)
    ∧ (∃ (s : State),
      On s ∧ s.ctl.sealed = false ∧ s.ctl.die.part.pelron = true)
    ∧ (let s := imaged 0 [];
      On s ∧ Takes s.ctl.die Blk.MTR ∧ s.ctl.sealed = true ∧ s.ctl.meter.loading = none
        ∧ (prefixFail (meterEnv s.ctl) (s.ctl.die.bget Reg.MTR_SRC_LEN 23 0) (loadRead s).2.1).isSome = true)
    ∧ (∃ (s : State),
      1 ≤ s.ctl.pwr.phase ∧ s.ctl.pwr.phase ≤ 3 ∧ s.ctl.sealed = true ∧ s.ctl.die.fget Fl.MTR_STATUS_state = 0 ∧ s.ctl.meter.snapshot = none ∧ s.ctl.meter.powered = false)
    ∧ (∃ (s : State) (w : Who) (i : Nat) (wm : Worm),
      Up s w ∧ markPriv (wormMark wm) = 3 ∧ (s.agt w).die.testEn = false ∧ (s.agt w).tap.target = some i)
    ∧ (∃ (s : State) (w : Who) (wm : Worm),
      Up s w ∧ markPriv (wormMark wm) = 3 ∧ (s.agt w).die.testEn = true)
    ∧ (∃ (s : State) (wm : Worm),
      On s ∧ s.ctl.meter.powered = true ∧ s.ctl.die.fget Fl.MTR_STATUS_state ≠ 0 ∧ s.ctl.meter.intakeSec = s.ctl.die.ns / 1000000000 ∧ s.ctl.meter.intakeCount < 4000000 ∧ ((wm.op ≠ 0x8C ∨ wm.partition ≠ 0 ∨ wm.length ≠ 32 ∨ wm.enc ≠ 0)))
    ∧ (∃ (s : State) (wm : Worm) (k : MKey),
      On s ∧ s.ctl.meter.powered = true ∧ s.ctl.die.fget Fl.MTR_STATUS_state ≠ 0 ∧ s.ctl.meter.intakeSec = s.ctl.die.ns / 1000000000 ∧ s.ctl.meter.intakeCount < 4000000 ∧ wm.op = 0x8C ∧ wm.partition = 0 ∧ wm.length = 32 ∧ wm.enc = 0 ∧ (s.ctl.meter.keys.find? fun k => k.fid = fieldAt wm.payload 4 4 && k.keyId = fieldAt wm.payload 8 8) = some k ∧ bitOf (byteAt wm.payload 1) 0 = false ∧ byteAt wm.payload 3 = 0) :=
  ⟨⟨ctlIs fun c => { c with pwr := { c.pwr with phase := 3 } }, by decide +kernel⟩,
    ⟨up, 0x3D01, by decide +kernel⟩,
    ⟨imaged 1 image1, 0x3C01, (loadRead (imaged 1 image1)).1, (loadRead (imaged 1 image1)).2.1, (loadRead (imaged 1 image1)).2.2, by decide +kernel⟩,
    ⟨ctlIs fun c => { c with die := { c.die with part := .pln9210 } }, by decide +kernel⟩,
    by decide +kernel,
    ⟨metering 0 fun m => { m with powered := false }, by decide +kernel⟩,
    ⟨tapAt false, .twd, 1, to3, by decide +kernel⟩,
    ⟨tapAt true, .twd, to3, by decide +kernel⟩,
    ⟨metering 1 id, fwd0, by decide +kernel⟩,
    ⟨metering 1 fun m => { m with keys := [mkey1], intakeCount := 3999999 }, tap1, mkey1, by decide +kernel⟩⟩

def batch1 : Batch :=
  { flags := 0, seq := 0, first := 0, last := 0, closeNs := 0, silent := 0, eSum := 0, taken := 0, refused := 0, entries := [], heard := [], bytes := [] }

/-- The meter in state 1, at a fabric time. -/
def meterAt (ns : Nat) (f : Meter → Meter) : State := { up with ctl := ctlAt ns (metering 1 f).ctl }

/-- A time past one batch period and one interval. -/
def late2 : Nat := 2000000 * MeterEnt.initial.periodMs

theorem witness_MeterBatches :
    (∃ (s : State) (tag : Nat) (inst : Nat),
      Metering s ∧ s.ctl.die.safe = false ∧ (s.ctl.meter.insts.any fun i => i.tag = tag && i.inst = inst) = false)
    ∧ (∃ (s : State),
      Metering s ∧ s.ctl.die.safe = false)
    ∧ (∃ (s : State) (interval : Nat),
      Metering s ∧ s.ctl.meter.powered = true ∧ s.ctl.die.fget Fl.MTR_STATUS_state ≠ 0 ∧ (interval + 2) * s.ctl.meter.pattern.intervalUs * 1000 ≤ s.ctl.die.ns ∧ s.ctl.meter.closedNs < (interval + 1) * s.ctl.meter.pattern.intervalUs * 1000)
    ∧ (∃ (s : State) (interval : Nat),
      Metering s ∧ s.ctl.die.ns < (interval + 2) * s.ctl.meter.pattern.intervalUs * 1000)
    ∧ (∃ (s : State) (b : Batch) (at_ : Nat),
      Metering s ∧ s.ctl.meter.powered = true ∧ s.ctl.die.fget Fl.MTR_STATUS_state ≠ 0 ∧ at_ = s.ctl.die.ns / (1000000 * s.ctl.meter.pattern.periodMs) * (1000000 * s.ctl.meter.pattern.periodMs) ∧ s.ctl.meter.batchNs < at_ ∧ s.ctl.meter.signing = some b)
    ∧ (∃ (s : State) (at_ : Nat),
      Metering s ∧ s.ctl.meter.powered = true ∧ s.ctl.die.fget Fl.MTR_STATUS_state ≠ 0 ∧ at_ = s.ctl.die.ns / (1000000 * s.ctl.meter.pattern.periodMs) * (1000000 * s.ctl.meter.pattern.periodMs) ∧ s.ctl.meter.batchNs < at_ ∧ s.ctl.meter.signing = none ∧ s.ctl.meter.staged = none)
    ∧ (∃ (s : State) (p : Nat),
      Metering s ∧ p = 1000000 * s.ctl.meter.pattern.periodMs ∧ s.ctl.die.ns / p * p ≤ s.ctl.meter.batchNs ∧ s.ctl.meter.batchNs ≤ s.ctl.die.ns)
    ∧ (∃ (s : State) (b : Batch),
      Metering s ∧ s.ctl.meter.signing = some b ∧ s.ctl.meter.lateDue = none)
    ∧ (∃ (s : State) (b : Batch) (flags : Nat),
      Metering s ∧ s.ctl.meter.signing = some b ∧ s.ctl.meter.lateDue = some flags)
    ∧ (∃ (c : Ctl) (b : Batch),
      c.meter.signing = some b) :=
  ⟨⟨meterAt 0 id, 7, 1, by decide +kernel⟩,
    ⟨meterAt 0 id, by decide +kernel⟩,
    ⟨meterAt (2 * MeterEnt.initial.intervalUs * 1000) id, 0, by decide +kernel⟩,
    ⟨meterAt (2 * MeterEnt.initial.intervalUs * 1000 - 1) id, 0, by decide +kernel⟩,
    ⟨meterAt late2 fun m => { m with signing := some batch1 }, batch1, late2, by decide +kernel⟩,
    ⟨meterAt (late2 + 1) id, late2, by decide +kernel⟩,
    ⟨meterAt 0 id, 1000000 * MeterEnt.initial.periodMs, by decide +kernel⟩,
    ⟨metering 1 fun m => { m with signing := some batch1 }, batch1, by decide +kernel⟩,
    ⟨metering 1 fun m => { m with signing := some batch1, lateDue := some 1 }, batch1, 1, by decide +kernel⟩,
    ⟨(metering 1 fun m => { m with signing := some batch1 }).ctl, batch1, by decide +kernel⟩⟩
/-! ## Solver, admission, shards -/

/-- The controller with its array at work and these fields of the solver and of admission. -/
def solving (f : Sol → Sol) (g : Adm → Adm) : State :=
  ctlIs fun c => { (Cf [(Fl.SOL_CTL_tile_en, 1)] c) with sol := f c.sol, adm := g c.adm }

def fail1 : SolEvent := .bondFailed 5 3 9 0

def plan1 (phase : Nat) : PartPlan :=
  { tag := 7, requestId := 0, inst := 1, flags := 0, members := [5], switches := [], samples := [], cgCount := 0, reactionUs := 0, dumpUs := 0,
    trafficKey := 0, dumpKey := 0, trafficSlot := 0xFF, dumpSlot := 0xFF, gen := 0, colls := [], period := 1, runs := [], purls := [],
    phase := phase, replaces := 0, activateCourse := 0, atRisk := [], reactNs := 0, batchNs := 0, dumpNs := 0, activeNs := none }

/-- With a task preempted, the rows of the failure's install in force. -/
def resuming (k : Nat) (g : Adm → Adm) (f : Sol → Sol := id) : State := solving (fun x => { f x with preempted := some k }) g

theorem witness_SolverTasks :
    (∃ (s : State),
      On s ∧ s.ctl.taskNow = 1 ∧ s.ctl.sol.preempted ≠ some 1)
    ∧ (∃ (s : State),
      On s ∧ s.ctl.taskNow = 2 ∧ s.ctl.sol.preempted ≠ some 2)
    ∧ (∃ (s : State),
      On s ∧ s.ctl.taskNow = 6 ∧ s.ctl.sol.preempted ≠ some 6)
    ∧ (∃ (s : State),
      On s ∧ s.ctl.taskNow = 7 ∧ s.ctl.sol.preempted ≠ some 7)
    ∧ (∃ (s : State) (k : Nat),
      On s ∧ s.ctl.taskNow = k ∧ ((k = 3 ∨ k = 4)) ∧ s.ctl.sol.preempted = some k ∧ s.ctl.die.safe = false)
    ∧ (∃ (s : State) (k : Nat),
      On s ∧ s.ctl.taskNow = k ∧ ((k = 3 ∨ k = 4)) ∧ s.ctl.sol.preempted = some k ∧ s.ctl.die.safe = false)
    ∧ (∃ (s : State),
      On s ∧ s.ctl.taskNow ≠ 1)
    ∧ (∃ (s : State) (k : Nat) (rest : List Nat),
      On s ∧ s.ctl.taskNow = 2 ∧ (s.ctl.waitingTasks.filter fun k => k = 3 || k = 4) = k :: rest ∧ s.ctl.sol.preempted = none)
    ∧ (∃ (s : State) (tile : Nat),
      On s ∧ tile < s.ctl.sol.map.length ∧ s.ctl.sol.fencedTiles.contains tile = false ∧ s.ctl.taskNow = 0)
    ∧ (∃ (s : State) (tile : Nat),
      On s ∧ tile < s.ctl.sol.map.length ∧ s.ctl.sol.fencedTiles.contains tile = false ∧ s.ctl.taskNow ≠ 0)
    ∧ (∃ (s : State) (val : Word),
      On s ∧ Takes s.ctl.die Blk.SOL ∧ bitOf val.toNat 1 = false ∧ val.toNat % 2 = 1)
    ∧ (∃ (s : State) (val : Word),
      On s ∧ Takes s.ctl.die Blk.SOL ∧ bitOf val.toNat 1 = false ∧ val.toNat % 2 = 0 ∧ s.ctl.die.fget Fl.SOL_CTL_tile_en = 1 ∧ s.ctl.taskNow ≠ 0)
    ∧ (∃ (s : State) (fid : Nat) (bond : Nat) (far : Nat) (time : Nat),
      On s ∧ s.ctl.sol.failures.contains (.bondFailed fid bond far time) = false)
    ∧ (∃ (s : State) (t : Nat),
      On s ∧ s.ctl.sol.restored ≠ [] ∧ s.ctl.sol.restoredNs = some t ∧ t + 1000000000 ≤ s.ctl.die.up ∧ s.ctl.sol.failures = [] ∧ s.ctl.sol.others.contains 1 = false) :=
  ⟨⟨solving (fun x => { x with others := [1] }) id, by decide +kernel⟩,
    ⟨solving (fun x => { x with failures := [fail1] }) id, by decide +kernel⟩,
    ⟨solving (fun x => { x with others := [6] }) id, by decide +kernel⟩,
    ⟨solving (fun x => { x with others := [7] }) id, by decide +kernel⟩,
    ⟨resuming 3 fun x => { x with serving := true, queue := [(0, 64)] }, 3, by decide +kernel⟩,
    ⟨resuming 4 fun x => { x with parts := [plan1 0] }, 4, by decide +kernel⟩,
    ⟨up, by decide +kernel⟩,
    ⟨solving (fun x => { x with failures := [fail1] }) fun x => { x with serving := true, queue := [(0, 64)] }, 3, [], by decide +kernel⟩,
    ⟨solving (fun x => { x with map := [0, 1] }) id, 1, by decide +kernel⟩,
    ⟨solving (fun x => { x with map := [0, 1], others := [1] }) id, 1, by decide +kernel⟩,
    ⟨up, 1, by decide +kernel⟩,
    ⟨solving (fun x => { x with others := [1] }) id, 0, by decide +kernel⟩,
    ⟨up, 5, 3, 9, 0, by decide +kernel⟩,
    ⟨{ up with ctl := ctlAt 1000000000 (solving (fun x => { x with restored := [(5, 3)], restoredNs := some 0 }) id).ctl }, 0, by decide +kernel⟩⟩

/-- The controller with this length of a request and this release tag. -/
def asking (len tag : Nat) (g : Adm → Adm) : State :=
  ctlIs fun c => { (c.onDie fun d => (d.bset Reg.ADM_REQ_LEN 23 0 len).bset Reg.ADM_REL_TAG 11 0 tag) with adm := g c.adm }

/-- A request of no collectives for endpoint 9. -/
def request1 : Bytes := le 8 4 ++ le 4 1 ++ le 4 0 ++ List.replicate 48 0 ++ le 4 9

/-- A PLN-9210 that knows endpoint 9 and these regions, with that request in memory. -/
def askedOf (regions : Tbl Region) (len : Nat) : Ctl :=
  let c := (knows false).ctl
  { c with
    die := { c.die with part := .pln9210, mem := mwrite [] 0 request1 },
    tel := { c.tel with regions := regions },
    adm := { c.adm with queue := [(0, len)] } }

def region0 : Region := { exceed := false, delay := 0, outside := false, latest := (0, false), dMeas := 65536, ref := 65536, within := some 0 }

/-- The controller as the decision finds it. -/
def foundOf (regions : Tbl Region) (len : Nat) : Ctl :=
  ({ askedOf regions len with adm := { (askedOf regions len).adm with queue := [] } } : Ctl).onDie (·.fset Fl.CTL_LOCK_admission 1)

def readOf (regions : Tbl Region) (len : Nat) : Ctl × Bytes × Bool := (foundOf regions len).memRead 0 len

/-- With endpoint 9's agent core reported. -/
def cored : Tbl Region := [(9 * 256 + Config.coreNumber.val, region0)]

theorem cored_corners (c : Ctl) (q : Check) (ks : List Coll) (hr : c.tel.regions = cored) (hm : c.die.part.hasMeter = false)
    (hq : q.members = [9]) (ha : c.gaugeAgents q ks = [9]) : c.cornersOk q ks = true := by
  have e : (9 * 256 + Config.coreNumber.val) / 256 = 9 := by omega
  have m : (9 * 256 + Config.coreNumber.val) % 256 = Config.coreNumber.val := by omega
  have h9 : c.gCore 9 = some 0 := by
    simp [Ctl.gCore, Ctl.regionsOf, hr, cored, e, m, Config.coreRegion, worstOf, region0, Region.bound, maxL]
  simp [Ctl.cornersOk, ha, hm, hq, h9]

def request68 : Request := (requestOf request1).getD ⟨0, 0, 0, 0, 0, 0, 0, 0, [], [], [], false⟩

theorem memRead_unsuspected (c : Ctl) (a n : Nat) (h : c.suspects a n = []) : c.memRead a n = (c, mread c.die.mem a n, false) := by
  simp [Ctl.memRead, h]

theorem readOf_cored : readOf cored 68 = (foundOf cored 68, request1, false) := by
  have h : (foundOf cored 68).suspects 0 68 = [] := by decide +kernel
  have b : mread (foundOf cored 68).die.mem 0 68 = request1 := by decide +kernel
  rw [readOf, memRead_unsuspected _ _ _ h, b]

theorem admitted_witness_Admission :
    ∃ (c c' : Ctl) (addr len : Nat) (rest : List (Nat × Nat)) (b : Bytes) (p : PartPlan),
      c.adm.queue = (addr, len) :: rest
      ∧ (({ c with adm := { c.adm with queue := rest } } : Ctl).onDie (·.fset Fl.CTL_LOCK_admission 1)).memRead addr len = (c', b, false)
      ∧ (c'.decide_ b).reason = 0 ∧ (c'.decide_ b).plan = some p := by
  have key : ((foundOf cored 68).decide_ request1).reason = 0 ∧ ((foundOf cored 68).decide_ request1).plan.isSome = true := by
    have h1 : requestOf request1 = some request68 := by decide +kernel
    have h2 : request68.fieldsOk = true := by decide +kernel
    have h3 : (foundOf cored 68).die.safe = false := by decide +kernel
    have h4 : request68.replaceTag = 0 := by decide +kernel
    have h5 : (foundOf cored 68).freeTag = some 1 := by decide +kernel
    have hc : ∀ q : Check, q.members = [9] → (foundOf cored 68).gaugeAgents q [] = [9] → (foundOf cored 68).cornersOk q [] = true :=
      fun q hq ha => cored_corners _ q [] rfl (by decide +kernel) hq ha
    have e : (foundOf cored 68).decide_ request1 = (foundOf cored 68).decideFrom request68 1 none := by
      simp [Ctl.decide_, h1, h2, h3, h4, h5]
    rw [e]
    have h6 : selectPlans (foundOf cored 68).net ((foundOf cored 68).others 1) request68.flags request68.members request68.colls = [] := by
      decide +kernel
    have h7 : bitOf request68.flags 1 = false := by decide +kernel
    have h8 : request68.samples = [] := by decide +kernel
    have h9 : ((foundOf cored 68).net.agents.all fun a =>
        !request68.members.contains a.fid || decide (sumL ([] : List Nat) ≤ (foundOf cored 68).dumpShare a)) = true := by decide +kernel
    have ha : request68.reactionUs = 0 ∧ request68.dumpUs = 0 := by decide +kernel
    have hm : (foundOf cored 68).die.part.hasMeter = false := by decide +kernel
    unfold Ctl.decideFrom
    dsimp only
    rw [if_neg (by decide +kernel), if_neg (by decide +kernel), if_neg (by decide +kernel)]
    simp only [h6, h7, h8, List.map_nil, h9]
    rw [hc _ (by decide +kernel) (by decide +kernel)]
    simp [ha, hm, sumL]
  obtain ⟨p, hp⟩ := Option.isSome_iff_exists.mp key.2
  exact ⟨askedOf cored 68, foundOf cored 68, 0, 68, [], request1, p, rfl, readOf_cored, key.1, hp⟩

def released1 : Ctl :=
  { (knows false).ctl with adm := { (knows false).ctl.adm with releases := [7], parts := [{ plan1 1 with members := [9] }] } }

theorem release_witness_Admission :
    ∃ (c c' : Ctl) (tag at_ f : Nat) (rest fs : List Nat) (p : PartPlan),
      c.adm.releases = tag :: rest ∧ (c.adm.parts.filter fun p => p.tag = tag && p.phase = 1) = [p]
      ∧ ((c.liveAgents.map (·.fid)).filter fun f => p.touches f) = f :: fs
      ∧ ({ c with adm := { c.adm with releases := rest } } : Ctl).sendRelease tag (f :: fs) = (c', at_) :=
  ⟨released1, _, 7, _, 9, [], [], { plan1 1 with members := [9] }, rfl, by decide +kernel, by decide +kernel, Eq.refl (Ctl.sendRelease _ 7 [9])⟩

theorem witness_Admission :
    (∃ (s : State),
      On s ∧ Takes s.ctl.die Blk.ADM ∧ ((s.ctl.die.bget Reg.ADM_REQ_LEN 23 0 < 64 ∨ 16 * 2 ^ 20 < s.ctl.die.bget Reg.ADM_REQ_LEN 23 0)))
    ∧ (∃ (s : State),
      On s ∧ Takes s.ctl.die Blk.ADM ∧ 64 ≤ s.ctl.die.bget Reg.ADM_REQ_LEN 23 0 ∧ s.ctl.die.bget Reg.ADM_REQ_LEN 23 0 ≤ 16 * 2 ^ 20 ∧ 64 ≤ s.ctl.adm.queue.length)
    ∧ (∃ (s : State),
      On s ∧ Takes s.ctl.die Blk.ADM ∧ 64 ≤ s.ctl.die.bget Reg.ADM_REQ_LEN 23 0 ∧ s.ctl.die.bget Reg.ADM_REQ_LEN 23 0 ≤ 16 * 2 ^ 20 ∧ s.ctl.adm.queue.length < 64)
    ∧ (∃ (s : State),
      On s ∧ Takes s.ctl.die Blk.ADM ∧ s.ctl.die.bget Reg.ADM_REL_TAG 11 0 = 0)
    ∧ (∃ (s : State),
      On s ∧ Takes s.ctl.die Blk.ADM ∧ s.ctl.die.bget Reg.ADM_REL_TAG 11 0 ≠ 0 ∧ (s.ctl.adm.parts.any fun p => p.tag = s.ctl.die.bget Reg.ADM_REL_TAG 11 0) = true ∧ ((∀ p ∈ s.ctl.adm.parts, p.tag = s.ctl.die.bget Reg.ADM_REL_TAG 11 0 → p.phase ≠ 2)) ∧ s.ctl.adm.releases.contains (s.ctl.die.bget Reg.ADM_REL_TAG 11 0) = false)
    ∧ (∃ (s : State),
      On s ∧ Takes s.ctl.die Blk.ADM ∧ s.ctl.die.bget Reg.ADM_REL_TAG 11 0 ≠ 0 ∧ (s.ctl.adm.parts.any fun p => p.tag = s.ctl.die.bget Reg.ADM_REL_TAG 11 0) = false)
    ∧ (∃ (s : State),
      On s ∧ s.ctl.die.safe = false ∧ s.ctl.taskNow = 3 ∧ s.ctl.sol.preempted ≠ some 3)
    ∧ (∃ (s : State),
      On s ∧ s.ctl.die.safe = true ∧ s.ctl.adm.serving = true)
    ∧ (∃ (c : Ctl) (c' : Ctl) (addr : Nat) (len : Nat) (rest : List (Nat × Nat)) (b : Bytes),
      c.adm.queue = (addr, len) :: rest ∧ (({ c with adm := { c.adm with queue := rest } } : Ctl).onDie (·.fset Fl.CTL_LOCK_admission 1)).memRead addr len = (c', b, false) ∧ (c'.decide_ b).reason ≠ 0)
    ∧ (∃ (s : State),
      On s ∧ s.ctl.taskNow = 4 ∧ s.ctl.sol.preempted ≠ some 4)
    ∧ (∃ (s : State),
      On s ∧ s.ctl.taskNow = 5 ∧ s.ctl.sol.preempted ≠ some 5)
    ∧ Takes up.ctl.die Blk.ADM :=
  ⟨⟨asking 63 0 id, by decide +kernel⟩,
    ⟨asking (16 * 2 ^ 20 - 1) 0 fun x => { x with queue := List.replicate 64 (0, 64) }, by decide +kernel⟩,
    ⟨asking 64 0 fun x => { x with queue := List.replicate 63 (0, 64) }, by decide +kernel⟩,
    ⟨asking 63 0 id, by decide +kernel⟩,
    ⟨asking 0 7 fun x => { x with parts := [plan1 1] }, by decide +kernel⟩,
    ⟨asking 0 4095 id, by decide +kernel⟩,
    ⟨solving id fun x => { x with serving := true, queue := [(0, 64)] }, by decide +kernel⟩,
    ⟨ctlIs fun c => { (Cf [(Fl.FLC_STATUS_safe, 1)] c) with adm := { c.adm with serving := true } }, by decide +kernel⟩,
    ⟨askedOf [] 64, (readOf [] 64).1, 0, 64, [], (readOf [] 64).2.1, by decide +kernel⟩,
    ⟨solving id fun x => { x with parts := [plan1 0] }, by decide +kernel⟩,
    ⟨solving id fun x => { x with releases := [7] }, by decide +kernel⟩,
    by decide +kernel⟩

/-- The controller with the last shard entry and SHD_ENTRY as these. -/
def shards (e x : Shard) : State :=
  ctlIs fun c =>
    let c : Ctl := { c with shards := [(4194303, e)], adm := { c.adm with parts := [plan1 1] } }
    (List.range 8).foldl (fun (c : Ctl) k => c.onDie (·.setN (Reg.SHD_ENTRY0 + 8 * k) (fieldAt (Shard.bytes x) (8 * k) 8))) c

def shard1 (state target : Nat) (hs : List Nat) : Shard :=
  { Shard.free with model := 1, granule := 2, partition := 7, replicas := 1, state := state, gen := 6, holders := hs, target := target, digest := 8 }

def noHolder : List Nat := [0x3FFFF, 0x3FFFF, 0x3FFFF, 0x3FFFF]
def placed (gen : Nat) : State := shards (shard1 1 0x3FFFF [5, 0x3FFFF, 0x3FFFF, 0x3FFFF]) { shard1 1 0x3FFFF [5, 0x3FFFF, 0x3FFFF, 0x3FFFF] with gen := gen }

/-- An entry that moves to FID 5. -/
def moving (replicas : Nat) : Shard := { shard1 3 5 noHolder with replicas := replicas }

/-- FID 5 lost its holdings of partition 7. -/
def lost5 : State := let s := shards (moving 1) (moving 1); { s with ctl := { s.ctl with sol := { s.ctl.sol with lostHolders := [(5, some 7)] } } }

theorem witness_ShardDirectory :
    (∃ (s : State) (i : Nat),
      On s ∧ Takes s.ctl.die Blk.SHD ∧ 4194304 ≤ i)
    ∧ (∃ (s : State) (i : Nat),
      On s ∧ Takes s.ctl.die Blk.SHD ∧ i < 4194304)
    ∧ (∃ (s : State) (i : Nat),
      On s ∧ Takes s.ctl.die Blk.SHD ∧ i < 4194304 ∧ (shardOf s.ctl.shdEntry).gen ≠ (tgetD s.ctl.shards i Shard.free).gen)
    ∧ (∃ (s : State) (i : Nat) (p : PartPlan),
      On s ∧ Takes s.ctl.die Blk.SHD ∧ i < 4194304 ∧ (shardOf s.ctl.shdEntry).gen = (tgetD s.ctl.shards i Shard.free).gen ∧ (tgetD s.ctl.shards i Shard.free).state ≠ 3 ∧ (shardOf s.ctl.shdEntry).state = 1 ∧ (shardOf s.ctl.shdEntry).model ≠ 0 ∧ 1 ≤ (shardOf s.ctl.shdEntry).replicas ∧ (shardOf s.ctl.shdEntry).replicas ≤ 4 ∧ (s.ctl.adm.parts.find? fun p => p.tag = (shardOf s.ctl.shdEntry).partition) = some p ∧ ((shardOf s.ctl.shdEntry).holders.filter (· ≠ 0x3FFFF)) ≠ [] ∧ ((shardOf s.ctl.shdEntry).holders.filter (· ≠ 0x3FFFF)).all p.members.contains = true)
    ∧ (∃ (s : State) (i : Nat),
      On s ∧ Takes s.ctl.die Blk.SHD ∧ i < 4194304 ∧ (shardOf s.ctl.shdEntry).gen = (tgetD s.ctl.shards i Shard.free).gen)
    ∧ (∃ (s : State) (fid : Nat) (part : Nat) (model : Nat) (granule : Nat),
      On s ∧ (s.ctl.shards.find? fun p => p.2.model = model && p.2.granule = granule && p.2.partition = part && p.2.state = 3 && p.2.target = fid) = none ∧ (s.ctl.sol.lostHolders.any fun l => l.1 = fid && l.2.all (· = part)) = false)
    ∧ (∃ (s : State) (fid : Nat) (part : Nat),
      On s ∧ (s.ctl.sol.lostHolders.any fun l => l.1 = fid && l.2.all (· = part)) = true)
    ∧ (∃ (s : State) (fid : Nat) (part : Nat) (model : Nat) (granule : Nat) (digest : Nat) (i : Nat) (e : Shard),
      On s ∧ (s.ctl.shards.find? fun p => p.2.model = model && p.2.granule = granule && p.2.partition = part && p.2.state = 3 && p.2.target = fid) = some (i, e) ∧ (s.ctl.sol.lostHolders.any fun l => l.1 = fid && l.2.all (· = part)) = false ∧ e.digest ≠ digest)
    ∧ (∃ (s : State) (fid : Nat) (part : Nat) (model : Nat) (granule : Nat) (i : Nat) (e : Shard),
      On s ∧ (s.ctl.shards.find? fun p => p.2.model = model && p.2.granule = granule && p.2.partition = part && p.2.state = 3 && p.2.target = fid) = some (i, e) ∧ (s.ctl.sol.lostHolders.any fun l => l.1 = fid && l.2.all (· = part)) = false ∧ e.replicas ≤ ((replaceFirst (· = 0x3FFFF) (fun _ => fid) e.holders).filter (· ≠ 0x3FFFF)).length)
    ∧ (∃ (s : State) (fid : Nat) (part : Nat) (model : Nat) (granule : Nat) (i : Nat) (e : Shard),
      On s ∧ (s.ctl.shards.find? fun p => p.2.model = model && p.2.granule = granule && p.2.partition = part && p.2.state = 3 && p.2.target = fid) = some (i, e) ∧ (s.ctl.sol.lostHolders.any fun l => l.1 = fid && l.2.all (· = part)) = false ∧ ((replaceFirst (· = 0x3FFFF) (fun _ => fid) e.holders).filter (· ≠ 0x3FFFF)).length < e.replicas) :=
  ⟨⟨up, 4194304, by decide +kernel⟩,
    ⟨up, 4194303, by decide +kernel⟩,
    ⟨placed 5, 4194303, by decide +kernel⟩,
    ⟨placed 6, 4194303, plan1 1, by decide +kernel⟩,
    ⟨placed 6, 4194303, by decide +kernel⟩,
    ⟨up, 5, 7, 1, 2, by decide +kernel⟩,
    ⟨lost5, 5, 7, by decide +kernel⟩,
    ⟨shards (moving 1) (moving 1), 5, 7, 1, 2, 9, 4194303, moving 1, by decide +kernel⟩,
    ⟨shards (moving 1) (moving 1), 5, 7, 1, 2, 4194303, moving 1, by decide +kernel⟩,
    ⟨shards (moving 2) (moving 2), 5, 7, 1, 2, 4194303, moving 2, by decide +kernel⟩⟩

/-- A recovery command of a second ago. -/
def commanded : State := ctlIs fun c => let c := ctlAt 1000000000 c; { c with rcv := { c.rcv with cmd := some (5, 1, 3, 0) } }

theorem witness_RecoveryControl :
    (∃ (s : State),
      On s ∧ Takes s.ctl.die Blk.RCV ∧ s.ctl.die.bget Reg.RCV_CMD_STATUS 1 0 = 1)
    ∧ (∃ (s : State),
      On s ∧ Takes s.ctl.die Blk.RCV ∧ s.ctl.die.bget Reg.RCV_CMD_STATUS 1 0 ≠ 1)
    ∧ (∃ (s : State),
      On s ∧ s.ctl.rcv.cmd = none)
    ∧ (∃ (s : State) (f : Nat) (l : Nat) (flags : Nat) (ns : Nat),
      On s ∧ s.ctl.rcv.cmd = some (f, l, flags, ns) ∧ bitOf flags 2 = false ∧ bitOf flags 3 = false ∧ ns + 1000000000 ≤ s.ctl.die.up)
    ∧ (∃ (s : State) (val : Word),
      On s ∧ Takes s.ctl.die Blk.RCV ∧ (bitList val.toNat 64).any (fun k => !(reinitBlocks.contains (s.ctl.die.part.blocks.getD k 0xFFFF))) = true ∧ ((bitList val.toNat 64).filter fun k => reinitBlocks.contains (s.ctl.die.part.blocks.getD k 0xFFFF) && !(s.ctl.rcv.reinit.contains k)) = [] ∧ ((bitList val.toNat 64).filter fun k => reinitBlocks.contains ((s.ctl.raise (Ev.WRITE_IGNORED Blk.RCV)).die.part.blocks.getD k 0xFFFF) && !((s.ctl.raise (Ev.WRITE_IGNORED Blk.RCV)).rcv.reinit.contains k)) = [])
    ∧ (∃ (s : State) (val : Word) (k : Nat),
      On s ∧ Takes s.ctl.die Blk.RCV ∧ bitList val.toNat 64 = [k] ∧ reinitBlocks.contains (s.ctl.die.part.blocks.getD k 0xFFFF) = true ∧ s.ctl.die.part.blocks.getD k 0xFFFF ≠ Blk.DMP ∧ s.ctl.rcv.reinit.contains k = false)
    ∧ (∃ (s : State) (k : Nat),
      On s ∧ s.ctl.rcv.reinit.contains k = true ∧ tgetD s.ctl.rcv.reinitNs k 0 + 50000000 ≤ s.ctl.die.up)
    ∧ (∃ (s : State) (k : Nat),
      On s ∧ k < s.ctl.die.part.blocks.length ∧ s.ctl.funcState k ≠ 2)
    ∧ (∃ (s : State) (val : Word),
      On s ∧ Takes s.ctl.die Blk.RCV ∧ bitOf val.toNat 0 = true ∧ bitsOf val.toNat 15 8 = 0x5A)
    ∧ (∃ (s : State) (val : Word),
      On s ∧ Takes s.ctl.die Blk.RCV ∧ bitsOf val.toNat 15 8 ≠ 0x5A)
    ∧ Takes up.ctl.die Blk.DMP :=
  ⟨⟨ctlIs fun c => c.onDie fun d => d.bset Reg.RCV_CMD_STATUS 1 0 1, by decide +kernel⟩,
    ⟨up, by decide +kernel⟩,
    ⟨up, by decide +kernel⟩,
    ⟨commanded, 5, 1, 3, 0, by decide +kernel⟩,
    ⟨up, BitVec.ofNat 64 (2 ^ 63), by decide +kernel⟩,
    ⟨up, BitVec.ofNat 64 (2 ^ up.ctl.die.part.blockIndex Blk.MNP), up.ctl.die.part.blockIndex Blk.MNP, by decide +kernel⟩,
    ⟨ctlIs fun c => { ctlAt 50000000 c with rcv := { c.rcv with reinit := [5] } }, 5, by decide +kernel⟩,
    ⟨up, 0, by decide +kernel⟩,
    ⟨up, 0x5A01, by decide +kernel⟩,
    ⟨up, 0x5B01, by decide +kernel⟩,
    by decide +kernel⟩

/-- A dump with nothing left to read. -/
def dump0 : Dump := { dump1 with reads := [], halves := [] }

/-- The dump of a commanded reset, which goes to the module's flash. -/
def dump5 : Dump := { dump0 with trigger := 5 }
def ctlDumping : State := ctlIs fun c => { c with rcv := { c.rcv with dump := some dump5 } }
def roleIs (r : Nat) : State := ctlIs fun c => c.onDie (·.bset Reg.RCV_ROLE 0 0 r)

def mirrorWorm : Worm :=
  { fwd0 with operand := List.replicate 16 0 ++ le 4 1 ++ le 4 64 ++ List.replicate 8 0, payload := List.replicate 64 0 }

theorem witness_DumpsAndMirror :
    (∃ (s : State) (w : Who) (d : Dump),
      Up s w ∧ (s.agt w).rcv.dump = some d ∧ d.todo = [] ∧ d.reads = [] ∧ d.trigger ≠ 3)
    ∧ (∃ (s : State) (d : Dump),
      On s ∧ s.ctl.rcv.dump = some d ∧ (s.ctl.endDump s.emb).rcv.reinit = [] ∧ d.trigger ≠ 4)
    ∧ (∃ (s : State),
      On s ∧ s.ctl.die.bget Reg.RCV_ROLE 0 0 ≠ 0)
    ∧ (∃ (s : State) (val : Word),
      On s ∧ Takes s.ctl.die Blk.RCV ∧ bitOf val.toNat 0 = true ∧ s.ctl.die.bget Reg.RCV_ROLE 0 0 ≠ 1 ∧ ((s.ctl.onDie (·.bset Reg.RCV_ROLE 0 0 1)).extend 7 0x70 (Config.eventDigest 0x70 1)).rcv.mirrored = [])
    ∧ (∃ (s : State) (val : Word),
      On s ∧ Takes s.ctl.die Blk.RCV ∧ bitOf val.toNat 0 = false)
    ∧ (∃ (s : State) (wm : Worm),
      On s ∧ 2 ≤ markPriv (wormMark wm))
    ∧ (∃ (s : State) (wm : Worm),
      On s ∧ markPriv (wormMark wm) < 2 ∧ crc32c (slice wm.payload 0 (min 2048 (Worm.opnd wm 20 4 - 2048 * Worm.opnd wm 12 2))) ≠ Worm.opnd wm 16 4) :=
  ⟨⟨twdIs fun a => { a with rcv := { a.rcv with dump := some dump0 } }, .twd, dump0, by decide +kernel⟩,
    ⟨ctlDumping, dump5, by decide +kernel⟩,
    ⟨roleIs 1, by decide +kernel⟩,
    ⟨roleIs 0, 1, by decide +kernel⟩,
    ⟨up, 2, by decide +kernel⟩,
    ⟨up, { fwd0 with operand := le 8 (2 * 2 ^ 26) ++ List.replicate 24 0 }, by decide +kernel⟩,
    ⟨up, mirrorWorm, by decide +kernel⟩⟩
/-! ## Telemetry, health, Skein -/

def gauge1 : GaugeEnt := { droop := 0, volts := [600, 900], temps := [-400, 1000], delays := [65536, 65536, 65536, 65536] }

/-- A region in EXCEED, within its limit since then. -/
def region1 (within : Option Nat) : Region :=
  { exceed := true, delay := 65536, outside := false, latest := (65536, false), dMeas := 65536, ref := 65536, within := within }

def record1 : Bytes := le 1 1 ++ List.replicate 191 0

def closed7 : TelWindow :=
  { window := 7, k := 5, diffs := [], busy := [], health := [], full := false, skipped := false, exceed := false, unaligned := false, lanes := 0,
    chunkHigh := 0 }

/-- The packaged agent with telemetry on, at this time, window 7 of k = 5 closed. -/
def closing (ns : Nat) (ws : List TelWindow) : State :=
  twdIs fun a => { agtAt ns a with tel := { a.tel with enable := true, closed := ws } }

/-- The controller at this time with a change of TEL_CFG set for 16,384 µs. -/
def changing (ns : Nat) : State := ctlIs fun c => { ctlAt ns c with tel := { c.tel with change := some (c.tel.k, 5, false, 1) } }

theorem witness_TelemetryWindows :
    (∃ (s : State) (w : Who) (window : Nat),
      Up s w ∧ ((s.agt w).tel.closed.find? fun x => x.window = window) = none)
    ∧ (∃ (s : State) (w : Who) (window : Nat) (x : TelWindow),
      Up s w ∧ ((s.agt w).tel.closed.find? fun x => x.window = window) = some x ∧ (s.agt w).die.ns < x.dueNs (s.agt w).fid)
    ∧ (∃ (s : State) (w : Who) (window : Nat) (x : TelWindow),
      Up s w ∧ ((s.agt w).tel.closed.find? fun x => x.window = window) = some x ∧ (s.agt w).tel.enable = true ∧ x.dueNs (s.agt w).fid ≤ (s.agt w).die.ns)
    ∧ (∃ (a : Agt) (x : TelWindow),
      a.isSwitch = false ∧ x.full = false ∧ x.skipped = false ∧ x.exceed = false ∧ x.unaligned = false)
    ∧ (∃ (s : State) (w : Who) (window : Nat),
      Hears s w ∧ ((s.agt w).tel.closed.find? fun x => x.window = window) = none ∧ (s.agt w).die.ns ≤ (window + 1) * windowNs (s.agt w).tel.k + 8000)
    ∧ (∃ (s : State) (w : Who) (window : Nat),
      Hears s w ∧ ((s.agt w).tel.closed.find? fun x => x.window = window) = none ∧ (window + 1) * windowNs (s.agt w).tel.k + 8000 < (s.agt w).die.ns)
    ∧ (∃ (s : State) (fid : Nat),
      On s ∧ tget s.ctl.cst.agents fid = none)
    ∧ (∃ (s : State) (fid : Nat) (rec : Bytes) (a : AgentRec),
      On s ∧ tget s.ctl.cst.agents fid = some a ∧ rec.length = recordLen a.mode ∧ byteAt rec 0 = recordKind a.mode ∧ byteAt rec 2 ≤ 8 ∧ s.ctl.tel.lastClosed = none)
    ∧ (∃ (s : State) (wk : Nat) (k : Nat),
      On s ∧ s.ctl.nextMap = (wk, k) ∧ windowNs k * (wk + 2) + 90000 ≤ s.ctl.die.ns)
    ∧ (∃ (s : State) (wk : Nat) (k : Nat),
      On s ∧ s.ctl.nextMap = (wk, k) ∧ s.ctl.die.ns < windowNs k * (wk + 2) + 90000)
    ∧ (∃ (s : State) (window : Nat),
      On s ∧ 64000 * 2 ^ s.ctl.tel.m * (window + 1) ≤ s.ctl.die.ns)
    ∧ (∃ (s : State) (window : Nat),
      On s ∧ s.ctl.die.ns < 64000 * 2 ^ s.ctl.tel.m * (window + 1))
    ∧ (∃ (s : State) (val : Word),
      On s ∧ Takes s.ctl.die Blk.TEL ∧ s.ctl.die.part.telCfgOk val.toNat = false)
    ∧ (∃ (s : State) (val : Word),
      On s ∧ Takes s.ctl.die Blk.TEL ∧ s.ctl.die.part.telCfgOk val.toNat = true ∧ s.ctl.cst.agents = [])
    ∧ (∃ (s : State) (m : Nat) (at_ : Nat) (en : Bool),
      On s ∧ s.ctl.tel.change = some (s.ctl.tel.k, m, en, at_) ∧ 16384000 * at_ ≤ s.ctl.die.ns)
    ∧ (∃ (s : State) (k : Nat) (m : Nat) (at_ : Nat) (en : Bool),
      On s ∧ s.ctl.tel.change = some (k, m, en, at_) ∧ s.ctl.die.ns < 16384000 * at_)
    ∧ (∃ (s : State) (w : Who),
      Up s w ∧ (s.agt w).die.fget Fl.AGT_TEL_CFG_window_log2 ≠ (s.agt w).tel.k ∧ (s.agt w).tel.enable = true ∧ 16384000 * (s.agt w).die.fget Fl.AGT_TEL_CFG_change_at + 6 < (s.agt w).die.ns) :=
  ⟨⟨up, .twd, 7, by decide +kernel⟩,
    ⟨closing (closed7.dueNs up.twd.fid - 1) [closed7], .twd, 7, closed7, by decide +kernel⟩,
    ⟨closing (closed7.dueNs up.twd.fid) [closed7], .twd, 7, closed7, by decide +kernel⟩,
    ⟨up.twd, closed7, by decide +kernel⟩,
    ⟨closing (windowNs up.twd.tel.k + 8000) [], .twd, 0, by decide +kernel⟩,
    ⟨closing (windowNs up.twd.tel.k + 8001) [], .twd, 0, by decide +kernel⟩,
    ⟨up, 9, by decide +kernel⟩,
    ⟨knows false, 9, record1, agent1, by decide +kernel⟩,
    ⟨ctlIs (ctlAt 100000000), up.ctl.nextMap.1 + (100000000 - 90000) / windowNs up.ctl.tel.k - 2, up.ctl.tel.k, by decide +kernel⟩,
    ⟨ctlIs (ctlAt 0), up.ctl.nextMap.1, up.ctl.nextMap.2, by decide +kernel⟩,
    ⟨ctlIs (ctlAt (64000 * 2 ^ up.ctl.tel.m)), 0, by decide +kernel⟩,
    ⟨ctlIs (ctlAt (64000 * 2 ^ up.ctl.tel.m - 1)), 0, by decide +kernel⟩,
    ⟨up, 0x039, by decide +kernel⟩,
    ⟨up, 0x0E8, by decide +kernel⟩,
    ⟨changing 16384000, 5, 1, false, by decide +kernel⟩,
    ⟨changing 16383999, up.ctl.tel.k, 5, 1, false, by decide +kernel⟩,
    ⟨twdIs fun a => { agtAt 7 (Af [(Fl.AGT_TEL_CFG_window_log2, 8)] a) with tel := { a.tel with enable := true } }, .twd, by decide +kernel⟩⟩

/-- A die with a gauge table, or with this region, at a time. -/
def gauged (d : Die) : Die := { d with gaugeTab := [(0, gauge1)] }
def held (r : Region) (ns : Nat) (d : Die) : Die := { atNs ns d with regions := [(0, r)] }
def fallback0 : Gauged := { region := region1 none, enters := false, moved := false }

theorem within_witness_HealthGaugeWear :
    (let s := ctlIs fun c => c.onDie (held (region1 none) 0);
      On s ∧ tget s.ctl.die.regions 0 = some (region1 none) ∧ ∀ t, (region1 none).within = some t → s.ctl.die.up < t + 1000000000)
    ∧ (let s := ctlIs fun c => c.onDie (held (region1 (some 0)) 999999990);
      On s ∧ tget s.ctl.die.regions 0 = some (region1 (some 0)) ∧ ∀ t, (region1 (some 0)).within = some t → s.ctl.die.up < t + 1000000000) :=
  ⟨⟨by decide +kernel, by decide +kernel, fun _ h => nomatch h⟩,
    ⟨by decide +kernel, by decide +kernel, fun t h => by cases h; decide +kernel⟩⟩

theorem witness_HealthGaugeWear :
    (∃ (s : State) (w : Who) (region : Nat),
      Up s w ∧ tget (s.agt w).die.gaugeTab region = none)
    ∧ (∃ (s : State) (w : Who) (region : Nat) (dMeas : Nat) (mv : Nat) (temp : Int) (m : Gauged),
      Up s w ∧ (s.agt w).die.measure region dMeas mv temp = some m ∧ m.enters = true)
    ∧ (∃ (s : State) (region : Nat) (dMeas : Nat) (mv : Nat) (temp : Int) (m : Gauged),
      On s ∧ s.ctl.die.measure region dMeas mv temp = some m ∧ m.enters = true)
    ∧ (∃ (s : State) (w : Who) (region : Nat) (t : Nat) (r : Region),
      Up s w ∧ tget (s.agt w).die.regions region = some r ∧ r.exceed = true ∧ r.within = some t ∧ t + 1000000000 ≤ (s.agt w).die.up)
    ∧ (∃ (s : State) (region : Nat) (t : Nat) (r : Region),
      On s ∧ tget s.ctl.die.regions region = some r ∧ r.exceed = true ∧ r.within = some t ∧ t + 1000000000 ≤ s.ctl.die.up)
    ∧ (∃ (s : State) (fid : Nat) (region : Nat),
      On s ∧ tget s.ctl.tel.regions (fid * 256 + region) = none)
    ∧ (∃ (s : State),
      On s ∧ s.ctl.tel.wear = []) :=
  ⟨⟨up, .twd, 0, by decide +kernel⟩,
    ⟨twdIs fun a => a.onDie gauged, .twd, 0, 2 ^ 20, 750, 200, ((twdIs fun a => a.onDie gauged).twd.die.measure 0 (2 ^ 20) 750 200).getD fallback0, by decide +kernel⟩,
    ⟨ctlIs fun c => c.onDie gauged, 0, 2 ^ 20, 750, 200, ((ctlIs fun c => c.onDie gauged).ctl.die.measure 0 (2 ^ 20) 750 200).getD fallback0, by decide +kernel⟩,
    ⟨twdIs fun a => a.onDie (held (region1 (some 0)) 1000000000), .twd, 0, 0, region1 (some 0), by decide +kernel⟩,
    ⟨ctlIs fun c => c.onDie (held (region1 (some 0)) 1000000000), 0, 0, region1 (some 0), by decide +kernel⟩,
    ⟨up, 9, 0, by decide +kernel⟩,
    ⟨up, by decide +kernel⟩⟩

/-- Skein port 1 in this state. -/
def port1 (link lanes credits : Nat) (ses : Option Nat) : Port :=
  { link := link, lanes := lanes, credits := credits, grant := credits, rxSeq := none, txSeq := 0, session := ses, waiting := [] }

def ported (p : Port) : State := ctlIs fun c => { c with ports := [(1, p)] }

def frame1 (ftype : Nat) (enc : Bool) : FrameHdr :=
  { port := 1, ftype := ftype, encrypted := enc, qp := 4, sequence := 7, id := 5, offset := 0, intact := true }

theorem witness_SkeinLinks :
    (On up ∧ 1 < up.ctl.die.part.skeinPorts ∧ 2 ≠ 0 ∧ 2 ≤ 2 ∧ (up.ctl.port 1).link ≠ 2)
    ∧ (let s := ported (port1 2 2 256 none);
      On s ∧ 1 < s.ctl.die.part.skeinPorts ∧ (s.ctl.port 1).link = 2 ∧ 0 < 1 ∧ 1 < (s.ctl.port 1).lanes ∧ 0 < (s.ctl.port 1).lanes)
    ∧ (let c := (ported (port1 2 2 0 none)).ctl;
      (frame1 3 false).port < c.die.part.skeinPorts ∧ (frame1 3 false).ftype ≠ 1 ∧ (c.port (frame1 3 false).port).credits = 0)
    ∧ (let c := (ported (port1 2 2 1 none)).ctl;
      let h : FrameHdr := { frame1 3 false with intact := false };
      h.port < c.die.part.skeinPorts ∧ (c.port h.port).credits ≠ 0 ∧ (c.port h.port).link = 2 ∧ h.intact = false)
    ∧ (let s := ported (port1 2 2 1 none); On s ∧ (frame1 1 false).ftype = 1 ∧ (s.ctl.frameIn (frame1 1 false)).2 = true)
    ∧ (On up ∧ (up.ctl.frameIn (frame1 1 false)).2 = false) :=
  ⟨by decide +kernel,
    by decide +kernel,
    by decide +kernel,
    by decide +kernel,
    by decide +kernel,
    by decide +kernel⟩

def work1 (op len : Nat) (open_ : Bool) (addr : Nat) : Work :=
  { entry := { opcode := op, length := len, addr := addr, wrId := 5 }, open_ := open_, placed := [], lastNs := 0 }

/-- The controller with a session on port 1, queue pair 4 enabled there with this work, and every channel usable. -/
def queued (ws : List Work) : State :=
  ctlIs fun c => { (Cf [(Fl.KST_MGMT_AUTH_auth, 1)] c) with
    ports := [(1, port1 2 2 256 (some 1))], qps := [(4, { enable := true, port := 1, kind := 0, work := ws, sent := 0, linkDown := none })],
    memu := { c.memu with usable := List.range 96 } }

theorem witness_QueuePairs :
    (let s := queued [];
      let c := (s.ctl.frameIn (frame1 3 true)).1;
      On s ∧ (s.ctl.frameIn (frame1 3 true)).2 = true ∧ (frame1 3 true).encrypted = true
        ∧ List.replicate 64 (work1 1 1 false 0).entry ≠ [] ∧ (List.replicate 64 (work1 1 1 false 0).entry).length ≤ 64
        ∧ (c.qp 4).enable = true ∧ (c.qp 4).port = 1 ∧ (c.qp 4).work = [])
    ∧ (let c := (queued []).ctl; (work1 1 0 false 0).entry.opcode = 1 ∧ (c.qp 4).kind ≠ 1 ∧ c.keystone = true
        ∧ (work1 1 0 false 0).entry.length = 0 ∧ (work1 1 16777216 false 0).entry.length ≤ 16777216 ∧ (c.qp 4).work.length < 256)
    ∧ (let c := (queued (List.replicate 256 (work1 1 1 false 0))).ctl; c.keystone = true ∧ (c.qp 4).kind ≠ 1 ∧ 256 ≤ (c.qp 4).work.length)
    ∧ (let w := work1 1 16 false (0x200000000 - 16);
      let s := queued [w];
      On s ∧ ((s.ctl.qp 4).work.find? fun w => w.entry.opcode = 1 && !w.open_) = some w ∧ s.ctl.die.safe = false
        ∧ s.ctl.outsideWrite w.entry.addr w.entry.length = true)
    ∧ (let w := work1 1 16 false (0x200000000 - 15);
      let s := queued [w];
      On s ∧ ((s.ctl.qp 4).work.find? fun w => w.entry.opcode = 1 && !w.open_) = some w ∧ s.ctl.outsideWrite w.entry.addr w.entry.length = false)
    ∧ (let w := work1 2 16 false (0x200000000 - 15);
      let s := queued [w];
      On s ∧ ((s.ctl.qp 4).work.find? fun w => w.entry.opcode = 2) = some w ∧ s.ctl.outsideRead w.entry.addr w.entry.length = false)
    ∧ (let w := work1 2 16 false (0x200000000 - 16);
      let s := queued [w];
      On s ∧ ((s.ctl.qp 4).work.find? fun w => w.entry.opcode = 2) = some w ∧ s.ctl.outsideRead w.entry.addr w.entry.length = true)
    ∧ (let w := work1 4 2 false 0;
      let s := ctlIs fun _ => { ((queued [w]).ctl.onDie (·.bset Reg.RCV_ROLE 0 0 1)) with rcv := { up.ctl.rcv with mirror := [[1, 2]] } };
      On s ∧ s.ctl.die.bget Reg.RCV_ROLE 0 0 ≠ 0 ∧ ((s.ctl.qp 4).work.find? fun w => w.entry.opcode = 4) = some w
        ∧ s.ctl.rcv.mirror = [1, 2] :: [] ∧ ([1, 2] : Bytes).length ≤ w.entry.length)
    ∧ (let w := work1 5 2 false 0x34D0000000;
      let s := ctlIs fun _ => (queued [w]).ctl.onDie (·.bset Reg.RCV_ROLE 0 0 0);
      On s ∧ s.ctl.die.bget Reg.RCV_ROLE 0 0 ≠ 1 ∧ ((s.ctl.qp 4).work.find? fun w => w.entry.opcode = 5) = some w ∧ s.ctl.die.safe = false
        ∧ s.ctl.outsideWrite w.entry.addr w.entry.length = true ∧ ([1, 2] : Bytes).length ≤ w.entry.length)
    ∧ (let w := work1 1 16 true 0;
      let s := queued [w];
      let c := (s.ctl.frameIn (frame1 4 true)).1;
      On s ∧ (s.ctl.frameIn (frame1 4 true)).2 = true ∧ c.die.up ≤ 100000000 + w.lastNs ∧ (c.qp 4).work = [w] ∧ w.entry.opcode = 1 ∧ w.entry.wrId = (frame1 4 true).id
        ∧ w.open_ = true)
    ∧ (let w := work1 1 16 true 0;
      let c := (queued [w]).ctl;
      let s := ctlIs fun _ => ctlAt 100000000 c;
      On s ∧ ((s.ctl.qp 4).work.find? fun w => w.entry.opcode = 1 && w.entry.wrId = 5) = some w ∧ w.lastNs + 100000000 ≤ s.ctl.die.up) :=
  ⟨by decide +kernel,
    by decide +kernel,
    by decide +kernel,
    by decide +kernel,
    by decide +kernel,
    by decide +kernel,
    by decide +kernel,
    by decide +kernel,
    by decide +kernel,
    by decide +kernel,
    by decide +kernel⟩

/-! ## Keystone -/

def conn1 : Conn := { port := 1, id := 2 }

/-- A connection on port 1 in this phase. -/
def spdm1 (phase : Nat) (f : Spdm → Spdm) : Spdm := f { Spdm.fresh conn1 with phase := phase, session := 65537 }

/-- The controller with port 1 up, this connection, and a link session where `ses` is one. -/
def talking (ses : Option Nat) (x : Spdm) : State :=
  ctlIs fun c => { c with ports := [(1, port1 2 2 256 ses)], kst := { c.kst with conns := [x] } }

/-- The controller's connection 3 inside the link session. -/
def conn2 : Conn := { port := 2, id := 3 }

theorem witness_SpdmRequests :
    (∀ p ∈ [0, 1, 2, 3], On (talking none (spdm1 p id)) ∧ (talking none (spdm1 p id)).ctl.hears conn1 = true
      ∧ ((talking none (spdm1 p id)).ctl.spdm conn1).phase = p)
    ∧ (3 < 4 ∧ 1 ≤ 1 ∧ 0x12 ≠ 0x13 ∧ 2 ≤ 2 ∧ ([1, 3] : List Nat).contains 1 = true ∧ ([1, 3] : List Nat).contains 3 = true ∧ 3 ≤ 3 ∧ 9 ≤ 9
      ∧ 2 < 3) :=
  ⟨by decide +kernel,
    by decide +kernel⟩

theorem ne_succ (x : Digest) : x + 1#512 ≠ x := by
  intro h
  have := congrArg BitVec.toNat h
  simp only [BitVec.toNat_add, BitVec.toNat_ofNat] at this
  have := x.isLt
  omega

/-- A link session that has had no answer to so many heartbeats, the last 0 ns after reset, at this time. -/
def beating (missed ns : Nat) : State :=
  { up with ctl := ctlAt ns (talking (some 65537) (spdm1 5 fun x => { x with missed := missed })).ctl }

theorem witness_SpdmSessions :
    (let s := talking none (spdm1 4 id);
      On s ∧ s.ctl.hears conn1 = true ∧ 3 ≤ (s.ctl.spdm conn1).phase ∧ (s.ctl.spdm conn1).phase ≠ 5 ∧ (s.ctl.spdm conn1).phase = 4)
    ∧ (let s := ctlIs fun c => { c with
          ports := [(1, port1 2 2 256 (some 1))], kst := { c.kst with conns := [{ Spdm.fresh conn2 with phase := 4, session := 5 }] } };
      On s ∧ s.ctl.hears conn2 = true ∧ (s.ctl.spdm conn2).phase = 4 ∧ (s.ctl.spdm conn2).mutualAuth = false ∧ (s.ctl.spdm conn2).peer = false
        ∧ (s.ctl.spdm conn2).relayed = true ∧ (s.ctl.spdm conn2).port = 2)
    ∧ (let s := talking (some 65537) (spdm1 5 fun x => { x with relayed := true, missed := 3, txChunk := some (1, 2, []) });
      On s ∧ s.ctl.hears conn1 = true ∧ (s.ctl.spdm conn1).phase = 5 ∧ 0x102 % 256 = 2 ∧ (s.ctl.spdm conn1).relayed = true
        ∧ (s.ctl.port 1).session = some 65537
        ∧ (s.ctl.kst.conns.find? fun x => x.port = 1 && x.phase = 5 && (s.ctl.port 1).session = some x.session) = some (s.ctl.spdm conn1)
        ∧ 3 ≤ (s.ctl.spdm conn1).missed ∧ 2 ≤ (s.ctl.spdm conn1).phase ∧ (s.ctl.spdm conn1).txChunk = some (1, 2, [])
        ∧ (s.ctl.spdm conn1).session ≠ 65536)
    ∧ (∃ (s : State) (port : Nat) (n : Nat) (x : Spdm),
      On s ∧ (s.ctl.port port).session = some n ∧ (s.ctl.kst.conns.find? fun x => x.port = port && x.phase = 5 && (s.ctl.port port).session = some x.session) = some x ∧ x.beatNs + 1000000000 ≤ s.ctl.die.up ∧ 3 ≤ x.missed)
    ∧ (∃ (s : State) (port : Nat) (n : Nat) (x : Spdm),
      On s ∧ (s.ctl.port port).session = some n ∧ (s.ctl.kst.conns.find? fun x => x.port = port && x.phase = 5 && (s.ctl.port port).session = some x.session) = some x ∧ x.beatNs + 1000000000 ≤ s.ctl.die.up ∧ x.missed < 3)
    ∧ (∃ (s : State) (port : Nat) (n : Nat) (x : Spdm),
      On s ∧ (s.ctl.port port).session = some n ∧ (s.ctl.kst.conns.find? fun x => x.port = port && x.phase = 5 && (s.ctl.port port).session = some x.session) = some x ∧ s.ctl.die.up < x.beatNs + 1000000000) :=
  ⟨by decide +kernel,
    by decide +kernel,
    by decide +kernel,
    ⟨beating 3 1000000000, 1, 65537, (beating 3 1000000000).ctl.spdm conn1, by decide +kernel⟩,
    ⟨beating 2 1000000000, 1, 65537, (beating 2 1000000000).ctl.spdm conn1, by decide +kernel⟩,
    ⟨beating 3 999999990, 1, 65537, (beating 3 999999990).ctl.spdm conn1, by decide +kernel⟩⟩

/-- The verify data of `witness_SpdmSessions`'s wrong FINISH: any that differs from the right one, as one byte more does. -/
theorem witness_SpdmSessions_finish (x : Bytes) : x ++ [0] ≠ x := by simp

def tkey1 : TKey := { keyId := 3, key := [], use := 0, owner := 0, member := none, bound := none }

theorem witness_KeystoneRequests :
    (let s := talking none (spdm1 5 fun x => { x with mutualAuth := true });
      On s ∧ s.ctl.hears conn1 = true ∧ (s.ctl.spdm conn1).phase = 5 ∧ (s.ctl.spdm conn1).mutualAuth = true
        ∧ s.ctl.die.fget Fl.KST_STATUS_test_mode ≠ 1 ∧ 1 ≤ 1
        ∧ (s.ctl.kst.tenant.any fun t => t.keyId = keyIdOf (slice [] 0 32)) = false ∧ s.ctl.flash.consumed.contains (keyIdOf (slice [] 0 32)) = false
        ∧ s.ctl.kst.tenant.length < 8192)
    ∧ (let s := talking none (spdm1 5 id);
      (s.ctl.spdm conn1).mutualAuth = false ∧ (s.ctl.spdm conn1).operator = false ∧ s.ctl.kst.tenant = [] ∧ s.ctl.partOf 7 = none)
    ∧ (let c := (talking none (spdm1 5 fun x => { x with mutualAuth := true })).ctl;
      let s := ctlIs fun _ => { c with kst := { c.kst with tenant := [tkey1] } };
      (s.ctl.kst.tenant.any fun t => t.keyId = 3 && t.bound.isNone && t.owner = (s.ctl.spdm conn1).owner) = true)
    ∧ (let c := (talking none (spdm1 5 fun x => { x with operator := true })).ctl;
      let s := ctlIs fun _ => { c with
        flash := { c.flash with operators := List.replicate 15 [0] }, adm := { c.adm with parts := [plan1 1] } };
      On s ∧ s.ctl.hears conn1 = true ∧ (s.ctl.spdm conn1).phase = 5 ∧ (s.ctl.spdm conn1).operator = true
        ∧ s.ctl.flash.operators.contains [1] = false ∧ s.ctl.flash.operators.length < 16 ∧ (s.ctl.partOf 7).isSome = true) :=
  ⟨by decide +kernel,
    by decide +kernel,
    by decide +kernel,
    by decide +kernel⟩

def keySlot1 (state use : Nat) : KeySlot :=
  { state := state, use := use, partition := 7, keyId := 3, key := [], inst := 1, gen := 0, loadedNs := 0, activeNs := some 0, retireNs := some 0 }

/-- The packaged agent with this key in slot 254 at this time in ns. -/
def keyed (k : KeySlot) (ns : Nat) : State :=
  twdIs fun a => { a with
    die := atNs ns a.die,
    gcm := { a.gcm with slots := [(254, k)], keys := some { fid := 5, ctlDie := 0, patternKey := [], wrapKey := [], reportKey := [] } } }

/-- An encrypted partition with its key, due for a new one. -/
def rekeying : State :=
  let p : PartPlan := { plan1 1 with flags := 2, trafficKey := 3, activeNs := some 0 }
  ctlIs fun c => { c with
    die := { c.die with clk := { c.die.clk with count := 2 ^ 49 * 2 ^ 56 } }, adm := { c.adm with parts := [p] },
    kst := { c.kst with tenant := [tkey1] } }

theorem witness_KeySlots :
    (On up ∧ Takes up.ctl.die Blk.KST ∧ up.ctl.flash.operators = []
      ∧ (up.ctl.memRead (up.ctl.die.getN Reg.KST_CERT_ADDR) (up.ctl.die.bget Reg.KST_CERT_LEN 27 0)).2.2 = false)
    ∧ (let s := ctlIs fun c => { c with flash := { c.flash with operators := [[1]] } };
      On s ∧ Takes s.ctl.die Blk.KST ∧ s.ctl.flash.operators ≠ [] ∧ s.ctl.flash.operatorsOk = true)
    ∧ (bitOf (0xC338 : Word).toNat 3 = true ∧ bitsOf (0xC338 : Word).toNat 15 8 = 0xC3 ∧ bitsOf (0xC338 : Word).toNat 6 4 ≤ 3
      ∧ bitsOf (0xC238 : Word).toNat 15 8 ≠ 0xC3)
    ∧ (Up up .twd ∧ markPriv (wormMark { fwd0 with operand := le 8 (2 * 2 ^ 26) ++ List.replicate 24 0 }) = 2)
    ∧ (let p : Bytes := List.replicate 32 0 ++ le 8 1;
      let a := (keyed (keySlot1 1 0) 0).twd;
      a.die.testEn = false ∧ a.die.getN Reg.GCM_WRAP_SEQ < fieldAt p 32 8 ∧ a.gcm.keys.isSome = true
        ∧ fieldAt [] 32 8 ≤ a.die.getN Reg.GCM_WRAP_SEQ ∧ ({ a.die with testEn := true } : Die).testEn = true)
    ∧ (∃ (s : State) (w : Who) (slot : Nat) (k : KeySlot),
      Up s w ∧ (s.agt w).keySlot slot = some k ∧ k.state = 1 ∧ k.loadedNs + 60000000000 ≤ (s.agt w).die.up)
    ∧ (let s := keyed (keySlot1 3 0) 0;
      s.twd.keySlot 254 = some (keySlot1 3 0) ∧ (keySlot1 3 0).state = 3 ∧ (keySlot1 3 0).retireNs = some 0 ∧ 0 ≤ s.twd.die.ns)
    ∧ (let s := keyed (keySlot1 2 0) (2 ^ 50 - 2 ^ 30);
      s.twd.keySlot 254 = some (keySlot1 2 0) ∧ (keySlot1 2 0).use = 0 ∧ s.twd.keyExpired 254 = true)
    ∧ (let s := ctlIs fun c => { c with adm := { c.adm with parts := [plan1 1] } };
      On s ∧ (s.ctl.adm.parts.find? fun p => p.tag = 7 && p.phase = 1) = some (plan1 1) ∧ bitOf (plan1 1).flags 1 = false)
    ∧ (let p : PartPlan := { plan1 1 with flags := 2, trafficKey := 3, activeNs := some 0 };
      let s := rekeying;
      On s ∧ (s.ctl.adm.parts.find? fun p => p.tag = 7 && p.phase = 1) = some p ∧ bitOf p.flags 1 = true ∧ p.activeNs = some 0
        ∧ 0 + 2 ^ 49 ≤ s.ctl.die.ns ∧ (s.ctl.kst.tenant.any fun k => k.keyId = p.trafficKey) = true
        ∧ (freeSlot s.ctl.adm.parts (p.members ++ p.switches)).isSome = true) :=
  ⟨by decide +kernel,
    by decide +kernel,
    by decide +kernel,
    by decide +kernel,
    by decide +kernel,
    ⟨keyed (keySlot1 1 0) 60000000000, .twd, 254, keySlot1 1 0, by decide +kernel⟩,
    by decide +kernel,
    by decide +kernel,
    by decide +kernel,
    by decide +kernel⟩

def awaited1 (mask : Nat) : Awaited := { fid := 5, mask := mask, values := [] }
def job1 (mask : Nat) : ReportJob :=
  { kind := 1, tag := 0, nonce := 0, conn := conn1, started := true, waiting := [awaited1 mask], askNonce := 9, askedNs := 0, states := [] }

/-- A report job that waits for agent 5's registers, at this time. -/
def measuring (mask ns : Nat) : State := ctlIs fun c => { ctlAt ns c with kst := { c.kst with jobs := [job1 mask] } }

theorem witness_Measurements :
    (Up (keyed (keySlot1 1 0) 0) .twd ∧ (keyed (keySlot1 1 0) 0).twd.gcm.keys.isSome = true ∧ up.twd.gcm.keys = none)
    ∧ (let s := measuring (2 ^ 15) 999999990;
      On s ∧ s.ctl.awaited 5 = some (job1 (2 ^ 15), awaited1 (2 ^ 15)) ∧ s.ctl.die.takeWait Blk.KST = (false, s.ctl.die)
        ∧ 9 = (job1 (2 ^ 15)).askNonce ∧ bitOf (awaited1 (2 ^ 15)).mask 15 = true ∧ putBits (awaited1 (2 ^ 15)).mask 15 15 0 = 0
        ∧ s.ctl.die.up ≤ (job1 (2 ^ 15)).askedNs + 1000000000)
    ∧ (∃ (s : State) (fid : Nat) (j : ReportJob) (w : Awaited),
      On s ∧ s.ctl.awaited fid = some (j, w) ∧ j.askedNs + 1000000000 ≤ s.ctl.die.up)
    ∧ (On up ∧ Up up .twd) :=
  ⟨by decide +kernel,
    by decide +kernel,
    ⟨measuring 1 1000000000, 5, job1 1, awaited1 1, by decide +kernel⟩,
    by decide +kernel⟩

/-- A report's tag that is not the right one. -/
theorem witness_Measurements_tag (x : Digest) : x + 1#512 ≠ x := ne_succ x
/-! ## Recorder, Fault Collector, management network -/

def raise1 : Raise := { code := 0x0101, inst := 0, sev := 2, alert := false, keep := true, snapList := 0xFFFF, timedOut := [], timeKind := 0, time := 0, atNs := 0 }

/-- The controller with one raise that waits. -/
def raised : State := ctlIs fun c => { c with die := { c.die with evr := { c.die.evr with queue := [raise1] } } }

/-- FLC_INJECT armed on a block, in test mode. -/
def armed (d : Die) (k : Nat) : Die := { (Df [(Fl.FLC_INJECT_count, 1), (Fl.FLC_INJECT_block, k), (Fl.FLC_INJECT_kind, 3)] d) with testEn := true }

def raisedAt (ns : Nat) : State := { up with ctl := ctlAt ns raised.ctl }

theorem witness_FaultCollector :
    (∃ (s : State) (ra : Raise) (rest : List Raise),
      On s ∧ s.ctl.die.evr.queue = ra :: rest ∧ s.ctl.die.injected = [])
    ∧ (∃ (s : State) (w : Who) (ra : Raise) (rest : List Raise),
      Up s w ∧ (s.agt w).die.evr.queue = ra :: rest ∧ (s.agt w).die.injected = [])
    ∧ (∃ (s : State) (p : Place) (index : Nat) (ra : Raise) (rest : List Raise),
      Alive s p ∧ (s.die p).evr.queue = ra :: rest ∧ ra.timedOut.contains index = false ∧ 2000 + ra.atNs ≤ (s.die p).up ∧ index < (Part.snapRegs (s.die p).part ra.snapList (ra.code / 256)).length)
    ∧ (∃ (s : State) (p : Place) (ra : Raise) (rest : List Raise),
      Alive s p ∧ (s.die p).evr.queue = ra :: rest ∧ (s.die p).up < 2000 + ra.atNs)
    ∧ (up.twd.die.part.blocks[up.twd.die.part.blockIndex Blk.LKP]? = some Blk.LKP
      ∧ up.twd.die.part.blocks[up.twd.die.part.blockIndex Blk.GCM]? = some Blk.GCM
      ∧ up.twd.die.part.blocks[up.twd.die.part.blockIndex Blk.PAT]? = some Blk.PAT
      ∧ up.ctl.die.part.blocks[up.ctl.die.part.blockIndex Blk.KST]? = some Blk.KST
      ∧ up.ctl.die.part.blocks[up.ctl.die.part.blockIndex Blk.CTL]? = some Blk.CTL ∧ 15 < 16)
    ∧ (Part.event up.ctl.die.part (up.ctl.die.part.codeOf Ev.GAUGE_EXCEED) = some Ev.GAUGE_EXCEED ∧ Ev.GAUGE_EXCEED ≠ Ev.MEM_CHANNEL_FENCED
      ∧ Ev.GAUGE_EXCEED ≠ Ev.KEYSTONE_FAULT ∧ Ev.GAUGE_EXCEED.low ≠ 0xF4)
    ∧ (let e := Ev.AGT_GAUGE_EXCEED;
      Part.event up.twd.die.part (up.twd.die.part.codeOf e) = some e ∧ e ≠ Ev.PURL_LANE_FENCED ∧ e ≠ Ev.PURL_ENGINE_FENCED ∧ e ≠ Ev.UCIE_MODULE_DOWN
        ∧ e ≠ Ev.UCIE_CONTROL_DOWN ∧ e ≠ Ev.AGENT_FENCED ∧ e.low ≠ 0xF4) :=
  ⟨⟨raised, raise1, [], by decide +kernel⟩,
    ⟨twdIs fun a => { a with die := { a.die with evr := { a.die.evr with queue := [raise1] } } }, .twd, raise1, [], by decide +kernel⟩,
    ⟨raisedAt 2000, .ctl, 0, raise1, [], by decide +kernel⟩,
    ⟨raisedAt 1990, .ctl, raise1, [], by decide +kernel⟩,
    by decide +kernel,
    by decide +kernel,
    by decide +kernel⟩

theorem witness_FaultCollector_registers :
    (Alive up .ctl ∧ Alive up (.agt .twd) ∧ Takes (up.die .ctl) Blk.FLC ∧ bitOf (0xA502 : Word).toNat 0 = false
      ∧ bitOf (0xA502 : Word).toNat 1 = true ∧ bitsOf (0xA502 : Word).toNat 15 8 = 0xA5 ∧ up.ctl.die.safe = false ∧ (up.die .ctl).testEn = false)
    ∧ (∃ (s : State) (k : Nat) (b : Nat),
      On s ∧ s.ctl.die.testEn = true ∧ s.ctl.die.fget Fl.FLC_INJECT_count ≠ 0 ∧ mayRaise s.ctl.die.injectNs s.ctl.die.up 1000 = true ∧ s.ctl.die.fget Fl.FLC_INJECT_block = k ∧ s.ctl.die.part.blocks[k]? = some b ∧ s.ctl.die.fget Fl.FLC_INJECT_kind ≠ 4)
    ∧ (∃ (s : State) (w : Who) (k : Nat) (b : Nat),
      Up s w ∧ (s.agt w).die.testEn = true ∧ (s.agt w).die.fget Fl.FLC_INJECT_count ≠ 0 ∧ mayRaise (s.agt w).die.injectNs (s.agt w).die.up 1000 = true ∧ (s.agt w).die.fget Fl.FLC_INJECT_block = k ∧ (s.agt w).die.part.blocks[k]? = some b ∧ (s.agt w).die.fget Fl.FLC_INJECT_kind ≠ 4)
    ∧ (∃ (s : State) (w : Who),
      Up s w ∧ mayRaise (s.agt w).die.injectNs (s.agt w).die.up 1000 = false)
    ∧ Takes up.ctl.die Blk.FLC
    ∧ (up.ctl.die.part.pelron = true ∧ bitsOf (31 : Word).toNat 4 0 = 31 ∧ 4 < 5)
    ∧ (Takes up.ctl.die Blk.EVR ∧ bitOf (0xE702 : Word).toNat 0 = false ∧ bitOf (0xE702 : Word).toNat 1 = true
      ∧ bitsOf (0xE702 : Word).toNat 15 8 = 0xE7) :=
  ⟨by decide +kernel,
    ⟨ctlIs fun c => c.onDie fun d => armed d (d.part.blockIndex Blk.SOL), (ctlIs fun c => c.onDie fun d => armed d (d.part.blockIndex Blk.SOL)).ctl.die.fget Fl.FLC_INJECT_block, Blk.SOL, by decide +kernel⟩,
    ⟨twdIs fun a => a.onDie fun d => armed d (d.part.blockIndex Blk.LKP), .twd, (twdIs fun a => a.onDie fun d => armed d (d.part.blockIndex Blk.LKP)).twd.die.fget Fl.FLC_INJECT_block, Blk.LKP, by decide +kernel⟩,
    ⟨twdIs fun a => a.onDie fun d => { atNs 990 d with injectNs := some 0 }, .twd, by decide +kernel⟩,
    by decide +kernel,
    by decide +kernel,
    by decide +kernel⟩

def record0 (sev : Nat) : Record :=
  { code := 0, sev := sev, flags := 0, fid := 0, block := 0, timeKind := 0, inst := 0, fwdSeq := 0, time := 0, sequence := 0, snapList := 0,
    snapCount := 0, snapValid := 0, regs := [] }

/-- The controller whose save of operating seconds was due or not, at this time. -/
def savingAt (ns : Nat) : State := ctlIs (ctlAt ns)

theorem opsec_witness_RecorderRecords :
    (On up ∧ ∀ t, tget up.ctl.cst.opsecNs 77 = some t → 3600000000000 + t ≤ up.ctl.die.up) := ⟨by decide +kernel, fun _ h => nomatch h⟩

theorem witness_RecorderRecords :
    (∃ (code : Nat),
      Part.codeOf .twd210 Ev.AGENT_FENCED = code)
    ∧ (∃ (code : Nat),
      Part.codeOf .twd210 Ev.PURL_LANE_FENCED = code)
    ∧ (∃ (code : Nat),
      Part.codeOf .twd210 Ev.PLUMB_DELAY_DRIFT = code)
    ∧ (∃ (s : State),
      On s ∧ 60000000000 + s.ctl.die.evr.savedNs ≤ s.ctl.die.up)
    ∧ (∃ (s : State),
      On s ∧ s.ctl.die.up < 60000000000 + s.ctl.die.evr.savedNs)
    ∧ (∃ (s : State) (dieId : Nat) (t : Nat),
      On s ∧ tget s.ctl.cst.opsecNs dieId = some t ∧ s.ctl.die.up < 3600000000000 + t)
    ∧ (On up ∧ markPriv (wormMark fwd0) < 2 ∧ 2 ≤ markPriv (wormMark { fwd0 with operand := le 8 (2 * 2 ^ 26) ++ List.replicate 24 0 }))
    ∧ tgetD up.ctl.die.evr.fwdExpect 5 1 < 2
    ∧ (Up up .twd ∧ up.twd.die.safe = false)
    ∧ (let s := ctlIs fun c => (Cf [(Fl.EVR_STATUS_mode, 1)] c).setStep 2 2 0 0 0 0;
      On s ∧ s.ctl.die.fget Fl.EVR_STATUS_mode = 1 ∧ s.ctl.circReady = true)
    ∧ (let s := twdIs (Af [(Fl.EVR_STATUS_mode, 1), (Fl.AGT_CST_STATUS_state, 2)]);
      Up s .twd ∧ s.twd.die.fget Fl.EVR_STATUS_mode = 1 ∧ 2 ≤ s.twd.castState ∧ s.twd.castState ≠ 0xF ∧ s.twd.die.blockFenced Blk.BLK = false
        ∧ s.twd.rcv.dump = none ∧ s.twd.rcv.records = [])
    ∧ ([record0 2].length < 2 ∧ 2 ≤ [record0 2, record0 3].length ∧ (∀ x ∈ [record0 2, record0 3], (record0 2).sev ≤ x.sev)) :=
  ⟨⟨Part.codeOf .twd210 Ev.AGENT_FENCED, by decide +kernel⟩,
    ⟨Part.codeOf .twd210 Ev.PURL_LANE_FENCED, by decide +kernel⟩,
    ⟨Part.codeOf .twd210 Ev.PLUMB_DELAY_DRIFT, by decide +kernel⟩,
    ⟨savingAt 60000000000, by decide +kernel⟩,
    ⟨savingAt 59999999990, by decide +kernel⟩,
    ⟨ctlIs fun c => { ctlAt 3599999999990 c with cst := { c.cst with opsecNs := [(77, 0)] } }, 77, 0, by decide +kernel⟩,
    by decide +kernel,
    by decide +kernel,
    by decide +kernel,
    by decide +kernel,
    by decide +kernel,
    by decide +kernel⟩

def mortar1 (phase seq : Nat) : Mortar :=
  { id := 6, phase := phase, rxSeq := seq, txSeq := 0, lastNs := 0, transcript := [], secret := [], leaf := [], rootKey := [] }

/-- The controller with one Mortar connection at this time in ns. -/
def mortared (m : Mortar) (ns : Nat) : State :=
  ctlIs fun c => { c with
    die := atNs ns c.die, mortar := [m], memu := { c.memu with usable := List.range 96 } }

theorem witness_MortarConnections :
    (let s := ctlIs fun c => { c with mortar := List.replicate 7 (mortar1 2 0) };
      On s ∧ (s.ctl.keystone && s.ctl.stepDone 4) = false ∧ s.ctl.mortar.length < 8 ∧ s.ctl.die.blockFenced Blk.MNP = false)
    ∧ (let s := ctlIs fun c => { c with mortar := List.replicate 8 (mortar1 2 0) }; On s ∧ 8 ≤ s.ctl.mortar.length)
    ∧ (let s := { mortared (mortar1 0 0) 0 with ctl := Cf [(Fl.KST_MGMT_AUTH_auth, 0)] (mortared (mortar1 0 0) 0).ctl };
      On s ∧ s.ctl.mortarOf 6 = some (mortar1 0 0) ∧ (mortar1 0 0).phase = 0 ∧ s.ctl.keystone = false)
    ∧ ((mortared (mortar1 1 1) 0).ctl.enrolling = false ∧ (mortared (mortar1 1 1) 0).ctl.die.up ≤ 5000000000 + (mortar1 1 1).lastNs)
    ∧ (∃ (s : State) (id : Nat) (m : Mortar),
      On s ∧ s.ctl.mortarOf id = some m ∧ m.phase = 1 ∧ 5000000000 + m.lastNs ≤ s.ctl.die.up)
    ∧ (∃ (s : State) (id : Nat) (m : Mortar),
      On s ∧ s.ctl.mortarOf id = some m ∧ s.ctl.die.up < 5000000000 + m.lastNs)
    ∧ (∃ (s : State) (id : Nat) (m : Mortar),
      On s ∧ s.ctl.mortarOf id = some m ∧ m.phase = 2 ∧ 60000000000 + m.lastNs ≤ s.ctl.die.up)
    ∧ (On up ∧ Takes up.ctl.die Blk.MNP ∧ bitOf (0x10000 : Word).toNat 16 = true ∧ 1 < 2) :=
  ⟨by decide +kernel,
    by decide +kernel,
    by decide +kernel,
    by decide +kernel,
    ⟨mortared (mortar1 1 1) 5000000000, 6, mortar1 1 1, by decide +kernel⟩,
    ⟨mortared (mortar1 1 1) 4999999990, 6, mortar1 1 1, by decide +kernel⟩,
    ⟨mortared (mortar1 2 1) 60000000000, 6, mortar1 2 1, by decide +kernel⟩,
    by decide +kernel⟩

def rmt1 (attempts : Nat) : Rmt :=
  { soft := true, fid := 0, addr := 0, opId := 0, attempts := attempts, startNs := 0, reads := true, request := [] }

def operating (op : Rmt) : State :=
  ctlIs fun c => { c with die := atNs 1000000 c.die, ops := [op] }

theorem witness_ManagementRecords :
    (let s := mortared (mortar1 2 (2 ^ 32 - 1)) 0;
      let r := s.ctl.mortarIn 6 (2 ^ 32 - 1) true;
      On s ∧ r.2.isSome = true ∧ ([1] : Bytes) ≠ [] ∧ (List.replicate 65528 (0 : Byte)).length ≤ 65528 ∧ r.1.die.safe = false
        ∧ r.1.outsideWrite (0x200000000 - 1) ([1] : Bytes).length = true ∧ r.1.outsideWrite 0x200000000 ([1] : Bytes).length = false
        ∧ 0 < 65528 ∧ 65528 ≤ 65528 ∧ r.1.outsideRead 0 65528 = true
        ∧ s.ctl.mortarOf 6 = some (mortar1 2 (2 ^ 32 - 1)) ∧ (mortar1 2 (2 ^ 32 - 1)).phase = 2 ∧ (mortar1 2 (2 ^ 32 - 1)).rxSeq = 2 ^ 32 - 1
        ∧ 2 ^ 32 - 1 < 2 ^ 32 ∧ s.ctl.die.up ≤ 60000000000 + (mortar1 2 (2 ^ 32 - 1)).lastNs ∧ 5 ≠ (mortar1 2 (2 ^ 32 - 1)).rxSeq)
    ∧ (let v : Word := 0x100000009;
      On (knows false) ∧ Takes (knows false).ctl.die Blk.MBX ∧ (knows false).ctl.rmtBusy = false ∧ bitOf v.toNat 32 = true
        ∧ tget (knows false).ctl.cst.agents (bitsOf v.toNat 17 0) = some agent1 ∧ agent1.named = true ∧ agent1.lost = false
        ∧ tget up.ctl.cst.agents (bitsOf v.toNat 17 0) = none)
    ∧ (On (operating (rmt1 1)) ∧ Takes (operating (rmt1 1)).ctl.die Blk.MBX ∧ (operating (rmt1 1)).ctl.rmtBusy = true)
    ∧ (let wm : Worm := { fwd0 with payload := le 5 0 ++ le 1 1 ++ List.replicate 58 0 };
      bitOf (byteAt wm.payload 5) 0 = true ∧ (rmt1 1).soft = true ∧ (operating (rmt1 1)).ctl.die.up ≤ 1000000 + (rmt1 1).startNs
        ∧ ((operating (rmt1 1)).ctl.ops.find? fun o => o.fid = markFid (wormMark wm) && o.opId = fieldAt wm.payload 0 4) = some (rmt1 1)
        ∧ (up.ctl.ops.find? fun o => o.fid = markFid (wormMark wm) && o.opId = fieldAt wm.payload 0 4) = none)
    ∧ (∃ (s : State) (op : Rmt),
      On s ∧ (s.ctl.ops.find? fun o => 1000000 + o.startNs ≤ s.ctl.die.up) = some op ∧ s.ctl.die.safe = false ∧ op.attempts < 4)
    ∧ (∃ (s : State) (op : Rmt),
      On s ∧ (s.ctl.ops.find? fun o => 1000000 + o.startNs ≤ s.ctl.die.up) = some op ∧ s.ctl.die.safe = false ∧ 4 ≤ op.attempts) :=
  ⟨by decide +kernel,
    by decide +kernel,
    by decide +kernel,
    by decide +kernel,
    ⟨operating (rmt1 3), rmt1 3, by decide +kernel⟩,
    ⟨operating (rmt1 4), rmt1 4, by decide +kernel⟩⟩
/-! ## Mailboxes, memory, firmware, power, accesses -/

/-- The operand of a FWD worm whose mark has privilege 2 and FID 0, followed by these bytes. -/
def ctlMark (rest : Bytes) : Bytes := slice (le 8 (2 * 2 ^ 26) ++ rest) 0 32

def msg1 (seq floor : Nat) : MsgA := { mtype := 0x01, flags := 0, seq := seq, tag := 0, floor := floor, body := [] }

/-- A class A worm from the controller. -/
def letter (seq floor : Nat) : Worm := { fwd0 with operand := ctlMark [], payload := (msg1 seq floor).bytes }

def peer1 : Peer :=
  { fid := 9, nextSend := 2, nextExpect := 1, unacked := [{ msg := msg1 1 1, sends := 1, sentNs := 0 }], waiting := [], ended := [], held := [], order := 0 }

/-- The controller with a peer, FID 9, and message 1 to it sent `sends` times, at this time. -/
def writingAt (sends ns : Nat) : State :=
  ctlIs fun c => (ctlAt ns c).onDie fun d =>
    { (d.setN Reg.MBX_A_CFG (putBits (putBits (putBits (d.getN Reg.MBX_A_CFG) 24 20 1) 19 16 3) 15 0 10)) with
      mbx := { d.mbx with peers := [{ peer1 with unacked := [{ msg := msg1 1 1, sends := sends, sentNs := 0 }] }] } }
def writing (sends : Nat) : State := writingAt sends 10000

def unacked1 (sends : Nat) : Unacked := { msg := msg1 1 1, sends := sends, sentNs := 0 }

theorem witness_ClassA :
    (∃ (s : State) (wm : Worm) (room : Bool),
      On s ∧ s.ctl.die.lacksRoom wm room = false)
    ∧ (∃ (s : State) (wm : Worm) (room : Bool),
      On s ∧ s.ctl.die.lacksRoom wm room = true)
    ∧ (∃ (s : State) (wm : Worm) (room : Bool),
      On s ∧ s.ctl.die.lacksRoom wm room = true)
    ∧ (∃ (s : State) (p : Place) (w : Worm) (q : Peer),
      Alive s p ∧ (s.die p).safe = false ∧ (s.die p).lacksRoom w true = false ∧ (((s.die p).part.pelron = true ∨ markPriv (wormMark w) = 2)) ∧ (s.die p).mbx.peer (markFid (wormMark w)) = q ∧ (msgOfBytes w.payload).seq = q.nextExpect ∧ (msgOfBytes w.payload).floor = q.nextExpect ∧ tget q.held q.nextExpect = none)
    ∧ (∃ (s : State) (k : Who),
      Up s k ∧ (s.agt k).die.safe = false)
    ∧ (let s := twdIs (Af [(Fl.FLC_STATUS_safe, 1)]); Alive s (.agt .twd) ∧ (s.die (.agt .twd)).safe = true)
    ∧ (∃ (s : State) (p : Place) (peer : Nat) (seq : Nat) (u : Unacked),
      Alive s p ∧ (s.die p).safe = false ∧ (s.die p).retryDue peer seq = true ∧ (((s.die p).mbx.peer peer).unacked.find? fun u => u.msg.seq = seq) = some u ∧ u.sends < (s.die p).bget Reg.MBX_A_CFG 19 16)
    ∧ (∃ (s : State) (p : Place) (peer : Nat) (seq : Nat) (u : Unacked),
      Alive s p ∧ (s.die p).safe = false ∧ (s.die p).retryDue peer seq = true ∧ (((s.die p).mbx.peer peer).unacked.find? fun u => u.msg.seq = seq) = some u ∧ (s.die p).bget Reg.MBX_A_CFG 19 16 ≤ u.sends)
    ∧ (∃ (s : State) (p : Place) (peer : Nat) (seq : Nat),
      Alive s p ∧ ((∀ u ∈ ((s.die p).mbx.peer peer).unacked, u.msg.seq = seq → (s.die p).up < u.sentNs + 1000 * (s.die p).bget Reg.MBX_A_CFG 15 0)))
    ∧ ((msg1 0 1).floor = peer1.nextExpect ∧ 2 ^ 31 ≤ seqAhead (msg1 0 1).seq peer1.nextExpect)
    ∧ ((msg1 17 1).floor = peer1.nextExpect ∧ tget peer1.held (msg1 17 1).seq = none ∧ 1 ≤ seqAhead (msg1 17 1).seq peer1.nextExpect
      ∧ seqAhead (msg1 17 1).seq peer1.nextExpect ≤ 16)
    ∧ ((up.ctl.die.mbx.peer 9).unacked.length < up.ctl.die.bget Reg.MBX_A_CFG 24 20 ∧ (up.ctl.die.mbx.peer 9).waiting = [])
    ∧ ((writing 1).ctl.die.bget Reg.MBX_A_CFG 24 20 ≤ ((writing 1).ctl.die.mbx.peer 9).unacked.length)
    ∧ (let w : Worm := { fwd0 with operand := slice (le 8 9) 0 32 };
      On (writing 1) ∧ (writing 1).ctl.die.safe = false ∧ ((writing 1).ctl.die.mbx.peers.any fun q => q.fid = markFid (wormMark w)) = true
        ∧ (writing 1).ctl.die.injected = [])
    ∧ (Up up .twd ∧ (up.agt .twd).die.safe = false ∧ (((up.agt .twd).die.mbx.peers.any fun q => q.fid = markFid (wormMark fwd0)) = false))
    ∧ (controllerTypes.contains 0x5F = true ∧ agentTypes.contains 0x55 = true) :=
  ⟨⟨up, letter 16 1, true, by decide +kernel⟩,
    ⟨up, letter 18 1, true, by decide +kernel⟩,
    ⟨up, letter 1 1, false, by decide +kernel⟩,
    ⟨up, .agt .twd, letter 1 1, up.twd.die.mbx.peer 0, by decide +kernel⟩,
    ⟨up, .twd, by decide +kernel⟩,
    by decide +kernel,
    ⟨writing 2, .ctl, 9, 1, unacked1 2, by decide +kernel⟩,
    ⟨writing 3, .ctl, 9, 1, unacked1 3, by decide +kernel⟩,
    ⟨writingAt 1 9990, .ctl, 9, 1, by decide +kernel⟩,
    by decide +kernel,
    by decide +kernel,
    by decide +kernel,
    by decide +kernel,
    by decide +kernel,
    by decide +kernel,
    by decide +kernel⟩

/-- A channel bound to cores 0 and 1 with these messages each way. -/
def chan1 (toB toA : List (Nat × List Word)) : ChanB := { channel := 2, masterA := 0, masterB := 1, toB := toB, toA := toA }

def mailed (ch : ChanB) : State := twdIs fun a => a.onDie fun d => { d with mbx := { d.mbx with chans := [ch] } }

theorem witness_ClassBAndRelays :
    (let s := mailed (chan1 (List.replicate 7 (0, [])) []);
      Alive s (.agt .twd) ∧ 2 < (s.die (.agt .twd)).part.channels ∧ ((s.die (.agt .twd)).refuseB 2 (masterOf (.core 0))).isNone = true
        ∧ (s.die (.agt .twd)).chan 2 = some (chan1 (List.replicate 7 (0, [])) [])
        ∧ (chan1 (List.replicate 7 (0, [])) []).side (s.die (.agt .twd)).part.pelron (masterOf (.core 0)) = some true
        ∧ ((chan1 (List.replicate 7 (0, [])) []).outQ true).length < 8)
    ∧ (let c := chan1 (List.replicate 8 (0, [])) [];
      let s := mailed c;
      ((s.die (.agt .twd)).refuseB 2 (masterOf (.core 0))).isNone = true ∧ (s.die (.agt .twd)).chan 2 = some c ∧ 8 ≤ (c.outQ true).length)
    ∧ (let s := mailed (chan1 [] []);
      Alive s (.agt .twd) ∧ ((((s.die (.agt .twd)).chan 2).bind fun ch => ch.side (s.die (.agt .twd)).part.pelron (masterOf (.core 2))) = none)
        ∧ (((s.die (.agt .twd)).chan 3).bind fun ch => ch.side (s.die (.agt .twd)).part.pelron (masterOf (.core 0))) = none)
    ∧ (let c := chan1 [(0, [5])] [];
      let s := mailed c;
      ((s.die (.agt .twd)).refuseB 2 (masterOf (.core 1))).isNone = true ∧ (s.die (.agt .twd)).chan 2 = some c
        ∧ c.side (s.die (.agt .twd)).part.pelron (masterOf (.core 1)) = some false ∧ c.inQ false = (0, [5]) :: [] ∧ c.inQ true = [])
    ∧ (let wm : Worm := { fwd0 with operand := ctlMark [3], payload := headBytes fwd0 };
      Up switch5 .twd ∧ markPriv (wormMark wm) = 2 ∧ (wormOfHead (leNat (slice wm.payload 0 64))).cls = 2
        ∧ (wormOfHead (leNat (slice wm.payload 0 64))).partition = 0 ∧ (wormOfHead (leNat (slice wm.payload 0 64))).mcast = 0
        ∧ (switch5.agt .twd).fid ≠ 0x3FFFF)
    ∧ markPriv (wormMark fwd0) ≠ 2 :=
  ⟨by decide +kernel,
    by decide +kernel,
    by decide +kernel,
    by decide +kernel,
    by decide +kernel,
    by decide +kernel⟩

/-- The controller with every channel usable, row sparing on, and a row of channel 0 over the limit. -/
def storing (f : Ctl → Ctl) : State :=
  ctlIs fun c =>
    let c := Cf [(Fl.MEM_CFG_spare_en, 1), (Fl.MEM_CFG_row_limit, 8)] c
    f { c with memu := { c.memu with usable := List.range 96, rowHits := [(wordKey 0 3, 9)] } }

def merge1 : Merge := { addr := 256, data := [], startNs := 0 }

/-- With an entry of the write buffer that opened 0 ns after reset, at this time; with the scrub's next position 1. -/
def merging (ns : Nat) : State := storing fun c => let c := ctlAt ns c; { c with memu := { c.memu with merge := [merge1] } }
def scrubbed : State := storing fun c => (Cf [(Fl.MEM_CFG_scrub_hours, 24)] c).onDie fun d => d.bset Reg.MEM_SCRUB 47 0 (2 ^ 30)

theorem witness_ControllerMemory :
    (let s := storing id;
      On s ∧ s.ctl.capacity - 4 + ([1, 2, 3, 4] : Bytes).length ≤ s.ctl.capacity ∧ 4 < s.ctl.capacity ∧ (s.ctl.chan (s.ctl.wordOf 128 / 2 ^ 40)).state ≠ 3
        ∧ s.ctl.memu.merge.any (·.addr = 129 / 128 * 128) = false ∧ (List.replicate 128 (7 : Byte)).length = 128
        ∧ s.ctl.memu.merge = [] ∧ s.ctl.memu.errors = [] ∧ s.ctl.die.blockFenced Blk.MEM = false)
    ∧ (let fenced : Chan := { state := 3, fully := true, corrected := 0, lastEvent := none, exhausted := false };
      let s := storing fun c => { c with memu := { c.memu with chans := [(0, fenced)] } };
      (s.ctl.chan (s.ctl.wordOf 0 / 2 ^ 40)).state = 3)
    ∧ (∃ (s : State) (addr : Nat) (m : Merge),
      On s ∧ m ∈ s.ctl.memu.merge ∧ m.addr = addr / 128 * 128 ∧ 2000 + m.startNs ≤ s.ctl.die.up ∧ (s.ctl.chan (s.ctl.wordOf (addr / 128 * 128) / 2 ^ 40)).state ≠ 3)
    ∧ (∃ (s : State) (addr : Nat),
      On s ∧ ((∀ m ∈ s.ctl.memu.merge, m.addr = addr / 128 * 128 → s.ctl.die.up < 2000 + m.startNs)))
    ∧ (∃ (s : State) (addr : Nat),
      On s ∧ ((∀ m ∈ s.ctl.memu.merge, m.addr = addr / 128 * 128 → s.ctl.die.up < 2000 + m.startNs)))
    ∧ (∃ (s : State) (total : Nat),
      On s ∧ total = s.ctl.memu.usable.length * s.ctl.channelWords ∧ s.ctl.scrubDue (s.ctl.die.bget Reg.MEM_SCRUB 47 0 % total) total ≤ s.ctl.die.up ∧ s.ctl.die.blockFenced Blk.MEM = false ∧ s.ctl.memu.merge = [] ∧ s.ctl.memu.errors = [] ∧ (s.ctl.memu.usable.any fun n => (s.ctl.chan n).state = 3) = false ∧ s.ctl.channelWords ≠ 0 ∧ s.ctl.die.bget Reg.MEM_SCRUB 47 0 + 1 < total)
    ∧ (∃ (s : State) (total : Nat),
      On s ∧ total = s.ctl.memu.usable.length * s.ctl.channelWords ∧ s.ctl.die.up < s.ctl.scrubDue (s.ctl.die.bget Reg.MEM_SCRUB 47 0 % total) total)
    ∧ (let s := storing id;
      On s ∧ s.ctl.die.fget Fl.MEM_CFG_spare_en = 1 ∧ s.ctl.die.fget Fl.MEM_CFG_row_limit < tgetD s.ctl.memu.rowHits (wordKey 0 3) 0
        ∧ s.ctl.memu.usable.contains 0 = true ∧ (s.ctl.chan 0).state ≠ 3 ∧ s.ctl.freeSpare 0 = some 0 ∧ s.ctl.flash.repairs.length < 4096
        ∧ s.ctl.memu.errors = [])
    ∧ (let s := storing fun c => { c with flash := { c.flash with
          repairs := (List.range 64).map fun r => { channel := 0, row := r + 100, spare := r, fused := false } } };
      s.ctl.freeSpare 0 = none ∧ (s.ctl.chan 0).exhausted = false) :=
  ⟨by decide +kernel,
    by decide +kernel,
    ⟨merging 2100, 300, merge1, by decide +kernel⟩,
    ⟨merging 1990, 300, by decide +kernel⟩,
    ⟨merging 2100, 600, by decide +kernel⟩,
    ⟨storing id, (storing id).ctl.memu.usable.length * (storing id).ctl.channelWords, by decide +kernel⟩,
    ⟨scrubbed, scrubbed.ctl.memu.usable.length * scrubbed.ctl.channelWords, by decide +kernel⟩,
    by decide +kernel,
    by decide +kernel⟩

/-- Check-value unit 1 with this length, its operation running where `busy` is 1. -/
def checking (len busy ctl : Nat) (d : Die) : Die :=
  let d := (d.bset (cvuReg 1 Reg.CVU_LEN) 24 0 len).bset (cvuReg 1 Reg.CVU_STATUS) 0 0 busy
  { d with cvu := d.cvu.set 1 { ctl := ctl, src := 0, dst := 128, len := len } }

theorem witness_CheckValueUnits :
    (let s := twdIs fun a => a.onDie (checking 1 0 0);
      Alive s (.agt .twd) ∧ Takes (s.die (.agt .twd)) Blk.CVU ∧ bitOf (0x21 : Word).toNat 0 = true ∧ 1 < (s.die (.agt .twd)).part.cvus
        ∧ (s.die (.agt .twd)).fenced Blk.CVU 1 = false ∧ (s.die (.agt .twd)).cvuBusy 1 = false
        ∧ (Die.cvuLengthOk ((s.die (.agt .twd)).bset (cvuReg 1 Reg.CVU_STATUS) 4 4 (bitsOf (0x21 : Word).toNat 2 2)) 1 (0x21 : Word).toNat) = true)
    ∧ (let s := ctlIs fun c => c.onDie (checking 16777216 1 0x50);
      Alive s .ctl ∧ Takes (s.die .ctl) Blk.CVU ∧ bitOf (0x21 : Word).toNat 0 = true ∧ 1 < (s.die .ctl).part.cvus
        ∧ (s.die .ctl).fenced Blk.CVU 1 = false ∧ (s.die .ctl).cvuBusy 1 = true ∧ On s ∧ s.ctl.die.cvuBusy 1 = true)
    ∧ (∃ (d : Die) (unit : Nat) (o : Cvu),
      d.cvuOp unit = o ∧ cvuLast o.ctl = true ∧ cvuMode o.ctl = 2)
    ∧ (∃ (d : Die) (unit : Nat) (o : Cvu),
      d.cvuOp unit = o ∧ cvuMode o.ctl = 0)
    ∧ (∃ (d : Die) (unit : Nat) (o : Cvu),
      d.cvuOp unit = o ∧ cvuLast o.ctl = true ∧ cvuMode o.ctl = 1)
    ∧ (∃ (d : Die) (unit : Nat) (o : Cvu),
      d.cvuOp unit = o)
    ∧ (∃ (s : State) (unit : Nat),
      On s ∧ Takes s.ctl.die Blk.CVU ∧ s.ctl.die.cvuBusy unit = true)
    ∧ (∃ (s : State) (w : Who) (unit : Nat),
      Up s w ∧ Takes (s.agt w).die Blk.CVU ∧ (s.agt w).die.cvuBusy unit = true)
    ∧ (∃ (s : State) (w : Who) (unit : Nat),
      Up s w ∧ Takes (s.agt w).die Blk.CVU ∧ (s.agt w).die.cvuBusy unit = false) :=
  ⟨by decide +kernel,
    by decide +kernel,
    ⟨checking 64 1 0x50 up.ctl.die, 1, (checking 64 1 0x50 up.ctl.die).cvuOp 1, by decide +kernel⟩,
    ⟨checking 64 1 0x40 up.ctl.die, 1, (checking 64 1 0x40 up.ctl.die).cvuOp 1, by decide +kernel⟩,
    ⟨checking 64 1 0x48 up.ctl.die, 1, (checking 64 1 0x48 up.ctl.die).cvuOp 1, by decide +kernel⟩,
    ⟨checking 64 1 0x50 up.ctl.die, 1, (checking 64 1 0x50 up.ctl.die).cvuOp 1, by decide +kernel⟩,
    ⟨ctlIs fun c => c.onDie (checking 64 1 0), 1, by decide +kernel⟩,
    ⟨twdIs fun a => a.onDie (checking 64 1 0), .twd, 1, by decide +kernel⟩,
    ⟨twdIs fun a => a.onDie (checking 64 0 0), .twd, 1, by decide +kernel⟩⟩

def fagent (state : Nat) : FdsAgent := { state := state, bitmap := 0, reported := false }

/-- The controller that sends out an image of two chunks to FID 9. -/
def sending (next rounds : Nat) (x : FdsAgent) : State :=
  ctlIs fun c =>
    let c := c.onDie (·.bset Reg.FDS_IMAGE 63 56 rounds)
    { c with fds := { c.fds with imageId := 6, image := List.replicate 2049 1, next := next, agents := [(9, x)] } }

/-- The same at a time, its last chunk gone at 0 ns, the queries out or not. -/
def sendingAt (next rounds : Nat) (x : FdsAgent) (queried : Bool) (ns : Nat) : State :=
  let s := sending next rounds x
  { s with ctl := ctlAt ns ((Cf [(Fl.FDS_CFG_chunk_ns, 5000)] { s.ctl with fds := { s.ctl.fds with queried := queried, sentNs := 0 } })) }

theorem witness_FirmwareDistribution :
    (let s := ctlIs fun c => { c with flash := { c.flash with staged := [(3, [1])] } };
      On s ∧ Takes s.ctl.die Blk.FDS ∧ tget s.ctl.flash.staged 3 = some [1] ∧ s.ctl.distributing = false)
    ∧ (∃ (s : State),
      On s ∧ s.ctl.distributing = true ∧ s.ctl.fds.next < s.ctl.fdsCount ∧ s.ctl.fds.sentNs + s.ctl.die.fget Fl.FDS_CFG_chunk_ns ≤ s.ctl.die.up)
    ∧ (∃ (s : State),
      On s ∧ 0 < s.ctl.fds.next ∧ s.ctl.die.up < s.ctl.fds.sentNs + s.ctl.die.fget Fl.FDS_CFG_chunk_ns)
    ∧ (∃ (s : State),
      On s ∧ s.ctl.distributing = true ∧ s.ctl.fdsCount ≤ s.ctl.fds.next ∧ s.ctl.fds.queried = false ∧ 4000000 + s.ctl.fds.sentNs + 1000 * s.ctl.die.fget Fl.FDS_CFG_quiet_us ≤ s.ctl.die.up)
    ∧ (∃ (s : State),
      On s ∧ s.ctl.die.up < 4000000 + s.ctl.fds.sentNs + 1000 * s.ctl.die.fget Fl.FDS_CFG_quiet_us)
    ∧ (∃ (s : State),
      On s ∧ s.ctl.distributing = true ∧ s.ctl.fdsCount ≤ s.ctl.fds.next ∧ ((s.ctl.fds.agents.filter fun p => decide (p.2.state < 2)).map (·.1)) ≠ [] ∧ s.ctl.fds.queried = true ∧ s.ctl.die.fget Fl.FDS_CFG_rounds ≤ s.ctl.die.bget Reg.FDS_IMAGE 63 56)
    ∧ (let s := sending 2 0 (fagent 2);
      On s ∧ 6 = s.ctl.fds.imageId ∧ 5 ≠ s.ctl.fds.imageId ∧ tget s.ctl.fds.agents 9 = some (fagent 2) ∧ (fagent 2).state ≤ 2
        ∧ (tget s.ctl.fds.agents 9).isSome = true ∧ s.ctl.fds.activated = false) :=
  ⟨by decide +kernel,
    ⟨sendingAt 1 0 (fagent 0) false 100000000, by decide +kernel⟩,
    ⟨sendingAt 1 0 (fagent 0) false 0, by decide +kernel⟩,
    ⟨sendingAt 2 0 (fagent 0) false 100000000, by decide +kernel⟩,
    ⟨sendingAt 2 0 (fagent 0) false 3999990, by decide +kernel⟩,
    ⟨sendingAt 2 8 (fagent 1) true 0, by decide +kernel⟩,
    by decide +kernel⟩

/-- The packaged agent with this firmware state, these chunks, and an activation course. -/
def receiving (st : Nat) (course : Option Nat) (ns : Nat) : State :=
  twdIs fun a =>
    let a := Af [(Fl.AGT_FW_STATUS_state, st), (Fl.AGT_CST_STATUS_cast_on_regime, 0)] (named 1 a)
    let f : FwRx := { a.fwrx with imageId := 6, activated := 6, course := course, chunks := [(0, [1])], count := 2 }
    { a with
      fwd := { a.fwd with geom := some geom1 }, fwrx := f
      die := { atNs ns a.die with resource := { a.die.resource with shares := [(0, 1)] } } }

/-- A FW_CHUNK worm with an image's one chunk of 64 bytes. -/
def fwWorm : Worm :=
  let data : Bytes := List.replicate 64 7
  { fwd0 with
    length := 1, payload := data
    operand := ctlMark (le 4 7 ++ le 2 0 ++ le 2 1 ++ le 4 (crc32c data) ++ le 4 64 ++ le 1 0 ++ le 1 3 ++ le 6 0) }

theorem witness_FirmwareReception :
    (let s := receiving 0 none 0;
      Up s .twd ∧ markPriv (wormMark fwWorm) = 2 ∧ fwWorm.partition = 0 ∧ Worm.opnd fwWorm 25 1 = 3 ∧ Worm.opnd fwWorm 24 1 = 0
        ∧ Worm.opnd fwWorm 8 4 = 7 ∧ Worm.opnd fwWorm 12 2 = 0 ∧ Worm.opnd fwWorm 14 2 = 1 ∧ Worm.opnd fwWorm 20 4 = 64 ∧ 1 = ceilDiv 64 2048
        ∧ fwWorm.length = ceilDiv (min 2048 (64 - 2048 * 0)) 64 ∧ 64 ≤ ((s.agt .twd).die.resource.shares.getD 0 (0, 0)).2 * 4096
        ∧ crc32c (slice fwWorm.payload 0 (min 2048 (64 - 2048 * 0))) = Worm.opnd fwWorm 16 4 ∧ (s.agt .twd).fwrx.imageId < 7
        ∧ (s.agt .twd).fwState < 4)
    ∧ (let a := (receiving 1 none 0).twd;
      markPriv (wormMark fwd0) ≠ 2 ∧ (tget a.fwrx.chunks 0).isSome = true ∧ tget a.fwrx.chunks 1 = none
        ∧ (tset a.fwrx.chunks 1 [2]).length = a.fwrx.count ∧ a.fwState = 1 ∧ 1 ≤ a.fwState ∧ a.fwState ≤ 4 ∧ a.fwrx.imageId = 6)
    ∧ ((receiving 2 none 0).twd.fwState = 2 ∧ (receiving 3 none 0).twd.fwState = 3)
    ∧ (let s := receiving 4 none 0;
      (s.agt .twd).die.safe = false ∧ (s.agt .twd).fwState = 4 ∧ (s.agt .twd).fwrx.imageId = 6 ∧ (s.agt .twd).courseStarted 1 = false
        ∧ (s.agt .twd).courseStarted 0 = true)
    ∧ (let s := receiving 4 (some 0) 0;
      Up s .twd ∧ On (s.onAgt .twd Agt.fwCourse) ∧ s.twd.fwrx.course = some 0 ∧ s.twd.fwState = 4 ∧ s.twd.courseStarted 0 = true
        ∧ s.twd.recLevel < 2 ∧ s.twd.regime = false ∧ s.twd.die.safe = false)
    ∧ (let s := receiving 5 (some 0) 0; Up s .twd ∧ (s.agt .twd).fwState = 5 ∧ (s.agt .twd).rcv.deferred = [])
    ∧ (∃ (s : State) (w : Who),
      Up s w ∧ (s.agt w).stitchesDue = true)
    ∧ (∃ (s : State) (w : Who),
      Up s w ∧ (s.agt w).fwrx.reported = true)
    ∧ ((receiving 0 none 0).twd.fwrx.activated = 6 ∧ 6 ≠ 0) :=
  ⟨by decide +kernel,
    by decide +kernel,
    by decide +kernel,
    by decide +kernel,
    by decide +kernel,
    by decide +kernel,
    ⟨receiving 1 none 1000000000, .twd, by decide +kernel⟩,
    ⟨twdIs fun a => { a with fwrx := { a.fwrx with reported := true } }, .twd, by decide +kernel⟩,
    by decide +kernel⟩

/-- The controller in this power phase. -/
def phased (k : Nat) (modEn : Bool) : State := ctlIs fun c => { c with pwr := { c.pwr with phase := k, modEn := modEn } }

theorem witness_PowerSequences :
    ((phased 0 false).ctl.pwr.modEn = false ∧ (phased 0 false).ctl.pwr.phase = 0 ∧ (phased 1 true).ctl.pwr.phase = 1
      ∧ (phased 2 true).ctl.pwr.phase = 2 ∧ 10000 ≤ 10000)
    ∧ ((phased 2 true).onCtl fun c => { c with pwr := c.pwr.trigger .pwrFail }).ctl.pwr.phase = 2
    ∧ ((phased 3 true).onCtl fun c => { c with pwr := c.pwr.trigger .thermal }).ctl.pwr.phase = 3
    ∧ (Up up .twd ∧ Takes (up.agt .twd).die Blk.AGT ∧ 600 ≤ bitsOf (600 : Word).toNat 11 0 ∧ bitsOf (800 : Word).toNat 11 0 ≤ 800
      ∧ bitsOf (599 : Word).toNat 11 0 < 600 ∧ 800 < bitsOf (801 : Word).toNat 11 0) :=
  ⟨by decide +kernel,
    by decide +kernel,
    by decide +kernel,
    by decide +kernel⟩

/-- With cast-on step 4 DONE and management under NETWORK or KEYSTONE. -/
def served (auth : Nat) (m : List Mortar) (ports : Tbl Port) : State :=
  ctlIs fun c => { (Cf [(Fl.KST_MGMT_AUTH_auth, auth)] (c.setStep 4 2 0 0 0 0)) with mortar := m, ports := ports }

/-- A port with 64 register requests that wait. -/
def crowded : Port := { port1 2 2 256 none with waiting := List.replicate 64 { ftype := 4, qp := 0, id := 0, offset := 0, payload := [], connPort := 0, code := 0 } }

theorem witness_RegisterAccesses :
    (let s := served 1 [] [];
      let t := s.jtagAttach .ctl .jtag;
      Alive s .ctl ∧ t.pathGate .ctl .jtag 0 = none ∧ t.pathGate .ctl .jtag (t.ctl.die.part.offOf Reg.PLB_TRIG_HI) = none)
    ∧ (let t := up.jtagAttach .ctl (.skein 1);
      Alive up .ctl ∧ t.pathGate .ctl (.skein 1) 0x200000 = some 6 ∧ (t.pathGate .ctl (.skein 1) (t.ctl.die.part.offOf Reg.PLB_TRIG_HI)).isSome = true)
    ∧ (hostWritable (up.die (.agt .twd)).part 0 = false ∧ Hears up .twd ∧ 0xFFFFF < 0x100000)
    ∧ (∃ (s : State) (p : Place) (path : Path),
      (path ≠ .jtag ∨ (s.die p).attached = true))
    ∧ (∃ (s : State) (p : Place) (path : Path),
      (path ≠ .jtag ∨ (s.die p).attached = true))
    ∧ (Up up .twd ∧ (up.jtagAttach (.agt .twd) .jtag).pathGate (.agt .twd) .jtag 0 = none)
    ∧ (∃ (s : State) (w : Who) (off : Nat),
      Hears s w ∧ 0x100000 ≤ off)
    ∧ (let t := up.onAgt .twd credited;
      hostWritable (t.agt .twd).die.part 0 = false
        ∧ hostWritable (t.agt .twd).die.part 0x400 = true)
    ∧ (let s := served 1 [] [(1, port1 2 2 256 none)];
      let t := s.onCtl fun c => (c.frameIn (frame1 4 false)).1;
      On s ∧ (s.ctl.frameIn (frame1 4 false)).2 = true
        ∧ (List.replicate 256 ({ offset := 0, kind := 0, size := 8, value := 0 } : Access)).length ≤ 256
        ∧ ((t.ctl.port (frame1 4 false).port).waiting.filter (·.ftype = 4)).length < 64 ∧ t.ctl.stepDone 4 = true)
    ∧ (let s := served 1 [] [(1, crowded)];
      let t := s.onCtl fun c => (c.frameIn (frame1 4 false)).1;
      On s ∧ 64 ≤ ((t.ctl.port (frame1 4 false).port).waiting.filter (·.ftype = 4)).length)
    ∧ (up.ctl.stepDone 4 = false ∧ preludeOffset up.ctl.die.part 0x200000 = false ∧ preludeOffset up.ctl.die.part 0 = true)
    ∧ ((served 0 [] []).ctl.stepDone 4 = true ∧ (served 0 [] []).ctl.keystone = false)
    ∧ (let s := served 0 [mortar1 2 3] [];
      On s ∧ (s.ctl.mortarIn 6 3 true).2.isSome = true ∧ s.ctl.mortarOf 6 = some (mortar1 2 3) ∧ s.ctl.stepDone 4 = true)
    ∧ (let s := mortared (mortar1 1 1) 0; On s ∧ s.ctl.mortarOf 6 = some (mortar1 1 1) ∧ s.ctl.stepDone 4 = false ∧ (mortar1 1 1).phase ≠ 2)
    ∧ (let wm : Worm := { fwd0 with operand := ctlMark [], payload := le 4 77 ++ le 1 64 ++ List.replicate 1100 0 };
      let k : MgmtKept := { fid := 0, opId := 77, response := [1] };
      let s := twdIs fun a => { a with mgmt := [k] };
      Up s .twd ∧ bitOf (byteAt wm.payload 5) 0 = false ∧ markPriv (wormMark wm) = 2
        ∧ ((s.agt .twd).mgmt.find? fun k => k.fid = markFid (wormMark wm) && k.opId = fieldAt wm.payload 0 4) = some k
        ∧ ((up.agt .twd).mgmt.find? fun k => k.fid = markFid (wormMark wm) && k.opId = fieldAt wm.payload 0 4) = none
        ∧ (requestEntries wm.payload).isEmpty = false ∧ byteAt wm.payload 4 ≤ 64) :=
  ⟨by decide +kernel,
    by decide +kernel,
    by decide +kernel,
    ⟨up, .ctl, .host, by decide +kernel⟩,
    ⟨ctlIs fun c => c.onDie fun d => { d with attached := true }, .ctl, .jtag, by decide +kernel⟩,
    by decide +kernel,
    ⟨up, .twd, 0x100000, by decide +kernel⟩,
    by decide +kernel,
    by decide +kernel,
    by decide +kernel,
    by decide +kernel,
    by decide +kernel,
    by decide +kernel,
    by decide +kernel,
    by decide +kernel⟩

theorem witness_CountersCleared :
    (∀ b ∈ [Blk.LNK, Blk.LKP, Blk.AGT, Blk.PRL, Blk.WCH, Blk.GCM, Blk.MTP, Blk.BLK, Blk.TRY, Blk.PLB, Blk.FLC, Blk.EVR, Blk.MBX],
      Up up .twd ∧ Takes (up.agt .twd).die b)
    ∧ (∀ b ∈ [Blk.FAB, Blk.SOL, Blk.ADM, Blk.RCV, Blk.DMP, Blk.TEL, Blk.WER, Blk.GAU, Blk.KST, Blk.MTR, Blk.SKN, Blk.MNP, Blk.MEM, Blk.FDS],
      On up ∧ Takes up.ctl.die b)
    ∧ (countersOf Blk.LNK ≠ [] ∧ Reg.AGT_VCORE ∉ countersOf Blk.LNK) :=
  ⟨by decide +kernel,
    by decide +kernel,
    by decide +kernel⟩

/-! ## The block as a whole -/

theorem witness_StepTakesFront :
    { up with pending := [.fabClearCounters, .mnpCloseAll] }.pending = .fabClearCounters :: [.mnpCloseAll] ∧ up.pending = [] := by decide +kernel

theorem witness_NothingQueuedStays : NothingQueued up ∧ ∃ t, step { up with pending := [.fabClearCounters] } = .next t ∧ t.pending = [] := by
  refine ⟨by unfold NothingQueued; decide +kernel, ?_⟩
  refine ⟨_, rfl, ?_⟩
  decide +kernel

theorem witness_HeadAndMessageRoundTrip :
    HeadFits wm0 ∧ HeadFits { wm0 with version := 15, age := 1023, length := 63, hopLimit := 63, reserved := 2 ^ 33 - 1 }
    ∧ (let m : MsgA := { mtype := 255, flags := 255, seq := 2 ^ 32 - 1, tag := 2 ^ 32 - 1, floor := 2 ^ 32 - 1, body := List.replicate 240 7 };
      m.mtype < 256 ∧ m.flags < 256 ∧ m.seq < 2 ^ 32 ∧ m.tag < 2 ^ 32 ∧ m.floor < 2 ^ 32 ∧ m.body.length ≤ 240) := by
  unfold HeadFits
  decide +kernel

theorem witness_AccessSizeAndUnmapped :
    (Alive up .ctl ∧ Alive up (.agt .twd) ∧ 4 ≠ 8 ∧ 12 % 8 ≠ 0)
    ∧ (let t := up.jtagAttach .ctl .jtag;
      t.pathGate .ctl .jtag 0xFFF8 = none ∧ 0xFFF8 % 8 = 0 ∧ (((t.die .ctl).part.keyAt 0xFFF8).bind fun k => (t.die .ctl).part.row k) = none)
    ∧ (let t := up.jtagAttach (.agt .twd) .jtag;
      t.pathGate (.agt .twd) .jtag 0x100000 = none ∧ 0x100000 % 8 = 0
        ∧ (((t.die (.agt .twd)).part.keyAt 0x100000).bind fun k => (t.die (.agt .twd)).part.row k) = none) := by decide +kernel

/-- The controller with a block fenced, and in its safe state. -/
def fencing (blk : Nat) : State := ctlIs fun c => c.onDie fun d => d.setN Reg.FLC_FENCED (2 ^ d.part.blockIndex blk)
def frozen : State := ctlIs (Cf [(Fl.FLC_STATUS_safe, 1)])

theorem witness_RegisterWrites :
    (isChanReg Reg.MEM_CFG = false ∧ ((fencing Blk.MEM).die .ctl).blockFenced (Reg.MEM_CFG / 0x10000) = true)
    ∧ ((frozen.die .ctl).blockFenced (Reg.MEM_CFG / 0x10000) = false ∧ Reg.MEM_CFG / 0x10000 ≠ Blk.CVU ∧ Reg.MEM_CFG ≠ Reg.CST_CTL
      ∧ (frozen.die .ctl).safe = true ∧ Reg.MEM_CFG / 0x10000 ≠ Blk.FLC ∧ Reg.MEM_CFG / 0x10000 ≠ Blk.EVR ∧ Reg.MEM_CFG / 0x10000 ≠ Blk.DMP
      ∧ Reg.MEM_CFG / 0x10000 ≠ Blk.RCV)
    ∧ (isChanReg Reg.MEM_STATUS = false ∧ (up.die .ctl).blockFenced (Reg.MEM_STATUS / 0x10000) = false ∧ Reg.MEM_STATUS / 0x10000 ≠ Blk.CVU
      ∧ (up.die .ctl).safe = false ∧ ((up.die .ctl).part.row Reg.MEM_STATUS).map (·.acc) = some .ro)
    ∧ (let s := twdIs (Af [(Fl.LKP_STATUS_locked, 1)]);
      (List.range 0x200).any fun j => isChanReg (Blk.LKP * 0x10000 + 8 * j) = false && (s.die (.agt .twd)).locked (Blk.LKP * 0x10000 + 8 * j)
        && (((s.die (.agt .twd)).part.row (Blk.LKP * 0x10000 + 8 * j)).map (·.acc) = some .rwl)) = true
    ∧ (63 < 64 ∧ 2 ^ 48 - 1 < (BitVec.ofNat 64 (2 ^ 48 - 1)).toNat % 2 ^ 48 + 1 ∧ 2 ^ 63 ≤ (BitVec.ofNat 64 (2 ^ 63)).toNat
      ∧ Path.jtag ≠ .host) := by decide +kernel

theorem witness_NarrowWriteBytes :
    On (storing id) ∧ (storing id).ctl.capacity - 4 + ([1, 2, 3, 4] : Bytes).length ≤ (storing id).ctl.capacity ∧ (storing id).ctl.memu.errors = []
      ∧ (∀ n, ((storing id).ctl.chan n).state ≠ 3) ∧ Memory.wf (storing id).ctl.die.mem = true := by
  refine ⟨by decide +kernel, by decide +kernel, by decide +kernel, ?_, by decide +kernel⟩
  intro n
  have h : (storing id).ctl.memu.chans = [] := by decide +kernel
  simp [Ctl.chan, h, tget]

theorem witness_WhatCommandsLeaveAlone :
    agentOf (.lkpClearCounters .twd) = some .twd ∧ agentOf (.lkpClearCounters .emb) = some .emb
      ∧ (∃ t, exec (.lkpClearCounters .twd) up = .next t) ∧ (id up.ctl).die.safe = up.ctl.die.safe :=
  ⟨rfl, rfl, ⟨_, rfl⟩, rfl⟩

theorem witness_ReferenceTicks : up.ctl.die.clk.load = none ∧ up.ctl.die.clk.rate = 0 ∧ up.ctl.die.clk.count < 2 ^ 120 := by decide +kernel

/-! ## Well-formedness: one ill-formed term for each check -/

def worm0 : Worm := { wm0 with hopLimit := 8 }
def block0 : IdBlock :=
  { fid := 0, mode := 0, lane := 0, bond := 0, state := 0, fwVersion := 0, linkLevel := 0, epochBit := 0, cls := 0, dieId := 0, patternDigest := 0,
    skew := 0, patCode := 0, patDetail := 0, fabricId := 0, patStream := 0, patNext := 0 }
def conn0 : Conn := { port := 2, id := 0 }
def frame0 : FrameHdr := { port := 0, ftype := 3, encrypted := false, qp := 0, sequence := 0, id := 0, offset := 0, intact := true }
def access0 : Access := { offset := 0, kind := 0, size := 8, value := 0 }
def work0 : WorkEntry := { opcode := 0, length := 0, addr := 0, wrId := 0 }
def train0 : TrainEnt :=
  { lane := 0, reach := 0, preset := 0, flags := 0, settings := List.replicate 20 0, eyeHeight := 0, eyeWidth := 0, cycles := 0 }
def wear0 : WearEnt := { kind := 1, monitor := 0, sample := 0, value := 0 }
def units0 : Units := { modl := 0, tags := [] }
def badUnits : Units := { modl := 256, tags := [] }
def delay0 : GaugeDelay := { worst := 0, outside := false }
def ratio0 : GaugeRatio := { dMeas := 0, ref := 0 }
def badWorm : Worm := { worm0 with length := 33 }
def badHead : Worm := { worm0 with version := 16 }
def badBlock : IdBlock := { block0 with fid := 2 ^ 18 }
def badConn : Conn := { port := 3, id := 0 }
def badFrame : FrameHdr := { frame0 with port := 2 }
def badAccess : Access := { access0 with size := 4 }
def badWork : WorkEntry := { work0 with opcode := 256 }
def badTrain : TrainEnt := { train0 with settings := [] }
def badWear : WearEnt := { wear0 with kind := 256 }

theorem smoke_head : headOk worm0 = true ∧ ∀ w ∈ ([
    { worm0 with version := 2 ^ 4 }, { worm0 with cls := 2 ^ 2 }, { worm0 with epoch := 2 ^ 1 },
    { worm0 with scheduled := 2 ^ 1 }, { worm0 with partition := 2 ^ 12 }, { worm0 with dstFid := 2 ^ 18 },
    { worm0 with srcFid := 2 ^ 18 }, { worm0 with hopLimit := 2 ^ 6 }, { worm0 with mcast := 2 ^ 2 },
    { worm0 with irack := 2 ^ 11 }, { worm0 with phase := 2 ^ 1 }, { worm0 with age := 2 ^ 10 },
    { worm0 with length := 2 ^ 6 }, { worm0 with op := 2 ^ 8 }, { worm0 with keySlot := 2 ^ 8 },
    { worm0 with cg := 2 ^ 20 }, { worm0 with offset := 2 ^ 46 }, { worm0 with headerCheck := 2 ^ 16 },
    { worm0 with enc := 2 ^ 1 }, { worm0 with flowSeq := 2 ^ 32 }, { worm0 with reserved := 2 ^ 33 },
    { worm0 with operand := [] }] : List Worm), headOk w = false := by decide +kernel

theorem smoke_worm : wormOk worm0 = true ∧ ∀ w ∈ ([badWorm, badHead, { worm0 with length := 1 }, { worm0 with payload := [0] },
    { worm0 with enc := 1 }, { worm0 with tag := [0] }] : List Worm), wormOk w = false := by decide +kernel

theorem smoke_block : blockOk block0 = true ∧ ∀ x ∈ ([
    { block0 with fid := 2 ^ 18 }, { block0 with mode := 2 ^ 8 }, { block0 with lane := 2 ^ 8 }, { block0 with bond := 2 ^ 8 },
    { block0 with state := 2 ^ 8 }, { block0 with fwVersion := 2 ^ 32 }, { block0 with linkLevel := 2 ^ 16 }, { block0 with epochBit := 2 ^ 8 },
    { block0 with cls := 2 ^ 8 }, { block0 with dieId := 2 ^ 64 }, { block0 with patternDigest := 2 ^ 128 }, { block0 with skew := 2 ^ 32 },
    { block0 with patCode := 2 ^ 8 }, { block0 with patDetail := 2 ^ 8 }, { block0 with fabricId := 2 ^ 64 }, { block0 with patStream := 2 ^ 32 },
    { block0 with patNext := 2 ^ 32 }] : List IdBlock), blockOk x = false := by decide +kernel

theorem smoke_access : accessOk access0 = true ∧ ∀ x ∈ ([
    { access0 with offset := 2 ^ 32 }, { access0 with kind := 2 ^ 8 }, { access0 with size := 4 }] : List Access), accessOk x = false := by decide +kernel

theorem smoke_work : workOk work0 = true ∧ ∀ x ∈ ([
    { work0 with opcode := 2 ^ 8 }, { work0 with length := 2 ^ 32 }, { work0 with addr := 2 ^ 64 }, { work0 with wrId := 2 ^ 64 }] : List WorkEntry), workOk x = false := by decide +kernel

theorem smoke_frame : frameOk frame0 = true ∧ ∀ x ∈ ([
    { frame0 with port := 2 ^ 1 }, { frame0 with ftype := 2 ^ 8 }, { frame0 with qp := 2 ^ 10 }, { frame0 with sequence := 2 ^ 64 },
    { frame0 with id := 2 ^ 64 }, { frame0 with offset := 2 ^ 32 }] : List FrameHdr), frameOk x = false := by decide +kernel

theorem smoke_train : trainOk train0 = true ∧ ∀ x ∈ ([
    { train0 with lane := 2 ^ 8 }, { train0 with reach := 2 ^ 8 }, { train0 with preset := 2 ^ 8 }, { train0 with flags := 2 ^ 8 },
    { train0 with settings := [] }] : List TrainEnt), trainOk x = false := by decide +kernel

theorem smoke_wear : wearOk wear0 = true ∧ ∀ x ∈ ([
    { wear0 with kind := 2 ^ 8 }, { wear0 with monitor := 2 ^ 8 }, { wear0 with sample := 2 ^ 32 }] : List WearEnt), wearOk x = false := by decide +kernel

theorem smoke_units : unitsOk units0 = true ∧ unitsOk badUnits = false ∧ unitsOk { units0 with tags := [2 ^ 64] } = false := by decide +kernel

theorem smoke_conn : connOk conn0 = true ∧ connOk badConn = false := by decide +kernel

theorem smoke_accepted_1 : ∀ i ∈ (
    [.registerWrite .ctl .jtag 0 0 0, .agentResetDeassert .twd 0 false, .ucieModuleFail .twd 0,
     .laneTrainDone .twd 0 .boot 0 0 0 (List.replicate 20 0), .laneRetrainTimer .twd 0, .laneRejoin .twd 0, .laneLoss .twd 0,
     .identityBlock .twd 0 block0, .neighbourReport 0 [] block0, .keyEncaps .twd 0 worm0, .nameResultTimeout 0, .trainSave 0 [],
     .patternData .twd 0 worm0, .lookupRequest .twd 0 worm0 0 false 0, .rxWorm .twd units0 worm0 [],
     .inject .twd worm0 0 false units0 [], .reqInjectDeferred .twd [], .requestTimeout .twd 0, .injStallInterval .twd 0,
     .presentStart .twd 0, .accept .twd 0, .acceptLate .twd 0, .slotHold .twd 0 0 0, .mirrorAck .twd 0 0 0, .rspSpaceReturn .twd 0,
     .cgRead .twd 0 0, .cgArm .twd 0 0 0 0, .cgClear .twd 0 0, .reqRelease .twd 0 0, .heartbeat .twd 0, .progress .twd 0 0,
     .msrExtend .twd 0 0 0 0 0, .regRead .twd 0 0, .regWrite .twd 0 0 0, .memdata .twd 0 [], .resetDone .twd 0 0 0,
     .hostCounts .twd 0 0 ([(0, 0)]) false, .unknownMessage .twd 0 0, .probeReceive .twd 0 worm0 0, .linkSettled .twd 0] : List Instr), i.wellFormed = true := by decide +kernel

theorem smoke_accepted_2 : ∀ i ∈ (
    [.triggerEdge .ctl 0, .courseMark .ctl 0, .injectRunLaunch .twd 0 0 0 0, .emitRunSelect .twd 0 0 0 0 false,
     .emitRunLaunch .twd 0 0 0 0, .purlInput .twd 0 0 0 worm0, .purlRangeStart .twd 0, .tileFence 0, .shdRead 0, .shdWrite 0,
     .shdDelete 0, .shardReady 0 0 0 0 0, .failover 0 0 0 0, .watchExpire .twd 0, .recoveryCmd .twd 0 0 0, .dumpBlockTimeout .ctl 0,
     .chunkXfer worm0, .chunkFetch .twd 0 0 0, .chunkAck .twd 0, .recoveryReport 0 0 0 0 0 0, .funcReinitTimeout 0, .funcHung 0,
     .cstStepComplete 0 0 false 0 [] [], .cstStepTimeout 0 [], .discoveryQuiet [], .telemetryRecordSend .twd 0, .telemetryRecord 0 [],
     .tenantWindowEnd 0, .gaugeMeasure .ctl 0 0 0 0, .gaugeExceedExit .ctl 0, .gaugeReport 0 0 delay0 ratio0 false,
     .wearSampleTake .ctl [], .wearSample 0 0 [], .getVersion conn0, .getCapabilities conn0 0 0, .negotiateAlgorithms conn0 0 [],
     .getDigests conn0, .getCertificate conn0 0 0 0, .challenge conn0 0, .getMeasurements conn0 0 false 0] : List Instr), i.wellFormed = true := by decide +kernel

theorem smoke_accepted_3 : ∀ i ∈ (
    [.keyExchange conn0 0 (List.replicate 1568 0), .finish conn0 0 [] [] [], .keyUpdate conn0 0 0, .spdmHeartbeat conn0 0,
     .spdmHeartbeatSend 0, .endSession conn0 0, .chunkSend conn0 0 0 false [], .chunkGet conn0 0 0, .unsupportedRequest conn0 0,
     .keyDeliver conn0 0 [] 0 0 0, .keyDestroy conn0 0 0, .fabricReport conn0 0 0, .partitionReport conn0 0 0 0,
     .operatorKeys conn0 0 0 [], .keyWrap .twd 0 worm0, .keyResult 0 0 0 0, .keySlotUnusedTimeout .twd 0, .keySlotRetire .twd 0,
     .rekey 0, .keyExpire .twd 0, .measureReq .twd 0 0, .measureReport 0 0 0 0 0 0 0 0, .measureTimeout 0, .meterEncaps .twd 0 worm0,
     .tapIntervalRecord .twd 0 0, .meterTap worm0, .meterIntervalClose 0 0, .meterOpen 0 0 0, .meterClose 0 0 0, .eventRaise .ctl 0 0,
     .snapshotReadTimeout .ctl 0, .faultReport .ctl 0 0, .eventRecord worm0, .evrFetch .twd 0 0, .agentOpsecSave 0 0, .skeinLinkUp 0 0,
     .skeinLinkFrame frame0, .regReq frame0 [], .doorbell frame0 [], .qpWrite 0] : List Instr), i.wellFormed = true := by decide +kernel

theorem smoke_accepted_4 : ∀ i ∈ (
    [.qpRead 0, .mirrorOut 0, .mirrorIn 0 [], .skeinData frame0 [], .qpWriteTimeout 0 0, .clientHello 0 [] (List.replicate 1568 0) [],
     .clientFinish 0 [], .mortarHandshakeTimeout 0, .mortarReg 0 0 false [], .mortarMemWrite 0 0 false 0 [],
     .mortarMemRead 0 0 false 0 0, .mortarKeepalive 0 0 false, .mortarClose 0 0 false, .preludeReg 0 [], .mortarIdleTimeout 0,
     .mbxA .ctl worm0 false, .mbxASend .ctl 0 0 0 [], .mbxAck .ctl worm0, .mbxARetry .ctl 0 0, .relay .twd 0 worm0 false,
     .patternProgress 0 0 0, .mgmtOp .twd 0 worm0, .mgmtOpResponse worm0, .mbxBSend .ctl 0 .jtag, .mbxBPop .ctl 0 .jtag,
     .narrowWrite 0 [], .mergeWriteback 0, .scrubRead [], .rowSpare 0 0, .cvuStart .ctl 0 0, .cvuAbort .ctl 0, .cvuComplete .ctl 0,
     .cvuContextWrite .ctl 0 0 0, .fwChunk .twd 0 worm0, .fwQuery .twd 0, .fwStitches 0 0 0 0 0 0, .fwReady 0 0 0 0, .fwRefused 0 0 0,
     .fwActivate .twd 0 0, .fwResult 0 0 0 0 0] : List Instr), i.wellFormed = true := by decide +kernel

theorem smoke_accepted_5 : ∀ i ∈ (
    [.fwCommit .twd 0, .fwAbandon .twd 0, .controllerRstN 0, .ucieModuleTrained .twd 0, .skeinLinkDown 0 0, .mgmtPortLinkChange 0 0,
     .patternResultTake 0 0 0 0 0 0, .controllerNotice .twd 0 0 []] : List Instr), i.wellFormed = true := by decide +kernel

theorem smoke_refused_1 : ∀ i ∈ (
    [.registerWrite .ctl .jtag (2 ^ 32) 0 0, .registerWrite .ctl .jtag 0 (2 ^ 8) 0, .agentResetDeassert .twd (2 ^ 2) false,
     .ucieModuleFail .twd (2 ^ 3), .laneTrainDone .twd (2 ^ 8) .boot 0 0 0 (List.replicate 20 0),
     .laneTrainDone .twd 0 .boot (2 ^ 2) 0 0 (List.replicate 20 0), .laneTrainDone .twd 0 .boot 0 (2 ^ 16) 0 (List.replicate 20 0),
     .laneTrainDone .twd 0 .boot 0 0 (2 ^ 16) (List.replicate 20 0), .laneTrainDone .twd 0 .boot 0 0 0 [],
     .laneRetrainTimer .twd (2 ^ 8), .laneRejoin .twd (2 ^ 8), .laneLoss .twd (2 ^ 8), .identityBlock .twd (2 ^ 8) block0,
     .identityBlock .twd 0 badBlock, .neighbourReport (2 ^ 18) [] block0, .neighbourReport 0 ([2 ^ 8]) block0,
     .neighbourReport 0 [] badBlock, .keyEncaps .twd (2 ^ 8) worm0, .keyEncaps .twd 0 badWorm, .nameResultTimeout (2 ^ 64),
     .trainSave (2 ^ 18) [], .trainSave 0 [badTrain], .patternData .twd (2 ^ 8) worm0, .patternData .twd 0 badWorm,
     .lookupRequest .twd (2 ^ 8) worm0 0 false 0, .lookupRequest .twd 0 badHead 0 false 0, .lookupRequest .twd 0 worm0 (2 ^ 16) false 0,
     .lookupRequest .twd 0 worm0 0 false (2 ^ 8), .rxWorm .twd badUnits worm0 [], .rxWorm .twd units0 badWorm [],
     .rxWorm .twd units0 worm0 ([2 ^ 8]), .inject .twd badWorm 0 false units0 [], .inject .twd worm0 (2 ^ 32) false units0 [],
     .inject .twd worm0 0 false badUnits [], .inject .twd worm0 0 false units0 ([2 ^ 8]), .reqInjectDeferred .twd ([2 ^ 8]),
     .requestTimeout .twd (2 ^ 32), .injStallInterval .twd (2 ^ 2), .presentStart .twd (2 ^ 2), .accept .twd (2 ^ 2)] : List Instr), i.wellFormed = false := by decide +kernel

theorem smoke_refused_2 : ∀ i ∈ (
    [.acceptLate .twd (2 ^ 2), .slotHold .twd (2 ^ 64) 0 0, .slotHold .twd 0 (2 ^ 16) 0, .slotHold .twd 0 0 (2 ^ 32),
     .mirrorAck .twd (2 ^ 8) 0 0, .mirrorAck .twd 0 (2 ^ 16) 0, .mirrorAck .twd 0 0 (2 ^ 8), .rspSpaceReturn .twd (2 ^ 32),
     .cgRead .twd (2 ^ 32) 0, .cgRead .twd 0 (2 ^ 32), .cgArm .twd (2 ^ 32) 0 0 0, .cgArm .twd 0 (2 ^ 32) 0 0,
     .cgArm .twd 0 0 (2 ^ 32) 0, .cgArm .twd 0 0 0 (2 ^ 64), .cgClear .twd (2 ^ 32) 0, .cgClear .twd 0 (2 ^ 32),
     .reqRelease .twd (2 ^ 32) 0, .reqRelease .twd 0 (2 ^ 32), .heartbeat .twd (2 ^ 8), .progress .twd (2 ^ 8) 0,
     .progress .twd 0 (2 ^ 8), .msrExtend .twd (2 ^ 32) 0 0 0 0, .msrExtend .twd 0 (2 ^ 8) 0 0 0, .msrExtend .twd 0 0 (2 ^ 16) 0 0,
     .msrExtend .twd 0 0 0 (2 ^ 32) 0, .regRead .twd (2 ^ 32) 0, .regRead .twd 0 (2 ^ 32), .regWrite .twd (2 ^ 32) 0 0,
     .regWrite .twd 0 (2 ^ 32) 0, .memdata .twd (2 ^ 32) [], .memdata .twd 0 (List.replicate 65537 0), .resetDone .twd (2 ^ 8) 0 0,
     .resetDone .twd 0 (2 ^ 8) 0, .resetDone .twd 0 0 (2 ^ 8), .hostCounts .twd (2 ^ 64) 0 ([(0, 0)]) false,
     .hostCounts .twd 0 (2 ^ 8) ([(0, 0)]) false, .hostCounts .twd 0 0 [] false, .hostCounts .twd 0 0 (List.replicate 28 (0, 0)) false,
     .hostCounts .twd 0 0 ([(2 ^ 16, 0)]) false, .hostCounts .twd 0 0 ([(0, 2 ^ 16)]) false] : List Instr), i.wellFormed = false := by decide +kernel

theorem smoke_refused_3 : ∀ i ∈ (
    [.unknownMessage .twd (2 ^ 8) 0, .unknownMessage .twd 0 (2 ^ 32), .probeReceive .twd (2 ^ 8) worm0 0, .probeReceive .twd 0 badWorm 0,
     .probeReceive .twd 0 worm0 (2 ^ 80), .linkSettled .twd (2 ^ 8), .triggerEdge .ctl (2 ^ 80), .courseMark .ctl (2 ^ 64),
     .injectRunLaunch .twd (2 ^ 64) 0 0 0, .injectRunLaunch .twd 0 (2 ^ 16) 0 0, .injectRunLaunch .twd 0 0 (2 ^ 8) 0,
     .injectRunLaunch .twd 0 0 0 (2 ^ 32), .emitRunSelect .twd (2 ^ 64) 0 0 0 false, .emitRunSelect .twd 0 (2 ^ 16) 0 0 false,
     .emitRunSelect .twd 0 0 (2 ^ 8) 0 false, .emitRunSelect .twd 0 0 0 (2 ^ 32) false, .emitRunLaunch .twd (2 ^ 64) 0 0 0,
     .emitRunLaunch .twd 0 (2 ^ 16) 0 0, .emitRunLaunch .twd 0 0 (2 ^ 8) 0, .emitRunLaunch .twd 0 0 0 (2 ^ 32),
     .purlInput .twd (2 ^ 8) 0 0 worm0, .purlInput .twd 0 (2 ^ 64) 0 worm0, .purlInput .twd 0 0 (2 ^ 16) worm0,
     .purlInput .twd 0 0 0 badWorm, .purlRangeStart .twd (2 ^ 32), .tileFence (2 ^ 16), .shdRead (2 ^ 22), .shdWrite (2 ^ 22),
     .shdDelete (2 ^ 22), .shardReady (2 ^ 18) 0 0 0 0, .shardReady 0 (2 ^ 12) 0 0 0, .shardReady 0 0 (2 ^ 32) 0 0,
     .shardReady 0 0 0 (2 ^ 32) 0, .shardReady 0 0 0 0 (2 ^ 512), .failover (2 ^ 18) 0 0 0, .failover 0 (2 ^ 8) 0 0,
     .failover 0 0 (2 ^ 18) 0, .failover 0 0 0 (2 ^ 64), .watchExpire .twd (2 ^ 8), .recoveryCmd .twd (2 ^ 8) 0 0] : List Instr), i.wellFormed = false := by decide +kernel

theorem smoke_refused_4 : ∀ i ∈ (
    [.recoveryCmd .twd 0 (2 ^ 8) 0, .recoveryCmd .twd 0 0 (2 ^ 8), .dumpBlockTimeout .ctl (2 ^ 16), .chunkXfer badWorm,
     .chunkFetch .twd (2 ^ 32) 0 0, .chunkFetch .twd 0 (2 ^ 32) 0, .chunkAck .twd (2 ^ 32), .recoveryReport (2 ^ 18) 0 0 0 0 0,
     .recoveryReport 0 (2 ^ 8) 0 0 0 0, .recoveryReport 0 0 (2 ^ 8) 0 0 0, .recoveryReport 0 0 0 (2 ^ 8) 0 0,
     .recoveryReport 0 0 0 0 (2 ^ 8) 0, .recoveryReport 0 0 0 0 0 (2 ^ 32), .funcReinitTimeout (2 ^ 8), .funcHung (2 ^ 8),
     .cstStepComplete (2 ^ 8) 0 false 0 [] [], .cstStepComplete 0 (2 ^ 32) false 0 [] [], .cstStepComplete 0 0 false (2 ^ 64) [] [],
     .cstStepComplete 0 0 false 0 ([2 ^ 16]) [], .cstStepComplete 0 0 false 0 [] ([(2 ^ 18, 0)]),
     .cstStepComplete 0 0 false 0 [] ([(0, 2 ^ 12)]), .cstStepTimeout (2 ^ 64) [], .cstStepTimeout 0 ([2 ^ 18]),
     .discoveryQuiet ([(2 ^ 18, 0)]), .discoveryQuiet ([(0, 2 ^ 12)]), .telemetryRecordSend .twd (2 ^ 64), .telemetryRecord (2 ^ 18) [],
     .tenantWindowEnd (2 ^ 64), .gaugeMeasure .ctl (2 ^ 16) 0 0 0, .gaugeMeasure .ctl 0 (2 ^ 32) 0 0, .gaugeMeasure .ctl 0 0 (2 ^ 16) 0,
     .gaugeExceedExit .ctl (2 ^ 16), .gaugeReport (2 ^ 18) 0 delay0 ratio0 false, .gaugeReport 0 (2 ^ 16) delay0 ratio0 false,
     .gaugeReport 0 0 ({ delay0 with worst := 2 ^ 32 }) ratio0 false, .gaugeReport 0 0 delay0 ({ ratio0 with dMeas := 2 ^ 32 }) false,
     .gaugeReport 0 0 delay0 ({ ratio0 with ref := 2 ^ 32 }) false, .wearSampleTake .ctl [badWear], .wearSample (2 ^ 18) 0 [],
     .wearSample 0 (2 ^ 64) []] : List Instr), i.wellFormed = false := by decide +kernel

theorem smoke_refused_5 : ∀ i ∈ (
    [.wearSample 0 0 [badWear], .getVersion badConn, .getCapabilities badConn 0 0, .getCapabilities conn0 (2 ^ 8) 0,
     .getCapabilities conn0 0 (2 ^ 32), .negotiateAlgorithms badConn 0 [], .negotiateAlgorithms conn0 (2 ^ 8) [],
     .negotiateAlgorithms conn0 0 ([2 ^ 16]), .getDigests badConn, .getCertificate badConn 0 0 0, .getCertificate conn0 (2 ^ 8) 0 0,
     .getCertificate conn0 0 (2 ^ 16) 0, .getCertificate conn0 0 0 (2 ^ 16), .challenge badConn 0, .getMeasurements badConn 0 false 0,
     .getMeasurements conn0 (2 ^ 8) false 0, .keyExchange badConn 0 (List.replicate 1568 0),
     .keyExchange conn0 (2 ^ 16) (List.replicate 1568 0), .keyExchange conn0 0 [], .finish badConn 0 [] [] [],
     .finish conn0 (2 ^ 32) [] [] [], .keyUpdate badConn 0 0, .keyUpdate conn0 (2 ^ 32) 0, .keyUpdate conn0 0 (2 ^ 8),
     .spdmHeartbeat badConn 0, .spdmHeartbeat conn0 (2 ^ 32), .spdmHeartbeatSend (2 ^ 1), .endSession badConn 0,
     .endSession conn0 (2 ^ 32), .chunkSend badConn 0 0 false [], .chunkSend conn0 (2 ^ 8) 0 false [],
     .chunkSend conn0 0 (2 ^ 16) false [], .chunkSend conn0 0 0 false (List.replicate 65537 0), .chunkGet badConn 0 0,
     .chunkGet conn0 (2 ^ 8) 0, .chunkGet conn0 0 (2 ^ 16), .unsupportedRequest badConn 0, .unsupportedRequest conn0 (2 ^ 8),
     .keyDeliver badConn 0 [] 0 0 0, .keyDeliver conn0 (2 ^ 32) [] 0 0 0] : List Instr), i.wellFormed = false := by decide +kernel

theorem smoke_refused_6 : ∀ i ∈ (
    [.keyDeliver conn0 0 (List.replicate 1025 0) 0 0 0, .keyDeliver conn0 0 [] (2 ^ 8) 0 0, .keyDeliver conn0 0 [] 0 (2 ^ 32) 0,
     .keyDestroy badConn 0 0, .keyDestroy conn0 (2 ^ 32) 0, .keyDestroy conn0 0 (2 ^ 128), .fabricReport badConn 0 0,
     .fabricReport conn0 (2 ^ 32) 0, .partitionReport badConn 0 0 0, .partitionReport conn0 (2 ^ 32) 0 0,
     .partitionReport conn0 0 (2 ^ 12) 0, .operatorKeys badConn 0 0 [], .operatorKeys conn0 (2 ^ 32) 0 [],
     .operatorKeys conn0 0 (2 ^ 8) [], .operatorKeys conn0 0 0 (List.replicate 1025 0), .keyWrap .twd (2 ^ 8) worm0,
     .keyWrap .twd 0 badWorm, .keyResult (2 ^ 18) 0 0 0, .keyResult 0 (2 ^ 8) 0 0, .keyResult 0 0 (2 ^ 8) 0, .keyResult 0 0 0 (2 ^ 64),
     .keySlotUnusedTimeout .twd (2 ^ 8), .keySlotRetire .twd (2 ^ 8), .rekey (2 ^ 12), .keyExpire .twd (2 ^ 8),
     .measureReq .twd 0 (2 ^ 8), .measureReport (2 ^ 18) 0 0 0 0 0 0 0, .measureReport 0 (2 ^ 8) 0 0 0 0 0 0,
     .measureReport 0 0 (2 ^ 8) 0 0 0 0 0, .measureReport 0 0 0 (2 ^ 64) 0 0 0 0, .measureReport 0 0 0 0 (2 ^ 64) 0 0 0,
     .measureTimeout (2 ^ 18), .meterEncaps .twd (2 ^ 8) worm0, .meterEncaps .twd 0 badWorm, .tapIntervalRecord .twd (2 ^ 64) 0,
     .meterTap badWorm, .meterIntervalClose (2 ^ 64) 0, .meterOpen (2 ^ 12) 0 0, .meterOpen 0 (2 ^ 16) 0, .meterOpen 0 0 (2 ^ 64)] : List Instr), i.wellFormed = false := by decide +kernel

theorem smoke_refused_7 : ∀ i ∈ (
    [.meterClose (2 ^ 12) 0 0, .meterClose 0 (2 ^ 16) 0, .meterClose 0 0 (2 ^ 64), .eventRaise .ctl (2 ^ 16) 0,
     .eventRaise .ctl 0 (2 ^ 16), .snapshotReadTimeout .ctl (2 ^ 8), .faultReport .ctl (2 ^ 8) 0, .faultReport .ctl 0 (2 ^ 16),
     .eventRecord badWorm, .evrFetch .twd (2 ^ 32) 0, .evrFetch .twd 0 (2 ^ 32), .agentOpsecSave (2 ^ 64) 0, .agentOpsecSave 0 (2 ^ 64),
     .skeinLinkUp (2 ^ 1) 0, .skeinLinkUp 0 (2 ^ 2), .skeinLinkFrame badFrame, .regReq badFrame [], .regReq frame0 [badAccess],
     .doorbell badFrame [], .doorbell frame0 [badWork], .qpWrite (2 ^ 10), .qpRead (2 ^ 10), .mirrorOut (2 ^ 10), .mirrorIn (2 ^ 10) [],
     .skeinData badFrame [], .skeinData frame0 (List.replicate 65537 0), .qpWriteTimeout (2 ^ 10) 0, .qpWriteTimeout 0 (2 ^ 64),
     .clientHello (2 ^ 64) [] (List.replicate 1568 0) [], .clientHello 0 [] [] [], .clientFinish (2 ^ 64) [],
     .mortarHandshakeTimeout (2 ^ 64), .mortarReg (2 ^ 64) 0 false [], .mortarReg 0 (2 ^ 64) false [], .mortarReg 0 0 false [badAccess],
     .mortarMemWrite (2 ^ 64) 0 false 0 [], .mortarMemWrite 0 (2 ^ 64) false 0 [], .mortarMemWrite 0 0 false (2 ^ 64) [],
     .mortarMemWrite 0 0 false 0 (List.replicate 65537 0), .mortarMemRead (2 ^ 64) 0 false 0 0] : List Instr), i.wellFormed = false := by decide +kernel

theorem smoke_refused_8 : ∀ i ∈ (
    [.mortarMemRead 0 (2 ^ 64) false 0 0, .mortarMemRead 0 0 false (2 ^ 64) 0, .mortarMemRead 0 0 false 0 (2 ^ 32),
     .mortarKeepalive (2 ^ 64) 0 false, .mortarKeepalive 0 (2 ^ 64) false, .mortarClose (2 ^ 64) 0 false, .mortarClose 0 (2 ^ 64) false,
     .preludeReg (2 ^ 64) [], .preludeReg 0 [badAccess], .mortarIdleTimeout (2 ^ 64), .mbxA .ctl badWorm false,
     .mbxASend .ctl (2 ^ 18) 0 0 [], .mbxASend .ctl 0 (2 ^ 8) 0 [], .mbxASend .ctl 0 0 (2 ^ 8) [],
     .mbxASend .ctl 0 0 0 (List.replicate 241 0), .mbxAck .ctl badWorm, .mbxARetry .ctl (2 ^ 18) 0, .mbxARetry .ctl 0 (2 ^ 32),
     .relay .twd (2 ^ 8) worm0 false, .relay .twd 0 badWorm false, .patternProgress (2 ^ 18) 0 0, .patternProgress 0 (2 ^ 32) 0,
     .patternProgress 0 0 (2 ^ 32), .mgmtOp .twd (2 ^ 8) worm0, .mgmtOp .twd 0 badWorm, .mgmtOpResponse badWorm,
     .mbxBSend .ctl (2 ^ 6) .jtag, .mbxBPop .ctl (2 ^ 6) .jtag, .narrowWrite (2 ^ 64) [], .narrowWrite 0 (List.replicate 65537 0),
     .mergeWriteback (2 ^ 64), .scrubRead ([(144, 0)]), .scrubRead ([(0, 256)]), .rowSpare (2 ^ 7) 0, .rowSpare 0 (2 ^ 32),
     .cvuStart .ctl (2 ^ 3) 0, .cvuAbort .ctl (2 ^ 3), .cvuComplete .ctl (2 ^ 3), .cvuContextWrite .ctl (2 ^ 3) 0 0,
     .cvuContextWrite .ctl 0 (2 ^ 1) 0] : List Instr), i.wellFormed = false := by decide +kernel

theorem smoke_refused_9 : ∀ i ∈ (
    [.fwChunk .twd (2 ^ 8) worm0, .fwChunk .twd 0 badWorm, .fwQuery .twd (2 ^ 32), .fwStitches (2 ^ 18) 0 0 0 0 0,
     .fwStitches 0 (2 ^ 32) 0 0 0 0, .fwStitches 0 0 (2 ^ 16) 0 0 0, .fwStitches 0 0 0 (2 ^ 16) 0 0, .fwStitches 0 0 0 0 (2 ^ 8) 0,
     .fwReady (2 ^ 18) 0 0 0, .fwReady 0 (2 ^ 32) 0 0, .fwReady 0 0 (2 ^ 32) 0, .fwRefused (2 ^ 18) 0 0, .fwRefused 0 (2 ^ 32) 0,
     .fwRefused 0 0 (2 ^ 8), .fwActivate .twd (2 ^ 32) 0, .fwActivate .twd 0 (2 ^ 64), .fwResult (2 ^ 18) 0 0 0 0,
     .fwResult 0 (2 ^ 32) 0 0 0, .fwResult 0 0 (2 ^ 8) 0 0, .fwResult 0 0 0 (2 ^ 64) 0, .fwResult 0 0 0 0 (2 ^ 32),
     .fwCommit .twd (2 ^ 32), .fwAbandon .twd (2 ^ 32), .controllerRstN (2 ^ 64), .ucieModuleTrained .twd (2 ^ 3),
     .skeinLinkDown (2 ^ 1) 0, .skeinLinkDown 0 (2 ^ 2), .mgmtPortLinkChange (2 ^ 1) 0, .mgmtPortLinkChange 0 (2 ^ 2),
     .patternResultTake (2 ^ 18) 0 0 0 0 0, .patternResultTake 0 0 (2 ^ 8) 0 0 0, .patternResultTake 0 0 0 (2 ^ 8) 0 0,
     .patternResultTake 0 0 0 0 (2 ^ 8) 0, .patternResultTake 0 0 0 0 0 (2 ^ 64), .controllerNotice .twd (2 ^ 16) 0 [],
     .controllerNotice .twd 0 (2 ^ 16) [], .controllerNotice .twd 0 0 (List.replicate 241 0)] : List Instr), i.wellFormed = false := by decide +kernel

/-! ## The spec's worked examples and single commands -/

-- R21's example: the eleven neighbours of rack 0x04D2 in either variant.
theorem test_neighbours_plain : (List.range 11).map (fun d => neighbour 0 d 0x04D2)
    = [0x04D3, 0x04D0, 0x04D6, 0x04DA, 0x04C2, 0x04F2, 0x0492, 0x0452, 0x05D2, 0x06D2, 0x00D2] := by decide +kernel
theorem test_neighbours_twisted : (List.range 11).map (fun d => neighbour 1 d 0x04D2)
    = [0x04D3, 0x04D0, 0x04D7, 0x04DA, 0x04C2, 0x04FA, 0x0492, 0x0472, 0x0592, 0x06D2, 0x00D2] := by decide +kernel

-- R53's example: 2,988 of 1.0 and 12 of 1.9765625, MEAN of 3,000: a tie.
theorem test_mean_tie_rne : roundOut false (3011 * 2 ^ 149 + 23 * 2 ^ 144) 3000 .bf16 0 false .rne 0 = (0x3F80, { inexact := true }) := by
  decide +kernel
theorem test_mean_tie_sr : (roundOut false (3011 * 2 ^ 149 + 23 * 2 ^ 144) 3000 .bf16 0 false .sr 0x7FFFFFFF).1 = 0x3F81
    ∧ (roundOut false (3011 * 2 ^ 149 + 23 * 2 ^ 144) 3000 .bf16 0 false .sr 0x80000000).1 = 0x3F80 := by decide +kernel

-- R59's example: the block exponent and the three codes.
theorem test_mx_block : mxExponent .mxE4m3 [19968 * 2 ^ 129, 3300 * 2 ^ 129, 7 * 2 ^ 125] 1 = -14
    ∧ (roundOut false (19968 * 2 ^ 129) 1 .mxE4m3 (-14) true .rne 0).1 = 0x7A ∧ (roundOut true (3300 * 2 ^ 129) 1 .mxE4m3 (-14) true .rne 0).1 = 0xE5
    ∧ (roundOut false (7 * 2 ^ 125) 1 .mxE4m3 (-14) true .rne 0).1 = 0x04 := by decide +kernel

-- R63's example: one gauge lookup, at the worst corner.
theorem test_gauge :
    (let g : GaugeEnt := { droop := 30, volts := [700, 750], temps := [480, 640], delays := [16384, 17039] ++ List.replicate 6 0 ++ [14746, 15401] };
      worstCorner g 742 532 = (712, 572) ∧ gaugeAt g 712 572 = some 16368) := by decide +kernel

-- R66's example: three partitions with a tied remainder.
theorem test_energy : energyShares 2000006 [(17, 4000000), (42, 4000000), (305, 1000000)] = [(17, 888892), (42, 888891), (305, 222223)] := by
  decide +kernel

-- R69 and R70's example.
theorem test_wear : wearRemaining [100, 104, 109, 113] 160 1 = 160 ∧ wearConfidence [100, 104, 109, 113] = 15 := by decide +kernel

-- R44's quantisation, in the example of one tenant window.
theorem test_quantise : quantise6 3500000 7168000 = 31 ∧ quantise6 4000 4000 = 63 ∧ quantise6 3 250 = 0 := by decide +kernel

-- R107 and R488: check values of "123456789".
theorem test_checks : crc16From 0xFFFF (ascii "123456789") = 0x29B1 ∧ crc32c (ascii "123456789") = 0xE3069283
    ∧ crc64xz (ascii "123456789") = 0x995DC9BBDF1939FA := by decide +kernel

-- R171's example: t1 to t4 relative to P, in units of 2^-16 ns; w is 0x2300.
theorem test_exchange :
    (let p := 1099511627776 * 2 ^ 16;
      exchange (p + 4 * 2 ^ 16) (p + 317 * 2 ^ 16 + 38912) (p - 65532 * 2 ^ 16) (p - 65221 * 2 ^ 16 + 15104) 0x2300 = (0x270D300, 163840)) := by
  decide +kernel

-- R175's example: f and c after that exchange.
theorem test_rate : ((up.twd.setRate (-96207267) 0).rateUpdate 163840).rateF = -96371107
    ∧ ((up.twd.setRate (-96207267) 0).rateUpdate 163840).die.clk.rate = -98992547 := by decide +kernel

-- R477's and R482's example: channels 41 and 70 out, address 0x53_D000_1234.
theorem test_code_word : (storing fun c => { c with memu := { c.memu with usable := (List.range 96).filter fun n => n ≠ 41 ∧ n ≠ 70 } }).ctl.wordOf 0x53D0001234
    = wordKey 77 29917860 := by decide +kernel

-- R517's example: the capability words of the two packaged agents.
theorem test_capability : Part.agtCap .twd210 = 0x03D0828804110401 ∧ Part.agtCap .twd200 = 0x0290828802000000 := by decide +kernel

-- R527's example of event codes.
theorem test_event_codes : Part.codeOf .twd210 Ev.PURL_ENGINE_FENCED = 0x0206 ∧ Part.codeOf .pln9400 Ev.MEM_UNCORRECTABLE = 0x0B04 := by
  decide +kernel

-- R41: a counter at its maximum holds it and sets bit 63.
theorem test_counter : (counterAdd (2 ^ 48 - 1) 1).toNat = 2 ^ 63 + 2 ^ 48 - 1 ∧ (counterAdd 6 1).toNat = 7 := by decide +kernel

theorem test_reset_canonical : State.reset.canonical = true := by decide +kernel

-- R10: an access of 4 bytes completes with ACCESS_SIZE and changes no register.
theorem test_access_size : (match Sys2Proof.Machine.exec (.registerWrite .ctl .host 0 4 0) State.reset with
    | .next t => (t.ctl.die.out, t.ctl.die.rf)
    | _ => ([], [])) = ([.access .host 1 0], []) := by decide +kernel

-- R45: the count after one tick from reset, in units of 2^-16 ns.
theorem test_tick : (match Sys2Proof.Machine.exec (.referenceTick (.agt .twd)) up with
    | .next t => t.twd.die.clk.count / 2 ^ 40
    | _ => 0) = 419430 := by decide +kernel

-- R489: a length of 0 ends the operation at once with LENGTH.
theorem test_cvu_length : (match Sys2Proof.Machine.exec (.cvuStart .ctl 0 1) State.reset with
    | .next t => t.ctl.die.bget (cvuReg 0 Reg.CVU_STATUS) 3 0
    | _ => 0) = 10 := by decide +kernel

-- R543: a floor of 700 mV, and lowest_mv anew.
theorem test_vcore : (match Sys2Proof.Machine.exec (.vcoreFloorWrite .twd 700) up with
    | .next t => (t.twd.die.bget Reg.AGT_VCORE 11 0, t.twd.die.bget Reg.AGT_VCORE 43 32)
    | _ => (0, 0)) = (700, 0xFFF) := by decide +kernel

-- A queue of two commands, taken one at a time.
theorem test_queue : (match Sys2Proof.Machine.step { up with pending := [.mnpCloseAll, .fabClearCounters] } with
    | .next t => t.pending
    | _ => []) = [.fabClearCounters] := by decide +kernel


end Sys2Proof.Tests
end

section
/-! PROOFS. One register access: what turns a write away, what it stores, and accesses that come one at a time. -/

namespace Sys2Proof.Machine

open Sys2Proof.Claim

/-! ## One access (R10 to R12) -/

section
variable {s : State} {p : Place} {path : Path} {off size key : Nat} {val : Word} {r : RegRow}

/-- R10: another size or alignment. -/
theorem State.access_of_size (wr : Option Word) (h : size ≠ 8 ∨ off % 8 ≠ 0) : s.access p path off size wr = (s, 1, 0) := by
  unfold State.access
  exact if_pos h

/-- R10: an aligned word where the part defines no register. -/
theorem State.access_of_undefined (wr : Option Word) (ha : off % 8 = 0)
    (hk : (((s.die p).part.keyAt off).bind fun k => (s.die p).part.row k) = none) : s.access p path off 8 wr = (s, 2, 0) := by
  unfold State.access
  dsimp only
  rw [if_neg (by simp [ha])]
  cases hkey : (s.die p).part.keyAt off with
  | none => rfl
  | some key =>
    rw [hkey, Option.bind_some] at hk
    simp only [hk]

/-- R440: a write into a fenced block. -/
theorem State.writeReg_of_fenced (hc : isChanReg key = false) (hf : (s.die p).blockFenced (key / 0x10000) = true) :
    s.writeReg p path r key val = (s.onDie p (·.noteFenced (key / 0x10000)), 4) := by
  unfold State.writeReg
  simp [hc, hf]

/-- A write that neither a mailbox command nor a fence takes: CST_CTL in the safe state, a freeze, the access type and a lock follow, in
this order. -/
theorem State.writeReg_of_unfenced (hc : isChanReg key = false) (hf : (s.die p).blockFenced (key / 0x10000) = false)
    (hcvu : key / 0x10000 ≠ Blk.CVU) (hcst : ¬ (key = Reg.CST_CTL ∧ (s.die p).safe = true)) :
    ((s.die p).frozen (key / 0x10000) = true → s.writeReg p path r key val = (s, 5))
    ∧ ((s.die p).frozen (key / 0x10000) = false → r.acc = .ro → s.writeReg p path r key val = (s, 0))
    ∧ ((s.die p).frozen (key / 0x10000) = false → r.acc = .rwl → (s.die p).locked key = true →
      s.writeReg p path r key val = (s.onDie p (·.raise (Ev.LOCKED_WRITE (key / 0x10000))), 3)) := by
  unfold State.writeReg
  simp only [hc, hf, hcvu, hcst, Bool.false_eq_true, false_and, or_self, if_false]
  refine ⟨fun hz => if_pos hz, fun hz ha => ?_, fun hz ha hl => ?_⟩
  · simp only [hz, ha, Bool.false_eq_true, if_false, if_true]
  · simp only [hz, ha, hl, Bool.false_eq_true, if_false, reduceCtorEq, and_self, if_true]

/-- R443: the safe state freezes every block but four. -/
theorem Die.frozen_of_safe {d : Die} {blk : Nat} (hs : d.safe = true) (hflc : blk ≠ Blk.FLC) (hevr : blk ≠ Blk.EVR) (hdmp : blk ≠ Blk.DMP)
    (hrcv : blk ≠ Blk.RCV) : d.frozen blk = true := by
  simp [Die.frozen, hs, hflc, hevr, hdmp, hrcv]

theorem Die.frozen_of_not_safe {d : Die} (blk : Nat) (hs : d.safe = false) : d.frozen blk = false := by
  simp [Die.frozen, hs]

end

/-! ## What a write stores (R11, R13, R43) -/

/-- A masked write takes the mask's bits from the value and keeps the others. -/
theorem Die.testBit_get_setMasked (d : Die) (key mask val : Nat) {j : Nat} (hj : j < 64) :
    ((d.setMasked key mask val).get key).toNat.testBit j = if mask.testBit j = true then val.testBit j else (d.getN key).testBit j := by
  unfold Die.setMasked Die.getN
  rw [Die.get_set_same]
  simp only [BitVec.testBit_toNat, BitVec.getLsbD_or, BitVec.getLsbD_and, BitVec.getLsbD_not, BitVec.getLsbD_ofNat, hj, decide_true,
    Bool.true_and]
  by_cases hm : mask.testBit j = true <;> simp [hm]

theorem Die.get_setMasked_other {d : Die} {key k : Nat} (mask val : Nat) (h : k ≠ key) : (d.setMasked key mask val).get k = d.get k :=
  Die.get_set_other _ h.symm

theorem Die.get_set (d : Die) (key k : Nat) (v : Word) : (d.set key v).get k = if k = key then v else d.get k := by
  split
  · next h => rw [h, Die.get_set_same]
  · next h => exact Die.get_set_other v (Ne.symm h)

/-- Past 2^48 − 1 a counter holds its greatest count beside the saturation bit. -/
theorem counterAdd_of_saturated {w : Word} {n : Nat} (h : 2 ^ 48 - 1 < w.toNat % 2 ^ 48 + n ∨ 2 ^ 63 ≤ w.toNat) :
    (counterAdd w n).toNat = 2 ^ 63 + min (w.toNat % 2 ^ 48 + n) (2 ^ 48 - 1) := by
  unfold counterAdd
  rw [if_pos h, BitVec.toNat_ofNat]
  omega

theorem counterAdd_of_below {w : Word} {n : Nat} (hc : w.toNat % 2 ^ 48 + n ≤ 2 ^ 48 - 1) (hw : w.toNat < 2 ^ 63) :
    (counterAdd w n).toNat = w.toNat % 2 ^ 48 + n := by
  unfold counterAdd
  rw [if_neg (by omega), BitVec.toNat_ofNat]
  omega

/-- Setting a latch replaces the one of its path and value. -/
theorem Die.latches_setLatch (d : Die) (path : Path) (base : Nat) (ws : List (Nat × Word)) :
    (d.setLatch path base ws).latches = (d.latches.filter fun x => !(x.path = path && x.base = base))
      ++ if ws.isEmpty then [] else [{ path := path, base := base, words := ws }] := by
  cases ws with
  | nil => exact (List.append_nil _).symm
  | cons w ws => rfl

theorem Die.latched_setLatch_same (d : Die) (path : Path) (base : Nat) (ws : List (Nat × Word)) :
    (d.setLatch path base ws).latched path base = ws := by
  have hgone : (d.latches.filter fun x => !(x.path = path && x.base = base)).find? (fun x => x.path = path && x.base = base) = none :=
    List.find?_eq_none.2 fun x hx => by simpa only [Bool.not_eq_true', Bool.not_eq_true] using (List.mem_filter.1 hx).2
  unfold Die.latched
  rw [Die.latches_setLatch, List.find?_append, hgone]
  cases ws <;> simp

theorem Die.latched_setLatch_other (d : Die) {path other : Path} {base k : Nat} (ws : List (Nat × Word)) (h : path ≠ other ∨ base ≠ k) :
    (d.setLatch path base ws).latched other k = d.latched other k := by
  have hkept : (d.latches.filter fun x => !(x.path = path && x.base = base)).find? (fun x => x.path = other && x.base = k)
      = d.latches.find? fun x => x.path = other && x.base = k := by
    rw [List.find?_filter]
    congr 1
    funext x
    by_cases hx : x.path = other ∧ x.base = k
    · obtain ⟨hp, hb⟩ := hx
      rcases h with h | h <;> simp [hp, hb, Ne.symm h]
    · have hq : (decide (x.path = other) && decide (x.base = k)) = false := by rw [← Bool.decide_and, decide_eq_false hx]
      simp only [hq, Bool.false_eq_true, and_false, decide_false]
  have hnew : (if ws.isEmpty then [] else [({ path := path, base := base, words := ws } : Latch)]).find?
      (fun x => x.path = other && x.base = k) = none := by
    split
    · rfl
    · rcases h with h | h <;> simp [h]
  unfold Die.latched
  rw [Die.latches_setLatch, List.find?_append, hkept, hnew, Option.or_none]

/-! ## Accesses that come one at a time: REGISTER_WRITE and TRIG_READ (R12, R188, R293) -/

section
variable {s : State} {p : Place} {path : Path} {off size status : Nat} {val : Word}

/-- A JTAG access after the first, and one over another path, is no debug attach (R397). -/
theorem State.jtagAttach_of_attached (h : path ≠ .jtag ∨ (s.die p).attached = true) : s.jtagAttach p path = s := by
  unfold State.jtagAttach
  exact if_pos h

theorem exec_registerWrite_of_open (ha : Alive s p) (hg : (s.jtagAttach p path).pathGate p path off = none) :
    exec (.registerWrite p path off size val) s =
      dieDoes ((s.jtagAttach p path).access p path off size (some val)).1 p fun d =>
        d.emit (.access path ((s.jtagAttach p path).access p path off size (some val)).2.1 0) := by
  show execRegisterWrite p path off size val s = _
  unfold execRegisterWrite
  rw [if_pos ha]
  simp only [hg]

theorem exec_registerWrite_of_shut (ha : Alive s p) (hg : (s.jtagAttach p path).pathGate p path off = some status) :
    exec (.registerWrite p path off size val) s = dieDoes (s.jtagAttach p path) p fun d => d.emit (.access path status 0) := by
  show execRegisterWrite p path off size val s = _
  unfold execRegisterWrite
  rw [if_pos ha]
  simp only [hg]

/-- A write that its access leaves unmade shows its completion and nothing else. -/
theorem exec_registerWrite_of_unmade (ha : Alive s p) (hg : (s.jtagAttach p path).pathGate p path off = none)
    (hr : (s.jtagAttach p path).access p path off size (some val) = (s.jtagAttach p path, status, 0)) :
    exec (.registerWrite p path off size val) s = dieDoes (s.jtagAttach p path) p fun d => d.emit (.access path status 0) := by
  rw [exec_registerWrite_of_open ha hg, hr]

/-- An agent's TRIG_READ is a read of the entry's upper word. -/
theorem exec_trigRead_agt {w : Who} (hu : Up s w) :
    exec (.trigRead (.agt w) path) s =
      dieDoes ((s.jtagAttach (.agt w) path).readReg (.agt w) path Reg.PLB_TRIG_HI).1 (.agt w) fun d =>
        d.emit (.access path ((s.jtagAttach (.agt w) path).readReg (.agt w) path Reg.PLB_TRIG_HI).2.1
          ((s.jtagAttach (.agt w) path).readReg (.agt w) path Reg.PLB_TRIG_HI).2.2) := by
  show execTrigRead (.agt w) path s = _
  unfold execTrigRead
  rw [if_pos (show s.alive (.agt w) = true from hu)]

theorem exec_trigRead_ctl_of_open (hu : On s)
    (hg : (s.jtagAttach .ctl path).pathGate .ctl path ((s.jtagAttach .ctl path).ctl.die.part.offOf Reg.PLB_TRIG_HI) = none) :
    exec (.trigRead .ctl path) s =
      dieDoes ((s.jtagAttach .ctl path).readReg .ctl path Reg.PLB_TRIG_HI).1 .ctl fun d =>
        d.emit (.access path ((s.jtagAttach .ctl path).readReg .ctl path Reg.PLB_TRIG_HI).2.1
          ((s.jtagAttach .ctl path).readReg .ctl path Reg.PLB_TRIG_HI).2.2) := by
  show execTrigRead .ctl path s = _
  unfold execTrigRead
  rw [if_pos (show s.alive .ctl = true from hu)]
  simp only [State.die, hg]

theorem exec_trigRead_ctl_of_shut (hu : On s)
    (hg : (s.jtagAttach .ctl path).pathGate .ctl path ((s.jtagAttach .ctl path).ctl.die.part.offOf Reg.PLB_TRIG_HI) = some status) :
    exec (.trigRead .ctl path) s = dieDoes (s.jtagAttach .ctl path) .ctl fun d => d.emit (.access path status 0) := by
  show execTrigRead .ctl path s = _
  unfold execTrigRead
  rw [if_pos (show s.alive .ctl = true from hu)]
  simp only [State.die, hg]

end

/-- Settles O56: the size and the alignment are tested first, then whether a register stands there. -/
theorem accessSizeAndUnmapped : Obligations.AccessSizeAndUnmapped := by
  unfold Obligations.AccessSizeAndUnmapped
  refine ⟨fun s p path off size wr h => State.access_of_size wr h, fun s p path off wr ha hk => State.access_of_undefined wr ha hk, ?_, ?_⟩
  · rintro s _ p path off size val ha rfl hg h
    exact exec_registerWrite_of_unmade ha hg (State.access_of_size _ h)
  · rintro s _ p path off val ha rfl hg hal hk
    exact exec_registerWrite_of_unmade ha hg (State.access_of_undefined _ hal hk)

/-- Settles O57, by the order in which a write is turned away, and by what the stores read back. -/
theorem registerWrites : Obligations.RegisterWrites := by
  unfold Obligations.RegisterWrites
  refine ⟨fun s p path r key val => State.writeReg_of_fenced, ?_, ?_, ?_, fun d key mask val j => d.testBit_get_setMasked key mask val,
    fun d key mask val k => Die.get_setMasked_other mask val, Die.get_set, ?_, ?_, Die.latched_setLatch_same,
    fun d path other base k ws => d.latched_setLatch_other ws⟩
  · intro s p path r key val hc hf hcvu hcst hs hflc hevr hdmp hrcv
    exact (State.writeReg_of_unfenced hc hf hcvu fun h => hcst h.1).1 (Die.frozen_of_safe hs hflc hevr hdmp hrcv)
  · intro s p path r key val hc hf hcvu hs
    exact (State.writeReg_of_unfenced hc hf hcvu (by simp [hs])).2.1 (Die.frozen_of_not_safe _ hs)
  · intro s p path r key val hc hf hcvu hs
    exact (State.writeReg_of_unfenced hc hf hcvu (by simp [hs])).2.2 (Die.frozen_of_not_safe _ hs)
  · intro w n
    rcases Nat.lt_or_ge w.toNat (2 ^ 63) with hw | hw
    · left
      by_cases hc : w.toNat % 2 ^ 48 + n ≤ 2 ^ 48 - 1
      · rw [counterAdd_of_below hc hw]; omega
      · rw [counterAdd_of_saturated (by omega)]; omega
    · exact .inr hw
  · intro w n h
    rw [counterAdd_of_saturated h]
    exact Nat.le_add_right _ _

end Sys2Proof.Machine
end

section
/-! PROOFS. What carries accesses to the registers: the host, Skein, Mortar, the prelude and management operations. -/

namespace Sys2Proof.Machine

open Sys2Proof.Claim

/-! ## The host (R275, R279) -/

section
variable {s : State} {w : Who} {msgTag off : Nat} {val : Word}

theorem Agt.control_isSome_of_hearing {a : Agt} (h : a.hearing = true) : a.control.isSome = true :=
  (Bool.and_eq_true_iff.1 h).2

/-- A message that the agent hears is credited. -/
theorem State.onAgt_hears (h : Hears s w) : (s.onAgt w (·.hears id)) = s.onAgt w credited := by
  refine State.onAgt_congr ?_
  unfold Agt.hears
  rw [Option.isNone_eq_false_iff.2 (Agt.control_isSome_of_hearing h)]
  rfl

theorem exec_regRead (h : Hears s w) : exec (.regRead w msgTag off) s = .next (s.hostRead w msgTag off) := by
  show execRegRead w msgTag off s = _
  unfold execRegRead
  rw [if_pos h]

theorem exec_regWrite (h : Hears s w) : exec (.regWrite w msgTag off val) s = .next (s.hostWrite w msgTag off val) := by
  show execRegWrite w msgTag off val s = _
  unfold execRegWrite
  rw [if_pos h]

theorem State.hostRead_of_lt (h : Hears s w) (ho : off < 0x100000) :
    s.hostRead w msgTag off =
      ((s.onAgt w credited).access (.agt w) .host off 8 none).1.onAgt w fun a =>
        a.regValue msgTag off ((s.onAgt w credited).access (.agt w) .host off 8 none).2.1
          (some ((s.onAgt w credited).access (.agt w) .host off 8 none).2.2) := by
  unfold State.hostRead
  rw [State.onAgt_hears h]
  exact if_neg (Nat.not_le.2 ho)

theorem State.hostRead_of_ge (h : Hears s w) (ho : 0x100000 ≤ off) :
    s.hostRead w msgTag off = (s.onAgt w credited).onAgt w fun a => a.refuseReg msgTag off 1 (some 0) := by
  unfold State.hostRead
  rw [State.onAgt_hears h]
  exact if_pos ho

theorem State.hostWrite_of_writable (h : Hears s w) (ho : off < 0x100000)
    (hw : hostWritable ((s.onAgt w credited).agt w).die.part off = true) :
    s.hostWrite w msgTag off val =
      ((s.onAgt w credited).access (.agt w) .host off 8 (some val)).1.onAgt w fun a =>
        a.regValue msgTag off ((s.onAgt w credited).access (.agt w) .host off 8 (some val)).2.1 none := by
  unfold State.hostWrite
  dsimp only
  rw [State.onAgt_hears h, if_neg (Nat.not_le.2 ho), if_neg (by rw [hw]; exact Bool.false_ne_true)]

theorem State.hostWrite_of_not_writable (h : Hears s w) (ho : off < 0x100000)
    (hw : hostWritable ((s.onAgt w credited).agt w).die.part off = false) :
    s.hostWrite w msgTag off val = (s.onAgt w credited).onAgt w fun a => a.refuseReg msgTag off 2 none := by
  unfold State.hostWrite
  dsimp only
  rw [State.onAgt_hears h, if_neg (Nat.not_le.2 ho), if_pos (by rw [hw]; rfl)]

theorem State.pathGate_host_of_not_writable (h : hostWritable (s.agt w).die.part off = false) :
    s.pathGate (.agt w) .host off = some 7 := by
  unfold State.pathGate
  exact if_neg (by simp [h])

end

/-! ## Skein (R293, R455, R456) -/

section
variable {s : State} {h : FrameHdr} {ents : List Access}

theorem exec_regReq (hu : On s) : exec (.regReq h ents) s = .next (s.regReq h ents) := by
  show execRegReq h ents s = _
  unfold execRegReq
  rw [if_pos hu]

theorem State.regReq_of_accepted (hf : (s.ctl.frameIn h).2 = true) (hne : ents ≠ []) (hlen : ents.length ≤ 256)
    (hroom : (((s.onCtl fun c => (c.frameIn h).1).ctl.port h.port).waiting.filter (·.ftype = 4)).length < 64)
    (hstep : (s.onCtl fun c => (c.frameIn h).1).ctl.stepDone 4 = true) :
    s.regReq h ents =
      ((s.onCtl fun c => (c.frameIn h).1).entries .ctl (.skein h.port) (fun s e => s.ctl.skeinGate h.port e.offset) ents).1.onCtl fun c =>
        c.sendFrame h.port (txFrame 4 0 h.id 0
          ((s.onCtl fun c => (c.frameIn h).1).entries .ctl (.skein h.port) (fun s e => s.ctl.skeinGate h.port e.offset) ents).2) := by
  unfold State.regReq
  dsimp only
  rw [if_neg (by simp [hf, hne, hlen, Nat.not_le.2 hroom]), if_neg (by simp [hstep])]

theorem State.regReq_of_crowded
    (hfull : 64 ≤ (((s.onCtl fun c => (c.frameIn h).1).ctl.port h.port).waiting.filter (·.ftype = 4)).length) :
    s.regReq h ents = s.onCtl fun c => (c.frameIn h).1 := by
  unfold State.regReq
  exact if_pos (.inr (.inr (.inr hfull)))

theorem Ctl.skeinGate_before_step4 {c : Ctl} {off : Nat} (port : Nat) (h4 : c.stepDone 4 = false) (hp : preludeOffset c.die.part off = false) :
    c.skeinGate port off = some 6 := by
  simp [Ctl.skeinGate, h4, hp]

theorem Ctl.skeinGate_of_network {c : Ctl} (port off : Nat) (h4 : c.stepDone 4 = true) (hk : c.keystone = false) :
    c.skeinGate port off = some 7 := by
  simp [Ctl.skeinGate, h4, hk]

end

/-! ## Mortar and the prelude (R293, R461, R462) -/

section
variable {s : State} {id sequence : Nat} {intact : Bool} {ents : List Access} {m : Mortar}

theorem exec_mortarReg (hu : On s) : exec (.mortarReg id sequence intact ents) s = .next (s.mortarReg id sequence intact ents) := by
  show execMortarReg id sequence intact ents s = _
  unfold execMortarReg
  rw [if_pos hu]

theorem exec_preludeReg (hu : On s) : exec (.preludeReg id ents) s = .next (s.preludeReg id ents) := by
  show execPreludeReg id ents s = _
  unfold execPreludeReg
  rw [if_pos hu]

/-- The answer to entries, sent over a connection that is still there. -/
def Ctl.answerMortar (c : Ctl) (id kind : Nat) (bs : Bytes) : Ctl :=
  match c.mortarOf id with
  | some m => c.mortarSend m kind bs
  | none => c

theorem State.mortarReg_of_taken (hm : (s.ctl.mortarIn id sequence intact).2 = some m) (hlen : ents.length ≤ 256) :
    s.mortarReg id sequence intact ents =
      ((s.onCtl fun c => (c.mortarIn id sequence intact).1).entries .ctl (.mortar id) (fun _ _ => none) ents).1.onCtl fun c =>
        c.answerMortar id 0x10
          ((s.onCtl fun c => (c.mortarIn id sequence intact).1).entries .ctl (.mortar id) (fun _ _ => none) ents).2 := by
  unfold State.mortarReg
  exact if_neg (by simp [hm, hlen])

theorem State.preludeReg_before_step4 (hm : s.ctl.mortarOf id = some m) (h4 : s.ctl.stepDone 4 = false) (hp : m.phase ≠ 2)
    (hlen : ents.length ≤ 256) :
    s.preludeReg id ents =
      (s.entries .ctl (.mortar id) (fun s e => s.ctl.mortarGate id e.offset) ents).1.onCtl fun c =>
        c.answerMortar id 0x20 (s.entries .ctl (.mortar id) (fun s e => s.ctl.mortarGate id e.offset) ents).2 := by
  unfold State.preludeReg
  simp only [hm]
  rw [if_neg (by simp [h4, hp]), if_neg (Nat.not_lt.2 hlen)]
  rfl

theorem State.preludeReg_after_step4 (hm : s.ctl.mortarOf id = some m) (h4 : s.ctl.stepDone 4 = true) :
    s.preludeReg id ents = s.onCtl fun c => c.closeMortar id := by
  unfold State.preludeReg
  simp only [hm]
  exact if_pos (.inl h4)

theorem Ctl.mortarGate_before_step4 {c : Ctl} (id off : Nat) (h4 : c.stepDone 4 = false) :
    c.mortarGate id off = if preludeOffset c.die.part off = true then none else some 6 := by
  simp [Ctl.mortarGate, h4]

end

/-! ## Management operations (R470) -/

section
variable {s : State} {w : Who} {wm : Worm}

theorem exec_mgmtOp (bond : Nat) (hu : Up s w) : exec (.mgmtOp w bond wm) s = .next (s.mgmtOp w wm) := by
  show execMgmtOp w bond wm s = _
  unfold execMgmtOp
  rw [if_pos hu]

/-- A repeated request gets the response that was kept. -/
theorem State.mgmtOp_of_kept {k : MgmtKept} (hreq : bitOf (byteAt wm.payload 5) 0 = false) (hpriv : markPriv (wormMark wm) = 2)
    (hk : ((s.agt w).mgmt.find? fun k => k.fid = markFid (wormMark wm) && k.opId = fieldAt wm.payload 0 4) = some k) :
    s.mgmtOp w wm = s.onAgt w fun a => a.sendResponse (markFid (wormMark wm)) k.response := by
  unfold State.mgmtOp
  simp only [hreq, hpriv, hk, Bool.false_eq_true, if_false, ne_eq, not_true]

/-- The response to a request whose entries gave these bytes. -/
def mgmtAnswer (p bs : Bytes) : Bytes := le 4 (fieldAt p 0 4) ++ le 1 (requestEntries p).length ++ le 1 1 ++ le 10 0 ++ bs

/-- A new request: its entries are applied in order and the response is kept and sent. -/
theorem State.mgmtOp_of_new (hreq : bitOf (byteAt wm.payload 5) 0 = false) (hpriv : markPriv (wormMark wm) = 2)
    (hk : ((s.agt w).mgmt.find? fun k => k.fid = markFid (wormMark wm) && k.opId = fieldAt wm.payload 0 4) = none)
    (hne : requestEntries wm.payload ≠ []) (hlen : byteAt wm.payload 4 ≤ 64) :
    s.mgmtOp w wm =
      let r := s.entries (.agt w) (.mgmt (markFid (wormMark wm))) (fun _ _ => none) (requestEntries wm.payload)
      r.1.onAgt w fun a =>
        (a.keepMgmt { fid := markFid (wormMark wm), opId := fieldAt wm.payload 0 4, response := mgmtAnswer wm.payload r.2 }).sendResponse
          (markFid (wormMark wm)) (mgmtAnswer wm.payload r.2) := by
  unfold State.mgmtOp
  dsimp only
  rw [if_neg (by simp [hreq]), if_neg (by simp [hpriv])]
  simp only [hk]
  rw [if_neg (by simp [hne, hlen])]
  rfl

end

/-- Settles O49: each path's gate decides first, and what passes it is one access or its entries in order. -/
theorem registerAccesses : Obligations.RegisterAccesses := by
  unfold Obligations.RegisterAccesses
  refine ⟨fun s w tag off => exec_regRead, fun s w tag off val => exec_regWrite, fun s h ents => exec_regReq,
    fun s id sequence intact ents => exec_mortarReg, fun s id ents => exec_preludeReg, fun s w bond wm => exec_mgmtOp bond,
    ?write_made, ?write_refused, fun s w off => State.pathGate_host_of_not_writable, fun s p path => State.jtagAttach_of_attached,
    ?trigRead_agent, ?trigRead_controller, ?trigRead_refused, ?read_inside, ?read_outside, ?hostWrite_permitted, ?hostWrite_denied,
    ?request_answered, ?request_crowded, fun c port off => Ctl.skeinGate_before_step4 port, fun c => Ctl.skeinGate_of_network, ?mortar_answered,
    fun c => Ctl.mortarGate_before_step4, ?prelude_answered, ?prelude_closed, ?mgmt_repeated, ?mgmt_new⟩
  case write_made =>
    rintro s _ p path off size val ha rfl hg
    exact exec_registerWrite_of_open ha hg
  case write_refused =>
    rintro s _ p path off size status val ha rfl hg
    exact exec_registerWrite_of_shut ha hg
  case trigRead_agent =>
    rintro s _ w path hu rfl
    exact exec_trigRead_agt hu
  case trigRead_controller =>
    rintro s _ path hu rfl hg
    exact exec_trigRead_ctl_of_open hu hg
  case trigRead_refused =>
    rintro s _ path status hu rfl hg
    exact exec_trigRead_ctl_of_shut hu hg
  case read_inside =>
    intro s w tag off h ho
    rw [exec_regRead h, State.hostRead_of_lt h ho]
  case read_outside =>
    intro s w tag off h ho
    rw [exec_regRead h, State.hostRead_of_ge h ho]
  case hostWrite_permitted =>
    rintro s _ w tag off val h ho rfl hw
    rw [exec_regWrite h, State.hostWrite_of_writable h ho hw]
  case hostWrite_denied =>
    rintro s _ w tag off val h ho rfl hw
    rw [exec_regWrite h, State.hostWrite_of_not_writable h ho hw]
  case request_answered =>
    rintro s _ h ents hu hf rfl hne hlen hroom hstep
    rw [exec_regReq hu, State.regReq_of_accepted hf hne hlen hroom hstep]
  case request_crowded =>
    rintro s _ h ents hu rfl hfull
    rw [exec_regReq hu, State.regReq_of_crowded hfull]
  case mortar_answered =>
    rintro s _ id sequence intact ents m hu hm rfl hlen
    rw [exec_mortarReg hu, State.mortarReg_of_taken hm hlen]
    rfl
  case prelude_answered =>
    intro s id ents m hu hm h4 hp hlen
    rw [exec_preludeReg hu, State.preludeReg_before_step4 hm h4 hp hlen]
    rfl
  case prelude_closed =>
    intro s id ents m hu hm h4
    rw [exec_preludeReg hu, State.preludeReg_after_step4 hm h4]
  case mgmt_repeated =>
    intro s w bond wm k hu hreq hpriv hk
    rw [exec_mgmtOp bond hu, State.mgmtOp_of_kept hreq hpriv hk]
  case mgmt_new =>
    intro s w bond wm hu hreq hpriv hk hne hlen
    rw [exec_mgmtOp bond hu, State.mgmtOp_of_new hreq hpriv hk hne hlen]
    rfl

end Sys2Proof.Machine
end

section
/-! PROOFS. The Skein links to the control node. -/

namespace Sys2Proof.Machine

open Sys2Proof.Claim

/-! ## Links and frames (R6, R452 to R454) -/

section
variable {c : Ctl} {n lanes : Nat} {h : FrameHdr}

/-- A port without a link comes up with its credits and fresh sequences. -/
theorem Ctl.linkUp_of_down (hn : n < c.die.part.skeinPorts) (h0 : lanes ≠ 0) (h2 : lanes ≤ 2) (hl : (c.port n).link ≠ 2) :
    c.linkUp n lanes = c.setPort n
      { c.port n with link := 2, lanes := lanes, credits := 256, grant := 256, rxSeq := none, txSeq := 0, waiting := [] } := by
  unfold Ctl.linkUp
  rw [if_neg (by omega)]
  exact if_neg hl

/-- A lane joins a link that is up. -/
theorem Ctl.linkUp_of_up (hn : n < c.die.part.skeinPorts) (h0 : lanes ≠ 0) (h2 : lanes ≤ 2) (hl : (c.port n).link = 2) :
    c.linkUp n lanes = c.setPort n { c.port n with lanes := lanes } := by
  unfold Ctl.linkUp
  rw [if_neg (by omega)]
  exact if_pos hl

theorem Ctl.linkDown_of_lane_left (hl : (c.port n).link = 2) (h0 : 0 < lanes) (hlt : lanes < (c.port n).lanes) :
    c.linkDown n lanes = c.setPort n { c.port n with lanes := lanes } := by
  unfold Ctl.linkDown
  dsimp only
  rw [if_neg (by omega), if_pos h0]

/-- The last lane takes the session and the port's connections with it. -/
theorem Ctl.linkDown_of_last (hl : (c.port n).link = 2) (h0 : 0 < (c.port n).lanes) :
    c.linkDown n 0 =
      let c := c.endLink n
      let c := c.setPort n { c.port n with link := 0, lanes := 0, credits := 0, grant := 0, rxSeq := none, txSeq := 0, waiting := [] }
      { c with kst := { c.kst with conns := c.kst.conns.filter fun x => x.port ≠ n } } := by
  unfold Ctl.linkDown
  dsimp only
  rw [if_neg (by omega), if_neg (Nat.lt_irrefl 0)]

/-- R452: any frame but a LINK frame needs a credit. -/
theorem Ctl.frameIn_of_no_credit (hp : h.port < c.die.part.skeinPorts) (ht : h.ftype ≠ 1) (hc : (c.port h.port).credits = 0) :
    c.frameIn h = (c.onDie (·.count Reg.SKN_CNT_CREDIT_OVERRUN), false) := by
  unfold Ctl.frameIn
  dsimp only
  rw [if_neg (Nat.not_le.2 hp), if_pos (by simp [ht, hc])]

theorem Ctl.frameIn_of_bad_tag (hp : h.port < c.die.part.skeinPorts) (hc : (c.port h.port).credits ≠ 0) (hl : (c.port h.port).link = 2)
    (hi : h.intact = false) : c.frameIn h = (c.onDie (·.count Reg.SKN_CNT_TAG_FAIL), false) := by
  unfold Ctl.frameIn
  dsimp only
  rw [if_neg (Nat.not_le.2 hp), if_neg (by simp [hc]), if_neg (by simp [hl]), if_pos (by simp [hi])]

end

section
variable {s : State} {n lanes : Nat} {h : FrameHdr} {c' : Ctl}

/-- SKEIN_LINK_UP answers the state that its effect, or any effect equal to it there, gives. -/
theorem exec_skeinLinkUp {g : Ctl → Ctl} (hu : On s) (hg : s.ctl.linkUp n lanes = g s.ctl) :
    exec (.skeinLinkUp n lanes) s = ctlDoes s g := by
  show execSkeinLinkUp n lanes s = _
  exact State.ctlNext_on hu hg

/-- The same of SKEIN_LINK_DOWN. -/
theorem exec_skeinLinkDown {g : Ctl → Ctl} (hu : On s) (hg : s.ctl.linkDown n lanes = g s.ctl) :
    exec (.skeinLinkDown n lanes) s = ctlDoes s g := by
  show execSkeinLinkDown n lanes s = _
  exact State.ctlNext_on hu hg

theorem exec_skeinLinkFrame_of_accepted (hu : On s) (ht : h.ftype = 1) (hf : s.ctl.frameIn h = (c', true)) :
    exec (.skeinLinkFrame h) s = ctlDoes s fun _ =>
      (c'.setPort h.port { c'.port h.port with grant := (c'.port h.port).grant + h.id }).pumpFrames
        ((c'.port h.port).waiting.length + 1) h.port := by
  show execSkeinLinkFrame h s = _
  refine State.ctlNext_on hu ?_
  rw [hf]
  exact if_neg (by simp [ht])

theorem exec_skeinLinkFrame_of_discarded (hu : On s) (hf : s.ctl.frameIn h = (c', false)) :
    exec (.skeinLinkFrame h) s = ctlDoes s fun _ => c' := by
  show execSkeinLinkFrame h s = _
  refine State.ctlNext_on hu ?_
  rw [hf]
  exact if_pos (.inl rfl)

end

/-- Settles O31, by the branches of a link's rise and fall and of a frame's acceptance. -/
theorem skeinLinks : Obligations.SkeinLinks := by
  unfold Obligations.SkeinLinks
  refine ⟨fun s n lanes hu => exec_skeinLinkUp hu rfl, ?frame, fun s n lanes hu => exec_skeinLinkDown hu rfl, ?fresh, ?joins, ?narrows, ?lost,
    fun c h => Ctl.frameIn_of_no_credit, fun c h => Ctl.frameIn_of_bad_tag, fun s h c' => exec_skeinLinkFrame_of_accepted,
    fun s h c' => exec_skeinLinkFrame_of_discarded⟩
  case frame =>
    intro s h hu
    show execSkeinLinkFrame h s = _
    exact State.ctlNext_on hu rfl
  case fresh =>
    intro s n lanes hu hn h0 h2 hl
    exact exec_skeinLinkUp hu (Ctl.linkUp_of_down hn h0 h2 hl)
  case joins =>
    intro s n lanes hu hn h0 h2 hl
    exact exec_skeinLinkUp hu (Ctl.linkUp_of_up hn h0 h2 hl)
  case narrows =>
    intro s n lanes hu hl h0 hlt
    exact exec_skeinLinkDown hu (Ctl.linkDown_of_lane_left hl h0 hlt)
  case lost =>
    intro s n hu hl h0
    exact exec_skeinLinkDown hu (Ctl.linkDown_of_last hl h0)

end Sys2Proof.Machine
end

section
/-! PROOFS. Agent reset and its release, the self test, and the UCIe modules to the host. -/

namespace Sys2Proof.Machine

open Sys2Proof.Claim

/-! ## Reset and its release (R4, R5, R302, R544, R547) -/

section
variable {a : Agt} {modeSel : Nat} {testEn : Bool}

/-- An agent already out of reset samples nothing. -/
theorem Agt.resetDeassert_of_up (hr : a.pins.rstN = true) : a.resetDeassert modeSel testEn = a := by
  unfold Agt.resetDeassert
  exact if_pos hr

theorem Agt.resetDeassert_of_valid_mode (hr : a.pins.rstN = false) (hm : a.die.part = .embedded ∨ modeSel % 4 < 2) :
    a.resetDeassert modeSel testEn =
      let b := (((a.again { a.pins with rstN := true, pwrgd := true, modeSel := a.sampled modeSel }).onDie fun d =>
        { d.fset Fl.AGT_IDENT_mode (a.sampled modeSel) with testEn := testEn }).setCast 1).boot
      if testEn then b.extendOwn 3 0x22 [] else b := by
  have hgood : (decide (a.die.part ≠ .embedded) && decide (2 ≤ a.sampled modeSel)) = false := by
    rw [Bool.and_eq_false_iff, decide_eq_false_iff_not, decide_eq_false_iff_not]
    by_cases he : a.die.part = .embedded
    · exact .inl fun h => h he
    · rw [Agt.sampled, if_neg he]
      exact .inr (Nat.not_le.2 (hm.resolve_left he))
  unfold Agt.resetDeassert
  dsimp only
  rw [hr, if_neg Bool.false_ne_true, hgood, if_neg Bool.false_ne_true]

/-- A reserved mode ends in the failed state, with ALERT_N asserted. -/
theorem Agt.resetDeassert_of_reserved_mode (hr : a.pins.rstN = false) (he : a.die.part ≠ .embedded) (hm : 2 ≤ modeSel % 4) :
    a.resetDeassert modeSel testEn =
      (((a.again { a.pins with rstN := true, pwrgd := true, modeSel := modeSel % 4 }).onDie fun d =>
        { d.fset Fl.AGT_IDENT_mode (modeSel % 4) with testEn := testEn }).onDie fun d =>
        (d.fset Fl.AGT_IDENT_mode_invalid 1).driveAlert false).setCast 0xF := by
  have hs : a.sampled modeSel = modeSel % 4 := if_neg he
  unfold Agt.resetDeassert
  dsimp only
  rw [hr, if_neg Bool.false_ne_true, hs, if_pos (by simp [he, hm])]

end

/-! ## The self test (R233, R302, R521) -/

/-- The agent with the maps that a self test gives it. -/
def Agt.mapped (a : Agt) (r : SelfTest) : Agt :=
  let b := a.mapPurl r.badLanes
  { b with cast := { b.cast with banks := working 68 64 r.badBanks, ucieMap := r.ucieMap.foldl (fun t p => tset t p.1 p.2) [] } }

theorem Agt.selfTestDone_of_short {a : Agt} {r : SelfTest} (hc : a.castState = 1)
    (hshort : (working 68 64 r.badBanks).length < 64 ∨ r.badUcie ≠ []) :
    a.selfTestDone r = (a.mapped r).onDie fun d => d.fset Fl.AGT_BOOT_self_test_fail 1 := by
  have hs : (decide ((working 68 64 r.badBanks).length < 64) || !r.badUcie.isEmpty) = true := by
    rcases hshort with h | h <;> simp [h]
  unfold Agt.selfTestDone
  dsimp only
  rw [if_neg (fun h => h hc), hs, if_pos (.inl rfl), if_pos rfl]
  rfl

/-- The agent as its self test leaves it when it passes: the recorder runs and WAIT_HOST follows. -/
theorem Agt.selfTestDone_of_enough {a : Agt} {r : SelfTest} (hc : a.castState = 1) (hb : (working 68 64 r.badBanks).length = 64)
    (hu : r.badUcie = []) (hrom : (a.mapped r).die.fget Fl.AGT_BOOT_rom_result ≠ 3) :
    a.selfTestDone r =
      let b := (a.mapped r).onDie fun d => (d.fset Fl.EVR_STATUS_mode 0).drainFallback
      (({ b with cast := { b.cast with modules := (List.range 8).map fun k => if b.die.resource.ucie.getD k 0 = 0 then 0 else 1 } } : Agt).setCast
        2).countModules := by
  have hs : (decide ((working 68 64 r.badBanks).length < 64) || !r.badUcie.isEmpty) = false := by
    simp [hb, hu]
  unfold Agt.selfTestDone
  dsimp only
  rw [if_neg (fun h => h hc), hs, if_neg Bool.false_ne_true]
  exact if_neg (not_or.2 ⟨Bool.false_ne_true, hrom⟩)

/-! ## UCIe modules (R264, R266) -/

theorem Agt.moduleTrained_of_training {a : Agt} {k : Nat} (hk : a.cast.modules.getD k 0 = 1) :
    a.moduleTrained k =
      let b := (a.setModule k 2).countModules
      if b.die.resource.ucie.getD k 0 = 3 then b.grantCredits else b := by
  unfold Agt.moduleTrained
  exact if_neg fun h => h hk

section
variable {a : Agt} {k : Nat}

/-- A failed control module raises the event of its function. -/
theorem Agt.moduleFail_of_control (hk : k < 8) (hm : a.cast.modules.getD k 0 ≠ 3) (hf : a.die.resource.ucie.getD k 0 = 3) :
    a.moduleFail k = ((a.setModule k 3).losePresented k).countModules.onDie fun d => d.raiseFence Ev.UCIE_CONTROL_DOWN k := by
  unfold Agt.moduleFail
  dsimp only
  rw [if_neg (by omega), if_pos hf]

/-- So does a failed module of another function. -/
theorem Agt.moduleFail_of_other (hk : k < 8) (hm : a.cast.modules.getD k 0 ≠ 3) (h0 : a.die.resource.ucie.getD k 0 ≠ 0)
    (hf : a.die.resource.ucie.getD k 0 ≠ 3) :
    a.moduleFail k = ((a.setModule k 3).losePresented k).countModules.onDie fun d => d.raiseFence Ev.UCIE_MODULE_DOWN k := by
  unfold Agt.moduleFail
  dsimp only
  rw [if_neg (by omega), if_neg hf]

end

/-! ## The commands -/

section
variable {s : State} {w : Who} {modeSel k : Nat} {testEn : Bool} {r : SelfTest} {g : Agt → Agt}

theorem exec_agentResetDeassert (h : (s.agt w).resetDeassert modeSel testEn = g (s.agt w)) :
    exec (.agentResetDeassert w modeSel testEn) s = agtDoes s w g := by
  show execAgentResetDeassert w modeSel testEn s = _
  exact congrArg _ (State.onAgt_congr h)

theorem exec_selfTestDone (hu : Up s w) (h : (s.agt w).selfTestDone r = g (s.agt w)) : exec (.selfTestDone w r) s = agtDoes s w g := by
  show execSelfTestDone w r s = _
  exact State.agtNext_up hu h

theorem exec_ucieModuleTrained (hu : Up s w) (h : (s.agt w).moduleTrained k = g (s.agt w)) :
    exec (.ucieModuleTrained w k) s = agtDoes s w g := by
  show execUcieModuleTrained w k s = _
  exact State.agtNext_up hu h

theorem exec_ucieModuleFail (hu : Up s w) (h : (s.agt w).moduleFail k = g (s.agt w)) : exec (.ucieModuleFail w k) s = agtDoes s w g := by
  show execUcieModuleFail w k s = _
  exact State.agtNext_up hu h

end

/-- Settles O14, by the branches of the release, the self test and the modules. -/
theorem agentReset : Obligations.AgentReset := by
  unfold Obligations.AgentReset
  refine ⟨fun s w r hu => exec_selfTestDone hu rfl, fun s w k hu => exec_ucieModuleFail hu rfl, fun s w k hu => exec_ucieModuleTrained hu rfl,
    ?valid_mode, ?reserved_mode, ?already_up, fun s w => rfl, fun s w => rfl, ?test_passed, ?test_short, ?trained, ?data_failed,
    ?control_failed⟩
  case valid_mode =>
    intro s w modeSel testEn hr hm
    exact exec_agentResetDeassert (Agt.resetDeassert_of_valid_mode hr hm)
  case reserved_mode =>
    intro s w modeSel testEn hr he hm
    exact exec_agentResetDeassert (Agt.resetDeassert_of_reserved_mode hr he hm)
  case already_up =>
    intro s w modeSel testEn hu
    exact exec_agentResetDeassert (Agt.resetDeassert_of_up hu)
  case test_passed =>
    rintro s w r _ hu hc hb hl rfl hrom
    exact exec_selfTestDone hu (Agt.selfTestDone_of_enough hc hb hl hrom)
  case test_short =>
    intro s w r hu hc hshort
    exact exec_selfTestDone hu (Agt.selfTestDone_of_short hc hshort)
  case trained =>
    intro s w k hu hk
    exact exec_ucieModuleTrained hu (Agt.moduleTrained_of_training hk)
  case data_failed =>
    intro s w k hu hk hm h0 hf
    exact exec_ucieModuleFail hu (Agt.moduleFail_of_other hk hm h0 hf)
  case control_failed =>
    intro s w k hu hk hm hf
    exact exec_ucieModuleFail hu (Agt.moduleFail_of_control hk hm hf)

end Sys2Proof.Machine
end

section
/-! PROOFS. Every command is a sequence of effects at agents and at the controller. -/

namespace Sys2Proof.Machine

open Sys2Proof.Claim

/-! ## A command is effects at agents and at the controller, one after another (R16, R19; log entries 1 and 54) -/

/-- The states to which effects at agents and at the controller lead, each settled before the next. -/
inductive Effects (s : State) : State → Prop
  | refl : Effects s s
  | onAgt {t : State} (w : Who) (f : Agt → Agt) (busy : List Nat) : Effects s t → Effects s (t.onAgt w f busy)
  | onCtl {t : State} (f : Ctl → Ctl) : Effects s t → Effects s (t.onCtl f)

/-- An answer is a next state to which effects lead. -/
def Answers (s : State) (r : Res) : Prop := ∃ t, r = .next t ∧ Effects s t

section
variable {s t : State}

theorem Effects.answers (h : Effects s t) : Answers s (.next t) := ⟨t, rfl, h⟩

theorem Effects.ite {u : State} {c : Prop} [Decidable c] (ht : Effects s t) (hu : Effects s u) : Effects s (if c then t else u) := by
  split
  · exact ht
  · exact hu

theorem Effects.fst_ite {α : Type} {x y : State × α} {c : Prop} [Decidable c] (hx : Effects s x.1) (hy : Effects s y.1) :
    Effects s (if c then x else y).1 := by
  split
  · exact hx
  · exact hy

theorem Effects.onDie (h : Effects s t) (p : Place) (f : Die → Die) : Effects s (t.onDie p f) := by
  cases p with
  | ctl => simp only [State.onDie]; exact h.onCtl _
  | agt w => simp only [State.onDie]; exact h.onAgt w _ _

theorem Effects.agtNext (h : Effects s t) (w : Who) (f : Agt → Agt) (busy : List Nat) : Answers s (t.agtNext w f busy) := by
  unfold State.agtNext
  exact (Effects.ite (h.onAgt w f busy) h).answers

theorem Effects.ctlNext (h : Effects s t) (f : Ctl → Ctl) : Answers s (t.ctlNext f) := by
  unfold State.ctlNext
  exact (Effects.ite (h.onCtl f) h).answers

theorem Effects.meterNext (h : Effects s t) (f : Ctl → Ctl) : Answers s (t.meterNext f) := by
  unfold State.meterNext
  exact (Effects.ite (h.onCtl f) h).answers

theorem Effects.dieNext (h : Effects s t) (p : Place) (f : Die → Die) : Answers s (t.dieNext p f) := by
  cases p with
  | ctl => exact h.ctlNext _
  | agt w => exact h.agtNext w _ _

/-- The state a command leaves is the one it answers. -/
theorem Answers.after {r : Res} (h : Answers s r) (t : State) : Effects s (t.after r) := by
  obtain ⟨u, rfl, hu⟩ := h
  exact hu

/-- A command that each place has in its own way. -/
theorem Answers.atPlace {r : Place → Res} (hc : Answers s (r .ctl)) (ha : ∀ w, Answers s (r (.agt w))) (pl : Place) : Answers s (r pl) := by
  cases pl with
  | ctl => exact hc
  | agt w => exact ha w

/-- A bit of a command register runs its command. -/
theorem Effects.onBit {f : State → Res} {val k : Nat} (h : Effects s t) (hf : ∀ {u}, Effects s u → Answers s (f u)) :
    Effects s (t.onBit val k f) := by
  unfold State.onBit
  exact .ite ((hf h).after t) h

/-! ### Commands that a register's write may run beside plain effects -/

theorem Effects.startStep (h : Effects s t) (k : Nat) (full : Bool) : Effects s (t.startStep k full) := by
  unfold State.startStep
  split
  · exact (h.onCtl _).onCtl _
  · exact (h.onCtl _).onAgt _ _ _
  · exact (h.onCtl _).onCtl _
  · exact (h.onCtl _).onCtl _
  · exact (h.onCtl _).onCtl _
  · exact (h.onCtl _).onCtl _
  · exact h.onCtl _

theorem Effects.cstRun (h : Effects s t) (val : Nat) : Effects s (t.cstRun val) := by
  unfold State.cstRun
  refine .ite h (.ite (h.onCtl _) ?_)
  split
  · exact h.onCtl _
  · exact h.startStep _ _

theorem Effects.execCstRun (h : Effects s t) (val : Word) : Answers s (execCstRun val t) := by
  unfold Machine.execCstRun
  exact (Effects.ite (h.cstRun _) h).answers

theorem Effects.execFabRetrain (h : Effects s t) : Answers s (execFabRetrain t) := by
  unfold Machine.execFabRetrain
  dsimp only
  split
  · exact h.ctlNext _
  · split
    · exact h.agtNext _ _ _
    · exact h.answers

/-! ### One register access (R10 to R13, R188, R474) -/

/-- What a write answers where its register may have an effect of its own: none, or a state to which effects lead. -/
def Leads (s : State) (o : Option State) : Prop := ∀ u, o = some u → Effects s u

theorem Effects.leads (h : Effects s t) : Leads s (some t) := fun _ hu => Option.some.inj hu ▸ h

theorem Leads.none : Leads s none := fun _ hu => nomatch hu

theorem Leads.ite {o o' : Option State} {c : Prop} [Decidable c] (ho : Leads s o) (ho' : Leads s o') : Leads s (if c then o else o') := by
  split
  · exact ho
  · exact ho'

theorem Effects.commonWrite (h : Effects s t) (pl : Place) (path : Path) (key val : Nat) : Leads s (t.commonWrite pl path key val) := by
  unfold State.commonWrite
  exact .ite ((h.dieNext _ _).after _).leads <| .ite ((h.dieNext _ _).after _).leads <| .ite ((h.dieNext _ _).after _).leads <|
    .ite (h.onDie _ _).leads <| .ite (h.onBit (·.dieNext _ _)).leads <|
    .ite ((h.onBit fun {v} h => .atPlace (r := (execPatStart · v)) (h.ctlNext _) (h.agtNext · _ _) pl).onBit fun {v} h =>
      .atPlace (r := (execPatAbort · v)) (h.ctlNext _) (h.agtNext · _ _) pl).leads <|
    .ite ((h.onBit (·.dieNext _ _)).onBit (·.dieNext _ _)).leads <|
    .ite (.ite ((h.onBit (·.dieNext _ _)).onBit fun {v} h =>
      .atPlace (r := (execCvuAbort · _ v)) (h.ctlNext _) (h.agtNext · _ _) pl).leads <|
      .ite ((h.dieNext _ _).after _).leads <| .ite ((h.dieNext _ _).after _).leads .none) .none

theorem Effects.shdCmd (h : Effects s t) (val : Nat) : Effects s (t.shdCmd val) := by
  unfold State.shdCmd
  dsimp only
  split
  · exact (h.ctlNext _).after _
  · exact (h.ctlNext _).after _
  · exact (h.ctlNext _).after _
  · exact h

/-- A write of a controller register, register by register: its command bits, its one command or the plain write. -/
theorem Effects.ctlWrite (h : Effects s t) (path : Path) (key mask val : Nat) : Effects s (t.ctlWrite path key mask val) := by
  unfold State.ctlWrite
  dsimp only
  split
  · next hu => exact h.commonWrite _ _ _ _ _ hu
  · exact
      .ite ((h.onBit (·.execCstRun _)).onBit (·.ctlNext _)) <|
      .ite ((((h.onBit (·.ctlNext _)).onBit (·.ctlNext _)).onBit (·.ctlNext _)).onBit (·.ctlNext _)) <|
      .ite ((h.ctlNext _).after _) <|
      .ite (h.onBit (·.ctlNext _)) <|
      .ite ((h.ctlNext _).after _) <|
      .ite (h.onBit (·.dieNext _ _)) <|
      .ite (((h.ctlNext _).after _).onBit (·.ctlNext _)) <|
      .ite (h.onCtl _) <|
      .ite ((h.ctlNext _).after _) <|
      .ite (((h.onBit (·.ctlNext _)).onBit (·.ctlNext _)).onBit (·.ctlNext _)) <|
      .ite ((h.ctlNext _).after _) <|
      .ite (h.onCtl _) <|
      .ite ((h.ctlNext _).after _) <|
      .ite (h.onBit (·.ctlNext _)) <|
      .ite (h.onBit (·.ctlNext _)) <|
      .ite (h.onCtl _) <|
      .ite ((h.onBit (·.ctlNext _)).onBit (·.ctlNext _)) <|
      .ite ((h.ctlNext _).after _) <|
      .ite ((h.onBit (·.ctlNext _)).onBit (·.execFabRetrain)) <|
      .ite ((h.onBit (·.ctlNext _)).onBit (·.ctlNext _)) <|
      .ite ((h.ctlNext _).after _) <|
      .ite ((h.ctlNext _).after _) <|
      .ite ((h.ctlNext _).after _) <|
      .ite ((h.onBit (·.ctlNext _)).onBit (·.ctlNext _)) <|
      .ite (h.onBit (·.ctlNext _)) <|
      .ite (h.onBit (·.ctlNext _)) <|
      .ite ((((((h.onBit (·.ctlNext _)).onBit (·.ctlNext _)).onBit (·.ctlNext _)).onBit (·.ctlNext _)).onBit (·.ctlNext _)).onBit
        (·.ctlNext _)) <|
      .ite (h.shdCmd _) <|
      .ite (((h.onBit (·.ctlNext _)).onBit (·.ctlNext _)).onBit (·.ctlNext _)) <|
      .ite ((h.ctlNext _).after _) (h.onCtl _)

/-- The same of an agent register. -/
theorem Effects.agtWrite (h : Effects s t) (w : Who) (path : Path) (key mask val : Nat) : Effects s (t.agtWrite w path key mask val) := by
  unfold State.agtWrite
  split
  · next hu => exact h.commonWrite _ _ _ _ _ hu
  · exact
      .ite (h.onBit (·.agtNext _ _ _)) <|
      .ite ((h.onBit (·.agtNext _ _ _)).onBit (·.agtNext _ _ _)) <|
      .ite (h.onBit (·.agtNext _ _ _)) <|
      .ite (h.onBit (·.agtNext _ _ _)) <|
      .ite ((h.onBit (·.agtNext _ _ _)).onBit (·.dieNext _ _)) <|
      .ite (h.onBit (·.agtNext _ _ _)) <|
      .ite (h.onBit (·.agtNext _ _ _)) <|
      .ite ((h.onBit (·.agtNext _ _ _)).onBit (·.agtNext _ _ _)) <|
      .ite (h.onBit (·.agtNext _ _ _)) <|
      .ite (h.onBit (·.agtNext _ _ _)) (h.onAgt _ _ _)

theorem Effects.writeOne (h : Effects s t) (pl : Place) (path : Path) (key mask val : Nat) : Effects s (t.writeOne pl path key mask val) := by
  cases pl with
  | ctl => exact h.ctlWrite _ _ _ _
  | agt w => exact h.agtWrite _ _ _ _ _

theorem Effects.readLatched (h : Effects s t) (pl : Place) (path : Path) (key : Nat) : Effects s (t.readLatched pl path key).1 := by
  unfold State.readLatched
  split
  · exact h
  · split
    · exact h.onDie _ _
    · exact h.onDie _ _

theorem Effects.readReg (h : Effects s t) (pl : Place) (path : Path) (key : Nat) : Effects s (t.readReg pl path key).1 := by
  unfold State.readReg
  dsimp only
  split
  · exact h.onDie _ _
  · have hr := h.readLatched pl path key
    have hd := Effects.ite (c := key = Reg.PLB_TRIG_HI) (hr.onDie pl fun d => { d with trig := d.trig.tail }) hr
    exact .ite (hd.onDie _ _) hd

theorem Effects.writeWide (h : Effects s t) (pl : Place) (path : Path) (key base n mask : Nat) (val : Word) :
    Effects s (t.writeWide pl path key base n mask val) := by
  unfold State.writeWide
  refine .ite (h.writeOne _ _ _ _ _) (.ite ((h.onDie _ _).onDie _ _) ?_)
  refine List.foldlRecOn _ _ (h.onDie _ _) fun u hu p _ => hu.writeOne _ _ _ _ _

theorem Effects.writeReg (h : Effects s t) (pl : Place) (path : Path) (r : RegRow) (key : Nat) (val : Word) :
    Effects s (t.writeReg pl path r key val).1 := by
  unfold State.writeReg
  refine .fst_ite (h.writeOne _ _ _ _ _) <| .fst_ite (h.onDie _ _) <| .fst_ite (h.writeOne _ _ _ _ _) <| .fst_ite h <| .fst_ite h <|
    .fst_ite (h.onDie _ _) <| .fst_ite (h.onDie _ _) <| .fst_ite (h.onDie _ _) ?_
  split
  · exact .fst_ite (h.writeOne _ _ _ _ _) <| .fst_ite (h.onDie _ _) (h.writeWide _ _ _ _ _ _ _)
  · exact h.writeOne _ _ _ _ _

theorem Effects.stoReg (h : Effects s t) (w : Who) (key : Nat) (wr : Option Word) : Effects s (t.stoReg w key wr).1 := by
  unfold State.stoReg
  dsimp only
  exact h.onAgt _ _ _

theorem Effects.access (h : Effects s t) (pl : Place) (path : Path) (off size : Nat) (wr : Option Word) :
    Effects s (t.access pl path off size wr).1 := by
  unfold State.access
  refine .fst_ite h ?_
  split
  · exact h
  split
  · exact h
  split
  · exact h.onDie _ _
  dsimp only
  split
  · exact h.stoReg _ _ _
  · exact h.writeReg _ _ _ _ _
  · exact h.readReg _ _ _

theorem Effects.entry (h : Effects s t) (pl : Place) (path : Path) (pre : Option Nat) (e : Access) : Effects s (t.entry pl path pre e).1 := by
  unfold State.entry
  split
  · exact h
  · refine .fst_ite h ?_
    dsimp only
    exact h.access _ _ _ _ _

theorem Effects.entries (h : Effects s t) (pl : Place) (path : Path) (pre : State → Access → Option Nat) (es : List Access) :
    Effects s (t.entries pl path pre es).1 := by
  unfold State.entries
  exact List.foldlRecOn (motive := fun (r : State × Bytes) => Effects s r.1) _ _ h fun r hr e _ => hr.entry _ _ _ _

theorem Effects.jtagAttach (h : Effects s t) (pl : Place) (path : Path) : Effects s (t.jtagAttach pl path) := by
  unfold State.jtagAttach
  refine .ite h ?_
  cases pl with
  | ctl => exact h.onCtl _
  | agt w => exact h.onAgt _ _ _

/-! ### Accesses by path (R275, R455, R461, R462, R470) -/

theorem Effects.execRegisterWrite (h : Effects s t) (pl : Place) (path : Path) (off size : Nat) (val : Word) :
    Answers s (execRegisterWrite pl path off size val t) := by
  unfold Machine.execRegisterWrite
  refine (Effects.ite ?_ h).answers
  dsimp only
  split
  · exact (h.jtagAttach _ _).onDie _ _
  · exact ((h.jtagAttach _ _).access _ _ _ _ _).onDie _ _

theorem Effects.execTrigRead (h : Effects s t) (pl : Place) (path : Path) : Answers s (execTrigRead pl path t) := by
  unfold Machine.execTrigRead
  refine (Effects.ite ?_ h).answers
  dsimp only
  split
  · exact (h.jtagAttach _ _).onDie _ _
  · exact ((h.jtagAttach _ _).readReg _ _ _).onDie _ _

theorem Effects.hostRead (h : Effects s t) (w : Who) (msgTag off : Nat) : Effects s (t.hostRead w msgTag off) := by
  unfold State.hostRead
  refine .ite ((h.onAgt _ _ _).onAgt _ _ _) ?_
  dsimp only
  exact ((h.onAgt _ _ _).access _ _ _ _ _).onAgt _ _ _

theorem Effects.hostWrite (h : Effects s t) (w : Who) (msgTag off : Nat) (val : Word) : Effects s (t.hostWrite w msgTag off val) := by
  unfold State.hostWrite
  refine .ite ((h.onAgt _ _ _).onAgt _ _ _) <| .ite ((h.onAgt _ _ _).onAgt _ _ _) ?_
  dsimp only
  exact ((h.onAgt _ _ _).access _ _ _ _ _).onAgt _ _ _

theorem Effects.regReq (h : Effects s t) (hdr : FrameHdr) (ents : List Access) : Effects s (t.regReq hdr ents) := by
  unfold State.regReq
  refine .ite (h.onCtl _) <| .ite ((h.onCtl _).onCtl _) ?_
  dsimp only
  exact ((h.onCtl _).entries _ _ _ _).onCtl _

theorem Effects.mortarReg (h : Effects s t) (session sequence : Nat) (intact : Bool) (ents : List Access) :
    Effects s (t.mortarReg session sequence intact ents) := by
  unfold State.mortarReg
  refine .ite (h.onCtl _) ?_
  dsimp only
  exact ((h.onCtl _).entries _ _ _ _).onCtl _

theorem Effects.preludeReg (h : Effects s t) (session : Nat) (ents : List Access) : Effects s (t.preludeReg session ents) := by
  unfold State.preludeReg
  split
  · exact h
  · refine .ite (h.onCtl _) <| .ite h ?_
    dsimp only
    exact (h.entries _ _ _ _).onCtl _

theorem Effects.mgmtOp (h : Effects s t) (w : Who) (wm : Worm) : Effects s (t.mgmtOp w wm) := by
  unfold State.mgmtOp
  refine .ite h (.ite (h.onAgt _ _ _) ?_)
  split
  · exact h.onAgt _ _ _
  · refine .ite h ?_
    dsimp only
    exact (h.entries _ _ _ _).onAgt _ _ _

/-! ### Commands of several parts -/

theorem Effects.powerTrigger (h : Effects s t) (p : PowerTrigger) : Effects s (t.powerTrigger p) := by
  unfold State.powerTrigger
  dsimp only
  split
  · exact ((h.onCtl _).onCtl _).onAgt _ _ _
  · exact (h.onCtl _).onCtl _
  · exact (h.onCtl _).onCtl _
  · exact h.onCtl _

theorem Effects.moduleTick (h : Effects s t) : Effects s t.moduleTick := by
  unfold State.moduleTick
  exact ((h.onAgt _ _ _).onCtl _).onAgt _ _ _

theorem Effects.execLaneTrainDone (h : Effects s t) (w : Who) (lane : Nat) (src : TrainSrc) (cls eyeH eyeW : Nat) (settings : Bytes) :
    Answers s (execLaneTrainDone w lane src cls eyeH eyeW settings t) := by
  unfold Machine.execLaneTrainDone
  exact (Effects.ite ((h.onAgt _ _ _).onDie _ _) (h.onAgt _ _ _)).answers

theorem Effects.execMbxA (h : Effects s t) (pl : Place) (wm : Worm) (room : Bool) : Answers s (execMbxA pl wm room t) := by
  unfold Machine.execMbxA
  cases pl with
  | ctl =>
    dsimp only
    split
    · exact h.answers
    · split
      · exact (h.onCtl _).agtNext _ _ _
      · exact (h.onCtl _).answers
  | agt w => exact h.agtNext _ _ _

theorem Effects.execFwActivationCourse (h : Effects s t) (w : Who) : Answers s (execFwActivationCourse w t) := by
  unfold Machine.execFwActivationCourse State.agtNext
  exact (Effects.ite (h.onAgt _ _ _) h).ctlNext _

theorem Effects.execRefclkLoss (h : Effects s t) (pl : Place) : Answers s (execRefclkLoss pl t) := by
  unfold Machine.execRefclkLoss
  split
  · exact h.agtNext _ _ _
  · exact ((h.onAgt _ _ _).onCtl _).answers
  · exact ((h.onAgt _ _ _).onCtl _).answers

theorem Effects.execReferenceTick (h : Effects s t) (pl : Place) : Answers s (execReferenceTick pl t) := by
  unfold Machine.execReferenceTick
  split
  · exact h.agtNext _ _ _
  · exact h.moduleTick.answers
  · exact h.moduleTick.answers

/-! ### Every command -/

/-- A command that reaches an agent is one effect there; all but five do nothing while the agent is held in reset (R302). -/
theorem exec_of_agentOf {i : Instr} {w : Who} (s : State) (h : agentOf i = some w) :
    ∃ f busy, exec i s = s.agtNext w f busy ∨ exec i s = .next (s.onAgt w f busy) := by
  cases i
  case agentResetDeassert | agentResetAssert | pwrgdFall | trayAck | trayAckRelease => cases h; exact ⟨_, _, .inr rfl⟩
  case plbClearCounters pl | snapshotReadTimeout pl _ | enterSafe pl _ | flcSelfCheck pl _ | flcInject pl _ | flcAlertClear pl _
    | flcClearCounters pl | evrClearCounters pl | mbxA pl _ _ | mbxASend pl _ _ _ _ | mbxARetry pl _ _ | mbxBSend pl _ _ | mbxBPop pl _ _
    | mbxClearCounters pl | cvuStart pl _ _ | cvuAbort pl _ | cvuContextWrite pl _ _ _ =>
    cases pl <;> cases h
    exact ⟨_, _, .inl rfl⟩
  all_goals (cases h <;> exact ⟨_, _, .inl rfl⟩)

/-- Whatever the command, it answers a state to which effects lead. -/
theorem exec_effects (i : Instr) (h : Effects s t) : Answers s (exec i t) := by
  cases hw : agentOf i with
  | some w =>
    obtain ⟨f, busy, he | he⟩ := exec_of_agentOf t hw
    · rw [he]; exact h.agtNext _ _ _
    · rw [he]; exact (h.onAgt _ _ _).answers
  | none =>
    cases i
    -- commands of a unit that both dies have
    case plbClearCounters | snapshotReadTimeout | enterSafe | flcSelfCheck | flcInject | flcAlertClear | flcClearCounters | evrClearCounters
      | mbxASend | mbxARetry | mbxBSend | mbxBPop | mbxClearCounters | cvuStart | cvuContextWrite => exact h.dieNext _ _
    -- commands of the controller or of an agent, by their place
    case triggerEdge pl _ | courseMark pl _ | patStart pl | patAbort pl | patternStaged pl | patternActivate pl | mbxAck pl _
      | cvuAbort pl _ | cvuComplete pl _ | dumpBlockTimeout pl _ | dumpComplete pl | telConfigChange pl | healthSample pl _
      | gaugeMeasure pl _ _ _ _ | gaugeExceedExit pl _ | wearSampleTake pl _ | debugAttach pl | snapshotComplete pl | faultReport pl _ _
      | eventRaise pl _ _ | flcInjectTick pl | fallbackCopy pl =>
      cases pl
      · exact h.ctlNext _
      · exact h.agtNext _ _ _
    case mbxA => exact h.execMbxA _ _ _
    case refclkLoss => exact h.execRefclkLoss _
    case referenceTick => exact h.execReferenceTick _
    -- register accesses
    case registerWrite => exact h.execRegisterWrite _ _ _ _ _
    case trigRead => exact h.execTrigRead _ _
    case regRead => exact (Effects.ite (h.hostRead _ _ _) h).answers
    case regWrite => exact (Effects.ite (h.hostWrite _ _ _ _) h).answers
    case regReq => exact (Effects.ite (h.regReq _ _) h).answers
    case mortarReg => exact (Effects.ite (h.mortarReg _ _ _ _) h).answers
    case preludeReg => exact (Effects.ite (h.preludeReg _ _) h).answers
    case mgmtOp => exact (Effects.ite (h.mgmtOp _ _) h).answers
    -- commands of both an agent and the controller
    case laneTrainDone => exact h.execLaneTrainDone _ _ _ _ _ _ _
    case fabRetrain => exact h.execFabRetrain
    case fwActivationCourse => exact h.execFwActivationCourse _
    case cstRun => exact h.execCstRun _
    -- the power sequences
    case modEnAssert | controllerLeaveReset | controllerRstN => exact (h.onCtl _).answers
    case powerDownTrigger => exact (h.powerTrigger _).answers
    case powerDownEnd => exact (Effects.ite ((h.onCtl _).onAgt _ _ _) h).answers
    -- commands of the meter, whose island may run by itself
    case meterStart => exact (Effects.ite (h.onCtl _) h).answers
    case meterEncapsRetry | meterIntervalClose | meterOpen | meterClose | meterBatchClose | meterBatchSigned => exact h.meterNext _
    -- the rest are commands of the controller
    all_goals (cases hw <;> exact h.ctlNext _)

end

end Sys2Proof.Machine
end

section
/-! PROOFS. What settling an effect changes and what it leaves, and that nothing stays queued. -/

namespace Sys2Proof.Machine

open Sys2Proof.Claim

/-! ## What follows an effect at an agent (R19, R108, R443; log entries 51 and 54) -/

/-- What settling an agent's effect may change: counters and other registers, outputs and the queue, the worms that wait, the timers of R324
and R443, the high-water marks of R356 and R523. All else is as it was. -/
def Agt.SettledFrom (b a : Agt) : Prop :=
  b = { a with fwd := b.fwd, rcv := b.rcv, tel := b.tel, shareHigh := b.shareHigh,
               die := { a.die with rf := b.die.rf, out := b.die.out, fwdq := b.die.fwdq } }

section
variable {a b c : Agt} {w : Worm} {bond : Nat} {busy : List Nat}

theorem Agt.SettledFrom.trans (hcb : c.SettledFrom b) (hba : b.SettledFrom a) : c.SettledFrom a := by
  unfold Agt.SettledFrom at hba hcb ⊢
  rw [hba] at hcb
  exact hcb

theorem Agt.emit_settledFrom (a : Agt) (o : Out) : (a.emit o).SettledFrom a := rfl

theorem Agt.count_settledFrom (a : Agt) (k : Nat) : (a.count k).SettledFrom a := rfl

theorem Agt.emitTx_settledFrom (a : Agt) (b : Nat) (w : Worm) : (a.emitTx b w).SettledFrom a := by
  unfold Agt.emitTx
  split
  · exact a.emit_settledFrom _
  · rfl

theorem Agt.sendOn_settledFrom (a : Agt) (w : Worm) (b : Nat) (d : Bool) : (a.sendOn w b d).SettledFrom a := by
  unfold Agt.sendOn
  refine (Agt.emitTx_settledFrom _ _ _).trans ?_
  split <;> rfl

theorem Agt.park_settledFrom (a : Agt) (w : Worm) (b : Nat) : (a.park w b).SettledFrom a := by
  unfold Agt.park
  split <;> rfl

theorem Agt.tryForward_settledFrom (h : a.tryForward w bond busy = some b) : b.SettledFrom a := by
  have hc := a.count_settledFrom Reg.LKP_CNT_LOOKUPS
  unfold Agt.tryForward at h
  dsimp only at h
  split at h
  · obtain ⟨x, _, rfl⟩ := Option.map_eq_some_iff.mp h
    exact (Agt.sendOn_settledFrom _ _ _ _).trans hc
  · split at h
    · cases h; exact (Agt.count_settledFrom _ _).trans hc
    · split at h
      · cases h; exact (Agt.emitTx_settledFrom _ _ _).trans hc
      · cases h
  · cases h; exact (Agt.emit_settledFrom _ _).trans hc
  · cases h; exact (Agt.count_settledFrom _ _).trans hc
  · cases h; exact (Agt.count_settledFrom _ _).trans hc

theorem Agt.tryForward_getD_settledFrom (h : c.SettledFrom a) : ((a.tryForward w bond busy).getD c).SettledFrom a := by
  cases hf : a.tryForward w bond busy with
  | none => exact h
  | some b => exact Agt.tryForward_settledFrom hf

theorem Agt.originate_settledFrom (a : Agt) (m : FwdMsg) (busy : List Nat) : (a.originate m busy).SettledFrom a := by
  unfold Agt.originate Agt.sendStamped
  split
  · exact a.emit_settledFrom _
  split
  · rfl
  split
  · split
    · exact a.emitTx_settledFrom _ _
    · exact (Agt.emitTx_settledFrom _ _ _).trans (a.emit_settledFrom _)
  · exact Agt.tryForward_getD_settledFrom (a.park_settledFrom _ _)

/-- Steps that each leave what settling leaves do so in a row. -/
theorem Agt.foldl_settledFrom {α : Type} {f : Agt → α → Agt} (hf : ∀ a x, (f a x).SettledFrom a) (l : List α) (h : b.SettledFrom a) :
    (l.foldl f b).SettledFrom a :=
  List.foldlRecOn (motive := fun c => c.SettledFrom a) l f h fun c hc x _ => (hf c x).trans hc

theorem Agt.retryForward_settledFrom (a : Agt) (busy : List Nat) : (a.retryForward busy).SettledFrom a := by
  unfold Agt.retryForward
  refine Agt.foldl_settledFrom (fun b p => ?_) _ rfl
  exact Agt.tryForward_getD_settledFrom rfl

theorem Agt.flush_settledFrom (a : Agt) (busy : List Nat) : (a.flush busy).SettledFrom a := by
  unfold Agt.flush
  refine Agt.foldl_settledFrom (fun b m => b.originate_settledFrom m busy) _ ?_
  exact Agt.SettledFrom.trans (b := a.retryForward busy) rfl (a.retryForward_settledFrom busy)

theorem Agt.sendIdentity_settledFrom (before a : Agt) : (Agt.sendIdentity before a).SettledFrom a := by
  unfold Agt.sendIdentity
  split
  · rfl
  · refine Agt.foldl_settledFrom (fun b p => ?_) _ rfl
    split
    · exact b.emit_settledFrom _
    · rfl

theorem Agt.mailTimers_settledFrom (before a : Agt) : (Agt.mailTimers before a).SettledFrom a := by
  unfold Agt.mailTimers
  dsimp only
  split <;> rfl

theorem Agt.settle_settledFrom (before a : Agt) (busy : List Nat) : (Agt.settle before a busy).SettledFrom a := by
  unfold Agt.settle
  refine (Agt.flush_settledFrom _ _).trans ((Agt.sendIdentity_settledFrom _ _).trans ?_)
  refine Agt.SettledFrom.trans (b := Agt.mailTimers before (if a.die.safe && !before.die.safe then a.safeEntry else a)) rfl ?_
  refine (Agt.mailTimers_settledFrom _ _).trans ?_
  split <;> rfl

end

/-! ## What follows an effect at the controller (R19, R461, R463, R484) -/

/-- What settling an effect at the controller may change where the safe state is not entered: the list of errors, the Mortar sessions that
carry notices, registers, outputs and what was queued. -/
def Ctl.SettledFrom (d c : Ctl) : Prop :=
  d = { c with memu := d.memu, mortar := d.mortar,
               die := { c.die with rf := d.die.rf, out := d.die.out, fwdq := d.die.fwdq, notes := d.die.notes } }

section
variable {b c d : Ctl} {s : State}

theorem Ctl.SettledFrom.trans (hdc : d.SettledFrom c) (hcb : c.SettledFrom b) : d.SettledFrom b := by
  unfold Ctl.SettledFrom at hdc hcb ⊢
  rw [hcb] at hdc
  exact hdc

/-- A record sent leaves the queues of the die, too. -/
theorem Ctl.mortarSend_settledFrom (c : Ctl) (m : Mortar) (k : Nat) (bs : Bytes) :
    (c.mortarSend m k bs).SettledFrom c ∧ (c.mortarSend m k bs).die.notes = c.die.notes := by
  unfold Ctl.mortarSend
  dsimp only
  split <;> exact ⟨rfl, rfl⟩

theorem Ctl.sendNotes_settledFrom (c : Ctl) : c.sendNotes.SettledFrom c ∧ c.sendNotes.die.notes = [] := by
  unfold Ctl.sendNotes
  refine List.foldlRecOn (motive := fun (d : Ctl) => d.SettledFrom c ∧ d.die.notes = []) _ _ ⟨rfl, rfl⟩ fun d hd n _ => ?_
  refine List.foldlRecOn (motive := fun (d : Ctl) => d.SettledFrom c ∧ d.die.notes = []) _ _ hd fun e he m _ => ?_
  split
  · next m _ =>
    obtain ⟨hf, hn⟩ := e.mortarSend_settledFrom m 0x14 n
    exact ⟨hf.trans he.1, hn.trans he.2⟩
  · exact he

theorem Ctl.settleMem_settledFrom (before c : Ctl) : (Ctl.settleMem before c).SettledFrom c := by
  unfold Ctl.settleMem
  split <;> rfl

theorem Ctl.settle_notes (before c : Ctl) : (Ctl.settle before c).die.notes = [] := by
  unfold Ctl.settle
  exact (Ctl.sendNotes_settledFrom _).2

theorem Ctl.settle_settledFrom (h : c.die.safe = b.die.safe) : (Ctl.settle b c).SettledFrom c := by
  unfold Ctl.settle
  rw [if_neg (by rw [h]; simp)]
  exact (Ctl.sendNotes_settledFrom _).1.trans (Ctl.settleMem_settledFrom b c)

theorem State.onAgt_fwdq (s : State) (w : Who) (f : Agt → Agt) (busy : List Nat) : ((s.onAgt w f busy).agt w).die.fwdq = [] := by
  rw [State.onAgt_agt, Agt.settle_fwdq]

theorem State.onAgt_settledFrom (s : State) (w : Who) (f : Agt → Agt) (busy : List Nat) :
    ((s.onAgt w f busy).agt w).SettledFrom (f (s.agt w)) := by
  rw [State.onAgt_agt]
  exact Agt.settle_settledFrom _ _ _

theorem State.onAgt_emb_shows (s : State) (f : Agt → Agt) (busy : List Nat) :
    (s.onAgt .emb f busy).ctl = s.ctl.showAgent (s.onAgt .emb f busy).emb := by
  unfold State.onAgt
  rw [State.setAgt_emb]

/-- Sending leaves the controller's queue empty and its notices as they were. -/
theorem State.sendCtl_settledFrom (s : State) :
    s.sendCtl.ctl.SettledFrom s.ctl ∧ s.sendCtl.ctl.die.fwdq = [] ∧ s.sendCtl.ctl.die.notes = s.ctl.die.notes := by
  unfold State.sendCtl
  dsimp only
  split
  · exact ⟨rfl, rfl, rfl⟩
  · rw [State.onAgt_emb_shows]
    exact ⟨rfl, rfl, rfl⟩

theorem State.sendCtl_emb_fwdq (h : s.emb.die.fwdq = []) : s.sendCtl.emb.die.fwdq = [] := by
  unfold State.sendCtl
  dsimp only
  split
  · exact h
  · exact State.onAgt_fwdq _ .emb _ _

theorem State.onCtl_fwdq (s : State) (f : Ctl → Ctl) : (s.onCtl f).ctl.die.fwdq = [] := (State.sendCtl_settledFrom _).2.1

theorem State.onCtl_notes (s : State) (f : Ctl → Ctl) : (s.onCtl f).ctl.die.notes = [] :=
  (State.sendCtl_settledFrom _).2.2.trans (Ctl.settle_notes _ _)

theorem State.onCtl_settledFrom {f : Ctl → Ctl} (h : (f s.ctl).die.safe = s.ctl.die.safe) : (s.onCtl f).ctl.SettledFrom (f s.ctl) :=
  (State.sendCtl_settledFrom _).1.trans (Ctl.settle_settledFrom h)

end

/-! ## Nothing stays queued -/

section
variable {s t : State}

theorem nothingQueued_onAgt (h : NothingQueued s) (w : Who) (f : Agt → Agt) (busy : List Nat) : NothingQueued (s.onAgt w f busy) := by
  obtain ⟨hq, hn, ht, he⟩ := h
  have hown := s.onAgt_fwdq w f busy
  cases w with
  | twd =>
    refine ⟨?_, ?_, hown, ?_⟩
    · rw [State.onAgt_twd_ctl]; exact hq
    · rw [State.onAgt_twd_ctl]; exact hn
    · rw [← State.agt_emb, State.onAgt_other f busy (by decide)]; exact he
  | emb =>
    refine ⟨?_, ?_, ?_, hown⟩
    · rw [State.onAgt_emb_shows]; exact hq
    · rw [State.onAgt_emb_shows]; exact hn
    · rw [← State.agt_twd, State.onAgt_other f busy (by decide)]; exact ht

theorem nothingQueued_onCtl (h : NothingQueued s) (f : Ctl → Ctl) : NothingQueued (s.onCtl f) := by
  obtain ⟨-, -, ht, he⟩ := h
  refine ⟨State.onCtl_fwdq s f, State.onCtl_notes s f, ?_, ?_⟩
  · rw [State.onCtl_twd]; exact ht
  · exact State.sendCtl_emb_fwdq he

theorem Effects.nothingQueued (h : Effects s t) (hs : NothingQueued s) : NothingQueued t := by
  induction h with
  | refl => exact hs
  | onAgt w f busy _ ih => exact nothingQueued_onAgt ih w f busy
  | onCtl f _ ih => exact nothingQueued_onCtl ih f

end

/-- Settles O53, by induction on the effects that the step's command is made of: settling each empties what it queued. -/
theorem nothingQueuedStays : Obligations.NothingQueuedStays := by
  unfold Obligations.NothingQueuedStays
  intro s t hs ht
  unfold step at ht
  split at ht
  · cases ht; exact hs
  · next i rest _ =>
    obtain ⟨u, hu, he⟩ := exec_effects i (.refl (s := { s with pending := rest }))
    cases hu.symm.trans ht
    exact he.nothingQueued hs

/-! ## What an agent's commands leave alone -/

section
variable {s t : State} {i : Instr} {w : Who}

/-- A command that reaches an agent does nothing or is one effect there. -/
theorem next_of_agentOf (hi : agentOf i = some w) (ht : exec i s = .next t) : t = s ∨ ∃ f busy, t = s.onAgt w f busy := by
  obtain ⟨f, busy, he | he⟩ := exec_of_agentOf s hi
  · unfold State.agtNext at he
    split at he
    · exact .inr ⟨f, busy, Host.Outcome.next.inj (ht.symm.trans he)⟩
    · exact .inl (Host.Outcome.next.inj (ht.symm.trans he))
  · exact .inr ⟨f, busy, Host.Outcome.next.inj (ht.symm.trans he)⟩

theorem State.onAgt_frame (s : State) (w : Who) (f : Agt → Agt) (busy : List Nat) :
    (s.onAgt w f busy).pending = s.pending
    ∧ (w = .twd → (s.onAgt w f busy).ctl = s.ctl ∧ (s.onAgt w f busy).emb = s.emb)
    ∧ (w = .emb → (s.onAgt w f busy).twd = s.twd ∧ (s.onAgt w f busy).ctl = s.ctl.showAgent (s.onAgt w f busy).emb) := by
  refine ⟨State.onAgt_pending s w f busy, ?_, ?_⟩
  · rintro rfl
    exact ⟨State.onAgt_twd_ctl s f busy, State.onAgt_other (v := .emb) f busy (by decide)⟩
  · rintro rfl
    exact ⟨State.onAgt_other (v := .twd) f busy (by decide), State.onAgt_emb_shows s f busy⟩

end

/-- Settles O59: an agent's command is one effect at that agent, and settling an effect changes what `SettledFrom` names. -/
theorem whatCommandsLeaveAlone : Obligations.WhatCommandsLeaveAlone := by
  unfold Obligations.WhatCommandsLeaveAlone
  refine ⟨?agents_command, fun s f => ⟨State.onCtl_twd s f, State.onCtl_pending s f⟩, ?agent_settled, ?controller_settled⟩
  case agents_command =>
    intro i w s t hi ht
    rcases next_of_agentOf hi ht with rfl | ⟨f, busy, rfl⟩
    · exact ⟨rfl, fun _ => ⟨rfl, rfl⟩, fun _ => ⟨rfl, .inl rfl⟩⟩
    · obtain ⟨hp, htwd, hemb⟩ := s.onAgt_frame w f busy
      exact ⟨hp, htwd, fun hw => ⟨(hemb hw).1, .inr (hemb hw).2⟩⟩
  case agent_settled =>
    intro s w f
    have h : (s.onAgt w f).agt w = _ := s.onAgt_settledFrom w f []
    refine ⟨?_, ?_, ?_, ?_, ?_, ?_, ?_, ?_, ?_, ?_, ?_, ?_, ?_, ?_, ?_, ?_, ?_, ?_, ?_, ?_, s.onAgt_fwdq w f []⟩
    all_goals rw [h]
  case controller_settled =>
    intro s f hf
    have h : (s.onCtl f).ctl = _ := State.onCtl_settledFrom hf
    refine ⟨?_, ?_, ?_, ?_, ?_, ?_, ?_, ?_, ?_, ?_, ?_, ?_, ?_, ?_, ?_, ?_, ?_, ?_, ?_, ?_, s.onCtl_fwdq f, s.onCtl_notes f⟩
    all_goals rw [h]

end Sys2Proof.Machine
end

section
/-! PROOFS. The lanes of an agent. -/

namespace Sys2Proof.Machine

open Sys2Proof.Claim

/-! ## The end of a training, the retry and the rejoining (R29, R298, R299) -/

section
variable {a : Agt} {l cls h w : Nat} {src : TrainSrc} {settings : Bytes}

/-- A source that is not the one in course ends nothing (log entry 4). -/
theorem Agt.trainDone_of_not_in_course (hx : (a.lane l).state ≠ 1 ∨ (a.lane l).training ≠ some src) :
    a.trainDone l src cls h w settings = a := by
  unfold Agt.trainDone
  exact if_pos hx

theorem Agt.trainDone_of_eyeOk (h1 : (a.lane l).state = 1) (ht : (a.lane l).training = some src) (he : eyeOk src (a.lane l) h w = true) :
    a.trainDone l src cls h w settings = (a.trained l src cls h w settings).bootRetrain.startWaiting.checkReady := by
  unfold Agt.trainDone
  rw [if_neg (by simp [h1, ht]), if_pos he]

theorem Agt.trainDone_of_eye_short (h1 : (a.lane l).state = 1) (ht : (a.lane l).training = some src)
    (he : eyeOk src (a.lane l) h w = false) :
    a.trainDone l src cls h w settings =
      let a := a.count Reg.LNK_CNT_TRAIN_FAIL
      (if src = .saved then a.trainFrom l .full else a.untrained l).bootRetrain.startWaiting.checkReady := by
  unfold Agt.trainDone
  rw [if_neg (by simp [h1, ht]), if_neg (by simp [he])]

theorem Agt.retrainTimer_of_early (hl : a.die.up < (a.lane l).retryNs) : a.retrainTimer l = a := by
  unfold Agt.retrainTimer
  exact if_pos hl

theorem Agt.retrainTimer_of_untrained (hl : (a.lane l).retryNs ≤ a.die.up) (h5 : (a.lane l).state = 5) :
    a.retrainTimer l = (a.startTrainingFrom l (if a.castState < 4 then .boot else .full)).count Reg.LNK_CNT_RETRY := by
  unfold Agt.retrainTimer
  dsimp only
  rw [if_neg (Nat.not_lt.2 hl), if_pos h5]

theorem Agt.retrainTimer_of_failed (hl : (a.lane l).retryNs ≤ a.die.up) (h0 : (a.lane l).state = 0) (hr : 0 < (a.lane l).retryNs) :
    a.retrainTimer l = (a.startTraining l).count Reg.LNK_CNT_RETRY := by
  unfold Agt.retrainTimer
  dsimp only
  rw [if_neg (Nat.not_lt.2 hl), if_neg (by simp [h0]), if_pos (by simp [Lane.failed, h0, hr])]

theorem Agt.rejoin_of_ready (hr : (a.lane l).ready = true) (h2 : (a.lane l).state = 2) :
    a.rejoin l = (a.modLane l fun x => { x with ready := false }).joinBond l := by
  unfold Agt.rejoin
  exact if_neg (by simp [hr, h2])

/-- R299, R318: a lane that is UP, DOWN or UNTRAINED trains when it is told to. -/
theorem Agt.retrainLane_of_free (hl : l < a.laneCount) (hs : [0, 2, 5].contains (a.lane l).state = true) :
    a.retrainLane l = a.startTraining l := by
  have hfree : (a.lane l).state = 0 ∨ (a.lane l).state = 2 ∨ (a.lane l).state = 5 := by simpa using hs
  unfold Agt.retrainLane
  exact if_neg (by omega)

end

/-! ## The loss of a lane (R28, R320) -/

section
variable {a : Agt} {l : Nat} {b : Bond}

/-- The lane that has fallen: DOWN, to be tried again after its 30 s (R29). -/
def Agt.laneDown (a : Agt) (l : Nat) : Agt :=
  a.modLane l fun x => { x with state := 0, ready := false, retryNs := a.die.up + retryNs, wants := none }

/-- A trained lane that its bond uses, with no far end seen, leaves the bond; the bond fails with its last lane. -/
theorem Agt.laneLoss_of_active (ht : (a.lane l).trained = true) (hb : tget a.fwd.bonds (a.lane l).bond = some b)
    (hl : b.active.contains l = true) (hf : (a.lane l).far = none) :
    a.laneLoss l =
      if b.active.length ≤ 1 then ((a.laneDown l).withdraw l).bondFailed (a.lane l).bond
      else ((a.laneDown l).withdraw l).raise Ev.BOND_NARROWED (a.lane l).bond := by
  unfold Agt.laneLoss
  simp only [ht, hf, Bool.not_true, Bool.false_eq_true, if_false]
  split
  · next hn => cases hn.symm.trans hb
  · next b' hb' =>
    cases hb'.symm.trans hb
    rw [hl]
    rfl

end

/-! ## What the commands of the lanes answer -/

section
variable {s : State} {w : Who} {l cls eyeH eyeW : Nat} {src : TrainSrc} {settings : Bytes} {g : Agt → Agt}

/-- LANE_TRAIN_DONE, but for a training in course at the embedded agent, is the agent's alone. -/
theorem exec_laneTrainDone_of_agent (hx : ¬ (w = .emb ∧ ((s.agt w).lane l).state = 1 ∧ ((s.agt w).lane l).training = some src))
    (hg : (s.agt w).trainDone l src cls eyeH eyeW settings = g (s.agt w)) :
    exec (.laneTrainDone w l src cls eyeH eyeW settings) s = agtDoes s w g := by
  show execLaneTrainDone w l src cls eyeH eyeW settings s = _
  unfold execLaneTrainDone
  rw [State.onAgt_congr hg]
  dsimp only
  rw [if_neg hx]

/-- R522: the controller counts the full and the failed trainings of its embedded agent. -/
theorem exec_laneTrainDone_of_embedded (h1 : (s.emb.lane l).state = 1) (ht : (s.emb.lane l).training = some src)
    (hg : s.emb.trainDone l src cls eyeH eyeW settings = g s.emb) :
    exec (.laneTrainDone .emb l src cls eyeH eyeW settings) s =
      dieDoes (s.onAgt .emb g) .ctl fun d =>
        let d := if src = .full then d.count Reg.FAB_CNT_TRAIN_FULL else d
        if eyeOk src (s.emb.lane l) eyeH eyeW then d else d.count Reg.FAB_CNT_TRAIN_FAIL := by
  show execLaneTrainDone .emb l src cls eyeH eyeW settings s = _
  unfold execLaneTrainDone
  rw [State.onAgt_congr (w := .emb) hg]
  dsimp only
  rw [if_pos ⟨rfl, h1, ht⟩]
  rfl

theorem exec_laneRetrainTimer (hu : Up s w) (hg : (s.agt w).retrainTimer l = g (s.agt w)) :
    exec (.laneRetrainTimer w l) s = agtDoes s w g := by
  show execLaneRetrainTimer w l s = _
  exact State.agtNext_up hu hg

theorem exec_laneRejoin (hu : Up s w) (hg : (s.agt w).rejoin l = g (s.agt w)) : exec (.laneRejoin w l) s = agtDoes s w g := by
  show execLaneRejoin w l s = _
  exact State.agtNext_up hu hg

theorem exec_laneLoss (hu : Up s w) (hg : (s.agt w).laneLoss l = g (s.agt w)) : exec (.laneLoss w l) s = agtDoes s w g := by
  show execLaneLoss w l s = _
  exact State.agtNext_up hu hg

theorem exec_lnkRetrain (hu : Up s w) (ht : Takes (s.agt w).die Blk.LNK)
    (hg : (s.agt w).retrainLane ((s.agt w).die.bget Reg.LNK_LANE_SEL 7 0) = g (s.agt w)) : exec (.lnkRetrain w) s = agtDoes s w g := by
  show execLnkRetrain w s = _
  exact State.agtNext_up hu ((Agt.written_takes ht).trans hg)

theorem exec_fabRetrain (hon : On s) (ht : Takes s.ctl.die Blk.FAB) (hu : Up s .emb)
    (hg : s.emb.retrainLane (s.ctl.die.bget Reg.FAB_LANE_SEL 4 0) = g s.emb) : exec .fabRetrain s = agtDoes s .emb g := by
  show execFabRetrain s = _
  unfold execFabRetrain
  simp only [Option.isNone_iff_eq_none.1 ht]
  rw [if_pos hon]
  exact State.agtNext_up hu hg

end

/-- Settles O15, by the branches of a training's end, of the retry, of the rejoining and of a lane's loss. -/
theorem lanes : Obligations.Lanes := by
  unfold Obligations.Lanes
  refine ⟨?ends_packaged, ?ends_embedded_other, ?ends_embedded, fun s w l hu => exec_laneRetrainTimer hu rfl,
    fun s w l hu => exec_laneRejoin hu rfl, fun s w l hu => exec_laneLoss hu rfl, fun s w hu ht => exec_lnkRetrain hu ht rfl,
    fun s hon ht hu => exec_fabRetrain hon ht hu rfl, ?trained_packaged, ?failed_packaged, ?trained_embedded, ?other_source,
    ?timer_early, ?timer_untrained, ?timer_failed, ?rejoins, ?narrows, ?fails, ?lnk_trains, ?fab_trains⟩
  case ends_packaged =>
    intro s l src cls h w settings
    exact exec_laneTrainDone_of_agent (fun hx => nomatch hx.1) rfl
  case ends_embedded_other =>
    intro s l src cls h w settings hx
    exact exec_laneTrainDone_of_agent (fun hc => hx hc.2) rfl
  case ends_embedded =>
    intro s l src cls h w settings h1 ht
    exact exec_laneTrainDone_of_embedded h1 ht rfl
  case trained_packaged =>
    intro s l cls h w src settings h1 ht he
    exact exec_laneTrainDone_of_agent (fun hx => nomatch hx.1) (Agt.trainDone_of_eyeOk h1 ht he)
  case failed_packaged =>
    intro s l cls h w src settings h1 ht he
    exact exec_laneTrainDone_of_agent (fun hx => nomatch hx.1) (Agt.trainDone_of_eye_short h1 ht he)
  case trained_embedded =>
    intro s l cls h w src settings h1 ht he
    rw [exec_laneTrainDone_of_embedded (g := fun a => (a.trained l src cls h w settings).bootRetrain.startWaiting.checkReady) h1 ht
      (Agt.trainDone_of_eyeOk h1 ht he)]
    simp only [he, if_true]
  case other_source =>
    intro s a l cls h w src settings hx
    refine exec_laneTrainDone_of_agent (fun hc => ?_) (Agt.trainDone_of_not_in_course hx)
    obtain ⟨-, h1, ht⟩ := hc
    exact hx.elim (· h1) (· ht)
  case timer_early =>
    intro s w l hu hl
    exact exec_laneRetrainTimer hu (Agt.retrainTimer_of_early hl)
  case timer_untrained =>
    intro s w l hu hl h5
    exact exec_laneRetrainTimer hu (Agt.retrainTimer_of_untrained hl h5)
  case timer_failed =>
    intro s w l hu hl h0 hr
    exact exec_laneRetrainTimer hu (Agt.retrainTimer_of_failed hl h0 hr)
  case rejoins =>
    intro s w l hu hr h2
    exact exec_laneRejoin hu (Agt.rejoin_of_ready hr h2)
  case narrows =>
    intro s w l b hu ht hb hl hn hf
    exact exec_laneLoss hu ((Agt.laneLoss_of_active ht hb hl hf).trans (if_neg (Nat.not_le.2 hn)))
  case fails =>
    intro s w l b hu ht hb hl hf
    refine exec_laneLoss hu ((Agt.laneLoss_of_active ht hb ?_ hf).trans (if_pos ?_))
    · simp [hl]
    · simp [hl]
  case lnk_trains =>
    intro s w hu ht hl hs
    exact exec_lnkRetrain hu ht (Agt.retrainLane_of_free hl hs)
  case fab_trains =>
    intro s hon hu ht hl hs
    exact exec_fabRetrain hon ht hu (Agt.retrainLane_of_free hl hs)

end Sys2Proof.Machine
end

section
/-! PROOFS. Fabric time at reference ticks. -/

namespace Sys2Proof.Machine

open Sys2Proof.Claim

/-! ## What ticks add (R45, R46) -/

/-- The base increments of n ticks in a row from tick k on, in units of 2^-16 ns. -/
def tickBases (k : Nat) : Nat → Nat
  | 0 => 0
  | n + 1 => tickBases k n + tickBase (k + n)

/-- Only the first tick's place among five counts. -/
theorem tickBases_mod_five (k n : Nat) : tickBases (k % 5) n = tickBases k n := by
  induction n with
  | zero => rfl
  | succ n ih => rw [tickBases, tickBases, ih, tickBase, tickBase, Nat.mod_add_mod]

/-- Of any five ticks in a row, two add one unit more than the other three: 32 ns in all. -/
theorem tickBases_five (k : Nat) : tickBases k 5 = 2097152 := by
  have hfirst : ∀ r < 5, tickBases r 5 = 2097152 := by decide
  rw [← tickBases_mod_five]
  exact hfirst _ (Nat.mod_lt k (by decide))

theorem tickCount_rate_zero (count k : Nat) : tickCount count k 0 = (count + tickBase k * 2 ^ 40) % 2 ^ 120 := by
  unfold tickCount tickInc
  omega

section
variable {k : Clk}

/-- A tick at which no load takes effect, with rate 0. -/
theorem Clk.step_rate_zero (hl : k.load = none) (hr : k.rate = 0) :
    k.step = { k with count := (k.count + tickBase k.tick * 2 ^ 40) % 2 ^ 120, tick := k.tick + 1 } := by
  unfold Clk.step
  simp only [hl, hr, tickCount_rate_zero]

/-- Such ticks in a row. -/
theorem Clk.repeat_step_rate_zero (hl : k.load = none) (hr : k.rate = 0) (hc : k.count < 2 ^ 120) (n : Nat) :
    Nat.repeat Clk.step n k =
      { k with count := (k.count + tickBases k.tick n * 2 ^ 40) % 2 ^ 120, tick := k.tick + n } := by
  induction n with
  | zero => simp only [Nat.repeat, tickBases, Nat.zero_mul, Nat.add_zero, Nat.mod_eq_of_lt hc]
  | succ n ih =>
    rw [Nat.repeat, ih]
    refine (Clk.step_rate_zero ?_ ?_).trans ?_
    · exact hl
    · exact hr
    · rw [Nat.mod_add_mod, tickBases, Nat.add_mul, Nat.add_assoc, Nat.add_assoc]

end

/-- Settles O60: a tick adds its base increment, and the increments of any five in a row come to 2^21 units. -/
theorem referenceTicks : Obligations.ReferenceTicks := by
  unfold Obligations.ReferenceTicks
  refine ⟨fun k hl hr => ?_, fun k hl hr hc => ?_⟩
  · rw [Clk.step_rate_zero hl hr]
    exact ⟨rfl, rfl⟩
  · have hfive : k.step.step.step.step.step = Nat.repeat Clk.step 5 k := rfl
    rw [hfive, Clk.repeat_step_rate_zero hl hr hc, tickBases_five]

end Sys2Proof.Machine
end

section
/-! PROOFS. Commands that are writes of a register, and the clear of a block's counters. -/

namespace Sys2Proof.Machine

open Sys2Proof.Claim

/-! ## A command that is a write of a register, in a block that takes it (R440, R443) -/

section
variable {s : State} {w : Who} {p : Place} {blk : Nat}

theorem State.agtNext_written {f g : Agt → Agt} (hu : Up s w) (ht : Takes (s.agt w).die blk) (h : f (s.agt w) = g (s.agt w)) :
    s.agtNext w (fun a => a.written blk f) = agtDoes s w g :=
  State.agtNext_up hu ((Agt.written_takes ht).trans h)

theorem State.ctlNext_written {f g : Ctl → Ctl} (hu : On s) (ht : Takes s.ctl.die blk) (h : f s.ctl = g s.ctl) :
    s.ctlNext (fun c => c.written blk f) = ctlDoes s g :=
  State.ctlNext_on hu ((Ctl.written_takes ht).trans h)

theorem State.dieNext_written (f : Die → Die) (hu : Alive s p) (ht : Takes (s.die p) blk) :
    s.dieNext p (fun d => d.written blk f) = dieDoes s p f :=
  State.dieNext_alive hu (Die.written_takes ht)

end

/-! ## The clear of a block's counters (R43, R144) -/

/-- Registers set to their reset values, in a row. -/
theorem Die.get_foldl_reset (ks : List Nat) (d : Die) (k : Nat) :
    (ks.foldl (fun d k => d.set k (resetOf k)) d).get k = if k ∈ ks then resetOf k else d.get k := by
  induction ks generalizing d with
  | nil => rfl
  | cons j ks ih =>
    rw [List.foldl_cons, ih, Die.get_set]
    by_cases hk : k ∈ ks
    · simp [hk]
    · by_cases hj : k = j <;> simp [hk, hj]

theorem Die.get_clearCounters (d : Die) (blk k : Nat) :
    (d.clearCounters blk).get k = if k ∈ countersOf blk then resetOf k else d.get k :=
  Die.get_foldl_reset _ _ _

/-- Every counter of either part starts at zero. -/
theorem resetOf_counter : ∀ blk ∈ pelronBlocks ++ twidelBlocks, ∀ k ∈ countersOf blk, resetOf k = 0 := by
  decide +kernel

/-- Settles O50: each command is a write that its block takes, and the clear resets the listed registers one by one. -/
theorem countersCleared : Obligations.CountersCleared := by
  unfold Obligations.CountersCleared
  refine ⟨?lnk, ?lkp, ?agt, ?prl, ?wch, ?gcm, ?mtp, ?blk, ?try_, ?plb, ?flc, ?evr, ?mbx, ?fab, ?sol, ?adm, ?rcv, ?dmp, ?tel, ?wer, ?gau,
    ?kst, ?mtr, ?skn, ?mnp, ?mem, ?fds, ?cleared, ?kept, resetOf_counter⟩
  case lnk | lkp | agt | prl | wch | gcm | mtp | blk | try_ => exact fun s w hu ht => State.agtNext_written hu ht rfl
  case plb | flc | evr | mbx => exact fun s p hu ht => State.dieNext_written _ hu ht
  case fab | sol | adm | rcv | dmp | tel | wer | gau | kst | mtr | skn | mnp | mem | fds =>
    exact fun s hu ht => State.ctlNext_written hu ht rfl
  case cleared =>
    intro d blk k hk
    rw [Die.get_clearCounters, if_pos hk]
  case kept =>
    intro d blk k hk
    rw [Die.get_clearCounters, if_neg hk]

end Sys2Proof.Machine
end

section
/-! PROOFS. The plumb registers, the reference tick and the plumb pins. -/

namespace Sys2Proof.Machine

open Sys2Proof.Claim

/-! ## An effect on a die, known there -/

theorem Ctl.onDie_congr {c : Ctl} {f g : Die → Die} (h : f c.die = g c.die) : c.onDie f = c.onDie g := by
  unfold Ctl.onDie
  rw [h]

theorem Agt.onDie_of_unchanged {a : Agt} {f : Die → Die} (h : f a.die = a.die) : a.onDie f = a := by
  unfold Agt.onDie
  rw [h]

/-! ## The agent's plumb registers (R163, R175) -/

section
variable {a : Agt} {val : Nat}

theorem Agt.plbReload_of_free (ht : a.tenant = none) (hc : a.fwd.course = []) : a.plbReload = (a.setPlb 0).updateChain := by
  unfold Agt.plbReload
  exact if_neg (by simp [ht, hc])

theorem Agt.plbReload_of_member (ht : a.tenant ≠ none) : a.plbReload = a.raise (Ev.LOCKED_WRITE Blk.PLB) := by
  unfold Agt.plbReload
  exact if_pos (.inl (Option.isSome_iff_ne_none.2 ht))

theorem Agt.writeParent_of_bond (hp : bitsOf val 7 0 ≠ 0xFE) :
    a.writeParent val =
      ({ a.onDie fun d => d.setN Reg.PLB_PARENT (bitsOf val 7 0 + bitsOf val 23 8 * 2 ^ 8) with parentPending := true } : Agt).updateChain := by
  have hkeep : (decide (bitsOf val 7 0 = 0xFE) && decide (a.mode ≠ 2)) = false := by simp [hp]
  unfold Agt.writeParent
  dsimp only
  simp only [hkeep, Bool.false_eq_true, if_false, Bool.not_false, Bool.or_true]

/-- Outside embedded mode the parent stays the one written before. -/
theorem Agt.writeParent_of_master (hp : bitsOf val 7 0 = 0xFE) (hm : a.mode ≠ 2) :
    a.writeParent val =
      (a.onDie fun d => d.setN Reg.PLB_PARENT (d.bget Reg.PLB_PARENT 7 0 + bitsOf val 23 8 * 2 ^ 8)).raise (Ev.WRITE_IGNORED Blk.PLB) := by
  have hkeep : (decide (bitsOf val 7 0 = 0xFE) && decide (a.mode ≠ 2)) = true := by simp [hp, hm]
  unfold Agt.writeParent
  dsimp only
  simp only [hkeep, if_true, Bool.not_true, Bool.or_false]

end

/-! ## The master's registers (R161, R162, R188) -/

section
variable {c : Ctl} {val : Nat}

theorem Ctl.follows_iff : c.follows = true ↔ c.die.bget Reg.PLB_MASTER_CTL 0 0 = 1 := decide_eq_true_iff

/-- Entering FOLLOW keeps the rate and asks for no plumb tree. -/
theorem Ctl.masterMode_of_follow (hv : val % 2 = 1) : c.masterMode val = c.onDie fun d => d.bset Reg.PLB_MASTER_CTL 0 0 1 := by
  unfold Ctl.masterMode
  simp [hv]

theorem Ctl.masterMode_of_leaving (hv : val % 2 = 0) (hf : c.follows = true) :
    c.masterMode val =
      ({ c with sol := { c.sol with others := c.sol.others.filter (· ≠ 6) ++ [6] } } : Ctl).onDie fun d =>
        (d.setN Reg.PLB_MASTER_RATE (toTwos 32 d.clk.rate)).bset Reg.PLB_MASTER_CTL 0 0 0 := by
  have hm := Ctl.follows_iff.1 hf
  unfold Ctl.masterMode Ctl.onDie
  simp [hv, hf, hm]

theorem Ctl.masterLoad_of_locked (lo hi : Nat) (hl : c.die.fget Fl.CTL_LOCK_plumb = 1) : c.masterLoad lo hi = c.raise (Ev.LOCKED_WRITE Blk.PLB) := by
  unfold Ctl.masterLoad
  exact if_pos hl

theorem Ctl.masterLoad_of_unlocked (lo hi : Nat) (hl : c.die.fget Fl.CTL_LOCK_plumb ≠ 1) : c.masterLoad lo hi = loadsMaster c lo hi := by
  unfold Ctl.masterLoad
  exact if_neg hl

/-- R13: with no low word held, the register's own goes with the high word. -/
theorem Ctl.masterLoadOver_of_none_held {path : Option Path} (hn : c.die.heldLoad path = none) :
    c.masterLoadOver path val = c.masterLoad (c.die.getN Reg.PLB_MASTER_LOAD_LO) val := by
  unfold Ctl.masterLoadOver
  rw [hn]

/-- A low word that is held goes with the high word and is held no more. -/
theorem Ctl.masterLoadOver_of_held {path : Option Path} {h : HeldWrite} (hh : c.die.heldLoad path = some h) :
    c.masterLoadOver path val = (c.masterLoad h.val.toNat val).onDie fun d => { d with held := d.held.filter (· ≠ h) } := by
  unfold Ctl.masterLoadOver
  rw [hh]

theorem Ctl.masterRate_of_follow (hf : c.follows = true) : c.masterRate val = c := by
  unfold Ctl.masterRate
  exact if_pos hf

theorem Ctl.masterRate_of_free (hf : c.follows = false) :
    c.masterRate val =
      c.onDie fun d => { (d.setN Reg.PLB_MASTER_RATE (bitsOf val 31 0)) with clk := { d.clk with rate := ofTwos 32 (bitsOf val 31 0) } } := by
  unfold Ctl.masterRate
  exact if_neg (by simp [hf])

end

/-! ## The pins (R186, R187) -/

section
variable {d : Die}

theorem Die.trigger_of_room (stamp : Nat) (h : d.trig.length < 16) : d.trigger stamp = { d with trig := d.trig ++ [stampOf stamp] } := by
  unfold Die.trigger
  exact if_pos h

theorem Die.trigger_of_full (stamp : Nat) (h : 16 ≤ d.trig.length) : d.trigger stamp = d.bsat Reg.PLB_TRIG_HI 47 32 1 := by
  unfold Die.trigger
  exact if_neg (Nat.not_lt.2 h)

theorem Die.courseMark_of_multiple (name : String) {course : Nat} (h : course % 2 ^ (min 16 (d.bget Reg.PLB_IO_CFG 4 0)) = 0) :
    d.courseMark name course = (d.emit (.pin name true)).emit (.pin name false) := by
  unfold Die.courseMark
  exact if_pos h

theorem Die.courseMark_of_other (name : String) {course : Nat} (h : course % 2 ^ (min 16 (d.bget Reg.PLB_IO_CFG 4 0)) ≠ 0) :
    d.courseMark name course = d := by
  unfold Die.courseMark
  exact if_neg h

end

/-! ## What the commands answer -/

section
variable {s : State} {w : Who} {val : Word} {n : Nat} {f : Agt → Agt} {g : Ctl → Ctl} {m : Die → Die}

theorem exec_plbReload (hu : Up s w) (ht : Takes (s.agt w).die Blk.PLB) (h : (s.agt w).plbReload = f (s.agt w)) :
    exec (.plbReload w) s = agtDoes s w f := by
  show execPlbReload w s = _
  exact State.agtNext_written hu ht h

theorem exec_plbParentWrite (hu : Up s w) (ht : Takes (s.agt w).die Blk.PLB) (h : (s.agt w).writeParent val.toNat = f (s.agt w)) :
    exec (.plbParentWrite w val) s = agtDoes s w f := by
  show execPlbParentWrite w val s = _
  exact State.agtNext_written hu ht h

theorem exec_masterModeWrite (hu : On s) (ht : Takes s.ctl.die Blk.PLB) (h : s.ctl.masterMode val.toNat = g s.ctl) :
    exec (.masterModeWrite val) s = ctlDoes s g := by
  show execMasterModeWrite val s = _
  exact State.ctlNext_written hu ht h

theorem exec_masterLoad (hu : On s) (ht : Takes s.ctl.die Blk.PLB) (h : s.ctl.masterLoadOver none val.toNat = g s.ctl) :
    exec (.masterLoad val) s = ctlDoes s g := by
  show execMasterLoad val s = _
  exact State.ctlNext_written hu ht h

theorem exec_masterRateWrite (hu : On s) (ht : Takes s.ctl.die Blk.PLB) (h : s.ctl.masterRate val.toNat = g s.ctl) :
    exec (.masterRateWrite val) s = ctlDoes s g := by
  show execMasterRateWrite val s = _
  exact State.ctlNext_written hu ht h

theorem exec_triggerEdge_ctl (hu : On s) (h : s.ctl.die.trigger n = m s.ctl.die) :
    exec (.triggerEdge .ctl n) s = ctlDoes s fun c => c.onDie m := by
  show execTriggerEdge .ctl n s = _
  exact State.ctlNext_on hu (Ctl.onDie_congr h)

/-- An edge at an agent whose PLUMB_IO is no trigger input is not seen. -/
theorem exec_triggerEdge_agt (hu : Up s w)
    (h : (if (s.agt w).die.resource.plumbIo = 2 then (s.agt w).onDie (·.trigger n) else s.agt w) = f (s.agt w)) :
    exec (.triggerEdge (.agt w) n) s = agtDoes s w f := by
  show execTriggerEdge (.agt w) n s = _
  exact State.agtNext_up hu h

theorem exec_courseMark_ctl (hu : On s) (h : s.ctl.die.courseMark "PLUMB_REF_OUT" n = m s.ctl.die) :
    exec (.courseMark .ctl n) s = ctlDoes s fun c => c.onDie m := by
  show execCourseMark .ctl n s = _
  exact State.ctlNext_on hu (Ctl.onDie_congr h)

theorem exec_courseMark_agt (hu : Up s w)
    (h : (if (s.agt w).die.resource.plumbIo = 1 then (s.agt w).onDie (·.courseMark "PLUMB_IO" n) else s.agt w) = f (s.agt w)) :
    exec (.courseMark (.agt w) n) s = agtDoes s w f := by
  show execCourseMark (.agt w) n s = _
  exact State.agtNext_up hu h

/-- REFERENCE_TICK of the packaged agent: its own clock, its tap and its telemetry window. -/
theorem exec_referenceTick_twd (hu : Up s .twd) (h : s.twd.tick.windowTick s.twd.die.ns = f s.twd) :
    exec (.referenceTick (.agt .twd)) s = agtDoes s .twd f := by
  show execReferenceTick (.agt .twd) s = _
  exact State.agtNext_up hu h

end

/-- Settles O19, by the branches of each register's write and of each pin; a tick is the composition that the model gives it. -/
theorem plumbTime : Obligations.PlumbTime := by
  unfold Obligations.PlumbTime
  refine ⟨fun s w hu ht => exec_plbReload hu ht rfl, fun s w val hu ht => exec_plbParentWrite hu ht rfl,
    fun s val hu ht => exec_masterModeWrite hu ht rfl, fun s val hu ht => exec_masterLoad hu ht rfl,
    fun s val hu ht => exec_masterRateWrite hu ht rfl, fun s stamp hu => exec_triggerEdge_ctl hu rfl,
    fun s w stamp hu => exec_triggerEdge_agt hu rfl, fun s course hu => exec_courseMark_ctl hu rfl,
    fun s w course hu => exec_courseMark_agt hu rfl, fun s hu => exec_referenceTick_twd hu rfl, fun s => ⟨rfl, rfl⟩,
    ?reload, ?reload_refused, ?parent_bond, ?parent_master, ?follow, ?leave_follow, ?lock, ?load_locked, ?load_unheld, ?load_held,
    ?rate_follow, ?rate_free, ?edge_room, ?edge_full, ?edge_unseen, ?mark, ?mark_other, ?tick_packaged, fun s => rfl, fun s => rfl⟩
  case reload =>
    intro s w hu ht htn hc
    exact exec_plbReload hu ht (Agt.plbReload_of_free htn hc)
  case reload_refused =>
    intro s w hu ht htn
    exact exec_plbReload hu ht (Agt.plbReload_of_member htn)
  case parent_bond =>
    intro s w val hu ht hp
    exact exec_plbParentWrite hu ht (Agt.writeParent_of_bond hp)
  case parent_master =>
    intro s w val hu ht hp hm
    exact exec_plbParentWrite hu ht (Agt.writeParent_of_master hp hm)
  case follow =>
    intro s val hu ht hv
    exact exec_masterModeWrite hu ht (Ctl.masterMode_of_follow hv)
  case leave_follow =>
    intro s val hu ht hv hf
    exact exec_masterModeWrite hu ht (Ctl.masterMode_of_leaving hv hf)
  case lock =>
    intro s hu ht
    exact State.ctlNext_written (f := Ctl.masterLock) hu ht rfl
  case load_locked =>
    intro s val hu ht hl hn
    exact exec_masterLoad hu ht ((Ctl.masterLoadOver_of_none_held hn).trans (Ctl.masterLoad_of_locked _ _ hl))
  case load_unheld =>
    intro s val hu ht hl hn
    exact exec_masterLoad hu ht ((Ctl.masterLoadOver_of_none_held hn).trans (Ctl.masterLoad_of_unlocked _ _ hl))
  case load_held =>
    intro s val h hu ht hl hh
    refine exec_masterLoad hu ht ?_
    rw [Ctl.masterLoadOver_of_held hh, Ctl.masterLoad_of_unlocked _ _ hl]
  case rate_follow =>
    intro s val hu ht hf
    exact exec_masterRateWrite hu ht (Ctl.masterRate_of_follow hf)
  case rate_free =>
    intro s val hu ht hf
    exact exec_masterRateWrite hu ht (Ctl.masterRate_of_free hf)
  case edge_room =>
    intro s stamp hu h
    exact exec_triggerEdge_ctl hu (Die.trigger_of_room stamp h)
  case edge_full =>
    intro s stamp hu h
    exact exec_triggerEdge_ctl hu (Die.trigger_of_full stamp h)
  case edge_unseen =>
    intro s w stamp hu h
    exact exec_triggerEdge_agt hu (if_neg h)
  case mark =>
    intro s course hu h
    exact exec_courseMark_ctl hu (Die.courseMark_of_multiple _ h)
  case mark_other =>
    intro s w course hu hio h
    exact exec_courseMark_agt hu ((if_pos hio).trans (Agt.onDie_of_unchanged (Die.courseMark_of_other _ h)))
  case tick_packaged =>
    intro s hu
    exact exec_referenceTick_twd hu rfl

end Sys2Proof.Machine
end

section
/-! PROOFS. The stream of a Pattern's file: an agent's loader takes it, the controller reads its own; abort and abandonment. -/

namespace Sys2Proof.Machine

open Sys2Proof.Claim

/-! ## Worms of a stream at an agent (R86, R469) -/

/-- The bytes of a file that a PATTERN_DATA worm carries, this many of the file being left. -/
def patPiece (wm : Worm) (left : Nat) : Bytes := slice wm.payload 0 (min wm.payload.length (min 2048 left))

/-- The agent whose loader has begun the stream that a worm starts. -/
def Agt.streamBegun (a : Agt) (wm : Worm) : Agt :=
  { a with die := { a.die.fset Fl.PAT_STATUS_state 1 with pat :=
      { a.die.pat with stream := Worm.opnd wm 8 4, fileLen := Worm.opnd wm 16 4, bytes := [], accepted := 0, pattern := none } } }

section
variable {a : Agt} {wm : Worm}

/-- A stream's beginning leaves the agent's FID. -/
theorem Agt.fid_streamBegun : (a.streamBegun wm).fid = a.fid :=
  Die.fget_set_other _ (by decide)

variable (inBond : Nat)

/-- The first worm of a file at an idle loader of an agent that has a name. -/
theorem Agt.patternData_of_first (hr : a.pins.rstN = true) (hidle : a.die.fget Fl.PAT_STATUS_state = 0) (hoff : Worm.opnd wm 12 4 = 0)
    (hfid : a.fid ≠ 0x3FFFF) (hcrc : crc32c (patPiece wm (Worm.opnd wm 16 4)) = Worm.opnd wm 20 4) :
    a.patternData inBond wm = (a.streamBegun wm).patTake (patPiece wm (Worm.opnd wm 16 4)) := by
  unfold Agt.patternData
  dsimp only
  rw [hr, if_neg (by decide), hoff, Nat.sub_zero, if_pos ⟨hidle, rfl, hcrc⟩]
  exact congrArg (fun b : Agt => b.patTake _) (if_neg fun h => hfid (Agt.fid_streamBegun.symm.trans h))

/-- The worm that is next in the stream in course. -/
theorem Agt.patternData_of_next (hr : a.pins.rstN = true) (hload : a.die.fget Fl.PAT_STATUS_state = 1)
    (hstream : Worm.opnd wm 8 4 = a.die.pat.stream) (hoff : Worm.opnd wm 12 4 = a.die.pat.bytes.length)
    (hcrc : crc32c (patPiece wm (Worm.opnd wm 16 4 - Worm.opnd wm 12 4)) = Worm.opnd wm 20 4) :
    a.patternData inBond wm = a.patTake (patPiece wm (Worm.opnd wm 16 4 - Worm.opnd wm 12 4)) := by
  unfold Agt.patternData
  dsimp only
  rw [hr, if_neg (by decide), if_neg (by simp [hload]), if_neg (by simp [hstream]), if_pos ⟨hload, hstream, hoff, hcrc⟩]
  rfl

/-- The start of another stream while the loader holds one. -/
theorem Agt.patternData_of_other_stream (hr : a.pins.rstN = true) (hload : a.die.fget Fl.PAT_STATUS_state ≠ 0)
    (hoff : Worm.opnd wm 12 4 = 0) (hstream : Worm.opnd wm 8 4 ≠ a.die.pat.stream) :
    a.patternData inBond wm = a.raise Ev.PATTERN_BUSY := by
  unfold Agt.patternData
  dsimp only
  rw [hr, if_neg (by decide), if_neg (by simp [hload]), if_pos ⟨hoff, hload, hstream⟩]

/-- A worm of the stream in course whose bytes the loader has. -/
theorem Agt.patternData_of_passed (hr : a.pins.rstN = true) (hload : a.die.fget Fl.PAT_STATUS_state = 1)
    (hstream : Worm.opnd wm 8 4 = a.die.pat.stream) (hoff : Worm.opnd wm 12 4 < a.die.pat.bytes.length) :
    a.patternData inBond wm = a.count Reg.MBX_CNT_PAT_DISCARD := by
  unfold Agt.patternData
  dsimp only
  rw [hr, if_neg (by decide), if_neg (by simp [hload]), if_neg (by simp [hstream]),
    if_neg (by rintro ⟨-, -, heq, -⟩; exact Nat.ne_of_lt hoff heq),
    if_neg (by rintro ⟨-, -, hgap, -⟩; exact Nat.lt_asymm hoff hgap)]

end

/-! ## What leaves the loader before activation, and the inactive slot (R89, R101) -/

section
variable {a : Agt} {c : Ctl}

theorem Agt.patAbortCmd_of_loaded (h1 : 1 ≤ a.die.fget Fl.PAT_STATUS_state) (h3 : a.die.fget Fl.PAT_STATUS_state ≤ 3) :
    a.patAbortCmd = a.patAbort :=
  if_pos ⟨h1, h3⟩

theorem Ctl.patAbort_of_loaded (h1 : 1 ≤ c.die.fget Fl.PAT_STATUS_state) (h3 : c.die.fget Fl.PAT_STATUS_state ≤ 3) :
    c.patAbort = c.onDie fun d => d.patIdle 3 0 0 0 :=
  if_pos ⟨h1, h3⟩

/-- Outside the cast-on regime the slot that waits is invalid from the end of its drain bound on. -/
theorem Agt.epochSlotFree_of_drained (hreg : a.regime = false) (hwait : a.die.getN Reg.LKP_SLOT_FREE_AT ≠ 0)
    (hns : a.die.getN Reg.LKP_SLOT_FREE_AT ≤ a.die.ns) :
    a.epochSlotFree = (a.setSlotValid (a.epoch + 1) false).onDie fun d => d.setN Reg.LKP_SLOT_FREE_AT 0 := by
  unfold Agt.epochSlotFree
  exact if_neg (by simp [hreg, hwait, hns])

end

/-! ## The controller's load (R86) -/

section
variable {c : Ctl}

theorem Ctl.patStart_of_loaded (h : c.die.fget Fl.PAT_STATUS_state ≠ 0) : c.patStart = c.raise Ev.PATTERN_BUSY := by
  unfold Ctl.patStart
  exact if_pos h

/-- A file that is read whole and holds a header: the checks on its rows decide. -/
theorem Ctl.patStart_of_read {c' : Ctl} {b : Bytes} (hidle : c.die.fget Fl.PAT_STATUS_state = 0)
    (hread : c.memRead (c.die.getN Reg.PAT_SRC_ADDR) (c.die.getN Reg.PAT_SRC_LEN) = (c', b, false)) (hlen : 256 ≤ b.length) :
    c.patStart =
      let c := c'.onDie fun d => { (d.fset Fl.PAT_STATUS_state 1) with pat := { d.pat with bytes := b, fileLen := b.length } }
      match prefixFail (c.loadEnv (Config.shake256 (b.take 256))) b.length b with
      | some f => c.patRefuse f.code f.detail f.row
      | none => c.onDie fun d => { (d.fset Fl.PAT_STATUS_state 2) with pat := { d.pat with pattern := some (patternOf b) } } := by
  unfold Ctl.patStart
  rw [if_neg (by simp [hidle]), hread]
  exact if_neg (by simp [hlen])

end

/-! ## What the commands answer -/

section
variable {s : State} {w : Who} {inBond : Nat} {wm : Worm} {f : Agt → Agt} {g : Ctl → Ctl}

theorem exec_patternData (hu : Up s w) (h : (s.agt w).patternData inBond wm = f (s.agt w)) :
    exec (.patternData w inBond wm) s = agtDoes s w f := by
  show execPatternData w inBond wm s = _
  exact State.agtNext_up hu h

theorem exec_patternStreamAbandon (hu : Up s w)
    (h : (if (s.agt w).die.fget Fl.PAT_STATUS_state = 1 ∧ 20000000 + (s.agt w).die.pat.acceptedNs ≤ (s.agt w).die.up then (s.agt w).patAbort
      else s.agt w) = f (s.agt w)) :
    exec (.patternStreamAbandon w) s = agtDoes s w f := by
  show execPatternStreamAbandon w s = _
  exact State.agtNext_up hu h

theorem exec_epochSlotFree (hu : Up s w) (h : (s.agt w).epochSlotFree = f (s.agt w)) : exec (.epochSlotFree w) s = agtDoes s w f := by
  show execEpochSlotFree w s = _
  exact State.agtNext_up hu h

theorem exec_patAbort_agt (hu : Up s w) (ht : Takes (s.agt w).die Blk.PAT) (h : (s.agt w).patAbortCmd = f (s.agt w)) :
    exec (.patAbort (.agt w)) s = agtDoes s w f := by
  show execPatAbort (.agt w) s = _
  exact State.agtNext_written hu ht h

theorem exec_patAbort_ctl (hu : On s) (ht : Takes s.ctl.die Blk.PAT) (h : s.ctl.patAbort = g s.ctl) :
    exec (.patAbort .ctl) s = ctlDoes s g := by
  show execPatAbort .ctl s = _
  exact State.ctlNext_written hu ht h

theorem exec_patStart_ctl (hu : On s) (ht : Takes s.ctl.die Blk.PAT) (h : s.ctl.patStart = g s.ctl) :
    exec (.patStart .ctl) s = ctlDoes s g := by
  show execPatStart .ctl s = _
  exact State.ctlNext_written hu ht h

/-- R100: at an agent PAT_START changes nothing. -/
theorem exec_patStart_agt (hu : Up s w) (ht : Takes (s.agt w).die Blk.PAT) : exec (.patStart (.agt w)) s = agtDoes s w fun a => a := by
  show execPatStart (.agt w) s = _
  exact State.agtNext_written (f := fun a => a) hu ht rfl

end

/-- Settles O11, by where a worm stands in its stream, and by the branches of the loader's other commands. -/
theorem patternStream : Obligations.PatternStream := by
  unfold Obligations.PatternStream
  refine ⟨fun s hu ht => exec_patStart_ctl hu ht rfl, fun s w hu ht => exec_patStart_agt hu ht, fun s hu ht => exec_patAbort_ctl hu ht rfl,
    fun s w hu ht => exec_patAbort_agt hu ht rfl, fun s w inBond wm hu => exec_patternData hu rfl,
    fun s w hu => exec_patternStreamAbandon hu rfl, fun s w hu => exec_epochSlotFree hu rfl, ?first, ?next, ?other_stream, ?passed,
    ?kept, ?abandoned, ?slot_drained, ?start_busy, ?start_read, ?abort_agent, ?abort_controller⟩
  case first =>
    intro s w inBond wm hu hidle hoff hfid hcrc
    exact exec_patternData hu (Agt.patternData_of_first inBond hu hidle hoff hfid hcrc)
  case next =>
    intro s w inBond wm hu hload hstream hoff hcrc
    exact exec_patternData hu (Agt.patternData_of_next inBond hu hload hstream hoff hcrc)
  case other_stream =>
    intro s w inBond wm hu hload hoff hstream
    exact exec_patternData hu (Agt.patternData_of_other_stream inBond hu hload hoff hstream)
  case passed =>
    intro s w inBond wm hu hload hstream hoff
    exact exec_patternData hu (Agt.patternData_of_passed inBond hu hload hstream hoff)
  case kept =>
    intro s w hu hup
    exact exec_patternStreamAbandon hu (if_neg (by omega))
  case abandoned =>
    intro s w hu hload hup
    exact exec_patternStreamAbandon hu (if_pos ⟨hload, by omega⟩)
  case slot_drained =>
    intro s w hu hreg hwait hns
    exact exec_epochSlotFree hu (Agt.epochSlotFree_of_drained hreg hwait hns)
  case start_busy =>
    intro s hu ht h
    exact exec_patStart_ctl hu ht (Ctl.patStart_of_loaded h)
  case start_read =>
    intro s c b hu ht hidle hread hlen
    exact exec_patStart_ctl hu ht (Ctl.patStart_of_read hidle hread hlen)
  case abort_agent =>
    intro s w hu ht h1 h3
    exact exec_patAbort_agt hu ht (Agt.patAbortCmd_of_loaded h1 h3)
  case abort_controller =>
    intro s hu ht h1 h3
    exact exec_patAbort_ctl hu ht (Ctl.patAbort_of_loaded h1 h3)

end Sys2Proof.Machine
end

section
/-! PROOFS. A whole Pattern: its checks, its staging, and the boundary at which it takes effect. -/

namespace Sys2Proof.Machine

open Sys2Proof.Claim

/-! ## The checks of a whole Pattern at an agent, in their order (R86, R90, R96) -/

/-- The agent with a Pattern staged, its course and digest shown. -/
def Agt.shownStaged (a : Agt) (p : Pattern) : Agt :=
  a.onDie fun d => ((d.fset Fl.PAT_STATUS_state 3).setN Reg.PAT_STAGED_COURSE p.activateCourse).setDigest
    Reg.PAT_STAGED_DIGEST0 (headerDigest p)

section
variable {a : Agt} {p : Pattern} {f : Nat × Nat}
variable (hp : a.die.pat.pattern = some p) (hst : a.die.fget Fl.PAT_STATUS_state = 2) (hmirror : a.fwd.mirrorWait = [])
include hp hst hmirror

theorem Agt.patStaged_of_range_failure (hrange : a.patRange p p.rows = some f) :
    a.patStaged = a.patRefuse f.1 f.2 (failRow (a.patRange p) p.rows f p.rows.length) := by
  unfold Agt.patStaged
  simp [hp, hst, hmirror, hrange]

variable (hrange : a.patRange p p.rows = none)
include hrange

theorem Agt.patStaged_of_file_failure (hfile : fileFail p.header p.rows (rowsPart a.die.pat.bytes) = some f) :
    a.patStaged = a.patRefuse f.1 f.2 0xFFFFFFFF := by
  unfold Agt.patStaged
  simp [hp, hst, hmirror, hrange, hfile]

variable (hfile : fileFail p.header p.rows (rowsPart a.die.pat.bytes) = none)
include hfile

theorem Agt.patStaged_of_row_failure (hrow : a.patFail p p.rows = some f) :
    a.patStaged = a.patRefuse f.1 f.2 (failRow (a.patFail p) p.rows f p.rows.length) := by
  unfold Agt.patStaged
  simp [hp, hst, hmirror, hrange, hfile, hrow]

variable (hrow : a.patFail p p.rows = none)
include hrow

/-- R90: a Pattern that passed its checks when its course had begun is late. -/
theorem Agt.patStaged_of_late (hi : p.immediate = false) (hcourse : a.courseBegun p = true) : a.patStaged = a.patRefuse 5 0x72 0xFFFFFFFF := by
  unfold Agt.patStaged
  simp [hp, hst, hmirror, hrange, hfile, hrow, hi, hcourse]

theorem Agt.patStaged_of_in_time (hcourse : p.immediate = true ∨ a.courseBegun p = false) :
    a.patStaged = if p.immediate = true then (a.shownStaged p).patBoundary p else a.shownStaged p := by
  have hlate : ¬ (p.immediate = false ∧ a.courseBegun p = true) := by
    rcases hcourse with h | h <;> simp [h]
  unfold Agt.patStaged
  simp [hp, hst, hmirror, hrange, hfile, hrow, hlate, Agt.shownStaged]

end

/-! ## The same at the controller, of a BASE Pattern -/

/-- The controller with a BASE Pattern staged, its course and digest shown. -/
def Ctl.shownStaged (c : Ctl) (p : Pattern) : Ctl :=
  c.onDie fun d => ((d.fset Fl.PAT_STATUS_state 3).setN Reg.PAT_STAGED_COURSE p.activateCourse).setDigest
    Reg.PAT_STAGED_DIGEST0 (headerDigest p)

section
variable {c : Ctl} {p : Pattern} {f : Nat × Nat}
variable (hp : c.die.pat.pattern = some p) (hst : c.die.fget Fl.PAT_STATUS_state = 2)
include hp hst

theorem Ctl.patStaged_of_file_failure (hfile : fileFail p.header p.rows (rowsPart c.die.pat.bytes) = some f) :
    c.patStaged = c.patRefuse f.1 f.2 0xFFFFFFFF := by
  unfold Ctl.patStaged
  simp [hp, hst, hfile]

variable (hfile : fileFail p.header p.rows (rowsPart c.die.pat.bytes) = none)
include hfile

theorem Ctl.patStaged_of_base_failure (hbase : c.baseFail p = some f) : c.patStaged = c.patRefuse f.1 f.2 0xFFFFFFFF := by
  unfold Ctl.patStaged
  simp [hp, hst, hfile, hbase]

theorem Ctl.patStaged_of_in_time (hbase : c.baseFail p = none) (hcourse : p.immediate = true ∨ c.courseBegun p = false) :
    c.patStaged = if p.immediate = true then (c.shownStaged p).patBoundary p else c.shownStaged p := by
  have hlate : ¬ (p.immediate = false ∧ c.courseBegun p = true) := by
    rcases hcourse with h | h <;> simp [h]
  unfold Ctl.patStaged
  simp [hp, hst, hfile, hbase, hlate, Ctl.shownStaged]

end

/-! ## The boundary (R90 to R92, R94, R402) -/

section
variable {a : Agt} {c : Ctl} {p : Pattern} {d : Die}

theorem Agt.patBoundary_of_safe (hs : a.die.safe = true) : a.patBoundary p = a.patRefuse 5 0x73 0xFFFFFFFF := if_pos hs

theorem Agt.patBoundary_of_free (hs : a.die.safe = false) (hshare : a.shareInUse p = false) : a.patBoundary p = a.activate p := by
  unfold Agt.patBoundary
  rw [if_neg (by simp [hs]), if_neg (by simp [hshare])]

theorem Ctl.patBoundary_of_safe (hs : c.die.safe = true) : c.patBoundary p = c.patRefuse 5 0x73 0xFFFFFFFF := if_pos hs

theorem Ctl.patBoundary_of_free (hs : c.die.safe = false) (hjobs : c.kst.jobs = []) : c.patBoundary p = c.activateBase p := by
  unfold Ctl.patBoundary
  rw [if_neg (by simp [hs]), if_neg (by simp [hjobs])]

/-- A staged Pattern whose course begins, its wait not forced to come out late. -/
theorem Agt.patActivateCmd_of_begun (hp : a.die.pat.pattern = some p) (hst : a.die.fget Fl.PAT_STATUS_state = 3)
    (hcourse : a.courseBegun p = true) (hwait : a.die.takeWait Blk.PAT = (false, d)) :
    a.patActivateCmd = ({ a with die := d } : Agt).patBoundary p := by
  unfold Agt.patActivateCmd
  simp [hp, hst, hcourse, hwait]

theorem Ctl.patActivate_of_begun (hp : c.die.pat.pattern = some p) (hst : c.die.fget Fl.PAT_STATUS_state = 3)
    (hcourse : p.immediate = true ∨ c.courseBegun p = true) (hwait : c.die.takeWait Blk.PAT = (false, d)) :
    c.patActivate = ({ c with die := d } : Ctl).patBoundary p := by
  have hbegun : ¬ (p.immediate = false ∧ c.courseBegun p = false) := by
    rcases hcourse with h | h <;> simp [h]
  unfold Ctl.patActivate
  simp [hp, hst, hbegun, hwait]

end

/-! ## What the commands answer -/

theorem Ctl.works_congr {c : Ctl} {blk : Nat} {f g : Ctl → Ctl} (h : f c = g c) : c.works blk f = c.works blk g := by
  unfold Ctl.works
  rw [h]

section
variable {s : State} {w : Who} {f : Agt → Agt} {g : Ctl → Ctl}

theorem exec_patternStaged_agt (hu : Up s w) (h : (s.agt w).patStaged = f (s.agt w)) :
    exec (.patternStaged (.agt w)) s = agtDoes s w f := by
  show execPatternStaged (.agt w) s = _
  exact State.agtNext_up hu h

theorem exec_patternStaged_ctl (hu : On s) (h : s.ctl.patStaged = g s.ctl) :
    exec (.patternStaged .ctl) s = ctlDoes s fun c => c.works Blk.PAT g := by
  show execPatternStaged .ctl s = _
  exact State.ctlNext_on hu (Ctl.works_congr h)

theorem exec_patternActivate_agt (hu : Up s w) (h : (s.agt w).patActivateCmd = f (s.agt w)) :
    exec (.patternActivate (.agt w)) s = agtDoes s w f := by
  show execPatternActivate (.agt w) s = _
  exact State.agtNext_up hu h

theorem exec_patternActivate_ctl (hu : On s) (h : s.ctl.patActivate = g s.ctl) :
    exec (.patternActivate .ctl) s = ctlDoes s fun c => c.works Blk.PAT g := by
  show execPatternActivate .ctl s = _
  exact State.ctlNext_on hu (Ctl.works_congr h)

end

/-- Settles O12, by the first check that fails, or by the boundary when none does. -/
theorem patternStaging : Obligations.PatternStaging := by
  unfold Obligations.PatternStaging
  refine ⟨fun s hu => exec_patternStaged_ctl hu rfl, fun s w hu => exec_patternStaged_agt hu rfl,
    fun s hu => exec_patternActivate_ctl hu rfl, fun s w hu => exec_patternActivate_agt hu rfl,
    ?checked, ?out_of_range, ?late, ?base_checked, ?activates, ?base_activates, fun a p => Agt.patBoundary_of_safe,
    fun a p => Agt.patBoundary_of_free, fun c p => Ctl.patBoundary_of_safe, fun c p => Ctl.patBoundary_of_free⟩
  case checked =>
    intro s w p hu hp hst hmirror hrange hcourse
    refine exec_patternStaged_agt hu ?_
    dsimp only
    split
    · next f hfile => exact Agt.patStaged_of_file_failure hp hst hmirror hrange hfile
    · next hfile =>
      split
      · next f hrow => exact Agt.patStaged_of_row_failure hp hst hmirror hrange hfile hrow
      · next hrow => exact Agt.patStaged_of_in_time hp hst hmirror hrange hfile hrow hcourse
  case out_of_range =>
    intro s w p f hu hp hst hmirror hrange
    exact exec_patternStaged_agt hu (Agt.patStaged_of_range_failure hp hst hmirror hrange)
  case late =>
    intro s w p hu hp hst hmirror hrange hfile hrow hi hcourse
    exact exec_patternStaged_agt hu (Agt.patStaged_of_late hp hst hmirror hrange hfile hrow hi hcourse)
  case base_checked =>
    intro s p hu hp hst hcourse
    refine exec_patternStaged_ctl hu ?_
    dsimp only
    split
    · next f hfile => exact Ctl.patStaged_of_file_failure hp hst hfile
    · next hfile =>
      split
      · next f hbase => exact Ctl.patStaged_of_base_failure hp hst hfile hbase
      · next hbase => exact Ctl.patStaged_of_in_time hp hst hfile hbase hcourse
  case activates =>
    intro s w p d hu hp hst hcourse hwait
    exact exec_patternActivate_agt hu (Agt.patActivateCmd_of_begun hp hst hcourse hwait)
  case base_activates =>
    intro s p d hu hp hst hcourse hwait
    exact exec_patternActivate_ctl hu (Ctl.patActivate_of_begun hp hst hcourse hwait)

end Sys2Proof.Machine
end

section
/-! PROOFS. What the controller does with neighbour reports, with the progress and the results of Pattern streams, and when a naming
times out. -/

namespace Sys2Proof.Machine

open Sys2Proof.Claim

/-! ## Reports of neighbours and of streams (R304, R308, R469) -/

section
variable {c : Ctl} {fid dieId : Nat}

/-- A group of lanes that a named agent reports. -/
theorem Ctl.neighbourReport_of_named {near : AgentRec} {lanes : List Nat} (blk : IdBlock)
    (hnear : ((c.cst.agents.map (·.2)).find? fun a => a.fid = fid && a.named && !a.lost) = some near) (hl : lanes ≠ []) :
    c.neighbourReport fid lanes blk = ((c.takeGroup near lanes blk).countAgents false).countLinks := by
  unfold Ctl.neighbourReport
  rw [hnear]
  exact if_neg (by simp [hl])

/-- A second after naming, the last report of the die decides. -/
theorem Ctl.nameTimeout_of_reported {a : AgentRec} {r : Nat × List Nat × IdBlock × Nat}
    (hup : a.namedAt + 1000000000 ≤ c.die.up) (ha : ((c.cst.agents.map (·.2)).find? fun a => a.dieId = dieId && a.naming) = some a)
    (hlast : (c.cst.reports.filter fun r => r.2.2.1.dieId = dieId).getLast? = some r) :
    c.nameTimeout dieId = c.seenProgress a r.2.2.1 := by
  unfold Ctl.nameTimeout
  rw [ha]
  dsimp only
  rw [if_neg (by omega), hlast]

theorem Ctl.progressed_of_in_course {st : Stream} (next : Nat) (hst : c.streamOf fid = some st) :
    c.progressed fid st.stream next = (c.setStream { st with reported := next, next := next }).pump fid := by
  unfold Ctl.progressed
  rw [hst]
  exact if_pos rfl

end

/-! ## Results of Patterns (R93) -/

/-- What PATTERN_RESULT_TAKE does with a result: the stream's record, the firmware for an agent that it names, the distributions that
were deferred. -/
def Ctl.resultTaken (c : Ctl) (fid : Nat) (digest : Digest) (result code : Nat) : Ctl :=
  let naming : Bool := match tget c.cst.agents fid with
    | some a => a.naming
    | none => false
  let c := c.patternResult fid digest result code
  (if naming then c.fdsLate fid else c).fdsRetry

section
variable {c : Ctl} {fid : Nat} {digest : Digest} {a : AgentRec} {st : Stream}

/-- ACTIVE of the stream in course: the agent took its Pattern. -/
theorem Ctl.patternResult_of_active (code : Nat) (ha : tget c.cst.agents fid = some a) (hst : c.streamOf fid = some st)
    (hd : st.digest = leNat ((digestBytes digest).take 16)) :
    c.patternResult fid digest 1 code = ((c.tookPattern a st).streamDone fid).countAgents false := by
  unfold Ctl.patternResult
  rw [ha, hst]
  exact if_neg (fun h => h hd)

/-- An agent already named needs no firmware for its naming. -/
theorem Ctl.resultTaken_of_named (result code : Nat) (ha : tget c.cst.agents fid = some a) (hn : a.naming = false) :
    c.resultTaken fid digest result code = (c.patternResult fid digest result code).fdsRetry := by
  unfold Ctl.resultTaken
  simp only [ha, hn, Bool.false_eq_true, if_false]

end

/-! ## What the commands answer -/

section
variable {s : State} {fid dieId stream next result code detail row : Nat} {lanes : List Nat} {blk : IdBlock} {digest : Digest} {g : Ctl → Ctl}

theorem exec_neighbourReport (hu : On s) (h : s.ctl.neighbourReport fid lanes blk = g s.ctl) :
    exec (.neighbourReport fid lanes blk) s = ctlDoes s g := by
  show execNeighbourReport fid lanes blk s = _
  exact State.ctlNext_on hu h

theorem exec_nameResultTimeout (hu : On s) (h : s.ctl.nameTimeout dieId = g s.ctl) : exec (.nameResultTimeout dieId) s = ctlDoes s g := by
  show execNameResultTimeout dieId s = _
  exact State.ctlNext_on hu h

theorem exec_patternProgress (hu : On s) (h : s.ctl.progressed fid stream next = g s.ctl) :
    exec (.patternProgress fid stream next) s = ctlDoes s g := by
  show execPatternProgress fid stream next s = _
  exact State.ctlNext_on hu h

theorem exec_patternResultTake (hu : On s) (h : s.ctl.resultTaken fid digest result code = g s.ctl) :
    exec (.patternResultTake fid digest result code detail row) s = ctlDoes s g := by
  show execPatternResultTake fid digest result code detail row s = _
  exact State.ctlNext_on hu h

end

/-- Settles O13, by whom a report names and by the stream that it is of. -/
theorem namingReports : Obligations.NamingReports := by
  unfold Obligations.NamingReports
  refine ⟨fun s fid lanes blk hu => exec_neighbourReport hu rfl, fun s dieId hu => exec_nameResultTimeout hu rfl,
    fun s fid stream next hu => exec_patternProgress hu rfl, fun s fid digest result code detail row hu => exec_patternResultTake hu rfl,
    ?group, ?timed_out, ?progress, ?active⟩
  case group =>
    intro s fid lanes blk near hu hnear hl
    exact exec_neighbourReport hu (Ctl.neighbourReport_of_named blk hnear hl)
  case timed_out =>
    intro s dieId a r hu hup ha hlast
    exact exec_nameResultTimeout hu (Ctl.nameTimeout_of_reported hup ha hlast)
  case progress =>
    intro s fid next st hu hst
    exact exec_patternProgress hu (Ctl.progressed_of_in_course next hst)
  case active =>
    intro s fid code detail row digest a st hu ha hn hst hd
    refine exec_patternResultTake hu ((Ctl.resultTaken_of_named 1 code ha hn).trans ?_)
    rw [Ctl.patternResult_of_active code ha hst hd]

end Sys2Proof.Machine
end

section
/-! PROOFS. The layouts of a head flit and of a class A message: packed fields and bytes read back. -/

namespace Sys2Proof.Machine

open Sys2Proof.Claim

/-! ## Little-endian bytes (R9) -/

@[simp] theorem length_le (n v : Nat) : (le n v).length = n := by
  induction n generalizing v with
  | zero => rfl
  | succ n ih => rw [le, List.length_cons, ih]

/-- Bytes read back the number written, as far as they reach. -/
@[simp] theorem leNat_le (n v : Nat) : leNat (le n v) = v % 256 ^ n := by
  induction n generalizing v with
  | zero => rw [le, leNat, Nat.pow_zero, Nat.mod_one]
  | succ n ih => rw [le, leNat, ih, BitVec.toNat_ofNat, Nat.pow_succ' (m := 256), Nat.mod_mul]

@[simp] theorem le_leNat (bs : Bytes) : le bs.length (leNat bs) = bs := by
  induction bs with
  | nil => rfl
  | cons b bs ih =>
    have hb : b.toNat < 256 := b.isLt
    rw [List.length_cons, le, leNat, show (b.toNat + 256 * leNat bs) / 256 = leNat bs by omega, ih]
    congr 1
    exact BitVec.eq_of_toNat_eq (by rw [BitVec.toNat_ofNat]; omega)

theorem leNat_lt (bs : Bytes) : leNat bs < 256 ^ bs.length := by
  rw [← le_leNat bs, leNat_le, length_le]
  exact Nat.mod_lt _ (Nat.pow_pos (by decide))

/-- A slice that the bytes fill. -/
theorem slice_append_right {pre bs : Bytes} {off n : Nat} (hoff : pre.length = off) (hn : n ≤ bs.length) : slice (pre ++ bs) off n = bs.take n := by
  unfold slice
  simp only [← hoff, List.drop_left, List.length_take, Nat.min_eq_left hn, Nat.sub_self, List.replicate_zero, List.append_nil]

theorem slice_of_length {bs : Bytes} {n : Nat} (h : bs.length = n) : slice bs 0 n = bs :=
  (slice_append_right (pre := []) rfl (Nat.le_of_eq h.symm)).trans (by rw [← h, List.take_length])

theorem length_slice (bs : Bytes) (off n : Nat) : (slice bs off n).length = n := by
  unfold slice
  simp only [List.length_append, List.length_take, List.length_drop, List.length_replicate]
  omega

/-- The field at the start. -/
theorem fieldAt_le_append_zero (n v : Nat) (bs : Bytes) : fieldAt (le n v ++ bs) 0 n = v % 256 ^ n := by
  unfold fieldAt
  rw [List.drop_zero, List.take_left' (length_le n v), leNat_le]

/-- A field behind the first is one of the bytes behind it. -/
theorem fieldAt_le_append_of_le {k off : Nat} (v : Nat) (bs : Bytes) (n : Nat) (h : k ≤ off) :
    fieldAt (le k v ++ bs) off n = fieldAt bs (off - k) n := by
  unfold fieldAt
  rw [List.drop_append, length_le, List.drop_of_length_le (by rwa [length_le]), List.nil_append]

theorem byteAt_eq_fieldAt (bs : Bytes) (off : Nat) : byteAt bs off = fieldAt bs off 1 := by
  unfold byteAt fieldAt
  rw [List.getD_eq_getElem?_getD, ← List.head?_drop]
  cases bs.drop off with
  | nil => rfl
  | cons b bs => simp [leNat]

/-! ## Numbers packed of fields, the lowest first -/

/-- Fields, each a width and a value, packed from bit 0 upwards, and above them the rest. -/
def packFields : List (Nat × Nat) → Nat → Nat
  | [], rest => rest
  | (n, v) :: fs, rest => v % 2 ^ n + 2 ^ n * packFields fs rest

/-- The bits that the fields take. -/
def fieldsWidth (fs : List (Nat × Nat)) : Nat := (fs.map (·.1)).sum

/-- The lowest field. -/
theorem bitsOf_packFields_zero {n hi : Nat} (v : Nat) (fs : List (Nat × Nat)) (rest : Nat) (h : hi + 1 = n) :
    bitsOf (packFields ((n, v) :: fs) rest) hi 0 = v % 2 ^ n := by
  unfold bitsOf packFields
  rw [Nat.pow_zero, Nat.div_one, Nat.sub_zero, h, Nat.add_mul_mod_self_left, Nat.mod_mod]

/-- What lies above the lowest field. -/
theorem packFields_cons_div (n v : Nat) (fs : List (Nat × Nat)) (rest : Nat) :
    packFields ((n, v) :: fs) rest / 2 ^ n = packFields fs rest := by
  rw [packFields, Nat.add_mul_div_left _ _ n.two_pow_pos, Nat.div_eq_of_lt (Nat.mod_lt _ n.two_pow_pos), Nat.zero_add]

/-- A field above the lowest is one of the fields packed above it. -/
theorem bitsOf_packFields_of_le {n lo hi : Nat} (v : Nat) (fs : List (Nat × Nat)) (rest : Nat) (h : n ≤ lo ∧ lo ≤ hi) :
    bitsOf (packFields ((n, v) :: fs) rest) hi lo = bitsOf (packFields fs rest) (hi - n) (lo - n) := by
  obtain ⟨hn, hl⟩ := h
  have hpow : 2 ^ lo = 2 ^ n * 2 ^ (lo - n) := by rw [← Nat.pow_add, Nat.add_sub_cancel' hn]
  have hwidth : hi - n - (lo - n) + 1 = hi - lo + 1 := by omega
  unfold bitsOf
  rw [hpow, ← Nat.div_div_eq_div_mul, packFields_cons_div, hwidth]

/-- The rest above the fields. -/
theorem packFields_div (fs : List (Nat × Nat)) (rest : Nat) : packFields fs rest / 2 ^ fieldsWidth fs = rest := by
  induction fs with
  | nil => exact Nat.div_one rest
  | cons f fs ih =>
    rw [fieldsWidth, List.map_cons, List.sum_cons, Nat.pow_add, ← Nat.div_div_eq_div_mul, packFields_cons_div]
    exact ih

/-! ## The head flit (R105) -/

/-- The fields of a head flit below its operand, in the order of R105. -/
def headFields (w : Worm) : List (Nat × Nat) :=
  [(4, w.version), (2, w.cls), (1, w.epoch), (1, w.scheduled), (12, w.partition), (18, w.dstFid), (18, w.srcFid), (6, w.hopLimit),
    (2, w.mcast), (11, w.irack), (1, w.phase), (10, w.age), (6, w.length), (8, w.op), (8, w.keySlot), (20, w.cg), (46, w.offset),
    (16, w.headerCheck), (1, w.enc), (1, w.reserved), (32, w.flowSeq), (32, w.reserved / 2)]

theorem headBits_eq_packFields (w : Worm) : headBits w = packFields (headFields w) (leNat (slice w.operand 0 32)) := by
  unfold headBits headFields
  simp only [packFields]
  omega

theorem fieldsWidth_headFields (w : Worm) : fieldsWidth (headFields w) = 256 := by
  simp only [fieldsWidth, headFields, List.map_cons, List.map_nil, List.sum_cons, List.sum_nil, Nat.reduceAdd]

theorem headBits_div (w : Worm) : headBits w / 2 ^ 256 = leNat (slice w.operand 0 32) := by
  have h := packFields_div (headFields w) (leNat (slice w.operand 0 32))
  rwa [fieldsWidth_headFields, ← headBits_eq_packFields] at h

theorem headBits_lt (w : Worm) : headBits w < 2 ^ 512 := by
  have hop := leNat_lt (slice w.operand 0 32)
  rw [length_slice, ← headBits_div] at hop
  omega

section
variable {w : Worm}

/-- A head that fits reads back from its bits. -/
theorem wormOfHead_headBits (hfit : HeadFits w) : wormOfHead (headBits w) = { w with payload := [], tag := [] } := by
  obtain ⟨hver, hcls, hep, hsch, hpart, hdst, hsrc, hhop, hmc, hir, hph, hage, hlen, hop, hkey, hcg, hoff, hchk, henc, hseq, hres, hopd⟩ := hfit
  unfold wormOfHead
  rw [headBits_div, slice_of_length hopd, headBits_eq_packFields, headFields]
  have hoperand : le 32 (leNat w.operand) = w.operand := hopd ▸ le_leNat w.operand
  simp (disch := decide) only [bitsOf_packFields_zero, bitsOf_packFields_of_le, Nat.reduceSub]
  simp (disch := omega) only [Nat.mod_eq_of_lt, Nat.pow_one, Nat.mod_add_div, hoperand]

theorem leNat_headBytes (w : Worm) : leNat (headBytes w) = headBits w :=
  (leNat_le 64 (headBits w)).trans (Nat.mod_eq_of_lt (by have h := headBits_lt w; omega))

end

/-! ## A class A message (R465) -/

section
variable {m : MsgA}

theorem MsgA.length_bytes : m.bytes.length = 256 := by
  simp only [MsgA.bytes, List.length_append, length_le, length_slice]

/-- The body that the bytes carry, behind their header. -/
theorem MsgA.slice_bytes (hb : m.body.length ≤ 240) : slice m.bytes 16 m.body.length = m.body := by
  rw [MsgA.bytes, slice_append_right (by simp only [List.length_append, length_le]) (by rwa [length_slice])]
  unfold slice
  rw [List.drop_zero, List.take_of_length_le hb, List.take_left]

/-- A message that fits reads back from its bytes. -/
theorem msgOfBytes_bytes (ht : m.mtype < 256) (hf : m.flags < 256) (hs : m.seq < 2 ^ 32) (hg : m.tag < 2 ^ 32) (hfl : m.floor < 2 ^ 32)
    (hb : m.body.length ≤ 240) : msgOfBytes m.bytes = m := by
  have hlength : fieldAt m.bytes 2 2 = m.body.length := by
    simp (disch := decide) only [MsgA.bytes, List.append_assoc, fieldAt_le_append_zero, fieldAt_le_append_of_le, Nat.reduceSub]
    omega
  unfold msgOfBytes
  rw [hlength, Nat.min_eq_right hb, MsgA.slice_bytes hb]
  simp (disch := decide) only [MsgA.bytes, List.append_assoc, byteAt_eq_fieldAt, fieldAt_le_append_zero, fieldAt_le_append_of_le, Nat.reduceSub]
  simp (disch := omega) only [Nat.mod_eq_of_lt]

end

/-- Settles O55: the packed fields of a head and the laid fields of a message are read back one by one. -/
theorem headAndMessageRoundTrip : Obligations.HeadAndMessageRoundTrip := by
  unfold Obligations.HeadAndMessageRoundTrip
  have hbytes (w : Worm) (hw : HeadFits w) : wormOfHead (leNat (headBytes w)) = { w with payload := [], tag := [] } := by
    rw [leNat_headBytes, wormOfHead_headBits hw]
  refine ⟨fun w => wormOfHead_headBits, hbytes, fun v w hv hw h => ?_, fun m ht hf hs hg hfl hb => ?_⟩
  · rw [← hbytes v hv, h, hbytes w hw]
  · exact ⟨msgOfBytes_bytes ht hf hs hg hfl hb, MsgA.length_bytes⟩

end Sys2Proof.Machine
end

section
/-! PROOFS. The lookup channel of a switch agent. -/

namespace Sys2Proof.Machine

open Sys2Proof.Claim

/-! ## A lookup request and its verdict (R115 to R118) -/

/-- Counting a lookup leaves the agent's name. -/
theorem Agt.fid_count_lookups (a : Agt) : (a.count Reg.LKP_CNT_LOOKUPS).fid = a.fid := Agt.fid_count a (by decide)

section
variable {a : Agt} {wm w' : Worm} {inBond syn : Nat} {v : Verdict}

/-- A named switch agent counts the lookup and serves the verdict that the request's bits decide. -/
theorem Agt.lookupRequest_of_decided (noOutput : Bool) (lost : Nat) (hr : a.pins.rstN = true) (hs : a.isSwitch = true) (hf : a.fid ≠ 0x3FFFF)
    (hl : (a.count Reg.LKP_CNT_LOOKUPS).lookupOf (requestBits wm inBond syn) wm = (w', v)) :
    a.lookupRequest inBond wm syn noOutput lost = (a.count Reg.LKP_CNT_LOOKUPS).serve inBond wm w' v noOutput lost := by
  have hfid : (a.count Reg.LKP_CNT_LOOKUPS).fid ≠ 0x3FFFF := by rwa [Agt.fid_count_lookups]
  unfold Agt.lookupRequest
  rw [if_neg (by simp [hr, hs])]
  extract_lets b
  rw [if_neg hfid, hl]

end

section
variable {s : State} {w : Who} {wm w' : Worm} {inBond syn lost : Nat} {noOutput : Bool} {v : Verdict} {g : Agt → Agt}

theorem exec_lookupRequest (hu : Up s w) (h : (s.agt w).lookupRequest inBond wm syn noOutput lost = g (s.agt w)) :
    exec (.lookupRequest w inBond wm syn noOutput lost) s = agtDoes s w g := by
  show execLookupRequest w inBond wm syn noOutput lost s = _
  exact State.agtNext_up hu h

/-- What the command answers is what serving the verdict does. -/
theorem exec_lookupRequest_of_decided (hu : Up s w) (hs : (s.agt w).isSwitch = true) (hf : (s.agt w).fid ≠ 0x3FFFF)
    (hl : ((s.agt w).count Reg.LKP_CNT_LOOKUPS).lookupOf (requestBits wm inBond syn) wm = (w', v))
    (h : ((s.agt w).count Reg.LKP_CNT_LOOKUPS).serve inBond wm w' v noOutput lost = g (s.agt w)) :
    exec (.lookupRequest w inBond wm syn noOutput lost) s = agtDoes s w g :=
  exec_lookupRequest hu ((Agt.lookupRequest_of_decided noOutput lost hu hs hf hl).trans h)

end

/-- Settles O1: the verdict that the request's bits decide is served, each by its own branch. -/
theorem lookupForwarded : Obligations.LookupForwarded := by
  unfold Obligations.LookupForwarded
  refine ⟨fun s w inBond wm syn noOutput lost hu => exec_lookupRequest hu rfl, ?forward, ?scheduled, ?multicast, ?own⟩
  case forward =>
    intro s w inBond syn p sd t m st lost noOutput wm w' hu hs hf hl
    exact exec_lookupRequest_of_decided hu hs hf hl rfl
  case scheduled =>
    intro s w inBond syn b lost noOutput wm w' hu hs hf hl
    exact exec_lookupRequest_of_decided hu hs hf hl rfl
  case multicast =>
    intro s w inBond syn dims lost down own noOutput wm w' hu hs hf hl
    exact exec_lookupRequest_of_decided hu hs hf hl rfl
  case own =>
    rintro s w inBond syn lost noOutput wm w' v hu hs hf (rfl | rfl) hl
    · exact exec_lookupRequest_of_decided hu hs hf hl rfl
    · exact exec_lookupRequest_of_decided hu hs hf hl rfl

/-- Settles O2: a silent verdict counts its head and answers DROP; a verdict with a status answers DROP and drops the worm. -/
theorem lookupHeaderFail : Obligations.LookupHeaderFail := by
  unfold Obligations.LookupHeaderFail
  refine ⟨fun s w inBond syn lost wm w' noOutput hu hs hf hl => ?_, fun s w inBond syn lost st wm w' noOutput hu hs hf hl => ?_⟩
  · exact exec_lookupRequest_of_decided hu hs hf hl rfl
  · exact exec_lookupRequest_of_decided hu hs hf hl rfl

end Sys2Proof.Machine
end

section
/-! PROOFS. Worms at an endpoint, and the queues of an agent. -/

namespace Sys2Proof.Machine

open Sys2Proof.Claim

/-! ## Arrivals (R126, R268, R269) -/

section
variable {a : Agt} {u : Units} {wm w' : Worm} {v : Verdict} (busy : List Nat)

theorem Agt.rxWorm_of_unit_error (hr : a.pins.rstN = true) (hk : a.unitsOk 2 u wm = false) : a.rxWorm u wm busy = a.unitError := by
  unfold Agt.rxWorm
  rw [if_neg (by simp [hr]), if_pos (by simp [hk])]

/-- A probe, and a worm that a host already looked up. -/
theorem Agt.rxWorm_of_own (hr : a.pins.rstN = true) (hk : a.unitsOk 2 u wm = true) (ho : wm.op = 0xC1 ∨ a.isSwitch = true) :
    a.rxWorm u wm busy = a.emit (.own wm) := by
  unfold Agt.rxWorm
  rw [if_neg (by simp [hr]), if_neg (by simp [hk]), if_pos ho]

/-- Any other worm at a named endpoint is looked up, and the verdict is carried out. -/
theorem Agt.rxWorm_of_decided (hr : a.pins.rstN = true) (hk : a.unitsOk 2 u wm = true) (hs : a.isSwitch = false) (hop : wm.op ≠ 0xC1)
    (hf : a.fid ≠ 0x3FFFF)
    (hl : (a.count Reg.LKP_CNT_LOOKUPS).lookupArrive wm (tagBond (u.tags.getD 0 0)) (syndromeOf wm) = (w', v)) :
    a.rxWorm u wm busy = (a.count Reg.LKP_CNT_LOOKUPS).act wm w' v busy := by
  have hfid : (a.count Reg.LKP_CNT_LOOKUPS).fid ≠ 0x3FFFF := by rwa [Agt.fid_count_lookups]
  unfold Agt.rxWorm
  rw [if_neg (by simp [hr]), if_neg (by simp [hk]), if_neg (by simp [hop, hs])]
  extract_lets inBond b
  -- in the names of the command's own definitions, so that the rewriting finds it without unfolding the lookup
  have hdecided : b.lookupArrive wm inBond (syndromeOf wm) = (w', v) := hl
  rw [if_neg hfid, hdecided]

theorem Agt.act_eject_of_fwd (wm : Worm) (hc : w'.cls = 2) : a.act wm w' .eject busy = a.emit (.own w') := by
  show a.eject w' busy = _
  unfold Agt.eject
  simp only [hc]

/-- A worm for another agent whose output is free. -/
theorem Agt.act_forward_of_pick {p sd t m b : Nat} {dfl : Bool} (st : Nat)
    (hp : ((a.count Reg.LKP_CNT_BOUNCED).tapCount wm.partition 2 (64 * (1 + wm.length))).pick w'.epoch p sd t m busy = some (b, dfl)) :
    a.act wm w' (.forward p sd t m st) busy =
      ((a.count Reg.LKP_CNT_BOUNCED).tapCount wm.partition 2 (64 * (1 + wm.length))).sendOn { w' with headerCheck := recheck wm w' } b dfl := by
  unfold Agt.act
  dsimp only
  rw [hp]

end

/-! ## The ERROR queue (R155) -/

section
variable {a : Agt} {x : Worm} {rest : List Worm}

theorem Agt.errorQueueSend_of_queued (taken : Bool) (hq : a.fwd.errQ = x :: rest) :
    a.errorQueueSend taken =
      let a : Agt := { a with fwd := { a.fwd with errQ := rest } }
      if taken then (a.count Reg.LKP_CNT_ERR_SENT).emitTx 0xFE x else a.count Reg.LKP_CNT_NO_OUTPUT := by
  unfold Agt.errorQueueSend
  rw [hq]
  cases taken <;> rfl

end

/-! ## Injection (R150, R153, R271, R272) -/

section
variable {a b : Agt} {u : Units} {wm : Worm} {reqTag : Nat} {retry : Bool} (busy : List Nat)

theorem Agt.inject_of_unit_error (reqTag : Nat) (retry : Bool) (hk : a.unitsOk 5 u wm = false) :
    a.inject wm reqTag retry u busy = a.unitError := by
  unfold Agt.inject
  exact if_pos (.inl (by simp [hk]))

/-- A worm whose class has a credit is counted, then refused or staged. -/
theorem Agt.inject_of_credit (hk : a.unitsOk 5 u wm = true) (hm : a.mode = 0) (hc : a.takeCredit (wm.op / 64 % 4) = some b) :
    a.inject wm reqTag retry u busy =
      let b := b.count Reg.AGT_CNT_INJECTED
      let fault := b.injectFault wm (wm.op / 64 % 4) reqTag retry
      if fault ≠ 0 then b.refuseInject (wm.op / 64 % 4) reqTag fault else (b.stage wm (wm.op / 64 % 4) reqTag retry).pump busy := by
  unfold Agt.inject
  dsimp only
  rw [if_neg (by simp [hk, hm]), hc]

/-- The first staged reply leaves, then what waits, then the first staged request. -/
theorem Agt.pump_of_both {c : Agt} {st rq : Staged} {rest more : List Staged} (hst : a.flow.stRsp = st :: rest) (hb : a.tryRsp st busy = some b)
    (hrq : (b.flush busy).flow.stReq = rq :: more) (hc : (b.flush busy).tryReq rq busy = some c) : a.pump busy = c := by
  unfold Agt.pump
  dsimp only
  rw [hst]
  dsimp only
  rw [hb, Option.getD_some, hrq]
  dsimp only
  rw [hc, Option.getD_some]

end

/-! ## Timeouts and stalls (R138, R158) -/

section
variable {a : Agt} {reqTag : Nat} {t : Track}

theorem Agt.requestTimeout_of_due (ht : a.flow.tracker.find? (fun t => t.heldStatus.isNone && t.reqTag = reqTag) = some t)
    (hd : t.deadline ≤ a.die.up) : a.requestTimeout reqTag = a.timeOut t := by
  unfold Agt.requestTimeout
  rw [ht]
  exact if_pos hd

theorem Agt.stalled_req_of_staged (h : a.flow.stReq ≠ []) : a.stalled 0 = some Reg.LKP_CNT_INJ_STALL_REQ := by
  simp [Agt.stalled, h]

theorem Agt.stalled_rsp_of_staged (h : a.flow.stRsp ≠ []) : a.stalled 1 = some Reg.LKP_CNT_INJ_STALL_RSP := by
  simp [Agt.stalled, h]

theorem Agt.stalled_fwd_of_waiting (h : a.fwd.waiting ≠ []) : a.stalled 2 = some Reg.LKP_CNT_INJ_STALL_FWD := by
  simp [Agt.stalled, h]

theorem Agt.stalled_req_of_empty (h : a.flow.stReq = []) : a.stalled 0 = none := by
  simp [Agt.stalled, h]

end

/-! ## What the commands answer -/

section
variable {s : State} {w : Who} {units : Units} {wm : Worm} {reqTag cls k : Nat} {retry taken : Bool} {busy : List Nat} {g : Agt → Agt}

theorem exec_errorQueueSend (hu : Up s w) (h : (s.agt w).errorQueueSend taken = g (s.agt w)) :
    exec (.errorQueueSend w taken) s = agtDoes s w g := by
  show execErrorQueueSend w taken s = _
  exact State.agtNext_up hu h

theorem exec_rxWorm (hu : Up s w) (h : (s.agt w).rxWorm units wm busy = g (s.agt w)) :
    exec (.rxWorm w units wm busy) s = .next (s.onAgt w g busy) := by
  show execRxWorm w units wm busy s = _
  exact State.agtNext_busy hu h

theorem exec_inject (hu : Up s w) (h : (s.agt w).inject wm reqTag retry units busy = g (s.agt w)) :
    exec (.inject w wm reqTag retry units busy) s = .next (s.onAgt w g busy) := by
  show execInject w wm reqTag retry units busy s = _
  exact State.agtNext_busy hu h

theorem exec_reqInjectDeferred (hu : Up s w) (h : (s.agt w).pump busy = g (s.agt w)) :
    exec (.reqInjectDeferred w busy) s = .next (s.onAgt w g busy) := by
  show execReqInjectDeferred w busy s = _
  exact State.agtNext_busy hu h

theorem exec_requestTimeout (hu : Up s w) (h : (s.agt w).requestTimeout reqTag = g (s.agt w)) :
    exec (.requestTimeout w reqTag) s = agtDoes s w g := by
  show execRequestTimeout w reqTag s = _
  exact State.agtNext_up hu h

theorem exec_injStallInterval_of_stalled (hu : Up s w) (h : (s.agt w).stalled cls = some k) :
    exec (.injStallInterval w cls) s = agtDoes s w (·.count k) := by
  show execInjStallInterval w cls s = _
  exact State.agtNext_up hu (by simp only [h])

theorem exec_injStallInterval_of_not_stalled (hu : Up s w) (h : (s.agt w).stalled cls = none) :
    exec (.injStallInterval w cls) s = agtDoes s w id := by
  show execInjStallInterval w cls s = _
  exact State.agtNext_up hu (by simp only [h, id_eq])

end

/-- Settles O3, by what is wrong with a worm's units, by the verdict on a worm that arrives, and by what waits in each queue. -/
theorem endpointWorms : Obligations.EndpointWorms := by
  unfold Obligations.EndpointWorms
  refine ⟨fun s w taken hu => exec_errorQueueSend hu rfl, fun s w units wm busy hu => exec_rxWorm hu rfl,
    fun s w wm reqTag retry units busy hu => exec_inject hu rfl, fun s w busy hu => exec_reqInjectDeferred hu rfl,
    fun s w reqTag hu => exec_requestTimeout hu rfl, fun s w cls hu => State.agtNext_up hu rfl, ?fwd, ?own, ?unit_error, ?forward, ?error_queue,
    ?staged, ?refused, ?deferred, ?timeout, ?stalls⟩
  case fwd =>
    intro s w u wm w' busy hu hk hs hop hf hl hc
    exact exec_rxWorm hu ((Agt.rxWorm_of_decided busy hu hk hs hop hf hl).trans (Agt.act_eject_of_fwd busy wm hc))
  case own =>
    intro s w u wm busy hu hk ho
    exact exec_rxWorm hu (Agt.rxWorm_of_own busy hu hk ho)
  case unit_error =>
    intro s w u wm tag retry busy hu
    exact ⟨fun hk => exec_rxWorm hu (Agt.rxWorm_of_unit_error busy hu hk), fun hk => exec_inject hu (Agt.inject_of_unit_error busy tag retry hk)⟩
  case forward =>
    intro s w u p sd t m st b dfl wm w' busy hu hk hs hop hf hl hp
    exact exec_rxWorm hu ((Agt.rxWorm_of_decided busy hu hk hs hop hf hl).trans (Agt.act_forward_of_pick busy st hp))
  case error_queue =>
    intro s w x rest hu hq
    exact ⟨exec_errorQueueSend hu (Agt.errorQueueSend_of_queued true hq), exec_errorQueueSend hu (Agt.errorQueueSend_of_queued false hq)⟩
  case staged =>
    intro s w wm reqTag retry u busy b hu hk hm hc hn
    exact exec_inject hu ((Agt.inject_of_credit busy hk hm hc).trans (if_neg (not_not_intro hn)))
  case refused =>
    rintro s w wm reqTag n retry u busy b hu hk hm hc rfl hn
    exact exec_inject hu ((Agt.inject_of_credit busy hk hm hc).trans (if_pos hn))
  case deferred =>
    intro s w st rq rest more busy b c hu hst hb hrq hc
    exact exec_reqInjectDeferred hu (Agt.pump_of_both busy hst hb hrq hc)
  case timeout =>
    intro s w reqTag t hu ht hd
    exact exec_requestTimeout hu (Agt.requestTimeout_of_due ht hd)
  case stalls =>
    intro s w hu
    exact ⟨fun h => exec_injStallInterval_of_stalled hu (Agt.stalled_req_of_staged h),
      fun h => exec_injStallInterval_of_stalled hu (Agt.stalled_rsp_of_staged h),
      fun h => exec_injStallInterval_of_stalled hu (Agt.stalled_fwd_of_waiting h),
      fun h => exec_injStallInterval_of_not_stalled hu (Agt.stalled_req_of_empty h)⟩

end Sys2Proof.Machine
end

section
/-! PROOFS. Holds, the host's reply space, and completion groups over host messages. -/

namespace Sys2Proof.Machine

open Sys2Proof.Claim

/-! ## The credit of a message that is taken (R275) -/

@[simp] theorem Agt.emitCredit_flow (a : Agt) (modl : Option Nat) (cls n : Nat) : (a.emitCredit modl cls n).flow = a.flow := by
  cases modl <;> rfl

@[simp] theorem Agt.emitCredit_reserved (a : Agt) (modl : Option Nat) (cls n : Nat) : (a.emitCredit modl cls n).reserved = a.reserved := by
  cases modl <;> rfl

@[simp] theorem Agt.emitCredit_cgCtx (a : Agt) (modl : Option Nat) (cls n g : Nat) : (a.emitCredit modl cls n).cgCtx g = a.cgCtx g := by
  cases modl <;> rfl

@[simp] theorem Agt.emitCredit_heldEntry (a : Agt) (modl : Option Nat) (cls n reqTag : Nat) :
    (a.emitCredit modl cls n).heldEntry reqTag = a.heldEntry reqTag := by
  cases modl <;> rfl

/-- A host message that reaches the agent answers what its effect, or any effect equal to it there, gives on the credited agent. -/
theorem State.agtNext_heard {s : State} {w : Who} {f g : Agt → Agt} (hh : Hears s w) (h : f (credited (s.agt w)) = g (s.agt w)) :
    s.agtNext w (·.hears f) = agtDoes s w g :=
  (State.agtNext_hears hh).trans (congrArg Host.Outcome.next (State.onAgt_congr h))

/-! ## Holds (R119, R167, R178) -/

/-- The outputs, none of them DOWN, that a FORWARD or EMIT slot of the course owns. -/
def Agt.slotOutputs (a : Agt) (course slot : Nat) : List Nat :=
  (a.fwd.course.filter fun x => (x.action = 2 || x.action = 5) && x.slot = slot && course % a.period x.partition = x.course
    && !(a.bondDown x.outBond)).map (·.outBond)

section
variable {a : Agt} {lead : Nat} (course slot : Nat)

theorem Agt.slotHold_of_lead (hs : a.isSwitch = true) (h96 : 96 ≤ lead) (h1000 : lead ≤ 1000) :
    a.slotHold course slot lead =
      (a.slotOutputs course slot ++ if a.isPlumbSlot course slot then a.probeBonds.map (·.1) else []).foldl
        (fun a b => a.emit (.hold b lead)) a := by
  unfold Agt.slotHold
  exact if_neg (by simp [hs, h96, h1000])

theorem Agt.slotHold_of_other_lead (h : lead < 96 ∨ 1000 < lead) : a.slotHold course slot lead = a := by
  unfold Agt.slotHold
  exact if_pos (.inr h)

end

/-! ## Reply space (R152) -/

section
variable {a : Agt} {flits : Nat}

theorem Agt.rspSpaceReturn_of_le (h : flits ≤ a.reserved) : a.rspSpaceReturn flits = a.setReserved (a.reserved - flits) := by
  unfold Agt.rspSpaceReturn
  exact if_neg (Nat.not_lt.2 h)

theorem Agt.rspSpaceReturn_of_gt (h : a.reserved < flits) : a.rspSpaceReturn flits = (a.setReserved 0).raise Ev.RSP_SPACE_UNDERFLOW := by
  unfold Agt.rspSpaceReturn
  exact if_pos h

end

/-! ## What the commands of holds and of reply space answer -/

section
variable {s : State} {w : Who} {course slot lead flits : Nat} {g : Agt → Agt}

theorem exec_slotHold (hu : Up s w) (h : (s.agt w).slotHold course slot lead = g (s.agt w)) :
    exec (.slotHold w course slot lead) s = agtDoes s w g := by
  show execSlotHold w course slot lead s = _
  exact State.agtNext_up hu h

theorem exec_rspSpaceReturn (hh : Hears s w) (h : (credited (s.agt w)).rspSpaceReturn flits = g (s.agt w)) :
    exec (.rspSpaceReturn w flits) s = agtDoes s w g := by
  show execRspSpaceReturn w flits s = _
  exact State.agtNext_heard hh h

end

/-- Settles O5, by the lead, by the plumb slot, and by the flits that are reserved. -/
theorem holdsAndSpace : Obligations.HoldsAndSpace := by
  unfold Obligations.HoldsAndSpace
  refine ⟨fun s w course slot lead hu => exec_slotHold hu rfl, fun s w copy first count hh => State.agtNext_heard hh rfl,
    fun s w hu ht => State.agtNext_written hu ht rfl, fun s w flits hh => exec_rspSpaceReturn hh rfl, ?owned, ?plumb, ?other_lead, ?returned,
    ?underflow⟩
  case owned =>
    intro s w course slot lead hu hs h96 h1000 hp
    refine exec_slotHold hu ((Agt.slotHold_of_lead course slot hs h96 h1000).trans ?_)
    rw [hp, if_neg Bool.false_ne_true, List.append_nil]
    rfl
  case plumb =>
    intro s w course slot lead hu hs h96 h1000 hp
    refine exec_slotHold hu ((Agt.slotHold_of_lead course slot hs h96 h1000).trans ?_)
    rw [hp, if_pos rfl]
    rfl
  case other_lead =>
    intro s w course slot lead hu hl
    exact exec_slotHold hu (Agt.slotHold_of_other_lead course slot hl)
  case returned =>
    intro s w n hh hn
    refine exec_rspSpaceReturn hh ((Agt.rspSpaceReturn_of_le (by rwa [Agt.emitCredit_reserved])).trans ?_)
    rw [Agt.emitCredit_reserved]
  case underflow =>
    intro s w n hh hn
    exact exec_rspSpaceReturn hh (Agt.rspSpaceReturn_of_gt (by rwa [Agt.emitCredit_reserved]))

/-! ## Completion groups (R275, R280, R281) -/

/-- A group takes an arm: its context says so, the arm keeps the targets and the errors so far, and AGT_CG_ARMS its high-water mark. -/
def Agt.takeArm (a : Agt) (g tw tb k : Nat) : Agt :=
  let c := a.cgCtx g
  let a := a.setCg g { c with armed := true, fired := false, armSlot := k }
  let a : Agt := { a with flow := { a.flow with arms := tset a.flow.arms k { group := g, worms := tw, bytes := tb, errors := c.errors } } }
  a.onDie fun d => if d.bget Reg.AGT_CG_ARMS 24 16 < a.flow.arms.length then d.bset Reg.AGT_CG_ARMS 24 16 a.flow.arms.length else d

section
variable {a : Agt} {g : Nat} (tag : Nat)

theorem Agt.cgRead_of_lt (h : g < 2 ^ 20) : a.cgRead tag g = a.msg 0x81 0 tag (cgBody g (a.cgCtx g)) := by
  unfold Agt.cgRead
  exact if_neg (Nat.not_le.2 h)

theorem Agt.cgRead_of_ge (h : 2 ^ 20 ≤ g) : a.cgRead tag g = a.msg 0x81 1 tag (cgBody g CgCtx.zero) := by
  unfold Agt.cgRead
  exact if_pos h

theorem Agt.cgClear_of_lt (h : g < 2 ^ 20) : a.cgClear tag g = (a.clearCg g).armResult 0 tag g 0 := by
  unfold Agt.cgClear
  exact if_neg (Nat.not_le.2 h)

theorem Agt.cgArm_of_free {k : Nat} (tw tb : Nat) (h : g < 2 ^ 20) (ha : (a.cgCtx g).armed = false)
    (hk : ((List.range 256).find? fun k => (tget a.flow.arms k).isNone) = some k) :
    a.cgArm tag g tw tb = ((a.takeArm g tw tb k).armResult 0 tag g k).tryFire g := by
  unfold Agt.cgArm
  dsimp only
  rw [if_neg (Nat.not_le.2 h), if_neg (by simp [ha]), hk]
  rfl

theorem Agt.reqRelease_of_held {reqTag : Nat} {t : Track} (ht : a.heldEntry reqTag = some t) :
    a.reqRelease tag reqTag =
      ({ a with flow := { a.flow with tracker := removeFirst (fun x => x = t) a.flow.tracker } } : Agt).trackerDone 0 tag reqTag 0 := by
  unfold Agt.reqRelease
  rw [ht]

end

/-! ## What the commands of completion groups answer -/

section
variable {s : State} {w : Who} {msgTag group targetWorms targetBytes reqTag : Nat} {g : Agt → Agt}

theorem exec_cgRead (hh : Hears s w) (h : (credited (s.agt w)).cgRead msgTag group = g (s.agt w)) :
    exec (.cgRead w msgTag group) s = agtDoes s w g := by
  show execCgRead w msgTag group s = _
  exact State.agtNext_heard hh h

theorem exec_cgArm (hh : Hears s w) (h : (credited (s.agt w)).cgArm msgTag group targetWorms targetBytes = g (s.agt w)) :
    exec (.cgArm w msgTag group targetWorms targetBytes) s = agtDoes s w g := by
  show execCgArm w msgTag group targetWorms targetBytes s = _
  exact State.agtNext_heard hh h

theorem exec_cgClear (hh : Hears s w) (h : (credited (s.agt w)).cgClear msgTag group = g (s.agt w)) :
    exec (.cgClear w msgTag group) s = agtDoes s w g := by
  show execCgClear w msgTag group s = _
  exact State.agtNext_heard hh h

theorem exec_reqRelease (hh : Hears s w) (h : (credited (s.agt w)).reqRelease msgTag reqTag = g (s.agt w)) :
    exec (.reqRelease w msgTag reqTag) s = agtDoes s w g := by
  show execReqRelease w msgTag reqTag s = _
  exact State.agtNext_heard hh h

end

/-- Settles O6, by the bound on a group's number, the free arm, and the HELD entry; the returned credit leaves the groups and the tracker. -/
theorem completionGroups : Obligations.CompletionGroups := by
  unfold Obligations.CompletionGroups
  refine ⟨fun s w tag g hh => exec_cgRead hh rfl, fun s w tag g tw tb hh => exec_cgArm hh rfl, fun s w tag g hh => exec_cgClear hh rfl,
    fun s w tag reqTag hh => exec_reqRelease hh rfl, ?read, ?read_above, ?arm, ?clear, ?release⟩
  case read =>
    intro s w tag g hh hg
    refine exec_cgRead hh ((Agt.cgRead_of_lt tag hg).trans ?_)
    rw [Agt.emitCredit_cgCtx]
  case read_above =>
    intro s w tag g hh hg
    exact exec_cgRead hh (Agt.cgRead_of_ge tag hg)
  case arm =>
    intro s w tag g k tw tb hh hg ha hk
    refine exec_cgArm hh ((Agt.cgArm_of_free (k := k) tag tw tb hg ?_ ?_).trans ?_)
    · rwa [Agt.emitCredit_cgCtx]
    · rwa [Agt.emitCredit_flow]
    · unfold Agt.takeArm
      rw [Agt.emitCredit_cgCtx]
      rfl
  case clear =>
    intro s w tag g hh hg
    refine exec_cgClear hh ((Agt.cgClear_of_lt tag hg).trans ?_)
    rfl
  case release =>
    intro s w tag reqTag t hh ht
    exact exec_reqRelease hh (Agt.reqRelease_of_held tag (by rwa [Agt.emitCredit_heldEntry]))

end Sys2Proof.Machine
end

section
/-! PROOFS. Presentations to the host. -/

namespace Sys2Proof.Machine

open Sys2Proof.Claim

/-! ## What each command of a presentation does (R270) -/

section
variable {a : Agt} {cls k : Nat} {h : Holding}

theorem Agt.presentStart_of_ready (hh : tget a.flow.holding cls = some h) (ho : a.presentOpen cls = false)
    (hr : a.die.fget Fl.AGT_HIF_STATUS_host_ready = 1) (hk : a.bondModule a.flow.presentNext = some k) :
    a.presentStart cls =
      ((a.openPresent cls k).count Reg.AGT_CNT_PRESENTED).emit (.present k ((h.tags cls).headD 0) { h.wm with payload := [] }) := by
  have hfree : ¬(a.presentOpen cls = true ∨ a.die.fget Fl.AGT_HIF_STATUS_host_ready = 0) := by simp [ho, hr]
  unfold Agt.presentStart
  rw [hh]
  dsimp only
  rw [if_neg hfree, hk]

/-- The rest of the units go to the module that the class's head was presented on. -/
theorem Agt.accept_of_open (hh : tget a.flow.holding cls = some h) (ho : a.presentOpen cls = true) :
    a.accept cls =
      let b := (a.closePresent cls).emit
        (.presentRest (tgetD a.flow.presenting cls (0, false)).1 ((h.tags cls).drop 1) h.wm.payload)
      ({ b with flow := { b.flow with holding := tdel b.flow.holding cls } } : Agt).tapCount h.wm.partition 1 (64 * Worm.flits h.wm) := by
  unfold Agt.accept
  rw [hh]
  exact if_neg (by simp [ho])

theorem Agt.acceptLate_of_first (hp : tget a.flow.presenting cls = some (k, false)) :
    a.acceptLate cls =
      ({ a with flow := { a.flow with presenting := tset a.flow.presenting cls (k, true) } } : Agt).count Reg.AGT_CNT_ACCEPT_LATE := by
  unfold Agt.acceptLate
  rw [hp]

theorem Agt.acceptLate_of_counted (hp : tget a.flow.presenting cls = some (k, true)) : a.acceptLate cls = a := by
  unfold Agt.acceptLate
  rw [hp]

end

/-! ## What the commands answer -/

section
variable {s : State} {w : Who} {cls : Nat} {g : Agt → Agt}

theorem exec_presentStart (hu : Up s w) (h : (s.agt w).presentStart cls = g (s.agt w)) :
    exec (.presentStart w cls) s = agtDoes s w g := by
  show execPresentStart w cls s = _
  exact State.agtNext_up hu h

theorem exec_accept (hu : Up s w) (h : (s.agt w).accept cls = g (s.agt w)) : exec (.accept w cls) s = agtDoes s w g := by
  show execAccept w cls s = _
  exact State.agtNext_up hu h

theorem exec_acceptLate (hu : Up s w) (h : (s.agt w).acceptLate cls = g (s.agt w)) :
    exec (.acceptLate w cls) s = agtDoes s w g := by
  show execAcceptLate w cls s = _
  exact State.agtNext_up hu h

end

/-- Settles O4, by the worm that the class holds, whether its presentation is open, and whether that presentation was late before. -/
theorem presentation : Obligations.Presentation := by
  unfold Obligations.Presentation
  refine ⟨fun s w cls hu => exec_presentStart hu rfl, fun s w cls hu => exec_accept hu rfl, fun s w cls hu => exec_acceptLate hu rfl,
    ?start, ?accepted, ?late, ?late_again⟩
  case start =>
    intro s w cls k h hu hh ho hr hk
    exact exec_presentStart hu (Agt.presentStart_of_ready hh ho hr hk)
  case accepted =>
    intro s w cls h hu hh ho
    exact exec_accept hu (Agt.accept_of_open hh ho)
  case late =>
    intro s w cls k hu hp
    exact exec_acceptLate hu (Agt.acceptLate_of_first hp)
  case late_again =>
    intro s w cls k hu hp
    exact exec_acceptLate hu (Agt.acceptLate_of_counted hp)

end Sys2Proof.Machine
end

section
/-! PROOFS. Probes, the exchanges they complete, and the follower's loss of its parent. -/

namespace Sys2Proof.Machine

open Sys2Proof.Claim

/-! ## A unit of an agent, known at the agent (R440) -/

theorem Agt.works_congr {a : Agt} {blk : Nat} {f g : Agt → Agt} (h : f a = g a) : a.works blk f = a.works blk g := by
  unfold Agt.works
  rw [h]

/-- What changes nothing changes nothing either where its block is fenced. -/
theorem Agt.works_of_unchanged {a : Agt} (blk : Nat) {f : Agt → Agt} (h : f a = a) : a.works blk f = a := by
  unfold Agt.works
  rw [h, ite_self]

/-! ## Probes sent (R167, R174) -/

/-- A probe instant as it begins: each bond's miss is noted, or cleared by what it heard since the last one. -/
def Agt.beginProbe (a : Agt) (t : Nat) : Agt :=
  { a with lastProbe := some t, fwd := { a.fwd with bonds := a.fwd.bonds.map fun x =>
    (x.1, { x.2 with link := { x.2.link with missed := if x.2.link.seen then 0 else x.2.link.missed + 1, seen := false } }) } }

section
variable {a : Agt} {t : Nat}

theorem Agt.probeSend_of_no_instant (hi : a.probeInstant = none) : a.probeSend = a := by
  unfold Agt.probeSend
  rw [hi]

/-- An agent without a FID, and one that has sent its probes of this instant. -/
theorem Agt.probeSend_of_silent (hi : a.probeInstant = some t) (h : a.fid = 0x3FFFF ∨ a.lastProbe = some t) : a.probeSend = a := by
  unfold Agt.probeSend
  rw [hi]
  exact if_pos h

/-- Without a parent bond to miss, and outside HOLDOVER, the instant begins and its probes leave. -/
theorem Agt.probeSend_of_parentless (hi : a.probeInstant = some t) (hf : a.fid ≠ 0x3FFFF) (hl : a.lastProbe ≠ some t)
    (hp : tget a.fwd.bonds a.parentBond = none) (hs : a.plbState ≠ 3) :
    a.probeSend = (a.beginProbe t).probeBonds.foldl (fun a x => a.sendProbe x.1 x.2 t) (a.beginProbe t) := by
  have hdue : ¬(a.fid = 0x3FFFF ∨ a.lastProbe = some t) := not_or.2 ⟨hf, hl⟩
  have hparent : tget a.fwd.bonds ({ a with lastProbe := some t } : Agt).parentBond = none := hp
  have hstate : (a.beginProbe t).plbState ≠ 3 := hs
  unfold Agt.probeSend
  rw [hi]
  dsimp only
  rw [if_neg hdue, hparent]
  exact congrArg (fun b : Agt => b.probeBonds.foldl (fun a x => a.sendProbe x.1 x.2 t) b) (if_neg hstate)

end

/-! ## Probes received (R166, R169, R171) -/

/-- A probe noted on its bond, stamped at the resolution of R169. -/
def Agt.hearProbe (a : Agt) (n : Nat) (b : Bond) (wm : Worm) (t2 : Nat) : Agt :=
  a.modLink n (heardProbe b.link (Worm.opnd wm 10 1 % 16) (stampOf t2) (Worm.opnd wm 0 10))

/-- The results of the exchange that a probe completes. -/
def Agt.exchangeOf (a : Agt) (b : Bond) (wm : Worm) (t2 : Nat) : Nat × Int :=
  exchange (Worm.opnd wm 0 10) (stampOf t2) (Worm.opnd wm 22 10) (Worm.opnd wm 12 10) (a.asym b)

/-- The follower's reaction to an exchange of this offset: only one on the parent bond steers it. -/
def Agt.steer (a : Agt) (n : Nat) (theta : Int) : Agt :=
  (if a.isParent n theta then (a.useParent n).follow n theta else a).updateChain

section
variable {a : Agt} {n : Nat} {wm : Worm} {b : Bond} (t2 : Nat)

theorem Agt.probeReceive_of_misrouted (hh : headerFault wm (syndromeOf wm) = false) (hf : a.fid ≠ 0x3FFFF) (hd : wm.dstFid ≠ a.fid) :
    a.probeReceive n wm t2 = a.count Reg.PLB_CNT_PROBE_MISROUTE := by
  unfold Agt.probeReceive
  rw [if_neg (by simp [hh]), if_neg hf, if_pos hd]

/-- A probe for the agent is noted on its bond; one that echoes the agent's own completes an exchange. -/
theorem Agt.probeReceive_of_addressed (hh : headerFault wm (syndromeOf wm) = false) (hf : a.fid ≠ 0x3FFFF) (hd : wm.dstFid = a.fid)
    (hb : tget a.fwd.bonds n = some b) :
    a.probeReceive n wm t2 =
      let c := a.hearProbe n b wm t2
      let e := c.exchangeOf b wm t2
      if b.link.echoes (Worm.opnd wm 22 10) then (c.tookExchange n e.1 e.2).steer n e.2 else c.updateChain := by
  unfold Agt.probeReceive
  rw [if_neg (by simp [hh]), if_neg hf, if_neg (not_not_intro hd), hb]
  rfl

end

/-! ## The loss of the parent, and the end of HOLDOVER (R174) -/

/-- Whether an alternate may take over: its bond is VALID and its sender shows chain_locked. -/
def Agt.fitParent (a : Agt) (n : Nat) : Bool :=
  match tget a.fwd.bonds n with
  | some b => b.link.state = 2 && bitOf b.link.farState 3
  | none => false

/-- The parent is given up for an alternate, or for HOLDOVER at the rate f. -/
def Agt.leaveParent (a : Agt) : Option Nat → Agt
  | some n =>
    (((({ a with parentPending := false } : Agt).useParent n).count Reg.PLB_CNT_PARENT_SWITCH).raise Ev.PLUMB_PARENT_SWITCH n).updateChain
  | none => (((a.setPlb 3).setRate a.rateF a.rateF).raise Ev.PLUMB_HOLDOVER).updateChain

section
variable {a : Agt} {n : Nat} {b x : Bond}

theorem Agt.fitParent_of_valid (hx : tget a.fwd.bonds n = some x) (hv : x.link.state = 2) (hc : bitOf x.link.farState 3 = true) :
    a.fitParent n = true := by
  unfold Agt.fitParent
  simp only [hx, hv, hc, decide_true, Bool.and_self]

/-- A parent that two periods or its own state show lost is left for the first fit alternate. -/
theorem Agt.parentLoss_of_lost (hp : a.parentBond < 0xFE) (hb : tget a.fwd.bonds a.parentBond = some b)
    (hl : 2 ≤ b.link.missed ∨ b.link.stopped = true) (hs : a.plbState = 1 ∨ a.plbState = 2) :
    a.parentLoss = a.leaveParent ((a.alternates.filter (· ≠ a.parentBond)).find? a.fitParent) := by
  have hlost : (decide (2 ≤ b.link.missed) || b.link.stopped) = true := by simpa using hl
  unfold Agt.parentLoss
  dsimp only
  rw [hb]
  dsimp only
  rw [if_neg (by simp [hlost, hs, Nat.not_le.2 hp])]
  rfl

theorem Agt.holdoverExpire_of_limit (hs : a.plbState = 3)
    (hl : a.die.bget Reg.PLB_WINDOW 15 8 ≤ a.die.fget Fl.PLB_STATUS_holdover_periods) : a.holdoverExpire = (a.setPlb 4).updateChain := by
  unfold Agt.holdoverExpire
  exact if_pos ⟨hs, hl⟩

end

/-! ## What the commands answer -/

section
variable {s : State} {w : Who} {n t2 : Nat} {wm : Worm} {g : Agt → Agt}

theorem exec_probeSend (hu : Up s w) (h : (s.agt w).probeSend = g (s.agt w)) :
    exec (.probeSend w) s = agtDoes s w fun a => a.works Blk.PLB g := by
  show execProbeSend w s = _
  exact State.agtNext_up hu (Agt.works_congr h)

theorem exec_probeSend_of_unchanged (hu : Up s w) (h : (s.agt w).probeSend = s.agt w) :
    exec (.probeSend w) s = agtDoes s w fun a => a := by
  show execProbeSend w s = _
  exact State.agtNext_up hu (Agt.works_of_unchanged _ h)

theorem exec_probeReceive (hu : Up s w) (h : (s.agt w).probeReceive n wm t2 = g (s.agt w)) :
    exec (.probeReceive w n wm t2) s = agtDoes s w fun a => a.works Blk.PLB g := by
  show execProbeReceive w n wm t2 s = _
  exact State.agtNext_up hu (Agt.works_congr h)

theorem exec_linkSettled (hu : Up s w) (h : (s.agt w).linkSettled n = g (s.agt w)) : exec (.linkSettled w n) s = agtDoes s w g := by
  show execLinkSettled w n s = _
  exact State.agtNext_up hu h

theorem exec_parentLoss (hu : Up s w) (h : (s.agt w).parentLoss = g (s.agt w)) : exec (.parentLoss w) s = agtDoes s w g := by
  show execParentLoss w s = _
  exact State.agtNext_up hu h

theorem exec_holdoverExpire (hu : Up s w) (h : (s.agt w).holdoverExpire = g (s.agt w)) :
    exec (.holdoverExpire w) s = agtDoes s w g := by
  show execHoldoverExpire w s = _
  exact State.agtNext_up hu h

end

/-- Settles O18, by the instant at which a probe is sent, by whom a probe names and what it echoes, and by the alternates left. -/
theorem plumbProbes : Obligations.PlumbProbes := by
  unfold Obligations.PlumbProbes
  refine ⟨fun s w hu => exec_probeSend hu rfl, fun s w n wm t2 hu => exec_probeReceive hu rfl, fun s w hu => exec_parentLoss hu rfl,
    fun s w hu => exec_holdoverExpire hu rfl, ?sent, ?other_moment, ?silent, ?heard, ?exchanged, ?misrouted, fun t1 t2 t3 t4 asym => rfl,
    fun s w n hu => exec_linkSettled hu rfl, ?switched, ?holdover, ?expired⟩
  case sent =>
    intro s w t hu hi hf hl hp hs
    exact exec_probeSend hu (Agt.probeSend_of_parentless hi hf hl hp hs)
  case other_moment =>
    intro s w hu hi
    exact exec_probeSend_of_unchanged hu (Agt.probeSend_of_no_instant hi)
  case silent =>
    intro s w t hu hi h
    exact exec_probeSend_of_unchanged hu (Agt.probeSend_of_silent hi h)
  case heard =>
    intro s w n t2 wm b hu hh hf hd hb he
    exact exec_probeReceive hu ((Agt.probeReceive_of_addressed t2 hh hf hd hb).trans (if_neg (by simp [he])))
  case exchanged =>
    intro s w n t2 wm b a' theta hu hh hf hd hb he ha
    obtain ⟨rfl, rfl⟩ := Prod.mk.inj ha
    exact exec_probeReceive hu ((Agt.probeReceive_of_addressed t2 hh hf hd hb).trans (if_pos he))
  case misrouted =>
    intro s w n t2 wm hu hh hf hd
    exact exec_probeReceive hu (Agt.probeReceive_of_misrouted t2 hh hf hd)
  case switched =>
    intro s w n b x hu hp hb hl hs halt hn hx hv hc
    refine exec_parentLoss hu ((Agt.parentLoss_of_lost hp hb hl hs).trans ?_)
    rw [halt, List.filter_cons_of_pos (by simpa using hn), List.find?_cons_of_pos (Agt.fitParent_of_valid hx hv hc)]
    rfl
  case holdover =>
    intro s w b hu hp hb hl hs halt
    refine exec_parentLoss hu ((Agt.parentLoss_of_lost hp hb hl hs).trans ?_)
    rw [halt]
    rfl
  case expired =>
    intro s w hu hs hl
    exact exec_holdoverExpire hu (Agt.holdoverExpire_of_limit hs hl)

end Sys2Proof.Machine
end

section
/-! PROOFS. Runs of scheduled outputs, and the inputs and the emission of the Purl engine. -/

namespace Sys2Proof.Machine

open Sys2Proof.Claim

/-! ## Inputs (R246, R248) -/

section
variable {a : Agt} {inBond course slot k : Nat} {wm : Worm} {x : CourseEnt} {d : Desc}

/-- Step 1 of R246 for a collective that the engine has no descriptor of. -/
theorem Agt.purlInput_of_unknown (hx : a.runEntry 4 course slot (fun x => x.inBond = inBond && x.partition = wm.partition) = some x)
    (hn : a.die.part.noPurl = false) (hs : a.isSwitch = true) (hd : a.descOf x.collective = none) :
    a.purlInput inBond course slot wm = a.purlDiscard 1 Reg.PRL_CNT_UNKNOWN := by
  unfold Agt.purlInput
  rw [hx]
  dsimp only
  rw [if_neg (by simp [hn, hs]), hd]

/-- A contribution that passes steps 1 and 2 is counted at its decryption; steps 3 to 11 follow on what it opens to. -/
theorem Agt.purlInput_of_contribution
    (hx : a.runEntry 4 course slot (fun x => x.inBond = inBond && x.partition = wm.partition) = some x)
    (hn : a.die.part.noPurl = false) (hs : a.isSwitch = true) (hd : a.descOf x.collective = some (k, d)) (he : a.descEnded d = false)
    (hc : Worm.opnd wm 0 4 = x.collective) (hop : wm.op = 0xC2) (hr : Worm.opnd wm 12 1 = 0)
    (hl : d.wantLength 0 (Worm.opnd wm 8 4) (Worm.opnd wm 13 1) = some wm.length) (ht : a.purlTagOk d.ent.partition wm = true)
    (hp : (a.countDec wm true).purlFail d x course (runStart (a.countDec wm true).fwd.course x 1024)
      ((a.countDec wm true).opened wm) = none) :
    a.purlInput inBond course slot wm =
      (a.countDec wm true).purlTake k d x course (runStart (a.countDec wm true).fwd.course x 1024) ((a.countDec wm true).opened wm) := by
  unfold Agt.purlInput
  rw [hx]
  dsimp only
  rw [if_neg (by simp [hn, hs]), hd]
  dsimp only
  rw [if_neg (by simp [he]), if_neg (by simp [hc, hop, hr, hl]), ht, if_neg (by simp), hp]

end

/-! ## EMIT runs: selection (R249, R250, R252) -/

/-- The worm of a result: the chunk's payload to a bond, with the flags and the count of its rounding. -/
def Agt.resultWorm (a : Agt) (d : Desc) (c : Chunk) (out course : Nat) (r : Nat × Nat) : Worm :=
  a.purlWorm d c out course 0xC3 2 0 r.1 r.2 (mread a.purl.store (d.addr c.chunk 0) (payloadBytes d.fmtOut (d.size c.chunk)))

/-- A chunk whose result goes to a bond: the bond is served, and the last of its inputs to be served frees the chunk. -/
def Desc.serve (d : Desc) (c : Chunk) (out : Nat) : Desc :=
  let c : Chunk := { c with sent := addBond c.sent out }
  if c.inputs.all c.sent.contains then d.freeChunk c else d.setChunk c

section
variable {a : Agt} {course slot out col k : Nat} {x : CourseEnt} {d : Desc}
  (hx : a.runEntry 5 course slot (fun x => x.outBond = out && x.collective = col) = some x)
  (hn : a.die.part.noPurl = false) (hs : a.isSwitch = true) (hq : a.runSilent x none = false)
  (hk : a.runSilent x (a.transitSlot x.partition) = false) (hd : a.descOf col = some (k, d)) (he : a.descEnded d = false)
include hx hn hs hq hk hd he

theorem Agt.emitSelect_of_none (queued : Bool) (hp : d.pickEmit out = none) : a.emitSelect course slot out col queued = a.emitEmpty := by
  unfold Agt.emitSelect
  rw [hx]
  dsimp only
  rw [if_neg (by simp [hn, hs, hq]), if_neg (by simp [hk]), hd]
  dsimp only
  rw [if_neg (by simp [he]), hp]

/-- A chunk that is rounded already is sent as it was rounded. -/
theorem Agt.emitSelect_of_result {c : Chunk} {r : Nat × Nat} (hp : d.pickEmit out = some (c, false)) (hr : c.result = some r) :
    a.emitSelect course slot out col false =
      (a.setDesc k (d.serve c out)).emitWorm course (runStart a.fwd.course x 1024) out (a.resultWorm d c out course r) := by
  unfold Agt.emitSelect
  rw [hx]
  dsimp only
  rw [if_neg (by simp [hn, hs, hq]), if_neg (by simp [hk]), hd]
  dsimp only
  rw [if_neg (by simp [he]), hp]
  have hrounded : ¬(c.result.isNone = true) := by simp [hr]
  have hgot : c.result.getD (0, 0) = r := by rw [hr, Option.getD_some]
  dsimp only
  rw [if_neg Bool.false_ne_true, if_neg Bool.false_ne_true, if_neg hrounded]
  dsimp only
  rw [hgot]
  rfl

end

/-! ## EMIT and INJECT runs: launch (R180, R255, R261) -/

/-- A staged worm as the run of a course launches it. -/
def CourseEnt.launched (x : CourseEnt) (st : Staged) (course : Nat) : Worm :=
  { st.wm with partition := x.partition, operand := putOperand st.wm.operand 20 (le 8 course) }

section
variable {a : Agt} {course slot out col : Nat} {x : CourseEnt}

theorem Agt.emitLaunch_of_selected {e : Nat × Nat × Nat × Worm}
    (hx : a.runEntry 5 course slot (fun x => x.outBond = out && x.collective = col) = some x)
    (he : (a.purl.emits.find? fun e => e.1 = course && e.2.1 = runStart a.fwd.course x 1024 && e.2.2.1 = out) = some e)
    (hq : a.runSilent x none = false) :
    a.emitLaunch course slot out col =
      let b : Agt := { a with purl := { a.purl with emits := removeFirst (fun y => y = e) a.purl.emits } }
      (b.launch e.2.2.2 out (runStart b.fwd.course x 1024) course (b.transitSlot x.partition)).restartOwner 4 := by
  have hopen : ¬(({ a with purl := { a.purl with emits := removeFirst (fun y => y = e) a.purl.emits } } : Agt).runSilent x none = true) :=
    fun h => Bool.false_ne_true (hq.symm.trans h)
  unfold Agt.emitLaunch
  rw [hx]
  dsimp only
  rw [he]
  exact if_neg hopen

/-- No staged worm of the collective was presented 64 ns before T_s or earlier. -/
theorem Agt.presentedFor_of_late {ts : Nat} (h : ∀ st ∈ a.flow.stCol, Worm.opnd st.wm 0 4 = col → ts * 2 ^ 16 < st.since + 64 * 2 ^ 16) :
    a.presentedFor col ts = none := by
  unfold Agt.presentedFor
  refine List.find?_eq_none.2 fun st hst hfit => ?_
  obtain ⟨hcol, hin⟩ := Bool.and_eq_true_iff.1 hfit
  exact absurd (h st hst (of_decide_eq_true hcol)) (Nat.not_lt.2 (of_decide_eq_true hin))

section
variable {p : PartEnt} (hx : a.runEntry 1 course slot (fun x => x.outBond = out && x.collective = col) = some x)
  (hp : tget a.fwd.parts x.partition = some p) (hk : p.trafficSlot = 0xFF) (hs : a.isSwitch = false) (hq : a.runSilent x none = false)
include hx hp hk hs hq

theorem Agt.injectLaunch_of_none (hst : a.presentedFor col (a.runTime course (runStart a.fwd.course x 1024)) = none) :
    a.injectLaunch course slot out col = a.count Reg.PLB_CNT_INJECT_EMPTY := by
  unfold Agt.injectLaunch
  simp only [hx, hp, hk, if_true, hs, hq, Bool.false_eq_true, or_self, if_false, hst]

theorem Agt.injectLaunch_of_presented {st : Staged}
    (hst : a.presentedFor col (a.runTime course (runStart a.fwd.course x 1024)) = some st) :
    a.injectLaunch course slot out col =
      let b : Agt := { a with flow := { a.flow with stCol := removeFirst (fun y => y = st) a.flow.stCol } }
      ((b.launch (x.launched st course) out (runStart b.fwd.course x 1024) course none).tapCount x.partition 0
        (64 * (1 + (x.launched st course).length))).giveCredit 3 := by
  unfold Agt.injectLaunch
  simp only [hx, hp, hk, if_true, hs, hq, Bool.false_eq_true, or_self, if_false, hst]
  rfl

end

end

/-! ## What the commands answer -/

section
variable {s : State} {w : Who} {inBond course slot out col : Nat} {queued : Bool} {wm : Worm} {g : Agt → Agt}

theorem exec_purlInput (hu : Up s w) (h : (s.agt w).purlInput inBond course slot wm = g (s.agt w)) :
    exec (.purlInput w inBond course slot wm) s = agtDoes s w g := by
  show execPurlInput w inBond course slot wm s = _
  exact State.agtNext_up hu h

theorem exec_emitRunSelect (hu : Up s w) (h : (s.agt w).emitSelect course slot out col queued = g (s.agt w)) :
    exec (.emitRunSelect w course slot out col queued) s = agtDoes s w g := by
  show execEmitRunSelect w course slot out col queued s = _
  exact State.agtNext_up hu h

theorem exec_emitRunLaunch (hu : Up s w) (h : (s.agt w).emitLaunch course slot out col = g (s.agt w)) :
    exec (.emitRunLaunch w course slot out col) s = agtDoes s w g := by
  show execEmitRunLaunch w course slot out col s = _
  exact State.agtNext_up hu h

theorem exec_injectRunLaunch (hu : Up s w) (h : (s.agt w).injectLaunch course slot out col = g (s.agt w)) :
    exec (.injectRunLaunch w course slot out col) s = agtDoes s w g := by
  show execInjectRunLaunch w course slot out col s = _
  exact State.agtNext_up hu h

end

/-- Settles O20, by the checks that an input passes, by the chunk that an EMIT run picks, and by the worm that waits for a launch. -/
theorem purlRuns : Obligations.PurlRuns := by
  unfold Obligations.PurlRuns
  refine ⟨fun s w course slot out col hu => exec_injectRunLaunch hu rfl, fun s w course slot out col queued hu => exec_emitRunSelect hu rfl,
    fun s w course slot out col hu => exec_emitRunLaunch hu rfl, fun s w inBond course slot wm hu => exec_purlInput hu rfl, ?taken, ?unknown,
    ?selected, ?empty_emit, ?emitted, ?injected, ?empty_inject⟩
  case taken =>
    intro s w inBond course slot k wm x d hu hx hn hs hd he hc hop hr hl ht hp hcourse
    refine exec_purlInput hu ((Agt.purlInput_of_contribution hx hn hs hd he hc hop hr hl ht hp).trans ?_)
    rw [hcourse]
  case unknown =>
    intro s w inBond course slot wm x hu hx hn hs hd
    exact exec_purlInput hu (Agt.purlInput_of_unknown hx hn hs hd)
  case selected =>
    intro s w course slot out col k flags count x d c hu hx hn hs hq hk hd he hp hr
    refine exec_emitRunSelect hu ((Agt.emitSelect_of_result hx hn hs hq hk hd he hp hr).trans ?_)
    unfold Desc.serve Agt.resultWorm
    rfl
  case empty_emit =>
    intro s w course slot out col k queued x d hu hx hn hs hq hk hd he hp
    exact exec_emitRunSelect hu (Agt.emitSelect_of_none hx hn hs hq hk hd he queued hp)
  case emitted =>
    intro s w course slot out col x e hu hx he hq
    exact exec_emitRunLaunch hu (Agt.emitLaunch_of_selected hx he hq)
  case injected =>
    intro s w course slot out col x p st hu hx hp hk hs hq hst
    exact exec_injectRunLaunch hu (Agt.injectLaunch_of_presented hx hp hk hs hq hst)
  case empty_inject =>
    intro s w course slot out col x p hu hx hp hk hs hq hlate
    exact exec_injectRunLaunch hu (Agt.injectLaunch_of_none hx hp hk hs hq (Agt.presentedFor_of_late hlate))

end Sys2Proof.Machine
end

section
/-! PROOFS. The solver's tasks, the failures that wait for them, and the tile array. -/

namespace Sys2Proof.Machine

open Sys2Proof.Claim

/-! ## A task runs as the first that waits (R195, R196, R215) -/

section
variable {c : Ctl} {k : Nat} (n : Nat) (work : Ctl → Ctl)

theorem Ctl.runTask_of_now (hk : c.taskNow = k) (hp : c.sol.preempted ≠ some k) :
    c.runTask k n work = ({ c with sol := { c.sol with finishing := none } } : Ctl).task k n work := by
  unfold Ctl.runTask
  rw [if_pos hk, if_neg hp]

/-- A task that was preempted is so no more once it runs. -/
theorem Ctl.runTask_of_preempted (hk : c.taskNow = k) (hp : c.sol.preempted = some k) :
    c.runTask k n work = ({ c with sol := { c.sol with preempted := none, finishing := none } } : Ctl).task k n work := by
  unfold Ctl.runTask
  rw [if_pos hk, if_pos hp]

theorem Ctl.runTask_of_other (hk : c.taskNow ≠ k) : c.runTask k n work = c := by
  unfold Ctl.runTask
  exact if_neg hk

end

/-! ## Pre-emption (R196) -/

/-- The FAILURE task that runs goes ahead of the first ADMISSION or COMPILE task that waits, unless one is preempted already. -/
def Ctl.preemptTask (c : Ctl) : Ctl :=
  let later := c.waitingTasks.filter fun k => k = 3 || k = 4
  if c.taskNow = 2 ∧ !later.isEmpty ∧ c.sol.preempted.isNone then
    ({ c with sol := { c.sol with preempted := later.head? } } : Ctl).onDie (·.count Reg.SOL_CNT_PREEMPT)
  else c

theorem Ctl.preemptTask_of_waiting {c : Ctl} {k : Nat} {rest : List Nat} (h2 : c.taskNow = 2)
    (hw : (c.waitingTasks.filter fun k => k = 3 || k = 4) = k :: rest) (hp : c.sol.preempted = none) :
    c.preemptTask = ({ c with sol := { c.sol with preempted := some k } } : Ctl).onDie (·.count Reg.SOL_CNT_PREEMPT) := by
  unfold Ctl.preemptTask
  dsimp only
  rw [hw]
  exact if_pos (by simp [h2, hp])

/-! ## The tile array (R191, R215) -/

/-- The task that a write of SOL_CTL lets finish: the one that runs when the write clears tile_en. -/
def Ctl.finishingAfter (c : Ctl) (val : Nat) : Option Nat :=
  if val % 2 = 1 then none else if c.die.fget Fl.SOL_CTL_tile_en = 1 ∧ c.taskNow ≠ 0 then some c.taskNow else c.sol.finishing

/-- A write of SOL_CTL. -/
def Ctl.writeTileEn (c : Ctl) (val : Nat) : Ctl :=
  let e := ({ c with sol := { c.sol with finishing := c.finishingAfter val } } : Ctl).onDie (·.fset Fl.SOL_CTL_tile_en (val % 2))
  if bitOf val 1 then e.onDie (·.clearCounters Blk.SOL) else e

section
variable {c : Ctl} {tile val : Nat}

/-- A tile of the map that is in the array leaves it; a task in progress restarts on the tiles that are left. -/
theorem Ctl.dropTile_of_usable (ht : tile < c.sol.map.length) (hf : c.sol.fencedTiles.contains tile = false) :
    c.dropTile tile =
      let e : Ctl := { c with sol := { c.sol with fencedTiles := c.sol.fencedTiles ++ [tile] } }
      if c.taskNow ≠ 0 then e.onDie (·.count Reg.SOL_CNT_RESTART) else e := by
  unfold Ctl.dropTile
  exact if_neg (not_or.2 ⟨Nat.not_le.2 ht, ne_true_of_eq_false hf⟩)

theorem Ctl.finishingAfter_of_enable (c : Ctl) (hv : val % 2 = 1) : c.finishingAfter val = none := if_pos hv

theorem Ctl.finishingAfter_of_clear (hv : val % 2 = 0) (he : c.die.fget Fl.SOL_CTL_tile_en = 1) (h0 : c.taskNow ≠ 0) :
    c.finishingAfter val = some c.taskNow := by
  unfold Ctl.finishingAfter
  rw [if_neg (by simp [hv]), if_pos ⟨he, h0⟩]

theorem Ctl.writeTileEn_of_keep (hc : bitOf val 1 = false) :
    c.writeTileEn val = ({ c with sol := { c.sol with finishing := c.finishingAfter val } } : Ctl).onDie
      (·.fset Fl.SOL_CTL_tile_en (val % 2)) := by
  unfold Ctl.writeTileEn
  exact if_neg (by simp [hc])

end

/-! ## Failures and restored bonds (R196, R322) -/

/-- A second after the first restored bond, with no FAILURE or FULL task pending, the restored bonds alone make a FAILURE task. -/
def Ctl.restoredTimer (c : Ctl) : Ctl :=
  let early := match c.sol.restoredNs with
    | some t => decide (c.die.up < 1000000000 + t)
    | none => true
  if c.sol.restored.isEmpty || early || !c.sol.failures.isEmpty || c.sol.others.contains 1 then c
  else
    let evs := c.sol.restored.map fun r => SolEvent.bondRestored r.1 r.2
    ({ c with sol := { c.sol with failures := evs, restored := [], restoredNs := none } } : Ctl).changed

theorem Ctl.queueFailure_of_new {c : Ctl} {e : SolEvent} (h : c.sol.failures.contains e = false) :
    c.queueFailure e = ({ c with sol := { c.sol with failures := c.sol.failures ++ [e] } } : Ctl).changed := by
  unfold Ctl.queueFailure
  exact if_neg (ne_true_of_eq_false h)

theorem Ctl.restoredTimer_of_due {c : Ctl} {t : Nat} (hr : c.sol.restored ≠ []) (hns : c.sol.restoredNs = some t)
    (ht : t + 1000000000 ≤ c.die.up) (hf : c.sol.failures = []) (ho : c.sol.others.contains 1 = false) :
    c.restoredTimer =
      ({ c with sol := { c.sol with failures := c.sol.restored.map fun r => SolEvent.bondRestored r.1 r.2, restored := [],
                                    restoredNs := none } } : Ctl).changed := by
  have hdue : ¬(c.die.up < 1000000000 + t) := by omega
  have hgo : (c.sol.restored.isEmpty || decide (c.die.up < 1000000000 + t) || !c.sol.failures.isEmpty
      || c.sol.others.contains 1) = false := by
    rw [List.isEmpty_eq_false_iff.2 hr, decide_eq_false hdue, hf, ho]
    rfl
  unfold Ctl.restoredTimer
  rw [hns]
  exact if_neg (ne_true_of_eq_false hgo)

/-! ## What the commands answer -/

section
variable {s : State} {tile fid bond far time : Nat} {val : Word} {g : Ctl → Ctl}

theorem exec_solverFullTask (hu : On s) (h : (s.ctl.runTask 1 0 fun c => (c.took 1).failureWork true) = g s.ctl) :
    exec .solverFullTask s = ctlDoes s g := by
  show execSolverFullTask s = _
  exact State.ctlNext_on hu h

theorem exec_solverFailureTask (hu : On s)
    (h : (s.ctl.runTask 2 s.ctl.sol.failures.length fun c => c.failureWork false) = g s.ctl) :
    exec .solverFailureTask s = ctlDoes s g := by
  show execSolverFailureTask s = _
  exact State.ctlNext_on hu h

theorem exec_plumbTreeTask (hu : On s) (h : (s.ctl.runTask 6 0 fun c => (c.took 6).plumbTree) = g s.ctl) :
    exec .plumbTreeTask s = ctlDoes s g := by
  show execPlumbTreeTask s = _
  exact State.ctlNext_on hu h

theorem exec_shardTask (hu : On s) (h : (s.ctl.runTask 7 0 fun c => (c.took 7).shardWork) = g s.ctl) :
    exec .shardTask s = ctlDoes s g := by
  show execShardTask s = _
  exact State.ctlNext_on hu h

/-- Out of the safe state, where admission refuses what waits, ADMISSION runs as a task. -/
theorem exec_admissionTask (hu : On s) (hs : s.ctl.die.safe = false)
    (h : (s.ctl.runTask 3 0 fun c => c.admission.writeFloors) = g s.ctl) : exec .admissionTask s = ctlDoes s g := by
  show execAdmissionTask s = _
  exact State.ctlNext_on hu ((if_neg (by simp [hs])).trans h)

theorem exec_compileTask (hu : On s) (h : (s.ctl.runTask 4 0 fun c => c.compileTask.writeFloors) = g s.ctl) :
    exec .compileTask s = ctlDoes s g := by
  show execCompileTask s = _
  exact State.ctlNext_on hu h

theorem exec_taskPreempt (hu : On s) (h : s.ctl.preemptTask = g s.ctl) : exec .taskPreempt s = ctlDoes s g := by
  show execTaskPreempt s = _
  exact State.ctlNext_on hu h

theorem exec_tileFence (hu : On s) (h : s.ctl.dropTile tile = g s.ctl) : exec (.tileFence tile) s = ctlDoes s g := by
  show execTileFence tile s = _
  exact State.ctlNext_on hu h

theorem exec_solTileEn (hu : On s) (ht : Takes s.ctl.die Blk.SOL) (h : s.ctl.writeTileEn val.toNat = g s.ctl) :
    exec (.solTileEn val) s = ctlDoes s g := by
  show execSolTileEn val s = _
  exact State.ctlNext_written hu ht h

theorem exec_failover (hu : On s) (h : s.ctl.queueFailure (.bondFailed fid bond far time) = g s.ctl) :
    exec (.failover fid bond far time) s = ctlDoes s g := by
  show execFailover fid bond far time s = _
  exact State.ctlNext_on hu h

theorem exec_restoredBondTimer (hu : On s) (h : s.ctl.restoredTimer = g s.ctl) : exec .restoredBondTimer s = ctlDoes s g := by
  show execRestoredBondTimer s = _
  exact State.ctlNext_on hu h

end

/-- Settles O24, by the task that is first to run, by what the array and the queues hold, and by the bits that SOL_CTL is written with. -/
theorem solverTasks : Obligations.SolverTasks := by
  unfold Obligations.SolverTasks
  refine ⟨fun s hu => exec_solverFullTask hu rfl, fun s hu => exec_solverFailureTask hu rfl, fun s hu => exec_plumbTreeTask hu rfl,
    fun s hu => exec_shardTask hu rfl, fun s hu => exec_taskPreempt hu rfl, fun s tile hu => exec_tileFence hu rfl,
    fun s val hu ht => exec_solTileEn hu ht rfl, fun s fid bond far time hu => exec_failover hu rfl,
    fun s hu => exec_restoredBondTimer hu rfl, ?full, ?failure, ?plumb_tree, ?shard, ?resumed, ?not_first, ?preempts, ?tile_idle, ?tile_busy,
    ?enabled, ?cleared, ?failover, ?restored⟩
  case full =>
    intro s hu hk hp
    exact exec_solverFullTask hu (Ctl.runTask_of_now _ _ hk hp)
  case failure =>
    intro s hu hk hp
    exact exec_solverFailureTask hu (Ctl.runTask_of_now _ _ hk hp)
  case plumb_tree =>
    intro s hu hk hp
    exact exec_plumbTreeTask hu (Ctl.runTask_of_now _ _ hk hp)
  case shard =>
    intro s hu hk hp
    exact exec_shardTask hu (Ctl.runTask_of_now _ _ hk hp)
  case resumed =>
    intro s k hu hk h34 hp hs
    rcases h34 with rfl | rfl
    · exact exec_admissionTask hu hs (Ctl.runTask_of_preempted _ _ hk hp)
    · exact exec_compileTask hu (Ctl.runTask_of_preempted _ _ hk hp)
  case not_first =>
    intro s hu hk
    exact exec_solverFullTask hu (Ctl.runTask_of_other _ _ hk)
  case preempts =>
    intro s k rest hu h2 hw hp
    exact exec_taskPreempt hu (Ctl.preemptTask_of_waiting h2 hw hp)
  case tile_idle =>
    intro s tile hu ht hf h0
    exact exec_tileFence hu ((Ctl.dropTile_of_usable ht hf).trans (if_neg (not_not_intro h0)))
  case tile_busy =>
    intro s tile hu ht hf h0
    exact exec_tileFence hu ((Ctl.dropTile_of_usable ht hf).trans (if_pos h0))
  case enabled =>
    intro s val hu ht hc hv
    refine exec_solTileEn hu ht ((Ctl.writeTileEn_of_keep hc).trans ?_)
    rw [Ctl.finishingAfter_of_enable _ hv, hv]
  case cleared =>
    intro s val hu ht hc hv he h0
    refine exec_solTileEn hu ht ((Ctl.writeTileEn_of_keep hc).trans ?_)
    rw [Ctl.finishingAfter_of_clear hv he h0, hv]
  case failover =>
    intro s fid bond far time hu h
    exact exec_failover hu (Ctl.queueFailure_of_new h)
  case restored =>
    intro s t hu hr hns ht hf ho
    exact exec_restoredBondTimer hu (Ctl.restoredTimer_of_due hr hns ht hf ho)

end Sys2Proof.Machine
end

section
/-! PROOFS. Requests of partitions: how they are submitted, decided, compiled and released. -/

namespace Sys2Proof.Machine

open Sys2Proof.Claim

/-! ## ADM_CTL.submit (R217, R232) -/

section
variable {c : Ctl}

theorem Ctl.submit_of_bad_length (h : c.die.bget Reg.ADM_REQ_LEN 23 0 < 64 ∨ 16 * 2 ^ 20 < c.die.bget Reg.ADM_REQ_LEN 23 0) :
    c.submit = c.admCmd 4 := by
  unfold Ctl.submit
  exact if_pos h

section
variable (h64 : 64 ≤ c.die.bget Reg.ADM_REQ_LEN 23 0) (h16 : c.die.bget Reg.ADM_REQ_LEN 23 0 ≤ 16 * 2 ^ 20)
include h64 h16

theorem Ctl.submit_of_full (hq : 64 ≤ c.adm.queue.length) : c.submit = c.admCmd 2 := by
  unfold Ctl.submit
  exact (if_neg (not_or.2 ⟨Nat.not_lt.2 h64, Nat.not_lt.2 h16⟩)).trans (if_pos hq)

theorem Ctl.submit_of_room (hq : c.adm.queue.length < 64) :
    c.submit = ({ c with adm := { c.adm with queue := c.adm.queue ++
      [(c.die.getN Reg.ADM_REQ_ADDR, c.die.bget Reg.ADM_REQ_LEN 23 0)] } } : Ctl).admCmd 1 := by
  unfold Ctl.submit
  exact (if_neg (not_or.2 ⟨Nat.not_lt.2 h64, Nat.not_lt.2 h16⟩)).trans (if_neg (Nat.not_le.2 hq))

end

/-! ## ADM_CTL.release (R231) -/

theorem Ctl.release_of_tag_zero (h0 : c.die.bget Reg.ADM_REL_TAG 11 0 = 0) : c.release = c.admCmd 5 := by
  unfold Ctl.release
  exact if_pos h0

section
variable (h0 : c.die.bget Reg.ADM_REL_TAG 11 0 ≠ 0)
include h0

theorem Ctl.release_of_unknown (ha : (c.adm.parts.any fun p => p.tag = c.die.bget Reg.ADM_REL_TAG 11 0) = false) :
    c.release = c.admCmd 3 := by
  unfold Ctl.release
  exact (if_neg h0).trans (if_pos (by simpa using ha))

/-- A tag whose release neither waits nor is under way joins the queue. -/
theorem Ctl.release_of_admitted (ha : (c.adm.parts.any fun p => p.tag = c.die.bget Reg.ADM_REL_TAG 11 0) = true)
    (hp : ∀ p ∈ c.adm.parts, p.tag = c.die.bget Reg.ADM_REL_TAG 11 0 → p.phase ≠ 2)
    (hr : c.adm.releases.contains (c.die.bget Reg.ADM_REL_TAG 11 0) = false) :
    c.release = ({ c with adm := { c.adm with releases := c.adm.releases ++ [c.die.bget Reg.ADM_REL_TAG 11 0] } } : Ctl).admCmd 1 := by
  have hidle : (c.adm.parts.any fun p => p.tag = c.die.bget Reg.ADM_REL_TAG 11 0 && p.phase = 2) = false :=
    List.any_eq_false.2 fun p hmem => by simpa using hp p hmem
  unfold Ctl.release
  dsimp only
  rw [if_neg h0, ha, hr, hidle]
  rfl

end

end

/-! ## The decision of the first queued request (R226) -/

/-- The request leaves the queue; from the first decision on ADM_RING_BASE is locked (R520). -/
def Ctl.takeRequest (c : Ctl) (rest : List (Nat × Nat)) : Ctl :=
  ({ c with adm := { c.adm with queue := rest } } : Ctl).onDie (·.fset Fl.CTL_LOCK_admission 1)

section
variable {c c' : Ctl} {addr len : Nat} {rest : List (Nat × Nat)} {b : Bytes} (hq : c.adm.queue = (addr, len) :: rest)
  (hm : (c.takeRequest rest).memRead addr len = (c', b, false))
include hq hm

theorem Ctl.admission_of_refused (hr : (c'.decide_ b).reason ≠ 0) :
    c.admission = (c'.onDie (·.count Reg.ADM_CNT_REFUSED)).reply ((c'.decide_ b).reply 1 2 (fieldAt b 0 4) (fieldAt b 4 2) 0) := by
  unfold Ctl.takeRequest at hm
  unfold Ctl.admission
  rw [hq]
  dsimp only
  rw [hm]
  dsimp only
  rw [if_neg Bool.false_ne_true, if_neg hr]

theorem Ctl.admission_of_admitted {p : PartPlan} (hr : (c'.decide_ b).reason = 0) (hp : (c'.decide_ b).plan = some p) :
    c.admission = (((({ c' with adm := { c'.adm with inst := p.inst, parts := c'.adm.parts ++ [p] } } : Ctl).bindKeys p).changed).onDie
      (·.count Reg.ADM_CNT_ADMITTED)).reply ((c'.decide_ b).reply 1 1 (fieldAt b 0 4) p.tag 0) := by
  unfold Ctl.takeRequest at hm
  unfold Ctl.admission
  rw [hq]
  dsimp only
  rw [hm]
  dsimp only
  rw [if_neg Bool.false_ne_true, if_pos hr, hp]

end

/-! ## The first queued release (R231, R419) -/

/-- What admission holds of a tag whose release goes out: the time at which it holds, no compile of it that waits, and its active
partition in the phase of a release. -/
def Ctl.bookRelease (c : Ctl) (tag at_ : Nat) : Ctl :=
  { c with adm := { c.adm with released := c.adm.released.filter (fun x => x.1 ≠ tag) ++ [(tag, at_)],
                               parts := (c.adm.parts.filter fun p => !(p.tag = tag && p.phase = 0)).map fun p =>
                                 if p.tag = tag ∧ p.phase = 1 then { p with phase := 2 } else p } }

/-- While agents hold the active partition, nothing beyond the CLOSE and the books follows at once. -/
theorem Ctl.releaseTask_of_held {c c' : Ctl} {tag at_ f : Nat} {rest fs : List Nat} {p : PartPlan} (hr : c.adm.releases = tag :: rest)
    (hl : (c.adm.parts.filter fun p => p.tag = tag && p.phase = 1) = [p])
    (hf : ((c.liveAgents.map (·.fid)).filter fun f => p.touches f) = f :: fs)
    (hs : ({ c with adm := { c.adm with releases := rest } } : Ctl).sendRelease tag (f :: fs) = (c', at_)) :
    c.releaseTask = (c'.meterClose tag p.inst (at_ / c'.courseNs)).bookRelease tag at_ := by
  have hfids : ((({ c with adm := { c.adm with releases := rest } } : Ctl).liveAgents.map (·.fid)).filter
      fun f => [p].any fun p => p.touches f) = f :: fs := by
    simp only [List.any_cons, List.any_nil, Bool.or_false]
    exact hf
  unfold Ctl.releaseTask Ctl.bookRelease
  rw [hr]
  dsimp only
  rw [hl, hfids, hs]
  simp only [List.foldl_cons, List.foldl_nil, List.isEmpty_cons, Bool.not_false, Bool.and_true, Bool.false_eq_true, if_false]

/-! ## What the commands answer -/

section
variable {s : State} {g : Ctl → Ctl}

theorem exec_admSubmit (hu : On s) (ht : Takes s.ctl.die Blk.ADM) (h : s.ctl.submit = g s.ctl) : exec .admSubmit s = ctlDoes s g := by
  show execAdmSubmit s = _
  exact State.ctlNext_written hu ht h

theorem exec_admRelease (hu : On s) (ht : Takes s.ctl.die Blk.ADM) (h : s.ctl.release = g s.ctl) :
    exec .admRelease s = ctlDoes s g := by
  show execAdmRelease s = _
  exact State.ctlNext_written hu ht h

/-- In the safe state no task runs, and admission still decides what waits (R443). -/
theorem exec_admissionTask_of_safe (hu : On s) (hs : s.ctl.die.safe = true) (ha : s.ctl.adm.serving = true)
    (h : s.ctl.admission = g s.ctl) : exec .admissionTask s = ctlDoes s g := by
  show execAdmissionTask s = _
  exact State.ctlNext_on hu ((if_pos ⟨hs, ha⟩).trans h)

theorem exec_solverReleaseTask (hu : On s) (h : (s.ctl.runTask 5 0 fun c => c.releaseTask.writeFloors) = g s.ctl) :
    exec .solverReleaseTask s = ctlDoes s g := by
  show execSolverReleaseTask s = _
  exact State.ctlNext_on hu h

end

/-- Settles O25, by the checks of a submit and of a release in their order, by the task that is first to run, and by the decision on the
request that was read. -/
theorem admission : Obligations.Admission := by
  unfold Obligations.Admission
  refine ⟨fun s hu => exec_solverReleaseTask hu rfl, fun s hu => State.ctlNext_on hu rfl, fun s hu => exec_compileTask hu rfl,
    fun s hu ht => exec_admSubmit hu ht rfl, fun s hu ht => exec_admRelease hu ht rfl, ?bad_length, ?full, ?queued, ?tag_zero, ?released,
    ?unknown, ?decides, ?decides_safe, ?refused, ?admitted, ?compiles, ?releases, ?held,
    fun s val hu ht => State.ctlNext_written hu ht rfl⟩
  case bad_length =>
    intro s hu ht h
    exact exec_admSubmit hu ht (Ctl.submit_of_bad_length h)
  case full =>
    intro s hu ht h64 h16 hq
    exact exec_admSubmit hu ht (Ctl.submit_of_full h64 h16 hq)
  case queued =>
    intro s hu ht h64 h16 hq
    exact exec_admSubmit hu ht (Ctl.submit_of_room h64 h16 hq)
  case tag_zero =>
    intro s hu ht h0
    exact exec_admRelease hu ht (Ctl.release_of_tag_zero h0)
  case released =>
    intro s hu ht h0 ha hp hr
    exact exec_admRelease hu ht (Ctl.release_of_admitted h0 ha hp hr)
  case unknown =>
    intro s hu ht h0 ha
    exact exec_admRelease hu ht (Ctl.release_of_unknown h0 ha)
  case decides =>
    intro s hu hs hk hp
    exact exec_admissionTask hu hs (Ctl.runTask_of_now _ _ hk hp)
  case decides_safe =>
    intro s hu hs ha
    exact exec_admissionTask_of_safe hu hs ha rfl
  case refused =>
    intro c c' addr len rest b hq hm hr
    exact Ctl.admission_of_refused hq hm hr
  case admitted =>
    intro c c' addr len rest b p hq hm hr hp
    exact Ctl.admission_of_admitted hq hm hr hp
  case compiles =>
    intro s hu hk hp
    exact exec_compileTask hu (Ctl.runTask_of_now _ _ hk hp)
  case releases =>
    intro s hu hk hp
    exact exec_solverReleaseTask hu (Ctl.runTask_of_now _ _ hk hp)
  case held =>
    intro c c' tag at_ f rest fs p hr hl hf hs
    refine (Ctl.releaseTask_of_held hr hl hf hs).trans ?_
    unfold Ctl.bookRelease
    simp only [Bool.and_true]

end Sys2Proof.Machine
end

section
/-! PROOFS. Range starts, lane fences and store accesses of the Purl engine, and the interval records of the meter tap. -/

namespace Sys2Proof.Machine

open Sys2Proof.Claim

/-! ## Range starts (R244) -/

section
variable {a : Agt} {col k : Nat} {d : Desc} (hd : a.descOf col = some (k, d))
include hd

theorem Agt.rangeStart_of_first_course (hf : a.inFirstCourse col d.ent.partition = true) :
    a.rangeStart col =
      (a.onDie fun x => x.countN Reg.PRL_CNT_RESET_DISCARD d.chunks.length).setDesc k { d with chunks := [], taken := [] } := by
  unfold Agt.rangeStart
  rw [hd]
  exact if_neg (by simp [hf])

theorem Agt.rangeStart_of_other_course (hf : a.inFirstCourse col d.ent.partition = false) : a.rangeStart col = a := by
  unfold Agt.rangeStart
  rw [hd]
  exact if_pos (by simp [hf])

end

/-! ## Fences of a lane and of the engine (R236, R440) -/

section
variable {a : Agt} {l : Nat} (hp : a.die.part.noPurl = false)
include hp

theorem Agt.purlFence_of_lane (hl : l < a.purl.map.length) (hf : a.purl.fencedLanes.contains l = false) :
    a.purlFence (some l) =
      (({ a with purl := { a.purl with fencedLanes := a.purl.fencedLanes ++ [l] } } : Agt).endDescs (some l)).onDie fun d =>
        d.raiseFence Ev.PURL_LANE_FENCED l := by
  have hnew : ¬(a.purl.map.length ≤ l ∨ a.purl.fencedLanes.contains l = true) :=
    not_or.2 ⟨Nat.not_le.2 hl, Bool.eq_false_iff.1 hf⟩
  unfold Agt.purlFence
  exact (if_neg (Bool.eq_false_iff.1 hp)).trans (if_neg hnew)

theorem Agt.purlFence_of_engine (hb : a.die.blockFenced Blk.PRL = false) :
    a.purlFence none =
      (a.endDescs none).onDie fun d => (d.fenceBlock Blk.PRL).raiseFence Ev.PURL_ENGINE_FENCED 0xFFFF := by
  unfold Agt.purlFence
  exact (if_neg (Bool.eq_false_iff.1 hp)).trans (if_neg (Bool.eq_false_iff.1 hb))

end

/-! ## Accesses of the store (R237, R263) -/

/-- The eight bytes that a test reads at PRL_STO_ADDR: the store's own below the chunk records, the records' open image from there to
the end of the store. -/
def Agt.storeWord (a : Agt) : Word :=
  let addr := a.die.getN Reg.PRL_STO_ADDR
  if addr + 8 ≤ recordBase then BitVec.ofNat 64 (leNat (mread a.purl.store addr 8))
  else if addr < storeSize then Config.recordRead a.records addr
  else 0

/-- The agent whose store a test wrote at PRL_STO_ADDR. -/
def Agt.setStoreWord (a : Agt) (v : Word) : Agt :=
  let addr := a.die.getN Reg.PRL_STO_ADDR
  if addr + 8 ≤ recordBase then a.setStore (mwrite a.purl.store addr (le 8 v.toNat))
  else if addr < storeSize then a.setRecords (Config.recordWrite a.records addr v)
  else a

section
variable {a : Agt}

theorem Agt.storeWord_of_bytes (h : a.die.getN Reg.PRL_STO_ADDR + 8 ≤ recordBase) :
    a.storeWord = BitVec.ofNat 64 (leNat (mread a.purl.store (a.die.getN Reg.PRL_STO_ADDR) 8)) := if_pos h

theorem Agt.setStoreWord_of_bytes (v : Word) (h : a.die.getN Reg.PRL_STO_ADDR + 8 ≤ recordBase) :
    a.setStoreWord v = a.setStore (mwrite a.purl.store (a.die.getN Reg.PRL_STO_ADDR) (le 8 v.toNat)) := if_pos h

section
variable (hr : recordBase < a.die.getN Reg.PRL_STO_ADDR + 8) (he : a.die.getN Reg.PRL_STO_ADDR < storeSize)
include hr he

theorem Agt.storeWord_of_records : a.storeWord = Config.recordRead a.records (a.die.getN Reg.PRL_STO_ADDR) :=
  (if_neg (Nat.not_le.2 hr)).trans (if_pos he)

theorem Agt.setStoreWord_of_records (v : Word) :
    a.setStoreWord v = a.setRecords (Config.recordWrite a.records (a.die.getN Reg.PRL_STO_ADDR) v) :=
  (if_neg (Nat.not_le.2 hr)).trans (if_pos he)

end

/-- Where the engine is present, what the access reaches is what it answers. -/
theorem Agt.stoAccess_of_reach {b : Agt} {path : Path} {val : Option Word} {st : Nat} {v : Word} (hp : a.die.part.noPurl = false)
    (h : a.stoReach false val = (b, st, v)) : a.stoAccess path val = b.emit (.access path st v) := by
  unfold Agt.stoAccess
  rw [if_neg (Bool.eq_false_iff.1 hp), h]

section
variable (hb : a.die.blockFenced Blk.PRL = false) (hz : a.die.frozen Blk.PRL = false)
include hb hz

/-- Outside test mode neither register reaches the store. -/
theorem Agt.stoReach_of_locked (ht : a.die.testEn = false) (addrReg : Bool) (val : Option Word) :
    a.stoReach addrReg val = (a.raise Ev.STORE_LOCKED, 0, 0) := by
  unfold Agt.stoReach
  simp only [hb, hz, ht, Bool.false_eq_true, false_and, if_false, Bool.not_false, if_true]

variable (ht : a.die.testEn = true) (hs : a.isSwitch = true)
include ht hs

theorem Agt.stoReach_of_read : a.stoReach false none = (a, 0, a.storeWord) := by
  unfold Agt.stoReach Agt.storeWord
  simp only [hb, hz, ht, hs, Bool.false_eq_true, false_and, if_false, Bool.not_true]
  by_cases hw : a.die.getN Reg.PRL_STO_ADDR + 8 ≤ recordBase
  · rw [if_pos hw, if_pos hw]
  · rw [if_neg hw, if_neg hw]
    by_cases he : a.die.getN Reg.PRL_STO_ADDR < storeSize
    · rw [if_pos he, if_pos he]
    · rw [if_neg he, if_neg he]

theorem Agt.stoReach_of_write (v : Word) : a.stoReach false (some v) = (a.setStoreWord v, 0, 0) := by
  unfold Agt.stoReach Agt.setStoreWord
  simp only [hb, hz, ht, hs, Bool.false_eq_true, false_and, if_false, Bool.not_true]

end

end

/-! ## Interval records of the tap (R416) -/

/-- The length of the tap's interval, µs. -/
def Agt.tapIntervalUs (a : Agt) : Nat := max 1 ((a.tap.cfg.head?.map (·.intervalUs)).getD MeterEnt.initial.intervalUs)

/-- The agent once an interval's end and its energy are noted at the tap. -/
def Agt.closeTapInterval (a : Agt) (endNs energy : Nat) : Agt :=
  { a with tap := { a.tap with sentNs := endNs, energy := (a.tap.energy + energy) % 2 ^ 64 } }

/-- The records of an interval are sent, the repeats of closed entries run down, and an entry whose repeats are spent is dropped. -/
def Agt.sendTapInterval (a : Agt) (interval : Nat) : Agt :=
  let a := a.tapRecord 0 1 interval (a.tap.due 0)
  let a := a.tapRecord 1 1 interval (a.tap.due 1)
  let sent0 := a.tap.slot0.held && a.tap.slot0.sending
  let sent1 := a.tap.slot1.held && a.tap.slot1.sending
  let es := a.tap.entries.map fun e =>
    { e with dirty0 := e.dirty0 && !sent0, dirty1 := e.dirty1 && !sent1,
             repeats := if e.open_ || !(sent0 || sent1) then e.repeats else e.repeats - 1 }
  { a with tap := { a.tap with entries := es.filter fun e => e.open_ || decide (0 < e.repeats) } }

section
variable {a : Agt} {interval energy : Nat}

theorem Agt.tapInterval_of_early (h : a.die.ns < tapDueNs a.fid a.tapIntervalUs interval) : a.tapInterval interval energy = a := by
  unfold Agt.tapInterval
  exact if_pos (Or.inl h)

/-- An interval whose record is due and not yet sent, at a tap that measures energy. -/
theorem Agt.tapInterval_of_due (hdue : tapDueNs a.fid a.tapIntervalUs interval ≤ a.die.ns)
    (hsent : a.tap.sentNs < (interval + 1) * a.tapIntervalUs * 1000) (he : a.tap.energyOn = true) :
    a.tapInterval interval energy =
      ((a.closeTapInterval ((interval + 1) * a.tapIntervalUs * 1000) energy).openEntry 0).sendTapInterval interval := by
  have hnow : ¬(a.die.ns < tapDueNs a.fid a.tapIntervalUs interval
      ∨ (interval + 1) * a.tapIntervalUs * 1000 ≤ a.tap.sentNs ∧ a.tap.sentNs ≤ a.die.ns) :=
    not_or.2 ⟨Nat.not_lt.2 hdue, fun h => Nat.not_le.2 hsent h.1⟩
  have hmeasured : ({ a.tap with sentNs := (interval + 1) * a.tapIntervalUs * 1000 } : Tap).energyOn = true := he
  unfold Agt.tapIntervalUs at hnow hmeasured
  unfold Agt.tapInterval
  dsimp only
  rw [if_neg hnow, if_pos hmeasured]
  rfl

end

/-! ## What the commands answer -/

section
variable {s : State} {w : Who} {g : Agt → Agt}

theorem exec_purlRangeStart {col : Nat} (hu : Up s w) (h : (s.agt w).rangeStart col = g (s.agt w)) :
    exec (.purlRangeStart w col) s = agtDoes s w g := by
  show execPurlRangeStart w col s = _
  exact State.agtNext_up hu h

theorem exec_purlLaneFence {lane : Option Nat} (hu : Up s w) (h : (s.agt w).purlFence lane = g (s.agt w)) :
    exec (.purlLaneFence w lane) s = agtDoes s w g := by
  show execPurlLaneFence w lane s = _
  exact State.agtNext_up hu h

theorem exec_prlStoAccess {path : Path} {val : Option Word} (hu : Up s w) (h : (s.agt w).stoAccess path val = g (s.agt w)) :
    exec (.prlStoAccess w path val) s = agtDoes s w g := by
  show execPrlStoAccess w path val s = _
  exact State.agtNext_up hu h

section
variable {interval energy : Nat}

theorem exec_tapIntervalRecord (hu : Up s w) (h : (s.agt w).tapInterval interval energy = g (s.agt w)) :
    exec (.tapIntervalRecord w interval energy) s = agtDoes s w fun a => a.works Blk.MTP g := by
  show execTapIntervalRecord w interval energy s = _
  exact State.agtNext_up hu (Agt.works_congr h)

theorem exec_tapIntervalRecord_of_unchanged (hu : Up s w) (h : (s.agt w).tapInterval interval energy = s.agt w) :
    exec (.tapIntervalRecord w interval energy) s = agtDoes s w fun a => a := by
  show execTapIntervalRecord w interval energy s = _
  exact State.agtNext_up hu (Agt.works_of_unchanged _ h)

end

end

/-- Settles O21, by the course a range start falls in, by what a fence names, by where PRL_STO_ADDR points in test mode, and by whether an
interval's record is due. -/
theorem purlStoreAndTap : Obligations.PurlStoreAndTap := by
  unfold Obligations.PurlStoreAndTap
  refine ⟨fun s w col hu => exec_purlRangeStart hu rfl, fun s w lane hu => exec_purlLaneFence hu rfl,
    fun s w path val hu => exec_prlStoAccess hu rfl, fun s w interval energy hu => exec_tapIntervalRecord hu rfl,
    ?range_start, ?other_course, ?lane, ?engine, ?locked, ?bytes, ?records, ?interval_due, ?interval_early⟩
  case range_start =>
    intro s w col k d hu hd hf
    exact exec_purlRangeStart hu (Agt.rangeStart_of_first_course hd hf)
  case other_course =>
    intro s w col k d hu hd hf
    exact exec_purlRangeStart hu (Agt.rangeStart_of_other_course hd hf)
  case lane =>
    intro s w l hu hp hl hf
    exact exec_purlLaneFence hu (Agt.purlFence_of_lane hp hl hf)
  case engine =>
    intro s w hu hp hb
    exact exec_purlLaneFence hu (Agt.purlFence_of_engine hp hb)
  case locked =>
    intro s w path val hu hp hb hz ht
    exact exec_prlStoAccess hu (Agt.stoAccess_of_reach hp (Agt.stoReach_of_locked hb hz ht false val))
  case bytes =>
    intro s w path hu hp hs hb hz ht ha
    refine ⟨exec_prlStoAccess hu ?_, fun v => exec_prlStoAccess hu ?_⟩
    · rw [Agt.stoAccess_of_reach hp (Agt.stoReach_of_read hb hz ht hs), Agt.storeWord_of_bytes ha]
    · rw [Agt.stoAccess_of_reach hp (Agt.stoReach_of_write hb hz ht hs v), Agt.setStoreWord_of_bytes v ha]
  case records =>
    intro s w path hu hp hs hb hz ht hr he
    refine ⟨exec_prlStoAccess hu ?_, fun v => exec_prlStoAccess hu ?_⟩
    · rw [Agt.stoAccess_of_reach hp (Agt.stoReach_of_read hb hz ht hs), Agt.storeWord_of_records hr he]
    · rw [Agt.stoAccess_of_reach hp (Agt.stoReach_of_write hb hz ht hs v), Agt.setStoreWord_of_records hr he v]
  case interval_due =>
    rintro s w interval energy us hu rfl hdue hsent he
    exact exec_tapIntervalRecord hu (Agt.tapInterval_of_due hdue hsent he)
  case interval_early =>
    intro s w interval energy hu hearly
    exact exec_tapIntervalRecord_of_unchanged hu (Agt.tapInterval_of_early hearly)

end Sys2Proof.Machine
end

section
/-! PROOFS. The host's measurement extends and other messages, and the watch timers with the messages that restart them. -/

namespace Sys2Proof.Machine

open Sys2Proof.Claim

/-! ## What the credit of a taken message leaves at the agent (R275) -/

@[simp] theorem Agt.emitCredit_msr (a : Agt) (modl : Option Nat) (cls n : Nat) : (a.emitCredit modl cls n).msr = a.msr := by
  cases modl <;> rfl

@[simp] theorem Agt.emitCredit_rcv (a : Agt) (modl : Option Nat) (cls n : Nat) : (a.emitCredit modl cls n).rcv = a.rcv := by
  cases modl <;> rfl

@[simp] theorem Agt.emitCredit_getN (a : Agt) (modl : Option Nat) (cls n key : Nat) :
    (a.emitCredit modl cls n).die.getN key = a.die.getN key := by
  cases modl <;> rfl

@[simp] theorem Agt.emitCredit_resource (a : Agt) (modl : Option Nat) (cls n : Nat) :
    (a.emitCredit modl cls n).die.resource = a.die.resource := by
  cases modl <;> rfl

@[simp] theorem Agt.emitCredit_extendDenied (a : Agt) (modl : Option Nat) (cls n i partition : Nat) :
    (a.emitCredit modl cls n).extendDenied i partition = a.extendDenied i partition := by
  cases modl <;> rfl

/-! ## Measurement registers (R282, R283) -/

theorem Agt.msrExtend_of_permitted {a : Agt} {i partition : Nat} (msgTag kind : Nat) (digest : Digest) (hi : i < 16)
    (hd : a.extendDenied i partition = false) :
    a.msrExtend msgTag i partition kind digest =
      (a.extendMsr i kind partition (digestBytes digest)).extendResult 0 msgTag i
        ((a.extendMsr i kind partition (digestBytes digest)).die.getN Reg.MSR_SEQ) := by
  unfold Agt.msrExtend
  rw [if_neg (Nat.not_le.2 hi), if_neg (by simp [hd])]

theorem exec_msrExtend {s : State} {w : Who} {msgTag register partition kind : Nat} {digest : Digest} {g : Agt → Agt} (hh : Hears s w)
    (h : (credited (s.agt w)).msrExtend msgTag register partition kind digest = g (s.agt w)) :
    exec (.msrExtend w msgTag register partition kind digest) s = agtDoes s w g := by
  show execMsrExtend w msgTag register partition kind digest s = _
  exact State.agtNext_heard hh h

/-- Settles O7: an extend that is permitted reads the register and MSR_SEQ as they stood, since the returned credit leaves both. -/
theorem hostMessages : Obligations.HostMessages := by
  unfold Obligations.HostMessages
  refine ⟨fun s w msgTag register partition kind digest hh => exec_msrExtend hh rfl, ?permitted,
    fun s w val hh => State.agtNext_heard hh rfl, fun s w mtype tag hh => State.agtNext_heard hh rfl⟩
  case permitted =>
    intro s w tag i partition kind digest hh hi hd
    refine exec_msrExtend hh ((Agt.msrExtend_of_permitted tag kind digest hi (by rwa [Agt.emitCredit_extendDenied])).trans ?_)
    simp only [Agt.extendMsr, Agt.extendResult, Agt.emitCredit_msr, Agt.emitCredit_getN]

/-! ## The expiry of a watch timer (R324, R325) -/

section
variable {a : Agt} {k start : Nat} {t : Timer}

theorem Agt.watchExpire_of_due (ht : tget a.rcv.timers k = some t) (hs : t.startNs = some start) (hr : a.inRecovery = false)
    (h0 : a.die.resource.timers.getD k 0 ≠ 0) (h6 : a.die.resource.timers.getD k 0 ≠ 6) (hdue : start + t.timeoutUs * 1000 ≤ a.die.up) :
    a.watchExpire k = a.expire k t := by
  unfold Agt.watchExpire
  simp only [ht, hs]
  rw [if_neg (not_or.2 ⟨ne_true_of_eq_false hr, not_or.2 ⟨h0, h6⟩⟩), if_pos hdue]

theorem Agt.watchExpire_of_inRecovery (hr : a.inRecovery = true) : a.watchExpire k = a := by
  unfold Agt.watchExpire
  split
  · rfl
  · split
    · rfl
    · exact if_pos (.inl hr)

end

/-! ## The messages that restart a watch timer (R284) -/

section
variable {a : Agt} {k owner start : Nat} {t : Timer}

theorem Agt.restartMsg_of_unset (ht : tget a.rcv.timers k = none) : a.restartMsg k owner = a.count Reg.AGT_CNT_MSG_DENIED := by
  unfold Agt.restartMsg
  rw [ht]

theorem Agt.restartMsg_of_other_owner (ht : tget a.rcv.timers k = some t) (ho : a.die.resource.timers.getD k 0 ≠ owner) :
    a.restartMsg k owner = a.count Reg.AGT_CNT_MSG_DENIED := by
  unfold Agt.restartMsg
  simp only [ht]
  exact if_pos ho

theorem Agt.restartMsg_of_expired (ht : tget a.rcv.timers k = some t) (ho : a.die.resource.timers.getD k 0 = owner)
    (he : t.expired = true) : a.restartMsg k owner = a.count Reg.AGT_CNT_HB_LATE := by
  unfold Agt.restartMsg
  simp only [ht]
  rw [if_neg (not_not_intro ho), if_pos he]

/-- The message for a timer of its owner that runs: the wait's moment alone decides, where no injected fault does. -/
theorem Agt.restartMsg_of_running (ht : tget a.rcv.timers k = some t) (hs : t.startNs = some start) (he : t.expired = false)
    (hw : a.die.takeWait Blk.WCH = (false, a.die)) (ho : a.die.resource.timers.getD k 0 = owner) :
    a.restartMsg k owner =
      if start + t.timeoutUs * 1000 < a.die.up then (a.expire k t).count Reg.AGT_CNT_HB_LATE
      else { a with rcv := { a.rcv with timers := tset a.rcv.timers k { t with startNs := some a.die.up } } } := by
  unfold Agt.restartMsg
  simp only [ht, hs, hw]
  rw [if_neg (not_not_intro ho), if_neg (by simp [he])]
  simp only [Bool.false_eq_true, false_or]

end

/-! ## What the commands of watch timers answer -/

section
variable {s : State} {w : Who} {timer engine : Nat} {g : Agt → Agt}

theorem exec_watchExpire (hu : Up s w) (h : (s.agt w).works Blk.WCH (·.watchExpire timer) = g (s.agt w)) :
    exec (.watchExpire w timer) s = agtDoes s w g := by
  show execWatchExpire w timer s = _
  exact State.agtNext_up hu h

theorem exec_heartbeat (hh : Hears s w) (h : (credited (s.agt w)).restartMsg timer 1 = g (s.agt w)) :
    exec (.heartbeat w timer) s = agtDoes s w g := by
  show execHeartbeat w timer s = _
  exact State.agtNext_heard hh h

theorem exec_progress (hh : Hears s w) (h : (credited (s.agt w)).restartMsg timer 2 = g (s.agt w)) :
    exec (.progress w timer engine) s = agtDoes s w g := by
  show execProgress w timer engine s = _
  exact State.agtNext_heard hh h

end

/-- Settles O8, by whether the timer is set, whose it is, whether it has expired, and whether the message comes in time: HEARTBEAT and
PROGRESS differ in the owner alone. -/
theorem watchTimers : Obligations.WatchTimers := by
  unfold Obligations.WatchTimers
  refine ⟨fun s w timer hh => exec_heartbeat hh rfl, fun s w timer engine hh => exec_progress hh rfl,
    fun s w timer hu => exec_watchExpire hu rfl, ?due, ?in_recovery, ?in_time, ?late, ?turned_away, ?unset⟩
  case due =>
    intro s w k start t hu ht hs hr h0 h6 hdue
    exact exec_watchExpire hu (Agt.works_congr (Agt.watchExpire_of_due ht hs hr h0 h6 hdue))
  case in_recovery =>
    intro s w k hu hr
    exact exec_watchExpire hu (Agt.works_of_unchanged _ (Agt.watchExpire_of_inRecovery hr))
  case in_time =>
    intro s w k start engine t hh ht hs he hw hle
    rw [← Agt.emitCredit_rcv] at ht
    rw [← Agt.emitCredit_resource]
    have restarts {owner : Nat} (ho : (credited (s.agt w)).die.resource.timers.getD k 0 = owner) :=
      (Agt.restartMsg_of_running ht hs he hw ho).trans (if_neg (Nat.not_lt.2 hle))
    exact ⟨fun ho => exec_heartbeat hh (restarts ho), fun ho => exec_progress hh (restarts ho)⟩
  case late =>
    intro s w k start engine t hh ht hs he hw hlt
    rw [← Agt.emitCredit_rcv] at ht
    rw [← Agt.emitCredit_resource]
    have expires {owner : Nat} (ho : (credited (s.agt w)).die.resource.timers.getD k 0 = owner) :=
      (Agt.restartMsg_of_running ht hs he hw ho).trans (if_pos hlt)
    exact ⟨fun ho => exec_heartbeat hh (expires ho), fun ho => exec_progress hh (expires ho)⟩
  case turned_away =>
    intro s w k engine t hh ht
    rw [← Agt.emitCredit_rcv] at ht
    rw [← Agt.emitCredit_resource]
    exact ⟨fun ho => exec_heartbeat hh (Agt.restartMsg_of_other_owner ht ho),
      fun ho => exec_progress hh (Agt.restartMsg_of_other_owner ht ho),
      fun ho he => exec_heartbeat hh (Agt.restartMsg_of_expired ht ho he),
      fun ho he => exec_progress hh (Agt.restartMsg_of_expired ht ho he)⟩
  case unset =>
    intro s w k engine hh ht
    rw [← Agt.emitCredit_rcv] at ht
    exact ⟨exec_heartbeat hh (Agt.restartMsg_of_unset ht), exec_progress hh (Agt.restartMsg_of_unset ht)⟩

end Sys2Proof.Machine
end

section
/-! PROOFS. Identity blocks, the keys of naming and the loss of the reference clock. -/

namespace Sys2Proof.Machine

open Sys2Proof.Claim

/-! ## Identity blocks over a trained lane (R300, R301) -/

section
variable {a : Agt} {l : Nat} {blk : IdBlock}

theorem Agt.laneCheck_of_foreign (hfar : blk.fabricId ≠ 0) (hnear : a.die.getN Reg.AGT_FABRIC_ID ≠ 0)
    (hne : blk.fabricId ≠ a.die.getN Reg.AGT_FABRIC_ID) :
    a.laneCheck l blk = (a.withdraw l).modLane l fun x => { x with state := 3, detail := 7 } := by
  unfold Agt.laneCheck
  exact if_pos (by simp [hfar, hnear, hne])

theorem Agt.laneCheck_of_outside_window (hfar : blk.fabricId = 0) (hup : (a.lane l).state = 2)
    (hlevel : levelsMeet a.die.fw.linkLevel blk.linkLevel = false) :
    a.laneCheck l blk = (a.modLane l fun x => { x with state := 4 }).raise Ev.LNK_LINK_QUARANTINE l := by
  unfold Agt.laneCheck
  simp [hfar, hup, hlevel]

theorem Agt.identityBlock_of_trained (ht : (a.lane l).trained = true) :
    a.identityBlock l blk =
      let b := ((a.modLane l fun x => { x with far := some blk, heard := true }).laneCheck l blk).modLink (a.lane l).bond fun k =>
        { k with farSkew := ofTwos 32 blk.skew }
      let b := if b.regime && b.castState ≥ 4 && b.cast.sponsorLane = some l then
          b.onDie fun d => d.fset Fl.AGT_CST_STATUS_sponsor_epoch_bit blk.epochBit
        else b
      if (a.lane l).far = some blk ∧ (a.lane l).heard = true then b.checkReady else b.checkReady.reportGroup blk := by
  unfold Agt.identityBlock
  exact if_neg (by simp [ht])

end

/-! ## The keys of naming (R381, R464) -/

section
variable {a : Agt} {wm : Worm}

theorem Agt.keyEncaps_of_unnamed (hr : a.pins.rstN = true) (hp : markPriv (wormMark wm) = 2) (hc : a.castState = 3) :
    a.keyEncaps wm =
      ({ a with gcm := { a.gcm with keys := some (agentKeysOf (Config.kemDecaps (agentKeyName a.dieId) (slice wm.payload 0 1568)) a.dieId
        wm.dstFid (fieldAt wm.payload 1568 8)) } } : Agt).onDie fun d => d.setN Reg.GCM_WRAP_SEQ 0 := by
  unfold Agt.keyEncaps
  rw [if_neg (by simp [hr]), if_neg (not_not.2 hp), if_neg (not_not.2 hc)]

theorem Agt.keyEncaps_of_other_privilege (hr : a.pins.rstN = true) (hp : markPriv (wormMark wm) ≠ 2) :
    a.keyEncaps wm = a.onDie Die.markDenied := by
  unfold Agt.keyEncaps
  rw [if_neg (by simp [hr]), if_pos hp]

theorem Agt.keyEncaps_of_other_state (hr : a.pins.rstN = true) (hp : markPriv (wormMark wm) = 2) (hc : a.castState ≠ 3) :
    a.keyEncaps wm = a.count Reg.GCM_CNT_WRAP_REFUSED := by
  unfold Agt.keyEncaps
  rw [if_neg (by simp [hr]), if_neg (not_not.2 hp), if_pos hc]

end

/-! ## What the commands answer -/

section
variable {s : State} {w : Who} {l inBond : Nat} {blk : IdBlock} {wm : Worm} {g : Agt → Agt}

theorem exec_identityBlock (hu : Up s w) (h : (s.agt w).identityBlock l blk = g (s.agt w)) :
    exec (.identityBlock w l blk) s = agtDoes s w g := by
  show execIdentityBlock w l blk s = _
  exact State.agtNext_up hu h

theorem exec_keyEncaps (hu : Up s w) (h : (s.agt w).keyEncaps wm = g (s.agt w)) : exec (.keyEncaps w inBond wm) s = agtDoes s w g := by
  show execKeyEncaps w inBond wm s = _
  exact State.agtNext_up hu h

theorem exec_refclkLoss_twd (hu : Up s .twd) : exec (.refclkLoss (.agt .twd)) s = agtDoes s .twd (·.fence 0xFFFF) := by
  show execRefclkLoss (.agt .twd) s = _
  exact State.agtNext_up hu rfl

/-- R541: on Pelron the embedded agent is fenced and the master stops, whichever of the two is named. -/
theorem exec_refclkLoss_pelron (hu : Up s .emb) {pl : Place} (hpl : pl = .ctl ∨ pl = .agt .emb) :
    exec (.refclkLoss pl) s = ctlDoes (s.onAgt .emb (·.fence 0xFFFF)) Ctl.refclkLoss := by
  have hfence : (s.onAgt .emb fun a => if a.pins.rstN then a.fence 0xFFFF else a) = s.onAgt .emb (·.fence 0xFFFF) :=
    State.onAgt_congr (if_pos hu)
  show execRefclkLoss pl s = _
  rw [← hfence]
  obtain rfl | rfl := hpl <;> rfl

end

/-- Settles O16, by what the check of a lane finds, and by the mark and the state that KEY_ENCAPS meets. -/
theorem identityAndKeys : Obligations.IdentityAndKeys := by
  unfold Obligations.IdentityAndKeys
  refine ⟨fun s w lane blk hu => exec_identityBlock hu rfl, fun s w inBond wm hu => exec_keyEncaps hu rfl,
    fun s hu => exec_refclkLoss_twd hu, fun s hu => ⟨exec_refclkLoss_pelron hu (.inl rfl), exec_refclkLoss_pelron hu (.inr rfl)⟩,
    ?trained, fun a l blk => Agt.laneCheck_of_foreign, fun a l blk => Agt.laneCheck_of_outside_window, ?unnamed, ?other_privilege,
    ?other_state⟩
  case trained =>
    intro s w l blk hu ht
    exact exec_identityBlock hu (Agt.identityBlock_of_trained ht)
  case unnamed =>
    intro s w inBond wm hu hp hc
    exact exec_keyEncaps hu (Agt.keyEncaps_of_unnamed hu hp hc)
  case other_privilege =>
    intro s w inBond wm hu hp
    exact exec_keyEncaps hu (Agt.keyEncaps_of_other_privilege hu hp)
  case other_state =>
    intro s w inBond wm hu hp hc
    exact exec_keyEncaps hu (Agt.keyEncaps_of_other_state hu hp hc)

end Sys2Proof.Machine
end

section
/-! PROOFS. The eyes that a health sample of an agent counts. -/

namespace Sys2Proof.Machine

open Sys2Proof.Claim

/-- The block with the packaged agent out of reset, which has no bond yet. -/
def State.releasedTwd : State := { State.reset with twd := { State.reset.twd with pins := { State.reset.twd.pins with rstN := true } } }

/-- A sample that names an eye of 10 mV at lane 0, below the limit of R363. -/
def Health.lowEyeOfLaneZero : Health := { temps := [], rails := [], powerMw := 0, windowPowerMw := 0, eyes := [(0, 10)], ms := 0 }

/-- The lowest eye height that the packaged agent's health block holds after a command. -/
def Res.twdEye : Res → Option Nat
  | .next t => t.twd.tel.health.map (·.eye)
  | _ => none

/-- R363, R355: lane 0 is in no bond, so its eye is none of an active lane and the block takes no eye height from it. -/
theorem twdEye_healthSample_of_inactive_lane :
    Res.twdEye (exec (.healthSample (.agt .twd) Health.lowEyeOfLaneZero) State.releasedTwd) = some 0 := by decide +kernel

/-- Refutes O30: its clause of HEALTH_SAMPLE at an agent takes every eye that the sample names, and the model takes those of active lanes
alone (R363: EYE_LOW is an active lane's). At an agent without bonds the clause's health block shows the 10 mV of lane 0, the model's 0. -/
theorem not_healthGaugeWear : ¬ Obligations.HealthGaugeWear := by
  unfold Obligations.HealthGaugeWear
  rintro ⟨-, -, -, -, -, -, -, -, -, -, -, hagent, -⟩
  have hclause := congrArg Res.twdEye (hagent State.releasedTwd .twd Health.lowEyeOfLaneZero rfl)
  rw [twdEye_healthSample_of_inactive_lane] at hclause
  exact absurd hclause (by decide +kernel)

end Sys2Proof.Machine
end

section
/-! PROOFS. The state after reset. -/

namespace Sys2Proof.Machine

open Sys2Proof.Claim

/-! ## A die after reset (R302, R533; log entry 8) -/

section
variable (part : Part) (mode : Nat)

theorem Die.get_reset (key : Nat) : (Die.reset part mode).get key = resetOf key := rfl

/-- No part is reset into its safe state. -/
theorem Die.safe_reset : (Die.reset part mode).safe = false := by
  unfold Die.safe Die.fget Die.getN
  rw [Die.get_reset]
  decide

end

theorem State.die_reset (p : Place) : ∃ part mode, State.reset.die p = Die.reset part mode := by
  cases p with
  | ctl => exact ⟨.pln9400, 2, rfl⟩
  | agt w => cases w with
    | twd => exact ⟨.twd210, 0, rfl⟩
    | emb => exact ⟨.embedded, 2, rfl⟩

theorem State.agt_reset (w : Who) : ∃ part pins, pins.rstN = false ∧ State.reset.agt w = Agt.fresh part 0 pins FwRx.reset := by
  cases w with
  | twd => exact ⟨.twd210, _, rfl, rfl⟩
  | emb => exact ⟨.embedded, _, rfl, rfl⟩

/-- Settles O54: each die is one just reset, and each agent one that is held in reset. -/
theorem resetState : Obligations.ResetState := by
  unfold Obligations.ResetState
  refine ⟨rfl, ⟨rfl, rfl, rfl, rfl⟩, ?registers, ?die, rfl, ?held, ?tables⟩
  case registers =>
    intro p key
    obtain ⟨part, mode, h⟩ := State.die_reset p
    rw [h, Die.get_reset]
  case die =>
    intro p
    obtain ⟨part, mode, h⟩ := State.die_reset p
    rw [h]
    exact ⟨rfl, rfl, rfl, rfl, Die.safe_reset part mode, rfl⟩
  case held =>
    intro w
    obtain ⟨part, pins, hpins, h⟩ := State.agt_reset w
    rw [h]
    exact hpins
  case tables =>
    intro w
    obtain ⟨part, pins, -, h⟩ := State.agt_reset w
    rw [h]
    exact ⟨rfl, rfl, rfl⟩

end Sys2Proof.Machine
end

section
/-! PROOFS. The waits of a recovery level, and what ends them. -/

namespace Sys2Proof.Machine

open Sys2Proof.Claim

/-! ## Levels that fail (R327, R443) -/

section
variable {a : Agt} {level target n : Nat} {f : Agt → Agt}

theorem Agt.failLevel_of_escalating (he : a.rcv.escalate = true) (hl : a.recLevel < 5) (hs : a.die.safe = false)
    (hn : (a.report a.recLevel reportFailed).levelFrom (a.recLevel + 1) = some n) :
    a.failLevel = (a.report a.recLevel reportFailed).runLevel n 0xFF := by
  unfold Agt.failLevel
  simp only [he, hl, hs, hn, decide_true, Bool.not_false, Bool.and_self, if_true]

theorem Agt.failLevel_of_not_escalating (h : a.rcv.escalate = false ∨ a.die.safe = true) :
    a.failLevel = (a.report a.recLevel reportFailed).exhaust := by
  unfold Agt.failLevel
  refine if_neg ?_
  rcases h with h | h <;> simp [h]

theorem Agt.levelTimeout_of_late (h : a.levelLate = true) : a.levelTimeout = a.stopTray.failLevel := by
  unfold Agt.levelTimeout
  exact if_pos h

/-! ## Arrivals that a level waits for (R328, R343) -/

theorem Agt.arrived_of_late (hw : a.die.takeWait Blk.WCH = (false, a.die)) (h : a.levelLate = true) :
    a.arrived f = (a.count Reg.WCH_CNT_LATE_ARRIVAL).stopTray.failLevel := by
  unfold Agt.arrived
  rw [hw]
  exact if_pos (.inr h)

theorem Agt.arrived_in_time (hw : a.die.takeWait Blk.WCH = (false, a.die)) (h : a.levelLate = false) : a.arrived f = f a := by
  unfold Agt.arrived
  rw [hw]
  exact if_neg (by simp [h])

theorem Agt.resetDone_of_other_wait (result : Nat) (h : a.recState ≠ 3 ∨ a.recLevel ≠ level) :
    a.resetDone level target result = a.count Reg.WCH_CNT_LATE_ARRIVAL := by
  unfold Agt.resetDone
  exact if_pos h

theorem Agt.resetDone_of_late (target result : Nat) (hst : a.recState = 3) (hlv : a.recLevel = level)
    (hw : a.die.takeWait Blk.WCH = (false, a.die)) (hl : a.levelLate = true) :
    a.resetDone level target result = (a.count Reg.WCH_CNT_LATE_ARRIVAL).stopTray.failLevel := by
  unfold Agt.resetDone
  rw [if_neg (by simp [hst, hlv])]
  exact Agt.arrived_of_late hw hl

/-- Result DONE ends a level that the host resets whole by one command (R328). -/
theorem Agt.resetDone_done (target : Nat) (hst : a.recState = 3) (hlv : a.recLevel = level) (h3 : level ≤ 3)
    (hw : a.die.takeWait Blk.WCH = (false, a.die)) (hl : a.levelLate = false) :
    a.resetDone level target 0 = (a.onDie fun d => d.fset Fl.WCH_STATUS_target target).endLevel level := by
  unfold Agt.resetDone
  rw [if_neg (by simp [hst, hlv])]
  exact (Agt.arrived_in_time hw hl).trans (if_pos h3)

/-- Results FAILED and UNSUPPORTED (R328). -/
theorem Agt.resetDone_failed (target : Nat) (hst : a.recState = 3) (hlv : a.recLevel = level)
    (hw : a.die.takeWait Blk.WCH = (false, a.die)) (hl : a.levelLate = false) {result : Nat} (hres : result = 1 ∨ result = 2) :
    a.resetDone level target result = (a.onDie fun d => d.fset Fl.WCH_STATUS_target target).failLevel := by
  unfold Agt.resetDone
  rw [if_neg (by simp [hst, hlv])]
  refine (Agt.arrived_in_time hw hl).trans ?_
  obtain rfl | rfl := hres <;> rfl

/-- Result STARTED of level 4: the host goes on to HOST_READY (R328). -/
theorem Agt.resetDone_started (target : Nat) (hst : a.recState = 3) (hlv : a.recLevel = 4)
    (hw : a.die.takeWait Blk.WCH = (false, a.die)) (hl : a.levelLate = false) :
    a.resetDone 4 target 3 =
      ((a.onDie fun d => d.fset Fl.WCH_STATUS_target target).onDie fun d => d.fset Fl.AGT_HIF_STATUS_host_ready 0).setRec 4 := by
  unfold Agt.resetDone
  rw [if_neg (by simp [hst, hlv])]
  exact Agt.arrived_in_time hw hl

theorem Agt.hostReady_outside_recovery (hr : a.pins.rstN = true)
    (hc : (a.onDie fun d => d.fset Fl.AGT_HIF_STATUS_host_ready 1).recomputeSpace.reopen.castState ≠ 2)
    (h0 : (a.onDie fun d => d.fset Fl.AGT_HIF_STATUS_host_ready 1).recomputeSpace.reopen.recState = 0) :
    a.hostReady = (a.onDie fun d => d.fset Fl.AGT_HIF_STATUS_host_ready 1).recomputeSpace.reopen := by
  unfold Agt.hostReady
  simp only [hr, Bool.not_true, Bool.false_eq_true, if_false, hc, h0]
  rfl

theorem Agt.trayAck_of_not_asked (h : a.pins.trayReqN = true) : a.trayAck = { a with pins := { a.pins with trayAckN := false } } := by
  unfold Agt.trayAck
  exact if_pos (by simp [h])

theorem Agt.trayAck_of_asked (h : a.pins.trayReqN = false) :
    a.trayAck =
      let a : Agt := { a with pins := { a.pins with trayAckN := false, trayReqN := true }, rcv := { a.rcv with trayed := true } }
      let a := a.emit (.pin "TRAY_REQ_N" true)
      let a : Agt := { a with cast := { a.cast with modules := a.cast.modules.map fun m => if m = 2 then 1 else m } }
      let a := a.onDie fun d => d.fset Fl.AGT_HIF_STATUS_host_ready 0
      let a := if a.isSwitch then a else a.withdrawAll
      if a.recState = 5 then a.arrived fun a => a.stopTray.setRec 4 else a.count Reg.WCH_CNT_LATE_ARRIVAL := by
  unfold Agt.trayAck
  exact if_neg (by simp [h])

theorem Agt.drainComplete_of_drained (hb : a.die.fget Fl.WCH_STATUS_bind_off ≠ 0) (hd : a.rcv.drained = false)
    (ho : (a.flow.tracker.any fun t => t.heldStatus.isNone) = false) :
    a.drainComplete = ({ a with flow := { a.flow with tracker := [] }, rcv := { a.rcv with drained := true } } : Agt).proceed := by
  unfold Agt.drainComplete
  exact if_neg (by simp [hb, hd, ho])

end

/-! ## What the commands answer -/

section
variable {s : State} {w : Who} {level target result : Nat} {g : Agt → Agt}

theorem exec_resetDone (hh : Hears s w) (h : (credited (s.agt w)).resetDone level target result = g (s.agt w)) :
    exec (.resetDone w level target result) s = agtDoes s w g := by
  show execResetDone w level target result s = _
  exact State.agtNext_heard hh h

theorem exec_hostReady (hh : Hears s w) (h : (credited (s.agt w)).hostReady = g (s.agt w)) :
    exec (.hostReady w) s = agtDoes s w g := by
  show execHostReady w s = _
  exact State.agtNext_heard hh h

theorem exec_recoveryLevelTimeout (hu : Up s w) (h : (s.agt w).levelTimeout = g (s.agt w)) :
    exec (.recoveryLevelTimeout w) s = agtDoes s w g := by
  show execRecoveryLevelTimeout w s = _
  exact State.agtNext_up hu h

theorem exec_trayAck (h : (s.agt w).trayAck = g (s.agt w)) : exec (.trayAck w) s = agtDoes s w g := by
  show execTrayAck w s = _
  exact congrArg Host.Outcome.next (State.onAgt_congr h)

theorem exec_bindOffDrainComplete (hu : Up s w) (h : (s.agt w).drainComplete = g (s.agt w)) :
    exec (.bindOffDrainComplete w) s = agtDoes s w g := by
  show execBindOffDrainComplete w s = _
  exact State.agtNext_up hu h

end

/-- Settles O9, by the state and the level that an arrival finds, by the bound of the level's wait, and by the arrival's result. -/
theorem recoveryWaits : Obligations.RecoveryWaits := by
  unfold Obligations.RecoveryWaits
  refine ⟨fun s w level target result hh => exec_resetDone hh rfl, fun s w hh => exec_hostReady hh rfl,
    fun s w hu => exec_recoveryLevelTimeout hu rfl, fun s w => exec_trayAck rfl, fun s w hu => exec_bindOffDrainComplete hu rfl,
    fun s w hu hl => exec_recoveryLevelTimeout hu (Agt.levelTimeout_of_late hl), fun a n => Agt.failLevel_of_escalating,
    fun a => Agt.failLevel_of_not_escalating, ?done, ?failed, ?started, ?other_wait, ?late, ?host_ready, ?tray_unasked, ?tray_asked,
    fun s w => rfl, ?drained⟩
  case done =>
    intro s w level target hh hst hlv h3 hl hw
    exact exec_resetDone hh (Agt.resetDone_done target hst hlv h3 hw hl)
  case failed =>
    intro s w level target result hh hst hlv hl hw hres
    exact exec_resetDone hh (Agt.resetDone_failed target hst hlv hw hl hres)
  case started =>
    intro s w target hh hst hlv hl hw
    exact exec_resetDone hh (Agt.resetDone_started target hst hlv hw hl)
  case other_wait =>
    intro s w level target result hh h
    exact exec_resetDone hh (Agt.resetDone_of_other_wait result h)
  case late =>
    intro s w level target result hh hst hlv hl hw
    exact exec_resetDone hh (Agt.resetDone_of_late target result hst hlv hw hl)
  case host_ready =>
    intro s w hh hc h0 hr
    exact exec_hostReady hh (Agt.hostReady_outside_recovery hr hc h0)
  case tray_unasked =>
    intro s w h
    exact exec_trayAck (Agt.trayAck_of_not_asked h)
  case tray_asked =>
    intro s w h
    exact exec_trayAck (Agt.trayAck_of_asked h)
  case drained =>
    intro s w hu hb hd ho
    exact exec_bindOffDrainComplete hu (Agt.drainComplete_of_drained hb hd ho)

end Sys2Proof.Machine
end

section
/-! PROOFS. The controller's commands to a recovery, the host's dump data, and the records of a dump. -/

namespace Sys2Proof.Machine

open Sys2Proof.Claim

/-! ## RECOVERY_CMD at an agent (R330, R331) -/

section
variable {a : Agt} {level target flags lv : Nat}

theorem Agt.recoveryCmd_of_unknown_level (hs : a.die.safe = false) (hr : a.pins.rstN = true) (hf : bitOf flags 1 = false)
    (h : level = 0 ∨ 5 < level ∨ (a.isSwitch = true ∧ level < 4)) :
    a.recoveryCmd level target flags = a.report level reportFailed := by
  unfold Agt.recoveryCmd
  rw [if_neg (by simp [hs, hr]), if_neg (by simp [hf]), if_pos h]

/-- Past its guards a command meets the level in progress, and then the levels that the agent has. -/
theorem Agt.recoveryCmd_of_known_level (hs : a.die.safe = false) (hr : a.pins.rstN = true) (hf : bitOf flags 1 = false) (h1 : 1 ≤ level)
    (h5 : level ≤ 5) (hsw : a.isSwitch = false ∨ 4 ≤ level) :
    (level ≤ a.recLevel → a.recoveryCmd level target flags = a.report level reportBusy)
    ∧ (a.recLevel < level → a.levelFrom level = some lv →
      a.recoveryCmd level target flags =
        let b := if a.recLevel = 0 then a else a.cutDump.stopTray.report a.recLevel reportFailed
        (({ b with rcv := { b.rcv with escalate := bitOf flags 0, lastTaken := 0 } } : Agt).onDie fun d =>
          d.fset Fl.WCH_STATUS_origin 2).runLevel lv target) := by
  have hknown : ¬ (level = 0 ∨ 5 < level ∨ (a.isSwitch = true ∧ level < 4)) := by
    rintro (h | h | ⟨h, hlt⟩)
    · omega
    · omega
    · rcases hsw with hsw | hsw
      · simp [hsw] at h
      · omega
  unfold Agt.recoveryCmd
  rw [if_neg (by simp [hs, hr]), if_neg (by simp [hf]), if_neg hknown]
  refine ⟨fun hb => if_pos hb, fun hlt hlv => ?_⟩
  rw [if_neg (by omega)]
  simp only [hlv]

end

/-! ## MEMDATA and the end of a wait for it (R278, R335, R340) -/

section
variable {a : Agt} {d : Dump} {tag blk half : Nat} {data lo : Bytes}

theorem Agt.memdata_without_dump (h : a.rcv.dump = none) : a.memdata tag data = a.count Reg.WCH_CNT_LATE_ARRIVAL := by
  unfold Agt.memdata
  rw [h]

theorem Agt.memdata_of_late (hd : a.rcv.dump = some d) (hr : d.reads.find? (fun x => x.1 = tag) = some (tag, blk, half))
    (hw : a.die.takeWait Blk.WCH = (false, a.die)) (hlate : d.issuedNs + blockWaitNs < a.die.up) :
    a.memdata tag data = (a.blockEnds d blk .noAnswer).count Reg.WCH_CNT_LATE_ARRIVAL := by
  unfold Agt.memdata
  simp only [hd, hr, hw]
  exact if_pos (.inr hlate)

/-- Half a block of data, no refusal, in time: with both halves there the block ends VALID. -/
theorem Agt.memdata_of_second_half (hd : a.rcv.dump = some d) (hr : d.reads.find? (fun x => x.1 = tag) = some (tag, blk, 1))
    (hw : a.die.takeWait Blk.WCH = (false, a.die)) (hlen : data.length = 2048) (hup : a.die.up ≤ d.issuedNs + blockWaitNs)
    (h0 : d.halves.find? (fun x => x.1 = blk && x.2.1 = 0) = some (blk, 0, lo))
    (h1 : d.halves.find? (fun x => x.1 = blk && x.2.1 = 1) = none) :
    a.memdata tag data =
      a.blockEnds { d with reads := d.reads.filter (fun x => x.1 ≠ tag), halves := d.halves ++ [(blk, 1, data)] } blk
        (.valid (lo ++ data)) := by
  have hlo : (d.halves ++ [(blk, 1, data)]).find? (fun x => x.1 = blk && x.2.1 = 0) = some (blk, 0, lo) := by
    rw [List.find?_append, h0, Option.some_or]
  have hhi : (d.halves ++ [(blk, 1, data)]).find? (fun x => x.1 = blk && x.2.1 = 1) = some (blk, 1, data) := by
    rw [List.find?_append, h1, Option.none_or]
    simp
  unfold Agt.memdata
  simp only [hd, hr, hw]
  rw [if_neg (by simp [Nat.not_lt.2 hup]), if_neg (by simp [hlen])]
  simp only [slice_of_length hlen, hlo, hhi]

theorem Agt.dumpTimeout_of_register_block (hd : a.rcv.dump = some d) (hn : d.result blk = none) (hb : blk < 16)
    (hdue : d.begunNs + blockWaitNs ≤ a.die.up) : a.dumpTimeout blk = a.blockEnds d blk .noAnswer := by
  unfold Agt.dumpTimeout
  simp only [hd, if_pos hb]
  exact if_neg (by simp [hn, hdue])

theorem Agt.dumpTimeout_of_sample_block (hd : a.rcv.dump = some d) (hn : d.result blk = none) (hb : 16 ≤ blk)
    (hread : (d.reads.any fun x => x.2.1 = blk) = true) (hdue : d.issuedNs + blockWaitNs ≤ a.die.up) :
    a.dumpTimeout blk = a.blockEnds d blk .noAnswer := by
  unfold Agt.dumpTimeout
  simp only [hd, if_neg (Nat.not_lt.2 hb), hread, if_true]
  exact if_neg (by simp [hn, hdue])

end

theorem Ctl.dumpTimeout_of_due {c : Ctl} {d : Dump} {blk : Nat} (hd : c.rcv.dump = some d) (hn : d.result blk = none) (hb : blk < 108)
    (hdue : d.begunNs + blockWaitNs ≤ c.die.up) :
    c.dumpTimeout blk =
      { c with die := c.die.freeVal.2.countN Reg.DMP_CNT_LATE_ARRIVAL (c.die.freeVal.1.toNat % 2),
               rcv := { c.rcv with dump := some (d.put blk .noAnswer) } } := by
  unfold Ctl.dumpTimeout
  simp only [hd]
  exact if_neg (by simp [hn, hb, hdue])

/-! ## What the commands answer -/

section
variable {s : State} {w : Who} {level target flags tag blk : Nat} {data : Bytes} {g : Agt → Agt}

theorem exec_memdata (hu : Up s w) (h : (s.agt w).memdata tag data = g (s.agt w)) : exec (.memdata w tag data) s = agtDoes s w g := by
  show execMemdata w tag data s = _
  exact State.agtNext_up hu h

theorem exec_recoveryCmd (hu : Up s w) (h : (s.agt w).recoveryCmd level target flags = g (s.agt w)) :
    exec (.recoveryCmd w level target flags) s = agtDoes s w g := by
  show execRecoveryCmd w level target flags s = _
  exact State.agtNext_up hu h

theorem exec_dumpBlockTimeout_agt (hu : Up s w) (h : (s.agt w).dumpTimeout blk = g (s.agt w)) :
    exec (.dumpBlockTimeout (.agt w) blk) s = agtDoes s w g := by
  show execDumpBlockTimeout (.agt w) blk s = _
  exact State.agtNext_up hu h

theorem exec_dumpBlockTimeout_ctl {g : Ctl → Ctl} (hu : On s) (h : s.ctl.dumpTimeout blk = g s.ctl) :
    exec (.dumpBlockTimeout .ctl blk) s = ctlDoes s g := by
  show execDumpBlockTimeout .ctl blk s = _
  exact State.ctlNext_on hu h

end

/-- Settles O10, by the level that a command meets, by what a block's read still lacks, and by the time since it began. -/
theorem recoveryCommandsAndDumps : Obligations.RecoveryCommandsAndDumps := by
  unfold Obligations.RecoveryCommandsAndDumps
  refine ⟨fun s w tag data hu => exec_memdata hu rfl, fun s w level target flags hu => exec_recoveryCmd hu rfl,
    fun s block hu => exec_dumpBlockTimeout_ctl hu rfl, fun s w block hu => exec_dumpBlockTimeout_agt hu rfl,
    fun s w sequence count bitmap hu => State.agtNext_up hu rfl, fun s w sequence hu => State.agtNext_up hu rfl, ?notice, ?level_runs,
    ?busy, ?higher_level, ?unknown_level, ?second_half, ?late_data, ?no_dump, ?register_block, ?sample_block, ?controller_block, ?fetch⟩
  case notice =>
    intro s w code partition body hu
    exact State.agtNext_up hu (if_pos hu)
  case level_runs =>
    intro s w level target flags lv hu hs hf h1 h5 hsw h0 hlv
    refine exec_recoveryCmd hu (((Agt.recoveryCmd_of_known_level hs hu hf h1 h5 hsw).2 (by omega) hlv).trans ?_)
    rw [if_pos h0]
  case busy =>
    intro s w level target flags hu hs hf h1 h5 hsw hle
    exact exec_recoveryCmd hu ((Agt.recoveryCmd_of_known_level (lv := 0) hs hu hf h1 h5 hsw).1 hle)
  case higher_level =>
    intro s w level target flags lv hu hs hf h1 h5 hsw h0 hlt hlv
    refine exec_recoveryCmd hu (((Agt.recoveryCmd_of_known_level hs hu hf h1 h5 hsw).2 hlt hlv).trans ?_)
    rw [if_neg h0]
  case unknown_level =>
    intro s w level target flags hu hs hf h
    exact exec_recoveryCmd hu (Agt.recoveryCmd_of_unknown_level hs hu hf h)
  case second_half =>
    intro s w tag blk data lo d hu hd hr hw hlen hup h0 h1
    exact exec_memdata hu (Agt.memdata_of_second_half hd hr hw hlen hup h0 h1)
  case late_data =>
    intro s w tag blk half data d hu hd hr hw hlate
    exact exec_memdata hu (Agt.memdata_of_late hd hr hw hlate)
  case no_dump =>
    intro s w tag data hu hd
    exact exec_memdata hu (Agt.memdata_without_dump hd)
  case register_block =>
    intro s w blk d hu hd hn hb hdue
    exact exec_dumpBlockTimeout_agt hu (Agt.dumpTimeout_of_register_block hd hn hb hdue)
  case sample_block =>
    intro s w blk d hu hd hn hb hread hdue
    exact exec_dumpBlockTimeout_agt hu (Agt.dumpTimeout_of_sample_block hd hn hb hread hdue)
  case controller_block =>
    intro s blk d hu hd hn hb hdue
    exact exec_dumpBlockTimeout_ctl hu (Ctl.dumpTimeout_of_due hd hn hb hdue)
  case fetch =>
    intro s w seq count bitmap r hu hr
    refine State.agtNext_up hu ?_
    rw [hr]

end Sys2Proof.Machine
end

section
/-! PROOFS. Recovery commands of the controller, their reports, the functions it reinitialises and its reset. -/

namespace Sys2Proof.Machine

open Sys2Proof.Claim

/-! ## RCV_CMD and the reports (R330, R342, R343) -/

section
variable {c : Ctl} {val fid level target result origin seq : Nat}

theorem Ctl.rcvCmd_of_outstanding (h : c.die.bget Reg.RCV_CMD_STATUS 1 0 = 1) : c.rcvCmd val = c.raise (Ev.WRITE_IGNORED Blk.RCV) := by
  unfold Ctl.rcvCmd
  exact if_pos h

theorem Ctl.rcvCmd_of_free (h : c.die.bget Reg.RCV_CMD_STATUS 1 0 ≠ 1) :
    c.rcvCmd val =
      let c := (c.sendA (bitsOf val 17 0) 0x02 (le 1 (bitsOf val 20 18) ++ le 1 (bitsOf val 31 24) ++ le 1 (bitsOf val 33 32))).onDie
        fun d => (d.count Reg.RCV_CNT_CMD).setN Reg.RCV_CMD_STATUS 1
      { c with rcv := { c.rcv with cmd := some (bitsOf val 17 0, bitsOf val 20 18, bitsOf val 33 32, c.die.up) } } := by
  unfold Ctl.rcvCmd
  exact if_neg h

/-- Without a command outstanding a report is of a level that the agent began by itself. -/
theorem Ctl.recoveryReport_without_command (h : c.rcv.cmd = none) :
    c.recoveryReport fid level target result origin seq = (c.onDie (·.count Reg.RCV_CNT_REPORTS)).levelReport fid level target result := by
  unfold Ctl.recoveryReport
  simp only [Ctl.onDie_rcv, h]

theorem Ctl.reportTimeout_of_due {flags ns : Nat} (hc : c.rcv.cmd = some (fid, level, flags, ns)) (h2 : bitOf flags 2 = false)
    (h3 : bitOf flags 3 = false) (hdue : ns + 1000000000 ≤ c.die.up) :
    c.reportTimeout =
      ({ c with rcv := { c.rcv with cmd := some (fid, level, flags % 4 + cmdLate, ns) } } : Ctl).rcvStatus 3 0 0 := by
  unfold Ctl.reportTimeout
  simp only [hc]
  exact if_neg (by simp only [h2, h3, Bool.false_eq_true, false_or]; omega)

end

/-! ## Functions that are reinitialised (R344, R345) -/

section
variable {c : Ctl} {e : Agt} {k val : Nat}

theorem Ctl.funcReinit_of_none
    (hbad : (bitList val 64).any (fun k => !(reinitBlocks.contains (c.die.part.blocks.getD k 0xFFFF))) = true)
    (hgood : ((bitList val 64).filter fun k => reinitBlocks.contains (c.die.part.blocks.getD k 0xFFFF) && !(c.rcv.reinit.contains k)) = []) :
    c.funcReinit e val = c.raise (Ev.WRITE_IGNORED Blk.RCV) := by
  unfold Ctl.funcReinit
  simp only [hbad, hgood]
  rfl

theorem Ctl.funcReinit_of_one (hval : bitList val 64 = [k]) (hk : reinitBlocks.contains (c.die.part.blocks.getD k 0xFFFF) = true)
    (hdmp : c.die.part.blocks.getD k 0xFFFF ≠ Blk.DMP) (hnew : c.rcv.reinit.contains k = false) :
    c.funcReinit e val =
      let b := (c.setFunc k 1).onDie fun d => (d.bset Reg.RCV_FUNC_REINIT k k 1).bset Reg.FLC_FENCED k k 1
      ({ b with rcv := { b.rcv with reinit := b.rcv.reinit ++ [k], reinitNs := tset b.rcv.reinitNs k c.die.up } } : Ctl).beginDump 4 := by
  have hknown : ([k].any fun k => !(reinitBlocks.contains (c.die.part.blocks.getD k 0xFFFF))) = false := by
    rw [List.any_cons, hk]
    rfl
  have hgood : ([k].filter fun k => reinitBlocks.contains (c.die.part.blocks.getD k 0xFFFF) && !(c.rcv.reinit.contains k)) = [k] := by
    rw [List.filter_cons_of_pos (by rw [hk, hnew]; rfl), List.filter_nil]
  have hother : ([k].any fun k => decide (c.die.part.blocks.getD k 0xFFFF = Blk.DMP)) = false := by
    rw [List.any_cons, decide_eq_false hdmp]
    rfl
  unfold Ctl.funcReinit
  simp only [hval, hknown, hgood, hother]
  rfl

theorem Ctl.reinitTimeout_of_due (hk : c.rcv.reinit.contains k = true) (hdue : tgetD c.rcv.reinitNs k 0 + 50000000 ≤ c.die.up) :
    c.reinitTimeout k =
      (({ c with rcv := { c.rcv with reinit := c.rcv.reinit.filter (· ≠ k) } } : Ctl).setFunc k 3).onDie (·.bset Reg.RCV_FUNC_REINIT k k 0) := by
  unfold Ctl.reinitTimeout
  exact if_neg (by simp only [hk, Bool.not_true, Bool.false_eq_true, false_or]; omega)

end

/-! ## CTRL_RESET (R346) -/

section
variable {c : Ctl} {e : Agt} {val : Nat}

theorem Ctl.ctrlReset_of_key (hb : bitOf val 0 = true) (hk : bitsOf val 15 8 = 0x5A) :
    c.ctrlReset e val = (((c.cutDump e).startDump 5).endDump e).restarted c.die.testEn := by
  unfold Ctl.ctrlReset
  exact if_neg (by simp [hb, hk])

theorem Ctl.ctrlReset_of_other_key (hk : bitsOf val 15 8 ≠ 0x5A) : c.ctrlReset e val = c := by
  unfold Ctl.ctrlReset
  exact if_pos (.inr hk)

end

/-! ## What the commands answer -/

section
variable {s : State} {val : Word} {k fid level target result origin seq : Nat} {f g : Ctl → Ctl}

theorem exec_rcvCmd (hu : On s) (ht : Takes s.ctl.die Blk.RCV) (h : s.ctl.rcvCmd val.toNat = g s.ctl) :
    exec (.rcvCmd val) s = ctlDoes s g := by
  show execRcvCmd val s = _
  exact State.ctlNext_written hu ht h

theorem exec_recoveryReport (hu : On s)
    (h : s.ctl.works Blk.RCV (fun c => (c.recoveryReport fid level target result origin seq).fdsRetry) = g s.ctl) :
    exec (.recoveryReport fid level target result origin seq) s = ctlDoes s g := by
  show execRecoveryReport fid level target result origin seq s = _
  exact State.ctlNext_on hu h

theorem exec_recoveryReportTimeout (hu : On s) (h : s.ctl.works Blk.RCV Ctl.reportTimeout = g s.ctl) :
    exec .recoveryReportTimeout s = ctlDoes s g := by
  show execRecoveryReportTimeout s = _
  exact State.ctlNext_on hu h

theorem exec_funcReinit (hu : On s) (ht : Takes s.ctl.die Blk.RCV) (h : s.ctl.funcReinit s.emb val.toNat = g s.ctl) :
    exec (.funcReinit val) s = ctlDoes s g := by
  show execFuncReinit val s = _
  exact State.ctlNext_written hu ht h

theorem exec_funcReinitTimeout (hu : On s) (h : s.ctl.reinitTimeout k = g s.ctl) : exec (.funcReinitTimeout k) s = ctlDoes s g := by
  show execFuncReinitTimeout k s = _
  exact State.ctlNext_on hu h

theorem exec_ctrlReset (hu : On s) (ht : Takes s.ctl.die Blk.RCV) (h : s.ctl.ctrlReset s.emb val.toNat = g s.ctl) :
    exec (.ctrlReset val) s = ctlDoes s g := by
  show execCtrlReset val s = _
  exact State.ctlNext_written hu ht h

end

/-- Settles O27, by whether a command is outstanding, by the moments of the two time-outs, by which functions a write of
RCV_FUNC_REINIT names, and by the key value of a reset. -/
theorem recoveryControl : Obligations.RecoveryControl := by
  unfold Obligations.RecoveryControl
  refine ⟨fun s val hu ht => exec_rcvCmd hu ht rfl, fun s fid level target result origin seq hu => exec_recoveryReport hu rfl,
    fun s hu => exec_recoveryReportTimeout hu rfl, fun s val hu ht => exec_funcReinit hu ht rfl,
    fun s block hu => exec_funcReinitTimeout hu rfl, fun s block hu => State.ctlNext_on hu rfl,
    fun s val hu ht => exec_ctrlReset hu ht rfl, ?command_ignored, ?command_sent, ?report, ?report_timeout, ?reinit_none, ?reinit_one,
    ?reinit_timeout, ?hung, ?reset, ?no_reset, fun s hu ht => State.ctlNext_written hu ht rfl⟩
  case command_ignored =>
    intro s val hu ht h
    exact exec_rcvCmd hu ht (Ctl.rcvCmd_of_outstanding h)
  case command_sent =>
    intro s val hu ht h
    exact exec_rcvCmd hu ht (Ctl.rcvCmd_of_free h)
  case report =>
    intro s fid level target result origin seq hu hc
    exact exec_recoveryReport hu (Ctl.works_congr (congrArg Ctl.fdsRetry (Ctl.recoveryReport_without_command hc)))
  case report_timeout =>
    intro s fid level flags ns hu hc h2 h3 hdue
    exact exec_recoveryReportTimeout hu (Ctl.works_congr (Ctl.reportTimeout_of_due hc h2 h3 hdue))
  case reinit_none =>
    intro s val hu ht hbad hgood _
    exact exec_funcReinit hu ht (Ctl.funcReinit_of_none hbad hgood)
  case reinit_one =>
    intro s val k hu ht hval hk hdmp hnew
    exact exec_funcReinit hu ht (Ctl.funcReinit_of_one hval hk hdmp hnew)
  case reinit_timeout =>
    intro s k hu hk hdue
    exact exec_funcReinitTimeout hu (Ctl.reinitTimeout_of_due hk hdue)
  case hung =>
    intro s k hu hk hst
    exact State.ctlNext_on hu (if_neg (not_or.2 ⟨Nat.not_le.2 hk, hst⟩))
  case reset =>
    intro s val hu ht hb hk
    exact exec_ctrlReset hu ht (Ctl.ctrlReset_of_key hb hk)
  case no_reset =>
    intro s val hu ht hk
    exact exec_ctrlReset hu ht (Ctl.ctrlReset_of_other_key hk)

end Sys2Proof.Machine
end

section
/-! PROOFS. Telemetry records and maps, tenant windows, and a change of their configuration. -/

namespace Sys2Proof.Machine

open Sys2Proof.Claim

/-! ## The credit of a message that is taken (R275), once more for telemetry -/

@[simp] theorem Agt.emitCredit_ns (a : Agt) (modl : Option Nat) (cls n : Nat) : (a.emitCredit modl cls n).die.ns = a.die.ns := by
  cases modl <;> rfl

/-- What changes nothing changes nothing either where its block is fenced. -/
theorem Ctl.works_of_unchanged {c : Ctl} (blk : Nat) {f : Ctl → Ctl} (h : f c = c) : c.works blk f = c := by
  unfold Ctl.works
  rw [h, ite_self]

/-! ## An agent's records (R354, R356) -/

section
variable {a : Agt} {window : Nat} {x : TelWindow}

theorem Agt.sendRecord_of_unkept (h : (a.tel.closed.find? fun x => x.window = window) = none) : a.sendRecord window = a := by
  unfold Agt.sendRecord
  rw [h]

theorem Agt.sendRecord_before_due (hx : (a.tel.closed.find? fun x => x.window = window) = some x) (h : a.die.ns < x.dueNs a.fid) :
    a.sendRecord window = a := by
  unfold Agt.sendRecord
  simp only [hx]
  exact if_pos (.inr h)

theorem Agt.sendRecord_of_due (hx : (a.tel.closed.find? fun x => x.window = window) = some x) (he : a.tel.enable = true)
    (h : x.dueNs a.fid ≤ a.die.ns) :
    a.sendRecord window =
      { a with tel := { a.tel with closed := a.tel.closed.filter fun y => y.window ≠ window },
               die := a.die.sendFwd { dst := a.die.controllerFid, op := 0x88, mcast := 0, root := 0, bond := 0xFF, operand := [],
                                      payload := a.recordOf x, block := a.die.part.blockIndex Blk.AGT, privilege := 0 } } := by
  unfold Agt.sendRecord
  simp only [hx]
  exact if_neg (by simp [he, h])

/-- The head of a record at an agent that is no switch, with no flag set. -/
theorem Agt.take_recordOf (hsw : a.isSwitch = false) (hf : x.full = false) (hk : x.skipped = false) (he : x.exceed = false)
    (hu : x.unaligned = false) :
    (a.recordOf x).take 16 = le 1 (recordKind a.mode) ++ le 1 0 ++ le 1 x.k ++ le 1 0 ++ le 4 a.fid ++ le 8 x.window := by
  have hends (t : TelAgt) : ({ a with tel := t } : Agt).isSwitch = false := hsw
  unfold Agt.recordOf
  simp only [hends, hf, hk, he, hu, Bool.false_and, Bool.or_false, b2n, Bool.false_eq_true, if_false, Nat.mul_zero, Nat.add_zero]
  exact List.take_left' (by simp only [List.length_append, length_le])

end

/-! ## HOST_COUNTS (R357) -/

/-- The window length by which an agent measures the lateness of counts: that of the window kept, else its own. -/
def Agt.countsK (a : Agt) (window : Nat) : Nat := ((a.tel.closed.find? fun x => x.window = window).map (·.k)).getD a.tel.k

/-- The counts of a window taken in. -/
def Agt.takeCounts (a : Agt) (window first : Nat) (ents : List (Nat × Nat)) : Agt :=
  let old := if a.tel.countsWindow = window then a.tel.counts else []
  { a with tel := { a.tel with
      counts := (List.range ents.length).foldl (fun (t : Tbl (Nat × Nat)) i => tset t (first + i) (ents.getD i (0, 0))) old,
      countsWindow := window } }

@[simp] theorem Agt.emitCredit_countsK (a : Agt) (modl : Option Nat) (cls n window : Nat) :
    (a.emitCredit modl cls n).countsK window = a.countsK window := by
  cases modl <;> rfl

theorem Agt.countsK_of_unkept {a : Agt} {window : Nat} (h : (a.tel.closed.find? fun x => x.window = window) = none) :
    a.countsK window = a.tel.k := by
  unfold Agt.countsK
  rw [h]
  rfl

theorem exec_hostCounts {s : State} {w : Who} {window first : Nat} {ents : List (Nat × Nat)} {late : Bool} {g : Agt → Agt}
    (hh : Hears s w)
    (h : (if late = true ∨ 8000 + (window + 1) * windowNs ((credited (s.agt w)).countsK window) < (credited (s.agt w)).die.ns then
        (credited (s.agt w)).count Reg.AGT_CNT_MSG_DENIED
      else (credited (s.agt w)).takeCounts window first ents) = g (s.agt w)) :
    exec (.hostCounts w window first ents late) s = agtDoes s w g := by
  show execHostCounts w window first ents late s = _
  exact State.agtNext_heard hh h

/-! ## Maps (R358, R359) -/

section
variable {c : Ctl} {wk k : Nat}

theorem Ctl.mapClose_before_due (hn : c.nextMap = (wk, k)) (h : c.die.ns < windowNs k * (wk + 2) + 90000) : c.mapClose = c := by
  unfold Ctl.mapClose
  rw [hn]
  exact if_pos (by omega)

theorem Ctl.mapClose_of_due (hn : c.nextMap = (wk, k)) (h : windowNs k * (wk + 2) + 90000 ≤ c.die.ns) :
    c.mapClose =
      let got := tgetD c.tel.maps (wk * 2 ^ k * 16 + k) []
      let m := c.mapAgents.foldl (fun (t : Tbl Bytes) a => tset t a.fid ((tget got a.fid).getD (missingRecord a.mode k a.fid wk 0))) []
      let c := (c.onDie (·.countN Reg.TEL_CNT_MISSING (c.mapAgents.filter fun a => (tget got a.fid).isNone).length)).writeSlot 0 wk k m
      let tw := wk * 2 ^ k / 2 ^ c.tel.m
      let tenant := m.foldl (fun (t : Tbl (List Nat)) p =>
        tset t (tw * 2 ^ 18 + p.1) (tenantAdd (tgetD t (tw * 2 ^ 18 + p.1) []) p.2)) c.tel.tenant
      ({ c with tel := { c.tel with maps := c.tel.maps.filter (fun p => decide (wk * 2 ^ k * 16 + k < p.1)), lastClosed := some (wk, k),
                                    group1 := c.tel.group1 ++ [m], tenant := tenant } } : Ctl).closeGroups wk k false := by
  unfold Ctl.mapClose
  rw [hn]
  exact if_neg (by omega)

end

/-! ## Configuration (R353, R370, R371) -/

section
variable {c : Ctl} {val k m at_ : Nat} {en : Bool}

theorem Ctl.writeTelCfg_out_of_range (h : c.die.part.telCfgOk val = false) : c.writeTelCfg val = c.raise (Ev.WRITE_IGNORED Blk.TEL) := by
  unfold Ctl.writeTelCfg
  exact if_pos (by simp [h])

theorem Ctl.writeTelCfg_without_agents (h : c.die.part.telCfgOk val = true) (ha : c.cst.agents = []) :
    c.writeTelCfg val =
      { c with die := c.die.setN Reg.TEL_CFG (val % 512),
               tel := { c.tel with change := some (bitsOf val 3 0, bitsOf val 7 4, bitOf val 8, ceilDiv (c.die.ns + 20000000) 16384000) } } := by
  unfold Ctl.writeTelCfg
  rw [if_neg (by simp [h])]
  simp only [ha, List.map_nil, List.filter_nil, List.foldl_nil, Nat.add_comm]

theorem Ctl.telChange_before_due (hc : c.tel.change = some (k, m, en, at_)) (h : c.die.ns < 16384000 * at_) : c.telChange = c := by
  unfold Ctl.telChange
  simp only [hc]
  exact if_pos h

/-- A change that keeps the window's length closes no group. -/
theorem Ctl.telChange_of_same_length (hc : c.tel.change = some (c.tel.k, m, en, at_)) (h : 16384000 * at_ ≤ c.die.ns) :
    c.telChange = { c with tel := { c.tel with m := m, enable := en, change := none } } := by
  unfold Ctl.telChange
  simp only [hc]
  rw [if_neg (Nat.not_lt.2 h)]
  simp only [ne_eq, not_true_eq_false, if_false]

/-- A change past its moment at an agent that measured already cuts the window. -/
theorem Agt.telChange_of_late {a : Agt} (hk : a.die.fget Fl.AGT_TEL_CFG_window_log2 ≠ a.tel.k) (he : a.tel.enable = true)
    (h : 16384000 * a.die.fget Fl.AGT_TEL_CFG_change_at + 6 < a.die.ns) :
    a.telChange =
      { a with tel := { a.tel with k := a.die.fget Fl.AGT_TEL_CFG_window_log2,
                                   enable := decide (a.die.fget Fl.AGT_TEL_CFG_enable = 1), partialFlag := true } } := by
  unfold Agt.telChange
  dsimp only
  rw [if_neg (by simp only [hk, false_and, false_or]; omega), if_pos he]
  simp only [h, decide_true, Bool.or_true]

end

/-! ## What the commands answer -/

section
variable {s : State} {w : Who} {window fid : Nat} {rec : Bytes} {val : Word} {g : Ctl → Ctl}

theorem exec_telemetryRecordSend {g : Agt → Agt} (hu : Up s w) (h : (s.agt w).sendRecord window = g (s.agt w)) :
    exec (.telemetryRecordSend w window) s = agtDoes s w g := by
  show execTelemetryRecordSend w window s = _
  exact State.agtNext_up hu h

/-- A record of an agent that the controller does not know. -/
theorem exec_telemetryRecord_of_unknown_agent (hu : On s) (ha : tget s.ctl.cst.agents fid = none) :
    exec (.telemetryRecord fid rec) s =
      ctlDoes s fun c => c.works Blk.TEL fun c => c.onDie (·.count Reg.TEL_CNT_MALFORMED) := by
  refine State.ctlNext_on hu (Ctl.works_congr ?_)
  simp only [ha]
  rfl

/-- A well-formed record, before any map has closed. -/
theorem exec_telemetryRecord_of_fitting {a : AgentRec} (hu : On s) (ha : tget s.ctl.cst.agents fid = some a)
    (hlen : rec.length = recordLen a.mode) (hkind : byteAt rec 0 = recordKind a.mode) (hk : byteAt rec 2 ≤ 8)
    (hl : s.ctl.tel.lastClosed = none) :
    exec (.telemetryRecord fid rec) s = ctlDoes s fun c => c.works Blk.TEL fun c =>
      let key := fieldAt rec 8 8 * 2 ^ byteAt rec 2 * 16 + byteAt rec 2
      ({ c with tel := { c.tel with maps := tset c.tel.maps key (tset (tgetD c.tel.maps key []) fid rec) } } : Ctl).onDie
        (·.count Reg.TEL_CNT_RECORDS) := by
  refine State.ctlNext_on hu (Ctl.works_congr ?_)
  simp only [ha, hlen, hkind, hk, hl, and_self, decide_true]
  rfl

theorem exec_mapClose (hu : On s) (h : (s.ctl.works Blk.TEL fun c => c.mapClose) = g s.ctl) : exec .mapClose s = ctlDoes s g := by
  show execMapClose s = _
  exact State.ctlNext_on hu h

theorem exec_telCfgWrite (hu : On s) (ht : Takes s.ctl.die Blk.TEL) (h : s.ctl.writeTelCfg val.toNat = g s.ctl) :
    exec (.telCfgWrite val) s = ctlDoes s g := by
  show execTelCfgWrite val s = _
  exact State.ctlNext_written hu ht h

theorem exec_telConfigChange_ctl (hu : On s) (h : s.ctl.works Blk.TEL (·.telChange) = g s.ctl) :
    exec (.telConfigChange .ctl) s = ctlDoes s g := by
  show execTelConfigChange .ctl s = _
  exact State.ctlNext_on hu h

theorem exec_telConfigChange_agt {g : Agt → Agt} (hu : Up s w) (h : (s.agt w).telChange = g (s.agt w)) :
    exec (.telConfigChange (.agt w)) s = agtDoes s w g := by
  show execTelConfigChange (.agt w) s = _
  exact State.agtNext_up hu h

end

/-- Settles O29, by the moment from which each command acts, and by what a record, counts or a configuration are checked for. -/
theorem telemetryWindows : Obligations.TelemetryWindows := by
  unfold Obligations.TelemetryWindows
  refine ⟨fun s w window first ents late hh => State.agtNext_heard hh rfl, fun s w window hu => exec_telemetryRecordSend hu rfl,
    fun s fid rec hu => State.ctlNext_on hu rfl, fun s hu => exec_mapClose hu rfl, fun s window hu => State.ctlNext_on hu rfl,
    fun s val hu ht => exec_telCfgWrite hu ht rfl, fun s hu => exec_telConfigChange_ctl hu rfl,
    fun s w hu => exec_telConfigChange_agt hu rfl, ?unkept, ?before_due, ?due, fun a x => Agt.take_recordOf, ?counts, ?counts_denied,
    ?counts_late, fun s fid rec hu ha => exec_telemetryRecord_of_unknown_agent hu ha, ?record, ?map_due, ?map_waits, ?tenant_ended,
    ?tenant_waits, ?cfg_ignored, ?cfg_taken, ?change, ?change_waits, ?agent_change⟩
  case unkept =>
    intro s w window hu h
    exact exec_telemetryRecordSend hu (Agt.sendRecord_of_unkept h)
  case before_due =>
    intro s w window x hu hx h
    exact exec_telemetryRecordSend hu (Agt.sendRecord_before_due hx h)
  case due =>
    intro s w window x hu hx he h
    exact exec_telemetryRecordSend hu (Agt.sendRecord_of_due hx he h)
  case counts =>
    intro s w window first ents hh hn hle
    refine exec_hostCounts hh (if_neg ?_)
    rw [Agt.emitCredit_countsK, Agt.emitCredit_ns, Agt.countsK_of_unkept hn]
    simp only [Bool.false_eq_true, false_or]
    omega
  case counts_denied =>
    intro s w window first ents hh
    exact exec_hostCounts hh (if_pos (.inl rfl))
  case counts_late =>
    intro s w window first ents hh hn hlt
    refine exec_hostCounts hh (if_pos (.inr ?_))
    rw [Agt.emitCredit_countsK, Agt.emitCredit_ns, Agt.countsK_of_unkept hn]
    omega
  case record =>
    intro s fid rec a hu ha hlen hkind hk hl
    exact exec_telemetryRecord_of_fitting hu ha hlen hkind hk hl
  case map_due =>
    intro s wk k hu hn h
    exact exec_mapClose hu (Ctl.works_congr (Ctl.mapClose_of_due hn h))
  case map_waits =>
    intro s wk k hu hn h
    exact exec_mapClose hu (Ctl.works_of_unchanged _ (Ctl.mapClose_before_due hn h))
  case tenant_ended =>
    intro s window hu h
    exact State.ctlNext_on hu (Ctl.works_congr (if_neg (Nat.not_lt.2 h)))
  case tenant_waits =>
    intro s window hu h
    exact State.ctlNext_on hu (Ctl.works_of_unchanged _ (if_pos h))
  case cfg_ignored =>
    intro s val hu ht h
    exact exec_telCfgWrite hu ht (Ctl.writeTelCfg_out_of_range h)
  case cfg_taken =>
    intro s val hu ht h ha
    exact exec_telCfgWrite hu ht (Ctl.writeTelCfg_without_agents h ha)
  case change =>
    intro s m at_ en hu hc h
    exact exec_telConfigChange_ctl hu (Ctl.works_congr (Ctl.telChange_of_same_length hc h))
  case change_waits =>
    intro s k m at_ en hu hc h
    exact exec_telConfigChange_ctl hu (Ctl.works_of_unchanged _ (Ctl.telChange_before_due hc h))
  case agent_change =>
    intro s w hu hk he h
    exact exec_telConfigChange_agt hu (Agt.telChange_of_late hk he h)

end Sys2Proof.Machine
end

section
/-! PROOFS. Queue pairs: the entries posted, the work they carry, and its completions. -/

namespace Sys2Proof.Machine

open Sys2Proof.Claim

/-! ## Entries posted (R457, R458) -/

section
variable {c : Ctl} {q : Nat} {e : WorkEntry}

/-- A WRITE posted to a queue pair that carries data, under KEYSTONE: its length and then the queue's depth decide. -/
theorem Ctl.post_of_write (hop : e.opcode = 1) (hkind : (c.qp q).kind ≠ 1) (hk : c.keystone = true) :
    c.post q e =
      if e.length = 0 ∨ 16777216 < e.length then c.complete q 7 e.wrId 0
      else if 256 ≤ (c.qp q).work.length then c.complete q 3 e.wrId 0
      else c.setWork q ((c.qp q).work ++ [{ entry := e, open_ := false, placed := [], lastNs := c.die.up }]) := by
  unfold Ctl.post
  exact if_neg (by simp [hop, hkind, hk])

/-- A WRITE of a length that the queue pair takes (R458). -/
theorem Ctl.post_of_write_length (hop : e.opcode = 1) (hkind : (c.qp q).kind ≠ 1) (hk : c.keystone = true) (h0 : e.length ≠ 0)
    (hmax : e.length ≤ 16777216) :
    c.post q e =
      if 256 ≤ (c.qp q).work.length then c.complete q 3 e.wrId 0
      else c.setWork q ((c.qp q).work ++ [{ entry := e, open_ := false, placed := [], lastNs := c.die.up }]) :=
  (Ctl.post_of_write hop hkind hk).trans (if_neg (by omega))

end

/-! ## Work taken up (R457, R458, R481) -/

section
variable {c : Ctl} {q : Nat} {w : Work}

theorem Ctl.openWrite_inside (hs : c.die.safe = false) (ho : c.outsideWrite w.entry.addr w.entry.length = true) :
    c.openWrite q w = c.setWork q ((c.qp q).work.map fun x => if x = w then { x with open_ := true, lastNs := c.die.up } else x) := by
  unfold Ctl.openWrite
  rw [if_neg (by simp [hs]), if_neg (by simp [ho])]

theorem Ctl.openWrite_outside (hs : c.die.safe = false) (ho : c.outsideWrite w.entry.addr w.entry.length = false) :
    c.openWrite q w = c.endWork q w 1 0 := by
  unfold Ctl.openWrite
  rw [if_neg (by simp [hs]), if_pos (by simp [ho])]

theorem Ctl.qpRead_outside (hw : ((c.qp q).work.find? fun w => w.entry.opcode = 2) = some w)
    (ho : c.outsideRead w.entry.addr w.entry.length = false) : c.qpRead q = c.endWork q w 1 0 := by
  unfold Ctl.qpRead
  simp only [hw]
  exact if_pos (by simp [ho])

theorem Ctl.qpRead_inside {b : Ctl} {bs : Bytes} {bad : Bool} (hw : ((c.qp q).work.find? fun w => w.entry.opcode = 2) = some w)
    (ho : c.outsideRead w.entry.addr w.entry.length = true) (hr : c.memRead w.entry.addr w.entry.length = (b, bs, bad)) :
    c.qpRead q = (b.sendData q w bs).endWork q w (if bad then 8 else 0) bs.length := by
  unfold Ctl.qpRead
  simp only [hw, hr]
  exact if_neg (by simp [ho])

/-! ## The mirror (R347, R457) -/

theorem Ctl.mirrorOut_of_record {r : Bytes} {rest : List Bytes} (hrole : c.die.bget Reg.RCV_ROLE 0 0 ≠ 0)
    (hw : ((c.qp q).work.find? fun w => w.entry.opcode = 4) = some w) (hm : c.rcv.mirror = r :: rest) (hlen : r.length ≤ w.entry.length) :
    c.mirrorOut q =
      (({ c with rcv := { c.rcv with mirror := rest } } : Ctl).sendData q w (r ++ List.replicate (w.entry.length - r.length) 0)).endWork q w 0
        w.entry.length := by
  unfold Ctl.mirrorOut
  rw [if_neg hrole]
  simp only [hw, hm]
  exact if_neg (Nat.not_lt.2 hlen)

theorem Ctl.mirrorIn_of_record {rec : Bytes} (hrole : c.die.bget Reg.RCV_ROLE 0 0 ≠ 1)
    (hw : ((c.qp q).work.find? fun w => w.entry.opcode = 5) = some w) (hs : c.die.safe = false)
    (ho : c.outsideWrite w.entry.addr w.entry.length = true) (hlen : rec.length ≤ w.entry.length) :
    c.mirrorIn q rec = ((c.memWrite w.entry.addr rec).1.takeMirror rec).endWork q w 0 rec.length := by
  unfold Ctl.mirrorIn
  rw [if_neg hrole]
  simp only [hw]
  rw [if_neg (by simp [hs]), if_neg (by simp [ho]), if_neg (Nat.not_lt.2 hlen)]

end

/-! ## DATA frames (R457, R458) -/

section
variable {c b : Ctl} {h : FrameHdr} {data : Bytes} {w : Work}

theorem Ctl.skeinData_without_work (hf : c.frameIn h = (b, true)) (he : h.encrypted = true) (hw : (b.qp h.qp).work = []) :
    c.skeinData h data = b.onDie (·.count Reg.SKN_CNT_LATE_ARRIVAL) := by
  unfold Ctl.skeinData
  simp [hf, he, hw]

theorem Ctl.skeinData_of_open_write (hf : c.frameIn h = (b, true)) (he : h.encrypted = true) (hw : (b.qp h.qp).work = [w])
    (hop : w.entry.opcode = 1) (hid : w.entry.wrId = h.id) (ho : w.open_ = true) (ht : b.die.takeWait Blk.SKN = (false, b.die))
    (hup : b.die.up ≤ 100000000 + w.lastNs) : c.skeinData h data = b.place h.qp w h.offset data := by
  have hfresh : w.stale b.die.up = false := decide_eq_false (Nat.not_lt.2 hup)
  unfold Ctl.skeinData
  simp [hf, he, hw, hop, hid, ho, ht, hfresh]

end

/-! ## What the commands answer -/

section
variable {s : State} {q : Nat} {rec data : Bytes} {h : FrameHdr} {g : Ctl → Ctl}

theorem exec_qpRead (hu : On s) (h : s.ctl.qpRead q = g s.ctl) : exec (.qpRead q) s = ctlDoes s g := by
  show execQpRead q s = _
  exact State.ctlNext_on hu h

theorem exec_mirrorOut (hu : On s) (h : s.ctl.mirrorOut q = g s.ctl) : exec (.mirrorOut q) s = ctlDoes s g := by
  show execMirrorOut q s = _
  exact State.ctlNext_on hu h

theorem exec_mirrorIn (hu : On s) (h : s.ctl.mirrorIn q rec = g s.ctl) : exec (.mirrorIn q rec) s = ctlDoes s g := by
  show execMirrorIn q rec s = _
  exact State.ctlNext_on hu h

theorem exec_skeinData (hu : On s) (hd : s.ctl.skeinData h data = g s.ctl) : exec (.skeinData h data) s = ctlDoes s g := by
  show execSkeinData h data s = _
  exact State.ctlNext_on hu hd

/-- QP_WRITE takes up the oldest WRITE that is not open. -/
theorem exec_qpWrite_of_work {w : Work} (hu : On s) (hw : ((s.ctl.qp q).work.find? fun w => w.entry.opcode = 1 && !w.open_) = some w)
    (h : s.ctl.openWrite q w = g s.ctl) : exec (.qpWrite q) s = ctlDoes s g := by
  refine State.ctlNext_on hu ?_
  simp only [hw]
  exact h

end

/-- Settles O32, by the entry that the queue pair holds, and by whether its range lies where the control node may reach. -/
theorem queuePairs : Obligations.QueuePairs := by
  unfold Obligations.QueuePairs
  refine ⟨fun s h ents hu => State.ctlNext_on hu rfl, fun s q hu => State.ctlNext_on hu rfl, fun s q hu => exec_qpRead hu rfl,
    fun s q hu => exec_mirrorOut hu rfl, fun s q rec hu => exec_mirrorIn hu rfl, fun s h data hu => exec_skeinData hu rfl,
    fun s q wrId hu => State.ctlNext_on hu rfl, ?doorbell, ?no_length, ?full, ?posted, ?opened, ?write_outside, ?read_outside, ?read,
    ?mirror_out, ?mirror_in, ?data_late, ?data_placed, ?timeout⟩
  case doorbell =>
    intro s h ents c' hu hf he hne hlen hen hport
    refine State.ctlNext_on hu ?_
    simp only [hf]
    rw [if_neg (by simp), if_neg (by simp [he]), if_neg (by simp [hne, hen, hport, hlen])]
  case no_length =>
    intro c q e hop hkind hk h0
    exact (Ctl.post_of_write hop hkind hk).trans (if_pos (.inl h0))
  case full =>
    intro c q e hop hkind hk h0 hmax hfull
    exact (Ctl.post_of_write_length hop hkind hk h0 hmax).trans (if_pos hfull)
  case posted =>
    intro c q e hop hkind hk h0 hmax hroom
    exact (Ctl.post_of_write_length hop hkind hk h0 hmax).trans (if_neg (Nat.not_le.2 hroom))
  case opened =>
    intro s q w hu hw hs ho
    exact exec_qpWrite_of_work hu hw (Ctl.openWrite_inside hs ho)
  case write_outside =>
    intro s q w hu hw hs ho
    exact exec_qpWrite_of_work hu hw (Ctl.openWrite_outside hs ho)
  case read_outside =>
    intro s q w hu hw ho
    exact exec_qpRead hu (Ctl.qpRead_outside hw ho)
  case read =>
    intro s q w c' bs bad hu hw ho hr
    exact exec_qpRead hu (Ctl.qpRead_inside hw ho hr)
  case mirror_out =>
    intro s q w r rest hu hrole hw hm hlen
    exact exec_mirrorOut hu (Ctl.mirrorOut_of_record hrole hw hm hlen)
  case mirror_in =>
    intro s q rec w hu hrole hw hs ho hlen
    exact exec_mirrorIn hu (Ctl.mirrorIn_of_record hrole hw hs ho hlen)
  case data_late =>
    intro s h data c' hu hf he hw
    exact exec_skeinData hu (Ctl.skeinData_without_work hf he hw)
  case data_placed =>
    intro s h data c' w hu hf he hw hop hid ho ht hup
    exact exec_skeinData hu (Ctl.skeinData_of_open_write hf he hw hop hid ho ht hup)
  case timeout =>
    intro s q wrId w hu hw hdue
    refine State.ctlNext_on hu ?_
    simp only [hw]
    exact if_neg (by omega)

end Sys2Proof.Machine
end

section
/-! PROOFS. Mortar connections: the handshake that opens a session, its failures and its time limits. -/

namespace Sys2Proof.Machine

open Sys2Proof.Claim

/-! ## Connections (R459) -/

section
variable {c : Ctl}

theorem Ctl.mortarConnect_of_room (hk : (c.keystone && c.stepDone 4) = false) (hn : c.mortar.length < 8)
    (hf : c.die.blockFenced Blk.MNP = false) :
    c.mortarConnect =
      let m : Mortar := { id := c.nextMortar, phase := 0, rxSeq := 0, txSeq := 0, lastNs := c.die.up, transcript := [], secret := [],
                          leaf := [], rootKey := [] }
      ({ c with mortar := c.mortar ++ [m], nextMortar := c.nextMortar + 1 } : Ctl).onDie (·.emit (.conn "accepted" c.nextMortar)) := by
  unfold Ctl.mortarConnect
  exact if_neg (by simp only [hk, hf, Bool.false_eq_true, false_or, or_false]; omega)

theorem Ctl.mortarConnect_of_full (h : 8 ≤ c.mortar.length) :
    c.mortarConnect = c.onDie fun d => (d.count Reg.MNP_CNT_REFUSED).emit (.conn "reset" 0) := by
  unfold Ctl.mortarConnect
  exact if_pos (.inr (.inl h))

/-- A connection that is closed is gone. -/
theorem Ctl.mortarOf_closeMortar (c : Ctl) (id : Nat) : (c.closeMortar id).mortarOf id = none :=
  List.find?_eq_none.2 fun m hm => by simpa using (List.mem_filter.1 hm).2

end

/-! ## The handshake (R460) -/

section
variable {c : Ctl} {id : Nat} {chain : List Bytes} {ek nonce signature leaf : Bytes} {m : Mortar}

theorem Ctl.clientHello_of_unknown_chain (hm : c.mortarOf id = some m) (hp : m.phase = 0) (hk : c.keystone = false)
    (hl : c.mortarLeaf chain = none) : c.clientHello id chain ek nonce = c.authFail id := by
  unfold Ctl.clientHello
  simp only [hm, hl]
  rw [if_neg (not_not_intro hp), if_neg (by simp [hk])]

theorem Ctl.clientHello_of_operator_chain (hm : c.mortarOf id = some m) (hp : m.phase = 0) (hk : c.keystone = false)
    (hl : c.mortarLeaf chain = some leaf) :
    c.clientHello id chain ek nonce =
      let k := Config.kemEncaps ek c.die.free
      let o := Die.freeBytes 4 { c.die with free := c.die.free + 1 }
      let c : Ctl := { c with die := o.2 }
      let body := k.1 ++ Config.deviceCert c.dieId ++ o.1
      let seen := chain.flatten ++ ek ++ nonce ++ body
      let sig := kstSign (digestBytes (Config.shake256 seen))
      let m : Mortar := { m with phase := 1, rxSeq := m.rxSeq + 1, lastNs := c.die.up, transcript := seen ++ sig, secret := k.2,
                                 leaf := leaf, rootKey := chain.headD [] }
      (c.setMortar m).mortarSend m 0x02 (body ++ sig) := by
  unfold Ctl.clientHello
  simp only [hm, hl]
  rw [if_neg (not_not_intro hp), if_neg (by simp [hk])]

/-- A CLIENT_FINISH in time while no enrolment is armed: the signature over the transcript decides. -/
theorem Ctl.clientFinish_in_time (hm : c.mortarOf id = some m) (hp : m.phase = 1) (he : c.enrolling = false)
    (hw : c.die.takeWait Blk.MNP = (false, c.die)) (hup : c.die.up ≤ 5000000000 + m.lastNs) :
    c.clientFinish id signature =
      if Config.slhVerify true (Config.certKey m.leaf) (digestBytes (Config.shake256 m.transcript)) signature = true then
        let m : Mortar := { m with phase := 2, rxSeq := m.rxSeq + 1, lastNs := c.die.up,
                                   secret := mortarKeys m.secret (m.transcript ++ signature) }
        (c.setMortar m).onDie fun d => (d.count Reg.MNP_CNT_ACCEPTED).emit (.conn "session" m.id)
      else c.authFail id := by
  unfold Ctl.clientFinish
  simp only [hm, hw]
  rw [if_neg (not_not_intro hp), if_neg (by simp [hup])]
  by_cases hv : Config.slhVerify true (Config.certKey m.leaf) (digestBytes (Config.shake256 m.transcript)) signature = true
  · rw [if_pos hv, if_neg (by simp [hv]), he]
    rfl
  · rw [if_neg hv, if_pos (by simp [hv])]

end

theorem Ctl.mnpCfg_of_save {c : Ctl} {val : Nat} (h : bitOf val 16 = true) :
    c.mnpCfg val =
      let c := c.onDie (·.setN Reg.MNP_CFG (bitsOf val 15 0))
      let addr := c.die.getN Reg.MNP_ADDR0 + c.die.getN (Reg.MNP_ADDR0 + 8) * 2 ^ 64
      { c with flash := { c.flash with mnpAddr := addr, mnpPort := bitsOf val 15 0 } } := by
  unfold Ctl.mnpCfg
  exact if_neg (by simp [h])

/-! ## What the commands answer -/

section
variable {s : State} {id : Nat} {chain : List Bytes} {ek nonce signature : Bytes} {m : Mortar} {val : Word} {g : Ctl → Ctl}

theorem exec_mortarConnect (hu : On s) (h : s.ctl.mortarConnect = g s.ctl) : exec .mortarConnect s = ctlDoes s g := by
  show execMortarConnect s = _
  exact State.ctlNext_on hu h

theorem exec_clientHello (hu : On s) (h : s.ctl.clientHello id chain ek nonce = g s.ctl) :
    exec (.clientHello id chain ek nonce) s = ctlDoes s g := by
  show execClientHello id chain ek nonce s = _
  exact State.ctlNext_on hu h

theorem exec_clientFinish (hu : On s) (h : s.ctl.clientFinish id signature = g s.ctl) :
    exec (.clientFinish id signature) s = ctlDoes s g := by
  show execClientFinish id signature s = _
  exact State.ctlNext_on hu h

theorem exec_mnpSave (hu : On s) (ht : Takes s.ctl.die Blk.MNP) (h : s.ctl.mnpCfg val.toNat = g s.ctl) :
    exec (.mnpSave val) s = ctlDoes s g := by
  show execMnpSave val s = _
  exact State.ctlNext_written hu ht h

theorem exec_mortarHandshakeTimeout_of_connection (hu : On s) (hm : s.ctl.mortarOf id = some m)
    (h : (if m.phase ≠ 1 ∨ s.ctl.die.up < 5000000000 + m.lastNs then s.ctl else s.ctl.authFail id) = g s.ctl) :
    exec (.mortarHandshakeTimeout id) s = ctlDoes s g := by
  refine State.ctlNext_on hu ?_
  simp only [hm]
  exact h

theorem exec_mortarIdleTimeout_of_connection (hu : On s) (hm : s.ctl.mortarOf id = some m)
    (h : (if m.phase ≠ 2 ∨ s.ctl.die.up < 60000000000 + m.lastNs then s.ctl else s.ctl.closeMortar id) = g s.ctl) :
    exec (.mortarIdleTimeout id) s = ctlDoes s g := by
  refine State.ctlNext_on hu ?_
  simp only [hm]
  exact h

end

/-- Settles O40, by the phase that each message of the handshake finds, by the chain and the signature it brings, and by the time since
the last record. -/
theorem mortarConnections : Obligations.MortarConnections := by
  unfold Obligations.MortarConnections
  refine ⟨fun s hu => exec_mortarConnect hu rfl, fun s id chain ek nonce hu => exec_clientHello hu rfl,
    fun s id signature hu => exec_clientFinish hu rfl, fun s id hu => State.ctlNext_on hu rfl, fun s id hu => State.ctlNext_on hu rfl,
    fun s val hu ht => exec_mnpSave hu ht rfl, fun s port link hu => State.ctlNext_on hu rfl, ?connected, ?refused, ?hello, ?finish,
    ?handshake_over, ?handshake_waits, ?idle, fun s hu ht => State.ctlNext_written hu ht rfl, Ctl.mortarOf_closeMortar, ?save, ?port⟩
  case connected =>
    intro s hu hk hn hf
    exact exec_mortarConnect hu (Ctl.mortarConnect_of_room hk hn hf)
  case refused =>
    intro s hu h
    exact exec_mortarConnect hu (Ctl.mortarConnect_of_full h)
  case hello =>
    intro s id chain ek nonce m hu hm hp hk
    refine exec_clientHello hu ?_
    cases hl : s.ctl.mortarLeaf chain with
    | none => exact Ctl.clientHello_of_unknown_chain hm hp hk hl
    | some leaf => exact Ctl.clientHello_of_operator_chain hm hp hk hl
  case finish =>
    intro s id signature m hu hm hp he hw hup
    exact exec_clientFinish hu (Ctl.clientFinish_in_time hm hp he hw hup)
  case handshake_over =>
    intro s id m hu hm hp hdue
    exact exec_mortarHandshakeTimeout_of_connection hu hm (if_neg (by omega))
  case handshake_waits =>
    intro s id m hu hm hlt
    exact exec_mortarHandshakeTimeout_of_connection hu hm (if_pos (.inr hlt))
  case idle =>
    intro s id m hu hm hp hdue
    exact exec_mortarIdleTimeout_of_connection hu hm (if_neg (by omega))
  case save =>
    intro s val hu ht h
    exact exec_mnpSave hu ht (Ctl.mnpCfg_of_save h)
  case port =>
    intro s port link hu hp
    exact State.ctlNext_on hu (if_neg (Nat.not_le.2 hp))

end Sys2Proof.Machine
end

section
/-! PROOFS. Records of an open Mortar session, and management operations at the controller. -/

namespace Sys2Proof.Machine

open Sys2Proof.Claim

/-! ## A record that arrives (R460, R461) -/

section
variable {c : Ctl} {id sequence : Nat} {intact : Bool} {m : Mortar}

theorem Ctl.mortarIn_of_broken (hm : c.mortarOf id = some m) (hp : m.phase = 2)
    (h : intact = false ∨ sequence ≠ m.rxSeq ∨ 60000000000 + m.lastNs < c.die.up) : c.mortarIn id sequence intact = (c.closeMortar id, none) := by
  unfold Ctl.mortarIn
  simp only [hm]
  rw [if_neg (not_not_intro hp)]
  refine if_pos ?_
  rcases h with h | h | h
  · exact .inl (by simp [h])
  · exact .inr (.inl h)
  · exact .inr (.inr (.inr h))

theorem Ctl.mortarIn_of_next (hm : c.mortarOf id = some m) (hp : m.phase = 2) (hseq : m.rxSeq = sequence) (hlt : sequence < 2 ^ 32)
    (hup : c.die.up ≤ 60000000000 + m.lastNs) :
    c.mortarIn id sequence true =
      (c.setMortar { m with rxSeq := m.rxSeq + 1, lastNs := c.die.up }, some { m with rxSeq := m.rxSeq + 1, lastNs := c.die.up }) := by
  unfold Ctl.mortarIn
  simp only [hm]
  rw [if_neg (not_not_intro hp), if_neg (by simp only [hseq, Bool.not_true, Bool.false_eq_true, ne_eq, not_true_eq_false, false_or]; omega)]

end

/-! ## Management operations (R470, R474) -/

section
variable {c : Ctl} {val : Nat} {w : Worm} {op : Rmt}

theorem Ctl.rmtGo_of_busy (h : c.rmtBusy = true) : c.rmtGo val = c.raise (Ev.WRITE_IGNORED Blk.MBX) := by
  unfold Ctl.rmtGo
  exact if_pos h

theorem Ctl.rmtGo_of_unknown_agent (hb : c.rmtBusy = false) (hgo : bitOf val 32 = true)
    (ha : tget c.cst.agents (bitsOf val 17 0) = none) : c.rmtGo val = c.rmtStatus 2 3 := by
  unfold Ctl.rmtGo
  simp only [hb, hgo, ha]
  rfl

theorem Ctl.rmtGo_of_named_agent {a : AgentRec} (hb : c.rmtBusy = false) (hgo : bitOf val 32 = true)
    (ha : tget c.cst.agents (bitsOf val 17 0) = some a) (hn : a.named = true) (hl : a.lost = false) :
    c.rmtGo val =
      let fid := bitsOf val 17 0
      let addr := c.die.getN Reg.MBX_RMT_ADDR
      let h := c.memRead addr 16
      let q := h.1.memRead addr (16 + 16 * byteAt h.2.1 4)
      let op : Rmt := { soft := true, fid := fid, addr := addr, opId := fieldAt q.2.1 0 4, attempts := 1, startNs := q.1.die.up,
                        reads := readsOnly q.2.1, request := q.2.1 }
      (({ q.1 with ops := q.1.ops ++ [op] } : Ctl).rmtStatus 1 0).sendMgmt fid q.2.1 := by
  unfold Ctl.rmtGo
  simp only [hb, hgo, ha, hn, hl]
  rfl

theorem Ctl.mgmtResponse_of_unawaited (hr : bitOf (byteAt w.payload 5) 0 = true)
    (ho : (c.ops.find? fun o => o.fid = markFid (wormMark w) && o.opId = fieldAt w.payload 0 4) = none) :
    c.mgmtResponse w = c.onDie (·.count Reg.MBX_CNT_LATE_ARRIVAL) := by
  unfold Ctl.mgmtResponse
  simp only [ho]
  exact if_neg (by simp [hr])

theorem Ctl.mgmtResponse_in_time (hr : bitOf (byteAt w.payload 5) 0 = true) (hs : op.soft = true)
    (hw : c.die.takeWait Blk.MBX = (false, c.die)) (hup : c.die.up ≤ 1000000 + op.startNs)
    (ho : (c.ops.find? fun o => o.fid = markFid (wormMark w) && o.opId = fieldAt w.payload 0 4) = some op) :
    c.mgmtResponse w =
      (c.memWrite op.addr (slice w.payload 0 (min w.payload.length (16 + 16 * byteAt w.payload 4)))).1.endOp op 0 := by
  unfold Ctl.mgmtResponse
  simp only [ho, hw]
  rw [if_neg (by simp [hr]), if_neg (by simp [hup]), if_pos hs]

theorem Ctl.retryOp_again (hs : c.die.safe = false) (h : op.attempts < 4) :
    c.retryOp op =
      let next : Rmt := { op with attempts := op.attempts + 1, startNs := c.die.up }
      ({ c with ops := c.ops.map fun o => if o = op then next else o } : Ctl).sendMgmt op.fid op.request := by
  unfold Ctl.retryOp
  rw [if_neg (by simp [hs]), if_neg (Nat.not_le.2 h)]

theorem Ctl.retryOp_at_last (hs : c.die.safe = false) (h : 4 ≤ op.attempts) :
    c.retryOp op = c.endOp op (if op.reads = true then 1 else 2) := by
  unfold Ctl.retryOp
  rw [if_neg (by simp [hs]), if_pos h]

theorem Ctl.mgmtTimeout_of_due (ho : (c.ops.find? fun o => 1000000 + o.startNs ≤ c.die.up) = some op) : c.mgmtTimeout = c.retryOp op := by
  unfold Ctl.mgmtTimeout
  rw [ho]

end

/-! ## What the commands answer -/

section
variable {s : State} {w : Worm} {val : Word} {g : Ctl → Ctl}

theorem exec_mgmtOpResponse (hu : On s) (h : s.ctl.mgmtResponse w = g s.ctl) : exec (.mgmtOpResponse w) s = ctlDoes s g := by
  show execMgmtOpResponse w s = _
  exact State.ctlNext_on hu h

theorem exec_mgmtOpTimeout (hu : On s) (h : s.ctl.mgmtTimeout = g s.ctl) : exec .mgmtOpTimeout s = ctlDoes s g := by
  show execMgmtOpTimeout s = _
  exact State.ctlNext_on hu h

theorem exec_mbxRmtGo (hu : On s) (ht : Takes s.ctl.die Blk.MBX) (h : s.ctl.rmtGo val.toNat = g s.ctl) :
    exec (.mbxRmtGo val) s = ctlDoes s g := by
  show execMbxRmtGo val s = _
  exact State.ctlNext_written hu ht h

end

/-- Settles O41, by whether a record is the session's next, by the agent and the operation that a message meets, and by the attempts made. -/
theorem managementRecords : Obligations.ManagementRecords := by
  unfold Obligations.ManagementRecords
  refine ⟨fun s id sequence intact addr data hu => State.ctlNext_on hu rfl,
    fun s id sequence intact addr length hu => State.ctlNext_on hu rfl, fun s id sequence intact hu => State.ctlNext_on hu rfl,
    fun s id sequence intact hu => State.ctlNext_on hu rfl, fun s w hu => exec_mgmtOpResponse hu rfl,
    fun s hu => exec_mgmtOpTimeout hu rfl, fun s val hu ht => exec_mbxRmtGo hu ht rfl, ?write, ?write_outside, ?read, ?keepalive, ?close,
    fun c id sequence intact m => Ctl.mortarIn_of_broken, ?go, ?go_absent, ?go_busy, ?response, ?unawaited, ?again, ?at_last⟩
  case write =>
    intro s id sequence addr data c' m hu hin hne hlen hs ho
    refine State.ctlNext_on hu ?_
    simp only [hin]
    rw [if_neg (by simp [hne, hlen]), if_neg (by simp [hs]), if_neg (by simp [ho])]
  case write_outside =>
    intro s id sequence addr data c' m hu hin hne hlen hs ho
    refine State.ctlNext_on hu ?_
    simp only [hin]
    rw [if_neg (by simp [hne, hlen]), if_neg (by simp [hs]), if_pos (by simp [ho])]
  case read =>
    intro s id sequence addr length c' m hu hin h0 hlen ho
    refine State.ctlNext_on hu ?_
    simp only [hin]
    rw [if_neg (by omega), if_neg (by simp [ho])]
  case keepalive =>
    intro s id sequence m hu hm hp hseq hlt hup
    refine State.ctlNext_on hu ?_
    rw [Ctl.mortarIn_of_next hm hp hseq hlt hup]
  case close =>
    intro s id sequence m hu hm hp hseq hlt hup
    refine State.ctlNext_on hu ?_
    rw [Ctl.mortarIn_of_next hm hp hseq hlt hup]
  case go =>
    intro s val a hu ht hb hgo ha hn hl
    exact exec_mbxRmtGo hu ht (Ctl.rmtGo_of_named_agent hb hgo ha hn hl)
  case go_absent =>
    intro s val hu ht hb hgo ha
    exact exec_mbxRmtGo hu ht (Ctl.rmtGo_of_unknown_agent hb hgo ha)
  case go_busy =>
    intro s val hu ht hb
    exact exec_mbxRmtGo hu ht (Ctl.rmtGo_of_busy hb)
  case response =>
    intro s w op hu hr hs hw hup ho
    exact exec_mgmtOpResponse hu (Ctl.mgmtResponse_in_time hr hs hw hup ho)
  case unawaited =>
    intro s w hu hr ho
    exact exec_mgmtOpResponse hu (Ctl.mgmtResponse_of_unawaited hr ho)
  case again =>
    intro s op hu ho hs h
    exact exec_mgmtOpTimeout hu ((Ctl.mgmtTimeout_of_due ho).trans (Ctl.retryOp_again hs h))
  case at_last =>
    intro s op hu ho hs h
    exact exec_mgmtOpTimeout hu ((Ctl.mgmtTimeout_of_due ho).trans (Ctl.retryOp_at_last hs h))

end Sys2Proof.Machine
end

section
/-! PROOFS. The SPDM responder: requests by the phase of a connection, sessions, and chunks. -/

namespace Sys2Proof.Machine

open Sys2Proof.Claim

/-! ## A request, and a request inside a session (R399) -/

section
variable {c : Ctl} {k : Conn} {phase session : Nat} {f : Ctl → Spdm → Ctl}

theorem Ctl.request_of_phase (hk : c.hears k = true) (hp : phase ≤ (c.spdm k).phase) : c.request k phase f = f c (c.spdm k) := by
  unfold Ctl.request
  rw [if_neg (by simp [hk])]
  exact if_neg (Nat.not_lt.2 hp)

theorem Ctl.request_before_phase (hk : c.hears k = true) (hp : (c.spdm k).phase < phase) : c.request k phase f = c.spdmError k 0x04 0 := by
  unfold Ctl.request
  rw [if_neg (by simp [hk])]
  exact if_pos hp

theorem Ctl.inSession_of_session (hk : c.hears k = true) (hp : (c.spdm k).phase = 5) (hs : (c.spdm k).session = session) :
    c.inSession k session f = f c (c.spdm k) := by
  unfold Ctl.inSession
  rw [if_neg (by simp [hk])]
  exact if_pos ⟨hp, hs⟩

theorem Ctl.inSession_of_other (hk : c.hears k = true) (hs : (c.spdm k).session ≠ session) :
    c.inSession k session f = c.spdmError k 0x02 0 := by
  unfold Ctl.inSession
  rw [if_neg (by simp [hk])]
  exact if_neg fun h => hs h.2

end

section
variable {s : State} {k : Conn} {phase session : Nat} {f : Ctl → Spdm → Ctl} {g : Ctl → Ctl}

/-- A request that its phase allows answers what it does with the connection's state. -/
theorem State.ctlNext_request (hu : On s) (hk : s.ctl.hears k = true) (hp : phase ≤ (s.ctl.spdm k).phase)
    (h : f s.ctl (s.ctl.spdm k) = g s.ctl) : s.ctlNext (fun c => c.request k phase f) = ctlDoes s g :=
  State.ctlNext_on hu ((Ctl.request_of_phase hk hp).trans h)

/-- The same of a request inside the session of its connection. -/
theorem State.ctlNext_inSession (hu : On s) (hk : s.ctl.hears k = true) (hp : (s.ctl.spdm k).phase = 5)
    (hs : (s.ctl.spdm k).session = session) (h : f s.ctl (s.ctl.spdm k) = g s.ctl) :
    s.ctlNext (fun c => c.inSession k session f) = ctlDoes s g :=
  State.ctlNext_on hu ((Ctl.inSession_of_session hk hp hs).trans h)

end

/-- Settles O33: each request is allowed from its phase on, and what it asks for decides its answer. -/
theorem spdmRequests : Obligations.SpdmRequests := by
  unfold Obligations.SpdmRequests
  refine ⟨fun s k hu => State.ctlNext_on hu rfl, fun s k version flags hu => State.ctlNext_on hu rfl,
    fun s k version algs hu => State.ctlNext_on hu rfl, fun s k hu => State.ctlNext_on hu rfl,
    fun s k slot offset length hu => State.ctlNext_on hu rfl, fun s k nonce hu => State.ctlNext_on hu rfl,
    fun s k block signed nonce hu => State.ctlNext_on hu rfl, fun s k code hu => State.ctlNext_on hu rfl, ?version, ?capabilities,
    ?other_version, ?algorithms, ?digests, ?certificate, ?challenge, ?measurements, ?unsupported,
    fun c k phase f => Ctl.request_before_phase⟩
  case version =>
    intro s k hu hk hp
    refine State.ctlNext_on hu ?_
    rw [if_neg (by simp [hk]), if_neg (Nat.not_le.2 hp)]
  case capabilities =>
    intro s k flags hu hk hp
    exact State.ctlNext_request hu hk hp (if_neg (not_not_intro rfl))
  case other_version =>
    intro s k version flags hu hk hp hv
    exact State.ctlNext_request hu hk hp (if_pos hv)
  case algorithms =>
    intro s k algs hu hk hp h1 h3
    refine State.ctlNext_request hu hk hp ((if_neg (not_not_intro rfl)).trans ?_)
    exact if_neg (by rw [h1, h3]; decide)
  case digests =>
    intro s k hu hk hp
    exact State.ctlNext_request hu hk hp rfl
  case certificate =>
    intro s k slot offset length hu hk hp
    exact State.ctlNext_request hu hk hp rfl
  case challenge =>
    intro s k nonce own d hu hk hp hd
    refine State.ctlNext_request hu hk hp ?_
    simp only [hd]
  case measurements =>
    intro s k block nonce hu hk hp h1 h9
    refine State.ctlNext_request hu hk hp ?_
    have h0 : block ≠ 0 := by omega
    have hall : block ≠ 0xFF := by omega
    rw [if_neg (by omega)]
    simp only [h0, hall, if_false, List.flatMap_singleton]
    rfl
  case unsupported =>
    intro s k code hu hk
    exact State.ctlNext_on hu (if_pos hk)

/-! ## FINISH (R383, R399, R454) -/

section
variable {c : Ctl} {k : Conn} {session : Nat} {chain : List Bytes} {signature verify : Bytes} {x : Spdm}

/-- Without mutual authentication there is no key to enrol. -/
theorem Ctl.enrolRoot_of_unauthenticated (h : x.mutualAuth = false) : c.enrolRoot x = (c, x) := by
  unfold Ctl.enrolRoot
  exact if_neg (by simp [h])

theorem Ctl.finish_of_wrong_verify (hk : c.hears k = true) (hp : (c.spdm k).phase = 4)
    (hv : verify ≠ Config.spdmFinished false (c.spdm k).secret ((c.spdm k).transcript ++ (le 1 0xE5 ++ signature))) :
    c.finish k session chain signature verify = c.sessionFail k (c.spdm k) := by
  unfold Ctl.finish
  rw [Ctl.request_of_phase hk (Nat.le_of_eq hp.symm)]
  dsimp only
  rw [if_neg (not_not_intro hp)]
  exact if_pos (.inr hv)

/-- A relayed connection starts no link session. -/
theorem Ctl.finish_of_relayed (hk : c.hears k = true) (hp : (c.spdm k).phase = 4) (hm : (c.spdm k).mutualAuth = false)
    (hpeer : (c.spdm k).peer = false) (hr : (c.spdm k).relayed = true) :
    c.finish k (c.spdm k).session [] signature
        (Config.spdmFinished false (c.spdm k).secret ((c.spdm k).transcript ++ (le 1 0xE5 ++ signature))) =
      c.advance k { c.spdm k with phase := 5, keyGen := (0, 0), missed := 0, beatNs := c.die.up } (le 1 0xE5 ++ signature) 0x65 [] := by
  unfold Ctl.finish
  rw [Ctl.request_of_phase hk (Nat.le_of_eq hp.symm)]
  dsimp only
  rw [if_neg (not_not_intro hp), if_neg (by simp)]
  simp only [List.isEmpty_nil, if_true, Ctl.enrolRoot_of_unauthenticated hm, hpeer, hr, Bool.true_or, Bool.false_eq_true, if_false]

end

/-! ## Heartbeats (R454) -/

/-- The heartbeat of a link session: its moment, and then how many went unanswered, decide. -/
theorem Ctl.heartbeatSend_of_link {c : Ctl} {port n : Nat} {x : Spdm} (hn : (c.port port).session = some n)
    (hx : (c.kst.conns.find? fun x => x.port = port && x.phase = 5 && (c.port port).session = some x.session) = some x) :
    c.heartbeatSend port =
      if c.die.up < 1000000000 + x.beatNs then c
      else if 3 ≤ x.missed then c.endLink port
      else (c.setSpdm { x with missed := x.missed + 1, beatNs := c.die.up }).sendSpdm { port := port, id := x.id } 0xE8 [] := by
  unfold Ctl.heartbeatSend
  simp only [hx]
  rw [hn]

/-! ## What the commands answer -/

section
variable {s : State} {k : Conn} {session port : Nat} {chain : List Bytes} {signature verify : Bytes} {g : Ctl → Ctl}

theorem exec_finish (hu : On s) (h : s.ctl.finish k session chain signature verify = g s.ctl) :
    exec (.finish k session chain signature verify) s = ctlDoes s g := by
  show execFinish k session chain signature verify s = _
  exact State.ctlNext_on hu h

theorem exec_spdmHeartbeatSend (hu : On s) (h : s.ctl.heartbeatSend port = g s.ctl) : exec (.spdmHeartbeatSend port) s = ctlDoes s g := by
  show execSpdmHeartbeatSend port s = _
  exact State.ctlNext_on hu h

end

/-- Settles O34, by the session and the phase that each request meets, and by the heartbeats that went unanswered. -/
theorem spdmSessions : Obligations.SpdmSessions := by
  unfold Obligations.SpdmSessions
  refine ⟨fun s k reqSession ek hu => State.ctlNext_on hu rfl, fun s k session chain signature verify hu => exec_finish hu rfl,
    fun s k session tagOp hu => State.ctlNext_on hu rfl, fun s k session hu => State.ctlNext_on hu rfl,
    fun s port hu => exec_spdmHeartbeatSend hu rfl, fun s k session hu => State.ctlNext_on hu rfl,
    fun s k handle seq last data hu => State.ctlNext_on hu rfl, fun s k handle seq hu => State.ctlNext_on hu rfl, ?key_exchange,
    ?finish_fails, ?finished, ?key_update, ?heartbeat, ?link_ends, ?beat, ?beat_waits, ?end_session, ?chunk_send, ?chunk_get,
    fun c k session f => Ctl.inSession_of_other⟩
  case key_exchange =>
    intro s k reqSession ek ct shared hu hk hp h5 hct
    refine State.ctlNext_request hu hk hp ((if_neg h5).trans ?_)
    simp only [hct]
  case finish_fails =>
    intro s k session chain signature verify hu hk hp hv
    exact exec_finish hu (Ctl.finish_of_wrong_verify hk hp hv)
  case finished =>
    intro s k signature port hu hk hp hm hpeer hr _
    exact exec_finish hu (Ctl.finish_of_relayed hk hp hm hpeer hr)
  case key_update =>
    intro s k tagOp hu hk hp h2
    refine State.ctlNext_inSession hu hk hp rfl ?_
    simp only [h2]
    rfl
  case heartbeat =>
    intro s k hu hk hp
    exact State.ctlNext_inSession hu hk hp rfl rfl
  case link_ends =>
    intro s port n x hu hn hx hdue h3
    refine exec_spdmHeartbeatSend hu ((Ctl.heartbeatSend_of_link hn hx).trans ?_)
    rw [if_neg (by omega), if_pos h3]
  case beat =>
    intro s port n x hu hn hx hdue h3
    refine exec_spdmHeartbeatSend hu ((Ctl.heartbeatSend_of_link hn hx).trans ?_)
    rw [if_neg (by omega), if_neg (Nat.not_le.2 h3)]
  case beat_waits =>
    intro s port n x hu hn hx hlt
    exact exec_spdmHeartbeatSend hu ((Ctl.heartbeatSend_of_link hn hx).trans (if_pos (by omega)))
  case end_session =>
    intro s k hu hk hp hr
    exact State.ctlNext_inSession hu hk hp rfl (if_neg (by simp [hr]))
  case chunk_send =>
    intro s k handle data hu hk hp
    exact State.ctlNext_request hu hk hp rfl
  case chunk_get =>
    intro s k handle seq b hu hk hp hb
    refine State.ctlNext_request hu hk hp ?_
    simp only [hb]
    exact if_neg (by simp)

end Sys2Proof.Machine
end

section
/-! PROOFS. Requests of tenants and operators to Keystone: keys, the operator store, reports. -/

namespace Sys2Proof.Machine

open Sys2Proof.Claim

/-! ## KEY_DELIVER (R387) -/

section
variable {c : Ctl} {k : Conn} {x : Spdm} {key : Bytes} {use flags : Nat} {member : Digest}

theorem Ctl.keyDeliver_of_new_key (hm : x.mutualAuth = true) (ht : c.die.fget Fl.KST_STATUS_test_mode ≠ 1) (hu : use ≤ 1)
    (hnew : (c.kst.tenant.any fun t => t.keyId = keyIdOf (slice key 0 32)) = false)
    (hcons : c.flash.consumed.contains (keyIdOf (slice key 0 32)) = false) (hroom : c.kst.tenant.length < 8192) :
    c.keyDeliver k x key use flags member =
      let id := keyIdOf (slice key 0 32)
      let t : TKey := { keyId := id, key := slice key 0 32, use := use, owner := x.owner,
                        member := if bitOf flags 0 then some member else none, bound := none }
      let c := (c.extend 6 0x60 (BitVec.ofNat 512 id)).onDie (·.count Reg.KST_CNT_KEYS_ACCEPTED)
      ({ c with kst := { c.kst with tenant := c.kst.tenant ++ [t] } } : Ctl).vendor k 1 (le 16 id ++ le 1 0) := by
  have hknown : ¬ ((c.kst.tenant.any fun t => t.keyId = keyIdOf (slice key 0 32)) = true
      ∨ c.flash.consumed.contains (keyIdOf (slice key 0 32)) = true) := by
    rw [hnew, hcons]
    decide
  unfold Ctl.keyDeliver
  simp only [hm, ht, hknown, Nat.not_le.2 hroom, Nat.not_lt.2 hu, Bool.not_true, Bool.false_eq_true, if_false, ne_eq, not_true_eq_false]

theorem Ctl.keyDeliver_of_unauthenticated (hm : x.mutualAuth = false) (hu : use ≤ 1) :
    c.keyDeliver k x key use flags member =
      (c.onDie (·.count Reg.KST_CNT_KEYS_REFUSED)).vendor k 1 (le 16 (keyIdOf (slice key 0 32)) ++ le 1 3) := by
  unfold Ctl.keyDeliver
  simp only [hm, Nat.not_lt.2 hu, Bool.not_false, if_true, if_false]
  rfl

end

/-- Settles O35, by what the session authenticated and by what Keystone holds of the key or partition named. -/
theorem keystoneRequests : Obligations.KeystoneRequests := by
  unfold Obligations.KeystoneRequests
  refine ⟨fun s k session key use flags member hu => State.ctlNext_on hu rfl, fun s k session keyId hu => State.ctlNext_on hu rfl,
    fun s k session nonce hu => State.ctlNext_on hu rfl, fun s k session tag nonce hu => State.ctlNext_on hu rfl,
    fun s k session op key hu => State.ctlNext_on hu rfl, ?delivered, ?undelivered, ?destroyed, ?no_key, ?no_operator, ?added, ?own_entry,
    fun s k nonce hu hk hp => State.ctlNext_inSession hu hk hp rfl rfl, ?report, ?no_partition⟩
  case delivered =>
    intro s k key use flags member hu hk hp hm ht huse hnew hcons hroom
    exact State.ctlNext_inSession hu hk hp rfl (Ctl.keyDeliver_of_new_key hm ht huse hnew hcons hroom)
  case undelivered =>
    intro s k key use flags member hu hk hp hm huse
    exact State.ctlNext_inSession hu hk hp rfl (Ctl.keyDeliver_of_unauthenticated hm huse)
  case destroyed =>
    intro s k keyId hu hk hp hm hany
    refine State.ctlNext_inSession hu hk hp rfl ?_
    simp only [hm, Bool.and_true]
    exact if_pos hany
  case no_key =>
    intro s k keyId hu hk hp hn
    refine State.ctlNext_inSession hu hk hp rfl ?_
    simp only [hn]
    rfl
  case no_operator =>
    intro s k op key hu hk hp ho
    exact State.ctlNext_inSession hu hk hp rfl (if_pos (by simp [ho]))
  case added =>
    intro s k key hu hk hp ho hnew hroom
    refine State.ctlNext_inSession hu hk hp rfl ?_
    dsimp only
    rw [if_neg (by simp [ho]), if_pos rfl, if_neg (by rw [hnew]; simp [hroom])]
  case own_entry =>
    intro s k hu hk hp ho
    refine State.ctlNext_inSession hu hk hp rfl ?_
    dsimp only
    rw [if_neg (by simp [ho]), if_neg Nat.one_ne_zero, if_pos rfl, if_pos (.inl rfl)]
  case report =>
    intro s k tag nonce hu hk hp hpart ho
    exact State.ctlNext_inSession hu hk hp rfl (if_pos (by simp [hpart, ho]))
  case no_partition =>
    intro s k tag nonce hu hk hp hpart
    exact State.ctlNext_inSession hu hk hp rfl (if_neg (by simp [hpart]))

end Sys2Proof.Machine
end

section
/-! PROOFS. Keystone's commands of certificates, enrolment and fuses, and the key slots of an agent. -/

namespace Sys2Proof.Machine

open Sys2Proof.Claim

/-! ## KST_CTL (R376, R380) -/

section
variable {c : Ctl} {val : Nat}

theorem Ctl.loadCerts_of_read {d : Ctl} {b : Bytes}
    (h : c.memRead (c.die.getN Reg.KST_CERT_ADDR) (c.die.bget Reg.KST_CERT_LEN 27 0) = (d, b, false)) :
    c.loadCerts = (derSplit b.length b).foldl (fun c x =>
      if Config.certOk (Config.publicKey 5) x then
        { c with flash := { c.flash with certs := tset c.flash.certs (Config.certSubject x) x } }
      else c.onDie (·.count Reg.KST_CNT_CERT_BAD)) d := by
  unfold Ctl.loadCerts
  simp only [h, Bool.false_eq_true, if_false]

theorem Ctl.rollbackCommit_of_key (hb : bitOf val 3 = true) (hk : bitsOf val 15 8 = 0xC3) (hf : bitsOf val 6 4 ≤ 3) :
    c.rollbackCommit val =
      let f := bitsOf val 6 4
      let n := max (c.flash.fuses.getD f 0) (min (fuseCaps.getD f 0) (c.runningIndex f))
      { c with flash := { c.flash with fuses := c.flash.fuses.set f n } } := by
  unfold Ctl.rollbackCommit
  exact if_neg (by simp [hb, hk, hf])

theorem Ctl.rollbackCommit_of_other_key (hk : bitsOf val 15 8 ≠ 0xC3) : c.rollbackCommit val = c := by
  unfold Ctl.rollbackCommit
  exact if_pos (.inr (.inl hk))

end

/-! ## KEY_WRAP (R391, R464) -/

section
variable {a : Agt} {p : Bytes} {wm : Worm}

theorem Agt.wrapStatus_in_test_mode (h : a.die.testEn = true) : a.wrapStatus p = 5 := by
  unfold Agt.wrapStatus
  exact if_pos h

theorem Agt.wrapStatus_of_replay (ht : a.die.testEn = false) (hn : fieldAt p 32 8 ≤ a.die.getN Reg.GCM_WRAP_SEQ) :
    a.wrapStatus p = 2 := by
  unfold Agt.wrapStatus
  dsimp only
  rw [if_neg (by simp [ht]), if_pos hn]

theorem Agt.wrapStatus_of_rising {k : AgentKeys} (ht : a.die.testEn = false) (hn : a.die.getN Reg.GCM_WRAP_SEQ < fieldAt p 32 8)
    (hk : a.gcm.keys = some k) :
    a.wrapStatus p =
      if Config.gcmOk k.wrapKey (le 4 0 ++ be 8 (fieldAt p 32 8)) (p.take 40 ++ le 4 a.fid) (slice p 40 32) (slice p 72 16) = false then 1
      else if 2 < byteAt p 1 ∨ fieldAt p 2 2 = 0 ∨ 4095 < fieldAt p 2 2 ∨ fieldAt p 12 4 ≠ 0 then 4
      else if (a.keySlot (byteAt p 0)).isSome = true then 3
      else 0 := by
  unfold Agt.wrapStatus
  dsimp only
  rw [if_neg (by simp [ht]), if_neg (Nat.not_le.2 hn)]
  simp only [hk, Option.map_some, Option.getD_some, Option.isNone_some, Bool.false_or, Bool.not_eq_true']

theorem Agt.keyWrap_of_controller (h : markPriv (wormMark wm) = 2) :
    a.keyWrap wm =
      let p := slice wm.payload 0 128
      let b := if a.wrapStatus p = 0 then a.loadSlot p else a.count Reg.GCM_CNT_WRAP_REFUSED
      b.onDie fun d => d.sendA wm.srcFid 0x42 0 (slice p 0 1 ++ le 1 (a.wrapStatus p) ++ le 6 0 ++ slice p 32 8) := by
  unfold Agt.keyWrap
  exact if_neg (not_not_intro h)

end

/-! ## REKEY (R392) -/

section
variable {c d : Ctl} {tag slot course t : Nat} {p : PartPlan}

theorem Ctl.rekey_of_plain (hp : (c.adm.parts.find? fun p => p.tag = tag && p.phase = 1) = some p) (he : bitOf p.flags 1 = false) :
    c.rekey tag = c := by
  unfold Ctl.rekey
  simp only [hp]
  exact if_pos (.inl (by simp [he]))

theorem Ctl.rekey_of_due (hp : (c.adm.parts.find? fun p => p.tag = tag && p.phase = 1) = some p) (he : bitOf p.flags 1 = true)
    (ht : p.activeNs = some t) (hdue : t + 2 ^ 49 ≤ c.die.ns) (hheld : (c.kst.tenant.any fun k => k.keyId = p.trafficKey) = true)
    (hslot : freeSlot c.adm.parts (p.members ++ p.switches) = some slot)
    (hi : (c.loadKeys p slot (p.gen + 1)).install ((c.loadKeys p slot (p.gen + 1)).adm.parts.filter fun x => x.phase = 1)
      (((c.loadKeys p slot (p.gen + 1)).adm.parts.filter fun x => x.phase = 1).map fun x =>
        if x.tag = tag then { p with trafficSlot := slot, gen := p.gen + 1 } else x) false
      (some { p with trafficSlot := slot, gen := p.gen + 1 }) p.period = (d, course)) :
    c.rekey tag =
      if course = 0 then d
      else
        let p' : PartPlan := { p with trafficSlot := slot, gen := p.gen + 1, activateCourse := course, activeNs := some (course * d.courseNs) }
        { d with adm := { d.adm with parts := d.adm.parts.map fun x => if x.tag = tag ∧ x.inst = p.inst then p' else x } } := by
  have hnow : decide (2 ^ 49 + t ≤ c.die.ns) = true := decide_eq_true (by omega)
  unfold Ctl.rekey
  simp only [hp]
  rw [if_neg (by simp only [he, ht, hnow, hheld]; decide)]
  simp only [hslot, hi]

end

/-! ## What the commands answer -/

section
variable {s : State} {tag : Nat} {val : Word} {g : Ctl → Ctl}

theorem exec_rollbackCommit (hu : On s) (ht : Takes s.ctl.die Blk.KST) (h : s.ctl.rollbackCommit val.toNat = g s.ctl) :
    exec (.rollbackCommit val) s = ctlDoes s g := by
  show execRollbackCommit val s = _
  exact State.ctlNext_written hu ht h

theorem exec_rekey (hu : On s) (h : s.ctl.rekey tag = g s.ctl) : exec (.rekey tag) s = ctlDoes s g := by
  show execRekey tag s = _
  exact State.ctlNext_on hu h

end

/-- Settles O36, by the key values of Keystone's writes, by the order in which a wrap's checks fail, and by the state of a slot. -/
theorem keySlots : Obligations.KeySlots := by
  unfold Obligations.KeySlots
  refine ⟨fun s hu ht => State.ctlNext_written hu ht rfl, fun s hu ht => State.ctlNext_written hu ht rfl,
    fun s val hu ht => exec_rollbackCommit hu ht rfl, fun s w inBond wm hu => State.agtNext_up hu rfl,
    fun s w slot hu => State.agtNext_up hu rfl, fun s w slot hu => State.agtNext_up hu rfl, fun s tag hu => exec_rekey hu rfl,
    fun s w slot hu => State.agtNext_up hu rfl, ?certs, ?armed, ?unarmed, ?fuse, ?no_fuse, ?wrap, fun a p k => Agt.wrapStatus_of_rising,
    fun a p => Agt.wrapStatus_in_test_mode, fun a p => Agt.wrapStatus_of_replay,
    fun s fid slot status n hu => State.ctlNext_on hu rfl, ?unused, ?retired, ?expired, ?plain, ?rekeyed⟩
  case certs =>
    intro s c' b hu ht h
    exact State.ctlNext_written hu ht (Ctl.loadCerts_of_read h)
  case armed =>
    intro s hu ht h
    exact State.ctlNext_written hu ht (if_pos (by simp [h]))
  case unarmed =>
    intro s hu ht hne hok
    exact State.ctlNext_written hu ht (if_neg (by simp [hne, hok]))
  case fuse =>
    intro s val hu ht hb hk hf
    exact exec_rollbackCommit hu ht (Ctl.rollbackCommit_of_key hb hk hf)
  case no_fuse =>
    intro s val hu ht hk
    exact exec_rollbackCommit hu ht (Ctl.rollbackCommit_of_other_key hk)
  case wrap =>
    intro s w inBond wm hu hp
    exact State.agtNext_up hu (Agt.keyWrap_of_controller hp)
  case unused =>
    intro s w slot k hu hk hst hdue
    refine State.agtNext_up hu ?_
    simp only [hk]
    exact if_pos ⟨hst, by omega⟩
  case retired =>
    intro s w slot t k hu hk hst hr ht
    refine State.agtNext_up hu ?_
    simp only [hk, hst, hr]
    exact if_pos ht
  case expired =>
    intro s w slot k hu hk h0 he
    refine State.agtNext_up hu ?_
    simp only [hk]
    exact if_pos ⟨h0, he⟩
  case plain =>
    intro s tag p hu hp he
    exact exec_rekey hu (Ctl.rekey_of_plain hp he)
  case rekeyed =>
    intro s tag slot course t p c' hu hp he ht hdue hheld hslot hi
    exact exec_rekey hu (Ctl.rekey_of_due hp he ht hdue hheld hslot hi)

end Sys2Proof.Machine
end

section
/-! PROOFS. Measurements of agents for a report, and the debug port. -/

namespace Sys2Proof.Machine

open Sys2Proof.Claim

/-! ## MEASURE_REPORT (R401) -/

section
variable {c : Ctl} {fid register st lastSeq extendSeq nonce : Nat} {value tag : Digest} {j : ReportJob} {w : Awaited}

/-- The tag that a MEASURE_REPORT of an agent must carry: under the report key that Keystone keeps for it. -/
def Ctl.measureGood (c : Ctl) (fid register st lastSeq extendSeq nonce : Nat) (value : Digest) : Digest :=
  digestOf (measureTag (((tget c.kst.agentKeys fid).map (·.keys.reportKey)).getD [])
    (measureBytes register st lastSeq extendSeq nonce value) fid)

theorem Ctl.measureReport_of_bad_tag (hj : c.awaited fid = some (j, w)) (hw : c.die.takeWait Blk.KST = (false, c.die))
    (hn : nonce = j.askNonce) (hm : bitOf w.mask register = true) (hup : c.die.up ≤ j.askedNs + 1000000000)
    (ht : tag ≠ c.measureGood fid register st lastSeq extendSeq nonce value) :
    c.measureReport fid register st lastSeq extendSeq nonce value tag =
      ((c.onDie (·.count Reg.KST_CNT_BAD_MAC)).raise Ev.MEASURE_BAD_MAC).settleAgent fid 2 none := by
  unfold Ctl.measureReport
  simp only [hj, hw]
  rw [if_neg (by simp [hn, hm]), if_neg (by simp only [Bool.false_eq_true, false_or]; omega)]
  exact if_pos ht

theorem Ctl.measureReport_of_last (hj : c.awaited fid = some (j, w)) (hw : c.die.takeWait Blk.KST = (false, c.die))
    (hn : nonce = j.askNonce) (hm : bitOf w.mask register = true) (hlast : putBits w.mask register register 0 = 0)
    (hup : c.die.up ≤ j.askedNs + 1000000000) (ht : tag = c.measureGood fid register st lastSeq extendSeq nonce value) :
    c.measureReport fid register st lastSeq extendSeq nonce value tag =
      c.settleAgent fid 0 (some { fid := fid, values := tset w.values register value, seq := extendSeq, time := c.die.ns }) := by
  unfold Ctl.measureReport
  simp only [hj, hw]
  rw [if_neg (by simp [hn, hm]), if_neg (by simp only [Bool.false_eq_true, false_or]; omega)]
  exact (if_neg (not_not_intro ht)).trans (if_pos hlast)

end

/-! ## What the commands answer -/

section
variable {s : State} {fid register st lastSeq extendSeq nonce : Nat} {value tag : Digest}

theorem exec_measureReport {g : Ctl → Ctl} (hu : On s)
    (h : s.ctl.measureReport fid register st lastSeq extendSeq nonce value tag = g s.ctl) :
    exec (.measureReport fid register st lastSeq extendSeq nonce value tag) s = ctlDoes s g := by
  show execMeasureReport fid register st lastSeq extendSeq nonce value tag s = _
  exact State.ctlNext_on hu h

end

/-- Settles O37, by whether the agent has keys, and by the nonce, the moment and the tag of a report. -/
theorem measurements : Obligations.Measurements := by
  unfold Obligations.Measurements
  refine ⟨fun s w nonce mask hu => State.agtNext_up hu rfl,
    fun s fid register st lastSeq extendSeq nonce value tag hu => exec_measureReport hu rfl, fun s fid hu => State.ctlNext_on hu rfl,
    fun s hu => State.ctlNext_on hu rfl, fun s w hu => State.agtNext_up hu rfl, ?keyed, ?keyless, ?bad, ?last, ?timeout,
    fun s hu => State.ctlNext_on hu rfl, fun s w hu => State.agtNext_up hu rfl⟩
  case keyed =>
    intro s w nonce mask k hu hk
    refine State.agtNext_up hu ?_
    rw [hk]
  case keyless =>
    intro s w nonce mask hu hk
    refine State.agtNext_up hu ?_
    rw [hk]
  case bad =>
    intro s fid register st lastSeq extendSeq nonce value tag j w hu hj hw hn hm hup ht
    exact exec_measureReport hu (Ctl.measureReport_of_bad_tag hj hw hn hm hup ht)
  case last =>
    intro s fid register st lastSeq extendSeq nonce value tag j w hu hj hw hn hm hlast hup ht
    exact exec_measureReport hu (Ctl.measureReport_of_last hj hw hn hm hlast hup ht)
  case timeout =>
    intro s fid j w hu hj hdue
    refine State.ctlNext_on hu ?_
    simp only [hj]
    exact if_neg (by omega)

end Sys2Proof.Machine
end

section
/-! PROOFS. Firmware staged, sent out, repaired and activated by the controller. -/

namespace Sys2Proof.Machine

open Sys2Proof.Claim

/-! ## A pass and its queries (R498, R500, R505) -/

section
variable {c : Ctl}

theorem Ctl.fdsDistribute_of_staged {b : Bytes} (hb : tget c.flash.staged 3 = some b) (hd : c.distributing = false) :
    c.fdsDistribute =
      let id := (c.fds.imageId + 1) % 2 ^ 32
      let agents : Tbl FdsAgent := c.liveAgents.foldl (fun t a => tset t a.fid { state := 0, bitmap := 0, reported := false }) []
      let f : Fds := { imageId := id, image := b, next := 0, agents := agents, course := none, want := none, activated := false }
      (({ c with fds := f } : Ctl).setFds 3).onDie
        (·.setN Reg.FDS_IMAGE (id + 3 * 2 ^ 32 + ceilDiv b.length 2048 % 2 ^ 10 * 2 ^ 40)) := by
  unfold Ctl.fdsDistribute
  simp only [hb]
  exact if_neg (by simp [hd])

theorem Ctl.fwPassChunk_of_due (hd : c.distributing = true) (hn : c.fds.next < c.fdsCount)
    (hdue : c.fds.sentNs + c.die.fget Fl.FDS_CFG_chunk_ns ≤ c.die.up) :
    c.fwPassChunk =
      let p := c.passChunk c.fds.next
      { p with fds := { p.fds with next := c.fds.next + 1, sentNs := c.die.up, queried := false } } := by
  unfold Ctl.fwPassChunk
  exact if_neg (by simp only [hd, Bool.not_true, Bool.false_eq_true, false_or]; omega)

theorem Ctl.fwPassChunk_too_soon (h0 : 0 < c.fds.next) (h : c.die.up < c.fds.sentNs + c.die.fget Fl.FDS_CFG_chunk_ns) :
    c.fwPassChunk = c := by
  unfold Ctl.fwPassChunk
  exact if_pos (.inr (.inr ⟨h0, h⟩))

theorem Ctl.fwQuerySend_of_due (hd : c.distributing = true) (hn : c.fdsCount ≤ c.fds.next) (hq : c.fds.queried = false)
    (hdue : 4000000 + c.fds.sentNs + 1000 * c.die.fget Fl.FDS_CFG_quiet_us ≤ c.die.up) :
    c.fwQuerySend =
      let c : Ctl := { c with fds := { c.fds with queried := true } }
      (c.fds.agents.filter fun p => !p.2.reported && decide (p.2.state < 2)).foldl (fun (c : Ctl) p =>
        (c.sendA p.1 0x50 (le 4 c.fds.imageId)).onDie (·.count Reg.FDS_CNT_QUERIES)) c := by
  unfold Ctl.fwQuerySend
  exact if_neg (by simp only [hd, hq, Bool.not_true, Bool.false_eq_true, false_or]; omega)

theorem Ctl.fwQuerySend_too_soon (h : c.die.up < 4000000 + c.fds.sentNs + 1000 * c.die.fget Fl.FDS_CFG_quiet_us) : c.fwQuerySend = c := by
  unfold Ctl.fwQuerySend
  exact if_pos (.inr (.inr (.inr h)))

end

/-! ## What agents report (R505, R506, R509) -/

section
variable {c : Ctl} {fid id : Nat}

theorem Ctl.fwStitches_of_receiving {x : FdsAgent} (bitmap : Nat) (hi : id = c.fds.imageId) (hx : tget c.fds.agents fid = some x)
    (hs : x.state ≤ 2) : c.fwStitches fid id 1 bitmap = c.setFdsAgent fid { state := 1, bitmap := bitmap, reported := true } := by
  unfold Ctl.fwStitches
  rw [if_neg (not_not_intro hi)]
  simp only [hx]
  exact if_neg (Nat.not_lt.2 hs)

theorem Ctl.fwStitches_of_other_image (state bitmap : Nat) (h : id ≠ c.fds.imageId) : c.fwStitches fid id state bitmap = c := by
  unfold Ctl.fwStitches
  exact if_pos h

/-- Past the last round the agents still short are given up, once they were asked. -/
theorem Ctl.repairRound_past_last (hd : c.distributing = true) (hn : c.fdsCount ≤ c.fds.next)
    (hshort : ((c.fds.agents.filter fun p => decide (p.2.state < 2)).map (·.1)) ≠ []) (hq : c.fds.queried = true)
    (hr : c.die.fget Fl.FDS_CFG_rounds ≤ c.die.bget Reg.FDS_IMAGE 63 56) :
    c.repairRound =
      ((c.fds.agents.filter fun p => decide (p.2.state < 2)).map (·.1)).foldl (fun (c : Ctl) f => c.giveUp f) c := by
  have hsome : ((c.fds.agents.filter fun p => decide (p.2.state < 2)).map (·.1)).isEmpty = false := List.isEmpty_eq_false_iff.2 hshort
  unfold Ctl.repairRound
  dsimp only
  rw [if_neg (by simp only [hd, hsome, Bool.not_true, Bool.false_eq_true, false_or, or_false]; omega), if_neg (by simp [hq]), if_pos hr]

/-- A report of an agent that the distribution names is not turned away. -/
theorem Ctl.fds_names (hi : id = c.fds.imageId) (ha : (tget c.fds.agents fid).isSome = true) :
    ¬ (id ≠ c.fds.imageId ∨ (tget c.fds.agents fid).isNone = true) := by
  rw [Option.isNone_iff_eq_none, not_or]
  exact ⟨not_not_intro hi, Option.isSome_iff_ne_none.1 ha⟩

theorem Ctl.fwReady_before_activation (hi : id = c.fds.imageId) (ha : (tget c.fds.agents fid).isSome = true)
    (hact : c.fds.activated = false) : c.fwReady fid id = c.setFdsAgent fid { c.fdsAgent fid with state := 3, reported := true } := by
  unfold Ctl.fwReady
  rw [if_neg (Ctl.fds_names hi ha)]
  exact if_neg (by simp [Ctl.setFdsAgent, hact])

theorem Ctl.fwResult_of_activated (version : Nat) (hi : id = c.fds.imageId) (ha : (tget c.fds.agents fid).isSome = true) :
    c.fwResult fid id 1 version =
      let c := c.fdsPassed
      let c := c.setFdsAgent fid { c.fdsAgent fid with state := 4 }
      let c := c.modAgent fid fun a => { a with fwVersion := version, linkLevel := (imageHdr c.fds.image).linkLevel }
      c.fdsRetry.resumeJobs := by
  unfold Ctl.fwResult
  exact if_neg (Ctl.fds_names hi ha)

end

/-! ## What the commands answer -/

section
variable {s : State} {fid id count missing state bitmap version course result : Nat} {digest : Digest} {g : Ctl → Ctl}

theorem exec_fwPassChunk (hu : On s) (h : s.ctl.works Blk.FDS Ctl.fwPassChunk = g s.ctl) : exec .fwPassChunk s = ctlDoes s g := by
  show execFwPassChunk s = _
  exact State.ctlNext_on hu h

theorem exec_fwQuerySend (hu : On s) (h : s.ctl.works Blk.FDS Ctl.fwQuerySend = g s.ctl) : exec .fwQuerySend s = ctlDoes s g := by
  show execFwQuerySend s = _
  exact State.ctlNext_on hu h

theorem exec_fwStitches (hu : On s) (h : (s.ctl.works Blk.FDS fun c => c.fwStitches fid id state bitmap) = g s.ctl) :
    exec (.fwStitches fid id count missing state bitmap) s = ctlDoes s g := by
  show execFwStitches fid id count missing state bitmap s = _
  exact State.ctlNext_on hu h

theorem exec_fwReady (hu : On s) (h : (s.ctl.works Blk.FDS fun c => c.fwReady fid id) = g s.ctl) :
    exec (.fwReady fid id version digest) s = ctlDoes s g := by
  show execFwReady fid id version digest s = _
  exact State.ctlNext_on hu h

theorem exec_fwResult (hu : On s) (h : (s.ctl.works Blk.FDS fun c => c.fwResult fid id result version) = g s.ctl) :
    exec (.fwResult fid id result course version) s = ctlDoes s g := by
  show execFwResult fid id result course version s = _
  exact State.ctlNext_on hu h

end

/-- Settles O46, by the course of a distribution: what is staged, the moment of each chunk and query, and whether a report is of the image
that is sent out. -/
theorem firmwareDistribution : Obligations.FirmwareDistribution := by
  unfold Obligations.FirmwareDistribution
  refine ⟨fun s hu ht => State.ctlNext_written hu ht rfl, fun s hu ht => State.ctlNext_written hu ht rfl,
    fun s hu => exec_fwPassChunk hu rfl, fun s hu => exec_fwQuerySend hu rfl,
    fun s fid id count missing state bitmap hu => exec_fwStitches hu rfl, fun s hu => State.ctlNext_on hu rfl,
    fun s fid id version digest hu => exec_fwReady hu rfl, fun s fid id reason hu => State.ctlNext_on hu rfl,
    fun s fid id result course version hu => exec_fwResult hu rfl, fun s hu ht => State.ctlNext_written hu ht rfl, ?distribute, ?pass,
    ?pass_waits, ?query, ?query_waits, ?stitches, ?stitches_other, ?given_up, ?ready, ?refused, ?activate, ?result,
    fun s hu ht => State.ctlNext_written hu ht rfl, fun s hu ht => State.ctlNext_written hu ht rfl⟩
  case distribute =>
    intro s b hu ht hb hd
    exact State.ctlNext_written hu ht (Ctl.fdsDistribute_of_staged hb hd)
  case pass =>
    intro s hu hd hn hdue
    exact exec_fwPassChunk hu (Ctl.works_congr (Ctl.fwPassChunk_of_due hd hn hdue))
  case pass_waits =>
    intro s hu h0 h
    exact exec_fwPassChunk hu (Ctl.works_of_unchanged _ (Ctl.fwPassChunk_too_soon h0 h))
  case query =>
    intro s hu hd hn hq hdue
    exact exec_fwQuerySend hu (Ctl.works_congr (Ctl.fwQuerySend_of_due hd hn hq hdue))
  case query_waits =>
    intro s hu h
    exact exec_fwQuerySend hu (Ctl.works_of_unchanged _ (Ctl.fwQuerySend_too_soon h))
  case stitches =>
    intro s fid id count missing bitmap x hu hi hx hst
    exact exec_fwStitches hu (Ctl.works_congr (Ctl.fwStitches_of_receiving bitmap hi hx hst))
  case stitches_other =>
    intro s fid id count missing state bitmap hu h
    exact exec_fwStitches hu (Ctl.works_of_unchanged _ (Ctl.fwStitches_of_other_image state bitmap h))
  case given_up =>
    intro s hu hd hn hshort hq hr
    exact State.ctlNext_on hu (Ctl.works_congr (Ctl.repairRound_past_last hd hn hshort hq hr))
  case ready =>
    intro s fid id version digest hu hi ha hact
    exact exec_fwReady hu (Ctl.works_congr (Ctl.fwReady_before_activation hi ha hact))
  case refused =>
    intro s fid id reason hu hi ha
    exact State.ctlNext_on hu (Ctl.works_congr (if_neg (Ctl.fds_names hi ha)))
  case activate =>
    intro s hu ht hne
    exact State.ctlNext_written hu ht (if_neg (by simp [hne]))
  case result =>
    intro s fid id course version hu hi ha
    exact exec_fwResult hu (Ctl.works_congr (Ctl.fwResult_of_activated version hi ha))

end Sys2Proof.Machine
end

section
/-! PROOFS. Firmware received, verified, programmed and activated by an agent. -/

namespace Sys2Proof.Machine

open Sys2Proof.Claim

/-! ## Chunks (R500, R501) -/

section
variable {a : Agt} {wm : Worm} {i : Nat} {data : Bytes} {last : Bool}

/-- A chunk without RELAY_COLUMN is not relayed. -/
theorem Agt.relayColumn_of_unflagged (h : bitOf (Worm.opnd wm 24 1) 0 = false) : a.relayColumn wm = a := by
  unfold Agt.relayColumn
  exact if_pos (.inr (.inl (by simp [h])))

theorem Agt.fwChunk_of_other_privilege (h : markPriv (wormMark wm) ≠ 2) : a.fwChunk wm = a.onDie Die.markDenied := by
  unfold Agt.fwChunk
  exact if_pos (.inl h)

/-- A chunk that passes R501's checks, of an image newer than the one held. -/
theorem Agt.fwChunk_of_newer_image {id n total : Nat} (hpriv : markPriv (wormMark wm) = 2) (hpart : wm.partition = 0)
    (hkind : Worm.opnd wm 25 1 = 3) (hflags : Worm.opnd wm 24 1 = 0) (hid : Worm.opnd wm 8 4 = id) (hi : Worm.opnd wm 12 2 = i)
    (hn : Worm.opnd wm 14 2 = n) (htotal : Worm.opnd wm 20 4 = total) (hmax : n ≤ 512) (hcount : n = ceilDiv total 2048) (hlt : i < n)
    (hlen : wm.length = ceilDiv (min 2048 (total - 2048 * i)) 64) (hfit : total ≤ (a.die.resource.shares.getD 0 (0, 0)).2 * 4096)
    (hcrc : crc32c (slice wm.payload 0 (min 2048 (total - 2048 * i))) = Worm.opnd wm 16 4) (hnew : a.fwrx.imageId < id)
    (hst : a.fwState < 4) :
    a.fwChunk wm = (a.startImage id n total).keepChunk i (slice wm.payload 0 (min 2048 (total - 2048 * i))) false := by
  have hrelay : a.relayColumn wm = a := Agt.relayColumn_of_unflagged (by rw [hflags]; decide)
  have hlast : bitOf 0 1 = false := by decide
  unfold Agt.fwChunk
  simp only [hid, hi, hn, htotal, hrelay, hflags, hlast]
  rw [if_neg (by simp [hpriv, hpart, hkind]), if_neg (by rw [← hcount, ← hlen]; omega), if_neg (not_not_intro hcrc),
    if_neg (by omega), if_pos (.inr ⟨hnew, hst⟩)]

theorem Agt.keepChunk_of_held (h : (tget a.fwrx.chunks i).isSome = true) : a.keepChunk i data last = a.count Reg.AGT_CNT_FW_DUPLICATE := by
  unfold Agt.keepChunk
  exact if_pos h

/-- The chunk that completes the image starts its verification. -/
theorem Agt.keepChunk_of_last_missing (hi : tget a.fwrx.chunks i = none) (hc : (tset a.fwrx.chunks i data).length = a.fwrx.count) :
    a.keepChunk i data last =
      let f : FwRx := { a.fwrx with chunks := tset a.fwrx.chunks i data, acceptedNs := a.die.up, reported := false,
                                    lastNs := if last = true then some a.die.up else a.fwrx.lastNs }
      ((({ a with fwrx := f } : Agt).onDie (·.fset Fl.AGT_FW_STATUS_received f.chunks.length)).setFw 2) := by
  unfold Agt.keepChunk
  dsimp only
  rw [if_neg (by simp [hi]), if_pos hc]

theorem Agt.stitchesDue_of_reported (h : a.fwrx.reported = true) : a.stitchesDue = false := by
  simp [Agt.stitchesDue, h]

end

/-! ## Verification and programming (R502, R503) -/

section
variable {a : Agt}

theorem Agt.verifyDone_of_verifying (h : a.fwState = 2) :
    a.verifyDone =
      let r := a.fwVerify a.fwrx.image
      let h := imageHdr a.fwrx.image
      if r ≠ 0 then (a.refuseFw a.fwrx.imageId r).fwIdle
      else ({ a with fwrx := { a.fwrx with version := h.version, digest := digestOf h.bodyDigest } } : Agt).setFw 3 := by
  unfold Agt.verifyDone
  exact if_neg (not_not_intro h)

theorem Agt.programDone_of_written (h : a.fwState = 3) :
    a.programDone true =
      let f := a.fwrx.program (1 - a.die.fget Fl.AGT_FW_STATUS_active_bank) a.fwrx.image true
      (({ a with fwrx := { f with chunks := [] } } : Agt).setFw 4).onDie
        (·.toController 0x52 (le 4 f.imageId ++ le 4 f.version ++ digestBytes f.digest)) := by
  unfold Agt.programDone
  exact if_neg (not_not_intro h)

theorem Agt.programDone_of_failed (h : a.fwState = 3) :
    a.programDone false =
      let f := a.fwrx.program (1 - a.die.fget Fl.AGT_FW_STATUS_active_bank) a.fwrx.image false
      (({ a with fwrx := f } : Agt).refuseFw f.imageId 5).fwIdle := by
  unfold Agt.programDone
  exact if_neg (not_not_intro h)

end

/-! ## Activation (R507 to R510) -/

section
variable {a : Agt} {id course k : Nat}

/-- FW_ACTIVATE of the image that is STAGED: it is late once the course has started. -/
theorem Agt.fwActivate_of_staged (hs : a.die.safe = false) (hst : a.fwState = 4) (hid : a.fwrx.imageId = id) :
    a.fwActivate id course =
      if a.courseStarted course = true then a.fwReport 2 course else { a with fwrx := { a.fwrx with course := some course } } := by
  unfold Agt.fwActivate
  exact if_neg (by simp [hs, hst, hid])

theorem Agt.fwCourse_of_started (hk : a.fwrx.course = some k) (hst : a.fwState = 4) (hc : a.courseStarted k = true) (hl : a.recLevel < 2)
    (hr : a.regime = false) (hs : a.die.safe = false) :
    a.fwCourse = ((a.onDie (·.fset Fl.AGT_FW_STATUS_active_bank (1 - a.die.fget Fl.AGT_FW_STATUS_active_bank))).setFw 5).extendOwn 0 2
      (digestBytes a.fwrx.digest) := by
  unfold Agt.fwCourse
  simp only [hk]
  rw [if_neg (by simp [hst, hc]), if_neg (by simp only [hr, hs, Bool.false_eq_true, or_false]; omega)]
  rfl

/-- The agent whose core runs the firmware of the bank that is active now, and has reported it for a course (R509, R510). -/
def Agt.withNewFirmware (a : Agt) (course : Nat) : Agt :=
  let b := a.onDie fun d => { d with fw := a.fwrx.firmware (d.fget Fl.AGT_FW_STATUS_active_bank) }
  let f : FwRx := { b.fwrx with course := none, activated := b.fwrx.imageId, count := 0, total := 0 }
  let b : Agt := { b with fwrx := f }
  ((b.setFw 0).onDie (·.fset Fl.AGT_FW_STATUS_received 0)).fwReport 1 course

/-- The expiries that waited for the new firmware take effect (R508). -/
def Agt.withDeferredDone (a : Agt) : Agt :=
  let late := a.rcv.deferred
  late.foldl (fun (a : Agt) k => a.ownerAction k) { a with rcv := { a.rcv with deferred := [] } }

theorem Agt.withDeferredDone_of_none (hd : a.rcv.deferred = []) :
    a.withDeferredDone = { a with rcv := { a.rcv with deferred := [] } } := by
  unfold Agt.withDeferredDone
  simp only [hd, List.foldl_nil]

theorem Agt.setFw_rcv (a : Agt) (st : Nat) : (a.setFw st).rcv = a.rcv := Agt.onDie_rcv a _

theorem Agt.fwReport_rcv (a : Agt) (result course : Nat) : (a.fwReport result course).rcv = a.rcv := Agt.onDie_rcv a _

theorem Agt.withNewFirmware_rcv (a : Agt) (course : Nat) : (a.withNewFirmware course).rcv = a.rcv := by
  refine (Agt.fwReport_rcv _ 1 course).trans ?_
  rw [Agt.onDie_rcv, Agt.setFw_rcv]
  rfl

/-- The expiries that waited for the new firmware take effect once it runs (R508). -/
theorem Agt.restartDone_of_activating (h : a.fwState = 5) :
    a.restartDone = (a.withNewFirmware (a.fwrx.course.getD 0)).withDeferredDone := by
  unfold Agt.restartDone
  rw [if_neg (not_not_intro h)]
  rfl

theorem Agt.restartDone_without_deferred (h : a.fwState = 5) (hd : a.rcv.deferred = []) :
    a.restartDone =
      let b := a.withNewFirmware (a.fwrx.course.getD 0)
      { b with rcv := { b.rcv with deferred := [] } } := by
  rw [Agt.restartDone_of_activating h]
  exact Agt.withDeferredDone_of_none (by rw [Agt.withNewFirmware_rcv, hd])

end

/-! ## What the commands answer -/

section
variable {s : State} {w : Who} {bond id course : Nat} {wm : Worm} {ok : Bool} {g : Agt → Agt}

theorem exec_fwChunk (hu : Up s w) (h : (s.agt w).fwChunk wm = g (s.agt w)) : exec (.fwChunk w bond wm) s = agtDoes s w g := by
  show execFwChunk w bond wm s = _
  exact State.agtNext_up hu h

theorem exec_fwProgramDone (hu : Up s w) (h : (s.agt w).programDone ok = g (s.agt w)) : exec (.fwProgramDone w ok) s = agtDoes s w g := by
  show execFwProgramDone w ok s = _
  exact State.agtNext_up hu h

theorem exec_fwActivate (hu : Up s w) (h : (s.agt w).fwActivate id course = g (s.agt w)) :
    exec (.fwActivate w id course) s = agtDoes s w g := by
  show execFwActivate w id course s = _
  exact State.agtNext_up hu h

/-- The agent's part of a course comes before the controller's. -/
theorem exec_fwActivationCourse (hu : Up s w) (hon : On (s.onAgt w Agt.fwCourse)) :
    exec (.fwActivationCourse w) s = ctlDoes (s.onAgt w Agt.fwCourse) fun c => c.fdsPassed.resumeJobs := by
  show execFwActivationCourse w s = _
  unfold execFwActivationCourse
  rw [State.agtNext_up (g := Agt.fwCourse) hu rfl]
  exact State.ctlNext_on hon rfl

end

/-- Settles O47, by the agent's firmware state: what each message finds received, verified, programmed or activated. -/
theorem firmwareReception : Obligations.FirmwareReception := by
  unfold Obligations.FirmwareReception
  refine ⟨fun s w bond wm hu => exec_fwChunk hu rfl, fun s w hu => State.agtNext_up hu rfl, fun s w ok hu => exec_fwProgramDone hu rfl,
    fun s w hu => State.agtNext_up hu rfl, fun s w id course hu => exec_fwActivate hu rfl, fun s w id hu => State.agtNext_up hu rfl,
    fun s w id hu => State.agtNext_up hu rfl, fun s w hu => State.agtNext_up hu rfl, ?chunk, ?chunk_denied,
    fun a i data last => Agt.keepChunk_of_held, fun a i data last => Agt.keepChunk_of_last_missing, ?stitches, ?stitches_sent,
    fun s w id hu => State.agtNext_up hu rfl, ?verified, ?programmed, ?unprogrammed, ?on_time, ?late,
    fun s w hu hon => exec_fwActivationCourse hu hon, fun a k => Agt.fwCourse_of_started, ?restarted, ?commit, ?abandon⟩
  case chunk =>
    intro s w bond id i n total wm hu hpriv hpart hkind hflags hid hi hn htotal hmax hcount hlt hlen hfit hcrc hnew hst
    exact exec_fwChunk hu
      (Agt.fwChunk_of_newer_image hpriv hpart hkind hflags hid hi hn htotal hmax hcount hlt hlen hfit hcrc hnew hst)
  case chunk_denied =>
    intro s w bond wm hu h
    exact exec_fwChunk hu (Agt.fwChunk_of_other_privilege h)
  case stitches =>
    intro s w hu h
    exact State.agtNext_up hu (if_pos h)
  case stitches_sent =>
    intro s w hu h
    exact State.agtNext_up hu (if_neg (by simp [Agt.stitchesDue_of_reported h]))
  case verified =>
    intro s w hu h
    exact State.agtNext_up hu (Agt.verifyDone_of_verifying h)
  case programmed =>
    intro s w hu h
    exact exec_fwProgramDone hu (Agt.programDone_of_written h)
  case unprogrammed =>
    intro s w hu h
    exact exec_fwProgramDone hu (Agt.programDone_of_failed h)
  case on_time =>
    intro s w id course hu hs hst hid hc
    exact exec_fwActivate hu ((Agt.fwActivate_of_staged hs hst hid).trans (if_neg (by simp [hc])))
  case late =>
    intro s w id course hu hs hst hid hc
    exact exec_fwActivate hu ((Agt.fwActivate_of_staged hs hst hid).trans (if_pos hc))
  case restarted =>
    intro s w hu hst hd
    exact State.agtNext_up hu (Agt.restartDone_without_deferred hst hd)
  case commit =>
    intro s w id hu hs hact h0
    exact State.agtNext_up hu (if_neg (by simp [hs, hact, h0]))
  case abandon =>
    intro s w id hu hs h1 h4 hid
    exact State.agtNext_up hu (if_neg (by simp only [hs, hid, Bool.false_eq_true, false_or, ne_eq, not_true_eq_false, or_false]; omega))

end Sys2Proof.Machine
end

section
/-! PROOFS. The model's queue (log entry 1): a step takes the command at its front, and no command changes it. -/

namespace Sys2Proof.Machine

open Sys2Proof.Claim

section
variable {s t : State}

theorem step_of_front {c : Instr} {rest : List Instr} (h : s.pending = c :: rest) : step s = exec c { s with pending := rest } := by
  unfold step
  rw [h]

theorem step_of_empty (h : s.pending = []) : step s = .next s := by
  unfold step
  rw [h]

/-- Effects at agents and at the controller leave the queue as it is. -/
theorem Effects.pending (h : Effects s t) : t.pending = s.pending := by
  induction h with
  | refl => rfl
  | onAgt w f busy _ ih => rw [State.onAgt_pending, ih]
  | onCtl f _ ih => rw [State.onCtl_pending, ih]

theorem exec_keeps_pending (c : Instr) (s : State) : ∃ t, exec c s = .next t ∧ t.pending = s.pending := by
  obtain ⟨t, ht, he⟩ := exec_effects c (Effects.refl (s := s))
  exact ⟨t, ht, he.pending⟩

theorem step_takes_one (s : State) : ∃ t, step s = .next t ∧ t.pending = s.pending.drop 1 := by
  cases hp : s.pending with
  | nil => exact ⟨s, step_of_empty hp, hp⟩
  | cons c rest =>
    rw [step_of_front hp]
    exact exec_keeps_pending c { s with pending := rest }

end

/-- Settles O51, by the two forms of the queue: the front command runs with the queue's rest, and an empty queue idles. -/
theorem stepTakesFront : Obligations.StepTakesFront := by
  unfold Obligations.StepTakesFront
  exact ⟨fun _ _ _ => step_of_front, fun _ _ => step_of_front rfl, fun _ => step_of_empty⟩

/-- Settles O52: every command is a sequence of effects at agents and at the controller, and none of these changes the queue. -/
theorem queueFirstInFirstOut : Obligations.QueueFirstInFirstOut := by
  unfold Obligations.QueueFirstInFirstOut
  exact ⟨exec_keeps_pending, step_takes_one⟩

end Sys2Proof.Machine
end

section
/-! PROOFS. Class B mailboxes (R471) and relayed worms (R468). -/

namespace Sys2Proof.Machine

open Sys2Proof.Claim

/-! ## Class B, by what a master may do at the channel -/

section
variable {d : Die} {c m snd : Nat} {ch : ChanB} {isA : Bool} {ws : List Word} {rest : List (Nat × List Word)}

theorem Die.refuseB_of_unbound (h : ((d.chan c).bind fun ch => ch.side d.part.pelron m) = none) :
    d.refuseB c m = some ((d.resultB c m 2).raise (Ev.WRITE_IGNORED Blk.MBX) c) := by
  unfold Die.refuseB
  rw [h]

theorem Die.sendB_of_refused {d' : Die} (h : d.refuseB c m = some d') : d.sendB c m = d' := by
  unfold Die.sendB
  rw [h]

theorem Die.sendB_of_allowed (hr : d.refuseB c m = none) (hc : d.chan c = some ch) (hs : ch.side d.part.pelron m = some isA) :
    d.sendB c m =
      let v := { d.viewB c m with lost := false }
      if 8 ≤ (ch.outQ isA).length then d.setViewB { v with result := 1 }
      else
        let msg := (m, v.staging)
        let next : ChanB := if isA then { ch with toB := ch.toB ++ [msg] } else { ch with toA := ch.toA ++ [msg] }
        (d.setViewB { v with result := 0 }).setChan next := by
  unfold Die.sendB
  simp only [hr, hc, hs, Option.getD_some, ge_iff_le]

theorem Die.sendB_with_room (hr : d.refuseB c m = none) (hc : d.chan c = some ch) (hs : ch.side d.part.pelron m = some isA)
    (h8 : (ch.outQ isA).length < 8) :
    d.sendB c m =
      let v := d.viewB c m
      let msg := (m, v.staging)
      let next : ChanB := if isA then { ch with toB := ch.toB ++ [msg] } else { ch with toA := ch.toA ++ [msg] }
      (d.setViewB { v with lost := false, result := 0 }).setChan next :=
  (Die.sendB_of_allowed hr hc hs).trans (if_neg (by omega))

theorem Die.sendB_without_room (hr : d.refuseB c m = none) (hc : d.chan c = some ch) (hs : ch.side d.part.pelron m = some isA)
    (h8 : 8 ≤ (ch.outQ isA).length) : d.sendB c m = d.setViewB { d.viewB c m with lost := false, result := 1 } :=
  (Die.sendB_of_allowed hr hc hs).trans (if_pos h8)

theorem Die.popB_oldest (hr : d.refuseB c m = none) (hc : d.chan c = some ch) (hs : ch.side d.part.pelron m = some isA)
    (hq : ch.inQ isA = (snd, ws) :: rest) :
    d.popB c m =
      let left : ChanB := if isA then { ch with toA := rest } else { ch with toB := rest }
      let d := (d.resultB c m 0).setChan left
      if rest.isEmpty = true then d.emit (.irq "mbx_b_empty" (c + 256 * snd)) else d := by
  unfold Die.popB
  simp only [hr, hc, hs, Option.getD_some, hq]

theorem Die.popB_of_empty (hr : d.refuseB c m = none) (hc : d.chan c = some ch) (hs : ch.side d.part.pelron m = some isA)
    (hq : ch.inQ isA = []) : d.popB c m = d.resultB c m 5 := by
  unfold Die.popB
  simp only [hr, hc, hs, Option.getD_some, hq]

end

/-! ## Relays -/

section
variable {a : Agt} {wm inner : Worm} {room : Bool}

theorem Agt.relay_of_other_mark (h : markPriv (wormMark wm) ≠ 2) : a.relay wm room = a.onDie Die.markDenied := by
  unfold Agt.relay
  exact if_pos h

theorem Agt.relay_of_unicast (hm : markPriv (wormMark wm) = 2)
    (hi : { wormOfHead (leNat (slice wm.payload 0 64)) with payload := wm.payload.drop 64 } = inner) (hcls : inner.cls = 2)
    (hpart : inner.partition = 0) (hcast : inner.mcast = 0) (hfid : a.fid ≠ 0x3FFFF) :
    a.relay wm true =
      let e := a.stampEpoch
      let mark := relayMark (wormMark inner) a.fid
      let out : Worm := { inner with operand := le 8 mark ++ inner.operand.drop 8, payload := slice inner.payload 0 (64 * inner.length) }
      let out := sealHead { out with hopLimit := a.hopInit, age := a.ageStamp, epoch := e }
      a.sendStamped out (wm.operand.getD 8 0).toNat := by
  unfold Agt.relay
  rw [if_neg (not_not_intro hm), hi]
  exact (if_neg (by simp [hcls, hpart, hcast, hfid])).trans (if_neg (by simp))

end

/-! ## What the commands answer -/

section
variable {s : State} {p : Place} {w : Who} {channel bond : Nat} {m : Path} {wm : Worm} {g : Die → Die}

theorem exec_mbxBSend (hu : Alive s p) (hc : channel < (s.die p).part.channels)
    (h : (s.die p).sendB channel (masterOf m) = g (s.die p)) : exec (.mbxBSend p channel m) s = dieDoes s p g := by
  show execMbxBSend p channel m s = _
  exact State.dieNext_alive hu ((if_neg (by omega)).trans h)

theorem exec_mbxBPop (hu : Alive s p) (hc : channel < (s.die p).part.channels)
    (h : (s.die p).popB channel (masterOf m) = g (s.die p)) : exec (.mbxBPop p channel m) s = dieDoes s p g := by
  show execMbxBPop p channel m s = _
  exact State.dieNext_alive hu ((if_neg (by omega)).trans h)

theorem exec_relay {g : Agt → Agt} {room : Bool} (hu : Up s w) (h : (s.agt w).relay wm room = g (s.agt w)) :
    exec (.relay w bond wm room) s = agtDoes s w g := by
  show execRelay w bond wm room s = _
  exact State.agtNext_up hu h

end

/-- Settles O43, by what the channel allows the master and what its queues hold, and by the mark of the worm relayed. -/
theorem classBAndRelays : Obligations.ClassBAndRelays := by
  unfold Obligations.ClassBAndRelays
  refine ⟨fun s w bond wm room hu => exec_relay hu rfl, fun s pl channel m hu => State.dieNext_alive hu rfl,
    fun s pl channel m hu => State.dieNext_alive hu rfl, ?sent, ?full, ?unbound, ?popped, ?empty, ?relayed, ?denied⟩
  case sent =>
    intro s p channel m ch isA hu hc hr hch hs h8
    exact exec_mbxBSend hu hc (Die.sendB_with_room hr hch hs h8)
  case full =>
    intro s p channel m ch isA hu hc hr hch hs h8
    exact exec_mbxBSend hu hc (Die.sendB_without_room hr hch hs h8)
  case unbound =>
    intro s p channel m hu hc h
    exact exec_mbxBSend hu hc (Die.sendB_of_refused (Die.refuseB_of_unbound h))
  case popped =>
    intro s p channel snd m ch isA ws rest hu hc hr hch hs hq
    exact exec_mbxBPop hu hc (Die.popB_oldest hr hch hs hq)
  case empty =>
    intro s p channel m ch isA hu hc hr hch hs hq
    exact exec_mbxBPop hu hc (Die.popB_of_empty hr hch hs hq)
  case relayed =>
    intro s w bond wm inner hu hm hi hcls hpart hcast hfid
    exact exec_relay hu (Agt.relay_of_unicast hm hi hcls hpart hcast hfid)
  case denied =>
    intro s w bond wm hu h
    exact exec_relay hu (Agt.relay_of_other_mark h)

end Sys2Proof.Machine
end

section
/-! PROOFS. Check-value units (R488 to R493). -/

namespace Sys2Proof.Machine

open Sys2Proof.Claim

/-! ## Reads of controller memory leave the operations of the check-value units as they are -/

section
variable (d : Die)

@[simp] theorem Die.setN_cvu (k v : Nat) : (d.setN k v).cvu = d.cvu := (rfl)
@[simp] theorem Die.fset_cvu (f : Fld) (v : Nat) : (d.fset f v).cvu = d.cvu := (rfl)
@[simp] theorem Die.bset_cvu (k hi lo v : Nat) : (d.bset k hi lo v).cvu = d.cvu := (rfl)
@[simp] theorem Die.count_cvu (k : Nat) : (d.count k).cvu = d.cvu := (rfl)
@[simp] theorem Die.noteUnit_cvu (b i sev code : Nat) (fence : Bool) : (d.noteUnit b i sev code fence).cvu = d.cvu := (rfl)
@[simp] theorem Die.forwardRecord_cvu (r : Record) : (d.forwardRecord r).cvu = d.cvu := (rfl)

@[simp] theorem Die.noteLost_cvu (sev : Nat) : (d.noteLost sev).cvu = d.cvu := by
  unfold Die.noteLost
  simp [apply_ite Die.cvu]

@[simp] theorem Die.toFallback_cvu (r : Record) : (d.toFallback r).cvu = d.cvu := by
  unfold Die.toFallback
  dsimp only
  split <;> simp

@[simp] theorem Die.toCirc_cvu (r : Record) : (d.toCirc r).cvu = d.cvu := by
  unfold Die.toCirc
  simp [apply_ite Die.cvu]

@[simp] theorem Die.toRetained_cvu (r : Record) : (d.toRetained r).cvu = d.cvu := by
  unfold Die.toRetained
  simp [apply_ite Die.cvu]

@[simp] theorem Die.writeRecord_cvu (ra : Raise) (skipped : Bool) (valid : Nat) (regs : List Word) :
    (d.writeRecord ra skipped valid regs).cvu = d.cvu := by
  unfold Die.writeRecord
  simp [apply_ite Die.cvu]

@[simp] theorem Die.driveAlert_cvu (level : Bool) : (d.driveAlert level).cvu = d.cvu := by
  unfold Die.driveAlert
  simp [apply_ite Die.cvu]

@[simp] theorem Die.alert_cvu (sev : Nat) : (d.alert sev).cvu = d.cvu := by
  unfold Die.alert
  simp

@[simp] theorem Die.enterSafe_cvu (code : Nat) : (d.enterSafe code).cvu = d.cvu := by
  unfold Die.enterSafe
  simp [apply_ite Die.cvu]

@[simp] theorem Die.raiseCode_cvu (code inst sev : Nat) (fence : Bool) : (d.raiseCode code inst sev fence).cvu = d.cvu := by
  unfold Die.raiseCode
  simp [apply_ite Die.cvu]

end

section
variable (c : Ctl)

@[simp] theorem Ctl.raise_cvu (e : Event) (inst : Nat) : (c.raise e inst).die.cvu = c.die.cvu := Die.raiseCode_cvu _ _ _ _ _

theorem Ctl.noteCorrected_cvu (key : Nat) : (c.noteCorrected key).die.cvu = c.die.cvu := by
  unfold Ctl.noteCorrected
  dsimp only
  split <;> simp

theorem Ctl.noteBad_cvu (key : Nat) (address : Bool) : (c.noteBad key address).die.cvu = c.die.cvu := by
  unfold Ctl.noteBad
  dsimp only
  split <;> simp

theorem Ctl.noteDecode_cvu (key : Nat) (d : Decode) : (c.noteDecode key d).die.cvu = c.die.cvu := by
  cases d with
  | clean => rfl
  | corrected _ => exact Ctl.noteCorrected_cvu c key
  | address => exact Ctl.noteBad_cvu c key true
  | bad => exact Ctl.noteBad_cvu c key false

theorem Ctl.memRead_cvu (a n : Nat) : (c.memRead a n).1.die.cvu = c.die.cvu := by
  unfold Ctl.memRead
  refine List.foldlRecOn (motive := fun (st : Ctl × List (Nat × Nat) × Option Nat) => st.1.die.cvu = c.die.cvu) _ _ rfl
    fun st hst k _ => ?_
  dsimp only
  split
  · exact hst
  · have hnote := (Ctl.noteDecode_cvu st.1 k (st.1.decodeAt k)).trans hst
    split
    · split <;> exact hnote
    · exact hnote
    · exact hnote

theorem Ctl.memRead_cvuOp (a n unit : Nat) : (c.memRead a n).1.die.cvuOp unit = c.die.cvuOp unit := by
  unfold Die.cvuOp
  rw [Ctl.memRead_cvu]

end

/-! ## What an operation processes, copies and ends with -/

section
variable {o : Cvu}

theorem Cvu.body_of_strip (hl : cvuLast o.ctl = true) (hm : cvuMode o.ctl = 2) : o.body = o.len - cvuBytes o.ctl :=
  if_pos ⟨hm, hl⟩

theorem Cvu.body_of_other (hm : cvuMode o.ctl ≠ 2) : o.body = o.len := if_neg fun h => hm h.1

theorem Cvu.copies_of_compute (hm : cvuMode o.ctl = 0) (bs : Bytes) : o.copies bs = [] := if_pos hm

theorem Cvu.copies_of_other (hm : cvuMode o.ctl ≠ 0) (bs : Bytes) : o.copies bs = [(o.dst, bs)] := if_neg hm

end

section
variable {d : Die} {unit : Nat} {o : Cvu} {src : Bytes}

theorem Die.cvuComplete_of_bad (ho : d.cvuOp unit = o) :
    d.cvuComplete unit src true = ((d.cvuProcess unit (src.take o.body)).cvuEnd unit 4, o.copies (src.take o.body)) := by
  subst ho
  unfold Die.cvuComplete
  exact if_pos rfl

/-- The last part of an operation ends with the value (R489). -/
theorem Die.cvuComplete_of_last (ho : d.cvuOp unit = o) (hl : cvuLast o.ctl = true) :
    d.cvuComplete unit src false =
      let e := d.cvuProcess unit (src.take o.body)
      let v := Nat.xor (e.getN (cvuReg unit Reg.CVU_RUN)) (cvuOnes o.ctl)
      let f := e.setN (cvuReg unit Reg.CVU_VALUE) v
      match cvuMode o.ctl with
      | 1 => (f.cvuEnd unit 0, o.copies (src.take o.body) ++ [(o.dst + o.body, le (cvuBytes o.ctl) v)])
      | 2 => (f.cvuEnd unit (if leNat (src.drop o.body) = v then 1 else 2), o.copies (src.take o.body))
      | _ => (f.cvuEnd unit 0, o.copies (src.take o.body)) := by
  subst ho
  unfold Die.cvuComplete
  exact (if_neg Bool.false_ne_true).trans (if_neg (by simp [hl]))

theorem Die.cvuComplete_of_part (ho : d.cvuOp unit = o) (hl : cvuLast o.ctl = false) :
    d.cvuComplete unit src false = ((d.cvuProcess unit (src.take o.body)).cvuEnd unit 0, o.copies (src.take o.body)) := by
  subst ho
  unfold Die.cvuComplete
  exact (if_neg Bool.false_ne_true).trans (if_pos (by simp [hl]))

theorem Die.cvuComplete_of_strip (ho : d.cvuOp unit = o) (hl : cvuLast o.ctl = true) (hm : cvuMode o.ctl = 2) :
    d.cvuComplete unit src false =
      let n := o.len - cvuBytes o.ctl
      let e := d.cvuProcess unit (src.take n)
      let v := Nat.xor (e.getN (cvuReg unit Reg.CVU_RUN)) (cvuOnes o.ctl)
      ((e.setN (cvuReg unit Reg.CVU_VALUE) v).cvuEnd unit (if leNat (src.drop n) = v then 1 else 2), [(o.dst, src.take n)]) := by
  rw [Die.cvuComplete_of_last ho hl, Cvu.body_of_strip hl hm, Cvu.copies_of_other (by omega)]
  simp only [hm]

theorem Die.cvuComplete_of_generate (ho : d.cvuOp unit = o) (hl : cvuLast o.ctl = true) (hm : cvuMode o.ctl = 1) :
    d.cvuComplete unit src false =
      let e := d.cvuProcess unit (src.take o.len)
      let v := Nat.xor (e.getN (cvuReg unit Reg.CVU_RUN)) (cvuOnes o.ctl)
      ((e.setN (cvuReg unit Reg.CVU_VALUE) v).cvuEnd unit 0, [(o.dst, src.take o.len), (o.dst + o.len, le (cvuBytes o.ctl) v)]) := by
  rw [Die.cvuComplete_of_last ho hl, Cvu.body_of_other (by omega), Cvu.copies_of_other (by omega)]
  simp only [hm, List.cons_append, List.nil_append]

theorem Die.cvuComplete_of_compute (ho : d.cvuOp unit = o) (hm : cvuMode o.ctl = 0) (bad : Bool) : (d.cvuComplete unit src bad).2 = [] := by
  have hc := Cvu.copies_of_compute hm (src.take o.body)
  cases bad with
  | true => rw [Die.cvuComplete_of_bad ho]; exact hc
  | false =>
    cases hl : cvuLast o.ctl with
    | false => rw [Die.cvuComplete_of_part ho hl]; exact hc
    | true =>
      rw [Die.cvuComplete_of_last ho hl]
      simp only [hm, hc]

end

/-! ## Starts, ends, aborts and the context -/

section
variable {d : Die} {c : Ctl} {unit ctl val : Nat}

theorem Die.cvuStart_of_busy (h0 : bitOf ctl 0 = true) (hu : unit < d.part.cvus) (hf : d.fenced Blk.CVU unit = false)
    (hb : d.cvuBusy unit = true) : d.cvuStart unit ctl = d.raise Ev.CVU_BUSY unit := by
  unfold Die.cvuStart
  rw [if_neg (by simp only [h0, Bool.not_true, Bool.false_eq_true, false_or]; omega), if_neg (by simp [hf])]
  exact if_pos hb

theorem Die.cvuStart_of_idle (h0 : bitOf ctl 0 = true) (hu : unit < d.part.cvus) (hf : d.fenced Blk.CVU unit = false)
    (hb : d.cvuBusy unit = false)
    (hok : Die.cvuLengthOk (d.bset (cvuReg unit Reg.CVU_STATUS) 4 4 (bitsOf ctl 2 2)) unit ctl = true) :
    d.cvuStart unit ctl =
      let d := d.bset (cvuReg unit Reg.CVU_STATUS) 4 4 (bitsOf ctl 2 2)
      let d := if bitOf ctl 5 = true then (d.setN (cvuReg unit Reg.CVU_RUN) (cvuOnes ctl)).setN (cvuReg unit Reg.CVU_COUNT) 0 else d
      let d := (d.bset (cvuReg unit Reg.CVU_STATUS) 0 0 1).bset (cvuReg unit Reg.CVU_STATUS) 3 1 0
      { d with cvu := d.cvu.set unit { ctl := ctl, src := d.getN (cvuReg unit Reg.CVU_SRC), dst := d.getN (cvuReg unit Reg.CVU_DST),
                                       len := d.bget (cvuReg unit Reg.CVU_LEN) 24 0 } } := by
  unfold Die.cvuStart
  rw [if_neg (by simp only [h0, Bool.not_true, Bool.false_eq_true, false_or]; omega), if_neg (by simp [hf]), if_neg (by simp [hb])]
  exact if_neg (by simp [hok])

theorem Ctl.cvuFinish_of_busy (hb : c.die.cvuBusy unit = true) :
    c.cvuFinish unit =
      let o := c.die.cvuOp unit
      let r := c.memRead o.src o.len
      let e := r.1.die.cvuComplete unit r.2.1 r.2.2
      ({ r.1 with die := e.1 } : Ctl).putAll e.2 := by
  unfold Ctl.cvuFinish
  exact if_neg (by simp [hb])

theorem Die.cvuFinish_of_busy (hb : d.cvuBusy unit = true) :
    d.cvuFinish unit =
      let o := d.cvuOp unit
      let e := d.cvuComplete unit (mread d.mem o.src o.len) false
      e.1.putAll e.2 := by
  unfold Die.cvuFinish
  exact if_neg (by simp [hb])

theorem Die.cvuStop_cvuOp : (d.cvuStop unit).2.cvuOp unit = d.cvuOp unit := rfl

/-- What the controller's memory read finds does not change the operation that is aborted. -/
theorem Ctl.cvuAbort_of_busy (hb : c.die.cvuBusy unit = true) :
    c.cvuAbort unit =
      let o := c.die.cvuOp unit
      let r := c.die.cvuStop unit
      let q := ({ c with die := r.2 } : Ctl).memRead o.src r.1
      (q.1.onDie fun d => (d.cvuProcess unit q.2.1).cvuEnd unit (if q.2.2 = true then 4 else 3)).putAll (o.copies q.2.1) := by
  have hop : ∀ n, ((({ c with die := (c.die.cvuStop unit).2 } : Ctl).memRead (c.die.cvuOp unit).src n).1.die.cvuOp unit) = c.die.cvuOp unit :=
    fun n => (Ctl.memRead_cvuOp _ _ n unit).trans Die.cvuStop_cvuOp
  unfold Ctl.cvuAbort
  rw [if_neg (by simp [hb])]
  dsimp only
  rw [hop]

theorem Die.cvuAbort_of_busy (hb : d.cvuBusy unit = true) :
    d.cvuAbort unit =
      let o := d.cvuOp unit
      let r := d.cvuStop unit
      let bs := mread r.2.mem o.src r.1
      ((r.2.cvuProcess unit bs).cvuEnd unit 3).putAll (o.copies bs) := by
  unfold Die.cvuAbort
  exact if_neg (by simp [hb])

theorem Die.cvuAbort_of_idle (hb : d.cvuBusy unit = false) : d.cvuAbort unit = d := by
  unfold Die.cvuAbort
  exact if_pos (by simp [hb])

theorem Die.cvuContext_of_idle (hu : unit < d.part.cvus) (hb : d.cvuBusy unit = false) (reg : Nat) :
    d.cvuContext unit reg val =
      if reg = 0 then d.setN (cvuReg unit Reg.CVU_RUN) val else d.setN (cvuReg unit Reg.CVU_COUNT) (val % 2 ^ 48) := by
  unfold Die.cvuContext
  exact (if_neg (by omega)).trans (if_neg (by simp [hb]))

end

theorem Agt.onDie_congr {a : Agt} {f g : Die → Die} (h : f a.die = g a.die) : a.onDie f = a.onDie g := by
  unfold Agt.onDie
  rw [h]

/-! ## What the commands answer -/

section
variable {s : State} {p : Place} {w : Who} {unit reg : Nat} {val : Word}

theorem exec_cvuStart {g : Die → Die} (hu : Alive s p) (ht : Takes (s.die p) Blk.CVU)
    (h : (s.die p).cvuStart unit val.toNat = g (s.die p)) : exec (.cvuStart p unit val) s = dieDoes s p g := by
  show execCvuStart p unit val s = _
  exact State.dieNext_alive hu ((Die.written_takes ht).trans h)

theorem exec_cvuContextWrite {g : Die → Die} (hu : Alive s p) (ht : Takes (s.die p) Blk.CVU)
    (h : (s.die p).cvuContext unit reg val.toNat = g (s.die p)) : exec (.cvuContextWrite p unit reg val) s = dieDoes s p g := by
  show execCvuContextWrite p unit reg val s = _
  exact State.dieNext_alive hu ((Die.written_takes ht).trans h)

theorem exec_cvuComplete_ctl {g : Ctl → Ctl} (hu : On s) (h : s.ctl.cvuFinish unit = g s.ctl) :
    exec (.cvuComplete .ctl unit) s = ctlDoes s g := by
  show execCvuComplete .ctl unit s = _
  exact State.ctlNext_on hu h

theorem exec_cvuComplete_agt {g : Die → Die} (hu : Up s w) (h : (s.agt w).die.cvuFinish unit = g (s.agt w).die) :
    exec (.cvuComplete (.agt w) unit) s = agtDoes s w (·.onDie g) := by
  show execCvuComplete (.agt w) unit s = _
  exact State.agtNext_up hu (Agt.onDie_congr h)

theorem exec_cvuAbort_ctl {g : Ctl → Ctl} (hu : On s) (ht : Takes s.ctl.die Blk.CVU) (h : s.ctl.cvuAbort unit = g s.ctl) :
    exec (.cvuAbort .ctl unit) s = ctlDoes s g := by
  show execCvuAbort .ctl unit s = _
  exact State.ctlNext_written hu ht h

theorem exec_cvuAbort_agt {g : Agt → Agt} (hu : Up s w) (ht : Takes (s.agt w).die Blk.CVU)
    (h : (s.agt w).onDie (·.cvuAbort unit) = g (s.agt w)) : exec (.cvuAbort (.agt w) unit) s = agtDoes s w g := by
  show execCvuAbort (.agt w) unit s = _
  exact State.agtNext_written hu ht h

end

/-- Settles O45, by whether the unit is busy, and for the end of an operation by its mode and whether it is the last part. -/
theorem checkValueUnits : Obligations.CheckValueUnits := by
  unfold Obligations.CheckValueUnits
  refine ⟨fun s p unit val hu ht => exec_cvuStart hu ht rfl, fun s unit hu ht => exec_cvuAbort_ctl hu ht rfl,
    fun s w unit hu ht => exec_cvuAbort_agt hu ht rfl, fun s unit hu => exec_cvuComplete_ctl hu rfl,
    fun s w unit hu => exec_cvuComplete_agt hu rfl, fun s p unit reg val hu ht => exec_cvuContextWrite hu ht rfl, ?started, ?start_busy,
    ?completed, ?completed_agt, fun d unit o src => Die.cvuComplete_of_strip, ?compute, fun d unit o src => Die.cvuComplete_of_generate, ?bad,
    ?aborted, ?aborted_agt, ?idle, ?run, ?count⟩
  case started =>
    intro s p unit val hu ht h0 hn hf hb hok
    exact exec_cvuStart hu ht (Die.cvuStart_of_idle h0 hn hf hb hok)
  case start_busy =>
    intro s p unit val hu ht h0 hn hf hb
    exact exec_cvuStart hu ht (Die.cvuStart_of_busy h0 hn hf hb)
  case completed =>
    intro s unit hu hb
    exact exec_cvuComplete_ctl hu (Ctl.cvuFinish_of_busy hb)
  case completed_agt =>
    intro s w unit hu hb
    exact exec_cvuComplete_agt hu (Die.cvuFinish_of_busy hb)
  case compute =>
    intro d unit o src bad ho hm
    exact Die.cvuComplete_of_compute ho hm bad
  case bad =>
    intro d unit o src ho
    rw [Die.cvuComplete_of_bad ho]
  case aborted =>
    intro s unit hu ht hb
    exact exec_cvuAbort_ctl hu ht (Ctl.cvuAbort_of_busy hb)
  case aborted_agt =>
    intro s w unit hu ht hb
    exact exec_cvuAbort_agt hu ht (Agt.onDie_congr (Die.cvuAbort_of_busy hb))
  case idle =>
    intro s w unit hu ht hb
    exact exec_cvuAbort_agt hu ht (Agt.onDie_congr (g := id) (Die.cvuAbort_of_idle hb))
  case run =>
    intro s p unit val hu ht hn hb
    exact exec_cvuContextWrite hu ht ((Die.cvuContext_of_idle hn hb 0).trans (if_pos rfl))
  case count =>
    intro s p unit val hu ht hn hb
    exact exec_cvuContextWrite hu ht ((Die.cvuContext_of_idle hn hb 1).trans (if_neg Nat.one_ne_zero))

end Sys2Proof.Machine
end

section
/-! PROOFS. The frame of a write to controller memory (R477, R484), where no code word shows an error and no channel is fenced. -/

namespace Sys2Proof.Machine

open Sys2Proof.Claim

/-! ## Bytes written at an address -/

/-- A memory holds the bytes at an address, every other byte as another memory has it, and the canonical form where that has it. -/
def Mem.Written (m' m : Mem) (a : Nat) (bs : Bytes) : Prop :=
  (∀ x, mbyte m' x = if a ≤ x ∧ x < a + bs.length then bs.getD (x - a) 0 else mbyte m x)
  ∧ (Memory.wf m = true → Memory.wf m' = true)

section
variable {m m₁ m₂ : Mem} {a b k : Nat} {bs : Bytes}

theorem Mem.written_nil (m : Mem) (a : Nat) : Mem.Written m m a [] := by
  refine ⟨fun x => (if_neg ?_).symm, id⟩
  rw [List.length_nil]
  omega

theorem Mem.mwrite_written (m : Mem) (a : Nat) (bs : Bytes) : Mem.Written (mwrite m a bs) m a bs :=
  ⟨mbyte_mwrite m a bs, Memory.wf_mwrite a bs⟩

/-- Two parts of a byte string, written one behind the other. -/
theorem Mem.Written.take_drop (h₁ : Mem.Written m₁ m a (bs.take k)) (h₂ : Mem.Written m₂ m₁ (a + k) (bs.drop k)) : Mem.Written m₂ m a bs := by
  obtain ⟨hb₁, hw₁⟩ := h₁
  obtain ⟨hb₂, hw₂⟩ := h₂
  refine ⟨fun x => ?_, hw₂ ∘ hw₁⟩
  rw [hb₂, hb₁, List.length_drop, List.length_take]
  by_cases hx : a ≤ x ∧ x < a + bs.length
  · rw [if_pos hx]
    by_cases hk : a + k ≤ x
    · rw [if_pos (by omega), List.getD_eq_getElem?_getD, List.getElem?_drop, ← List.getD_eq_getElem?_getD,
        show k + (x - (a + k)) = x - a by omega]
    · rw [if_neg (by omega), if_pos (by omega), List.getD_eq_getElem?_getD, List.getElem?_take_of_lt (by omega),
        ← List.getD_eq_getElem?_getD]
  · rw [if_neg hx, if_neg (by omega), if_neg (by omega)]

/-- A range written back as it reads changes nothing under what is written then. -/
theorem Mem.mwrite_mread_written (m : Mem) (b n a : Nat) (bs : Bytes) : Mem.Written (mwrite (mwrite m b (mread m b n)) a bs) m a bs := by
  refine ⟨fun x => ?_, Memory.wf_mwrite a bs ∘ Memory.wf_mwrite b _⟩
  have hlen : (mread m b n).length = n := by simp [mread]
  rw [mbyte_mwrite, mbyte_mwrite, hlen]
  refine if_congr Iff.rfl rfl ?_
  split
  · rw [mread_byte m b n (x - b) (by omega), show b + (x - b) = x by omega]
  · rfl

end

/-! ## Writes of a code word that reads clean -/

/-- No code word shows an error, and no channel is fenced. -/
def Ctl.MemSound (c : Ctl) : Prop := c.memu.errors = [] ∧ ∀ n, (c.chan n).state ≠ 3

/-- A controller has written the bytes at an address; memory stays as sound as it was, and the safe state is not entered. -/
structure Ctl.Wrote (c' c : Ctl) (a : Nat) (bs : Bytes) : Prop where
  mem : Mem.Written c'.die.mem c.die.mem a bs
  errors : c'.memu.errors = c.memu.errors
  chans : c'.memu.chans = c.memu.chans
  safe : c'.die.safe = c.die.safe

section
variable {c c₁ c₂ : Ctl} {a n k : Nat} {bs : Bytes}

theorem Ctl.MemSound.congr (he : c₁.memu.errors = c.memu.errors) (hn : c₁.memu.chans = c.memu.chans) (hc : c.MemSound) : c₁.MemSound := by
  refine ⟨he.trans hc.1, fun n => ?_⟩
  have hchan : c₁.chan n = c.chan n := by unfold Ctl.chan; rw [hn]
  rw [hchan]
  exact hc.2 n

theorem Ctl.Wrote.memSound (h : c₁.Wrote c a bs) (hc : c.MemSound) : c₁.MemSound := hc.congr h.errors h.chans

theorem Ctl.Wrote.nil (c : Ctl) (a : Nat) : c.Wrote c a [] := ⟨Mem.written_nil _ a, rfl, rfl, rfl⟩

theorem Ctl.Wrote.take_drop (h₁ : c₁.Wrote c a (bs.take k)) (h₂ : c₂.Wrote c₁ (a + k) (bs.drop k)) : c₂.Wrote c a bs :=
  ⟨h₁.mem.take_drop h₂.mem, h₂.errors.trans h₁.errors, h₂.chans.trans h₁.chans, h₂.safe.trans h₁.safe⟩

/-- A controller has the memory, the errors and the channels of another, and is in the safe state where that is: they may differ in the merge
buffer, the bad rows and counters. -/
structure Ctl.SameMem (c' c : Ctl) : Prop where
  mem : c'.die.mem = c.die.mem
  errors : c'.memu.errors = c.memu.errors
  chans : c'.memu.chans = c.memu.chans
  safe : c'.die.safe = c.die.safe

theorem Ctl.SameMem.trans (h₂ : c₂.SameMem c₁) (h₁ : c₁.SameMem c) : c₂.SameMem c :=
  ⟨h₂.mem.trans h₁.mem, h₂.errors.trans h₁.errors, h₂.chans.trans h₁.chans, h₂.safe.trans h₁.safe⟩

theorem Ctl.SameMem.ite {p : Prop} [Decidable p] (h₁ : c₁.SameMem c) (h₂ : c₂.SameMem c) : (if p then c₁ else c₂).SameMem c := by
  split
  · exact h₁
  · exact h₂

theorem Ctl.SameMem.memSound (h : c₁.SameMem c) (hc : c.MemSound) : c₁.MemSound := hc.congr h.errors h.chans

theorem Ctl.SameMem.wrote_after (h : c₂.SameMem c₁) (hw : c₁.Wrote c a bs) : c₂.Wrote c a bs :=
  ⟨h.mem ▸ hw.mem, h.errors.trans hw.errors, h.chans.trans hw.chans, h.safe.trans hw.safe⟩

theorem Ctl.SameMem.wrote_before (hw : c₂.Wrote c₁ a bs) (h : c₁.SameMem c) : c₂.Wrote c a bs :=
  ⟨h.mem ▸ hw.mem, hw.errors.trans h.errors, hw.chans.trans h.chans, hw.safe.trans h.safe⟩

theorem Die.safe_set_other {d : Die} {k : Nat} (v : Word) (h : k ≠ Fl.FLC_STATUS_safe.reg) : (d.set k v).safe = d.safe := by
  unfold Die.safe
  rw [Die.fget_set_other v h]

theorem Die.safe_bset_other {d : Die} {k : Nat} (hi lo v : Nat) (h : k ≠ Fl.FLC_STATUS_safe.reg) : (d.bset k hi lo v).safe = d.safe :=
  Die.safe_set_other _ h

theorem Die.bset_mem (d : Die) (k hi lo v : Nat) : (d.bset k hi lo v).mem = d.mem := rfl

theorem Ctl.onDie_sameMem {f : Die → Die} (hm : (f c.die).mem = c.die.mem) (hs : (f c.die).safe = c.die.safe) : (c.onDie f).SameMem c :=
  ⟨hm, rfl, rfl, hs⟩

theorem Ctl.count_sameMem (c : Ctl) {k : Nat} (h : k ≠ Fl.FLC_STATUS_safe.reg) : (c.onDie (·.count k)).SameMem c :=
  Ctl.onDie_sameMem rfl (Die.safe_set_other _ h)

theorem Ctl.touchHigh_sameMem (c : Ctl) : c.touchHigh.SameMem c := by
  unfold Ctl.touchHigh
  exact Ctl.onDie_sameMem (Die.bset_mem _ _ _ _ _) (Die.safe_bset_other _ _ _ (by decide))

theorem Ctl.wordWritten_sameMem (hc : c.memu.errors = []) (key : Nat) : (c.wordWritten key).SameMem c := by
  have herr : tdel c.memu.errors key = c.memu.errors := by rw [hc]; rfl
  unfold Ctl.wordWritten
  exact .ite ⟨rfl, herr, rfl, rfl⟩ ⟨rfl, herr, rfl, rfl⟩

theorem Ctl.writeback_sameMem (hc : c.memu.errors = []) (addr : Nat) : (c.writeback addr).SameMem c := by
  unfold Ctl.writeback
  dsimp only
  split
  · split
    · exact ⟨rfl, rfl, rfl, rfl⟩
    · exact (Ctl.wordWritten_sameMem (c := { c with memu := { c.memu with merge := c.memu.merge.filter (·.addr ≠ addr) } }) hc _).trans
        ⟨rfl, rfl, rfl, rfl⟩
  · exact ⟨rfl, rfl, rfl, rfl⟩

/-- The controller once its merge buffer has an entry free: a full one writes its oldest entry back (R484). -/
def Ctl.withMergeRoom (c : Ctl) : Ctl :=
  if c.memu.merge.length < 256 then c
  else match c.memu.merge with
    | m :: _ => (c.onDie (·.count Reg.MEM_CNT_MERGE_WAIT)).writeback m.addr
    | [] => c

theorem Ctl.withMergeRoom_sameMem (hc : c.memu.errors = []) : c.withMergeRoom.SameMem c := by
  unfold Ctl.withMergeRoom
  split
  · exact ⟨rfl, rfl, rfl, rfl⟩
  · split
    · exact (Ctl.writeback_sameMem (c := c.onDie (·.count Reg.MEM_CNT_MERGE_WAIT)) hc _).trans (c.count_sameMem (by decide))
    · exact ⟨rfl, rfl, rfl, rfl⟩

theorem Ctl.suspects_of_memSound (hc : c.MemSound) (a n : Nat) : c.suspects a n = [] := by
  obtain ⟨he, hn⟩ := hc
  have hf : (c.memu.usable.any fun p => (c.chan p).state = 3) = false := by simp [hn]
  unfold Ctl.suspects
  dsimp only
  rw [hf, if_neg Bool.false_ne_true, he]
  simp

theorem Ctl.memRead_of_memSound (hc : c.MemSound) (a n : Nat) : c.memRead a n = (c, mread c.die.mem a n, false) := by
  unfold Ctl.memRead
  rw [Ctl.suspects_of_memSound hc a n]
  rfl

/-- A narrow write reads its code word, and keeps it in an entry of the merge buffer with the bytes changed (R484). -/
def Ctl.narrowWrite (c : Ctl) (base a : Nat) (bs : Bytes) : Ctl × Nat :=
  let (c, old, bad) := c.memRead base 128
  if bad then (c, 1)
  else
    let c := c.onDie fun d => { d with mem := mwrite d.mem base old }
    let c := c.onDie fun d => { d with mem := mwrite d.mem a bs }
    let m : Merge := { addr := base, data := mread c.die.mem base 128, startNs := c.die.up }
    (({ c with memu := { c.memu with merge := c.memu.merge ++ [m] } } : Ctl).touchHigh, 0)

theorem Ctl.narrowWrite_wrote (hc : c.MemSound) (base a : Nat) (bs : Bytes) : (c.narrowWrite base a bs).1.Wrote c a bs := by
  unfold Ctl.narrowWrite
  rw [Ctl.memRead_of_memSound hc]
  exact (Ctl.touchHigh_sameMem _).wrote_after ⟨Mem.mwrite_mread_written _ base 128 a bs, rfl, rfl, rfl⟩

theorem Ctl.writeWord_of_part (hf : (c.chan (c.wordOf a / 2 ^ 40)).state ≠ 3) (hm : ¬ c.memu.merge.any (·.addr = a / 128 * 128) = true)
    (hl : bs.length ≠ 128) : c.writeWord a bs = c.withMergeRoom.narrowWrite (a / 128 * 128) a bs := by
  unfold Ctl.writeWord
  exact (if_neg hf).trans ((if_neg hm).trans (if_neg hl))

theorem Ctl.writeWord_wrote (hc : c.MemSound) (a : Nat) (bs : Bytes) : (c.writeWord a bs).1.Wrote c a bs := by
  have hput : (c.onDie fun d => { d with mem := mwrite d.mem a bs }).Wrote c a bs := ⟨Mem.mwrite_written _ a bs, rfl, rfl, rfl⟩
  by_cases hm : c.memu.merge.any (·.addr = a / 128 * 128) = true
  · unfold Ctl.writeWord
    rw [if_neg (hc.2 _), if_pos hm]
    exact ⟨Mem.mwrite_written _ a bs, rfl, rfl, rfl⟩
  · by_cases hl : bs.length = 128
    · unfold Ctl.writeWord
      rw [if_neg (hc.2 _), if_neg hm, if_pos hl]
      exact (Ctl.wordWritten_sameMem (hput.memSound hc).1 _).wrote_after hput
    · rw [Ctl.writeWord_of_part (hc.2 _) hm hl]
      have hroom := Ctl.withMergeRoom_sameMem hc.1
      exact Ctl.SameMem.wrote_before (Ctl.narrowWrite_wrote (hroom.memSound hc) _ a bs) hroom

end

section
variable {c : Ctl} {a n : Nat} {bs : Bytes}

/-! ## A write of bytes at an address -/

/-- One piece of a write; the status is that of the first code word that did not take it. -/
def Ctl.writePiece (st : Ctl × Nat) (p : Nat × Bytes) : Ctl × Nat :=
  ((st.1.writeWord p.1 p.2).1, if st.2 = 0 then (st.1.writeWord p.1 p.2).2 else st.2)

theorem Ctl.memWrite_eq (c : Ctl) (a : Nat) (bs : Bytes) :
    c.memWrite a bs = (wordPieces (bs.length / 128 + 2) a bs).foldl Ctl.writePiece (c, 0) := rfl

theorem Ctl.writePieces_wrote (hn : bs.length + a % 128 ≤ 128 * n) (hc : c.MemSound) (r : Nat) :
    ((wordPieces n a bs).foldl Ctl.writePiece (c, r)).1.Wrote c a bs := by
  induction n generalizing c a bs r with
  | zero =>
    have hnil : bs = [] := List.eq_nil_of_length_eq_zero (by omega)
    subst hnil
    exact .nil c a
  | succ n ih =>
    unfold wordPieces
    by_cases he : bs.isEmpty = true
    · rw [if_pos he, List.isEmpty_iff.1 he]
      exact .nil c a
    · rw [if_neg he, List.foldl_cons]
      have hfirst := Ctl.writeWord_wrote hc a (bs.take (128 - a % 128))
      refine hfirst.take_drop (ih ?_ (hfirst.memSound hc) _)
      rw [List.length_drop]
      omega

theorem Ctl.memWrite_wrote (hc : c.MemSound) (a : Nat) (bs : Bytes) : (c.memWrite a bs).1.Wrote c a bs := by
  rw [Ctl.memWrite_eq]
  exact Ctl.writePieces_wrote (by omega) hc 0

end

/-! ## What an effect at the controller leaves of the agents' memories -/

section
variable {s : State} {w : Who} {a b : Agt}

theorem Agt.SettledFrom.mem (h : b.SettledFrom a) : b.die.mem = a.die.mem := by
  unfold Agt.SettledFrom at h
  rw [h]

theorem State.onAgt_mem_of_settledFrom {f : Agt → Agt} (hf : (f (s.agt w)).SettledFrom (s.agt w)) (busy : List Nat) :
    ((s.onAgt w f busy).agt w).die.mem = (s.agt w).die.mem :=
  ((State.onAgt_settledFrom s w f busy).trans hf).mem

theorem State.sendCtl_emb_mem (s : State) : s.sendCtl.emb.die.mem = s.emb.die.mem := by
  unfold State.sendCtl
  dsimp only
  split
  · rfl
  · refine State.onAgt_mem_of_settledFrom (w := .emb) ?_ []
    exact Agt.foldl_settledFrom (fun a m => a.originate_settledFrom m []) _ rfl

theorem State.onCtl_agt_mem (s : State) (f : Ctl → Ctl) (w : Who) : ((s.onCtl f).agt w).die.mem = (s.agt w).die.mem := by
  cases w with
  | twd => exact congrArg (fun a : Agt => a.die.mem) (State.onCtl_twd s f)
  | emb => exact State.sendCtl_emb_mem _

theorem State.onCtl_ctl_mem {f : Ctl → Ctl} (h : (f s.ctl).die.safe = s.ctl.die.safe) : (s.onCtl f).ctl.die.mem = (f s.ctl).die.mem := by
  have hs : (s.onCtl f).ctl = _ := State.onCtl_settledFrom h
  rw [hs]

end

/-- Settles O58: the write goes code word by code word, each reads clean, and what follows the effect leaves memory as written. -/
theorem narrowWriteBytes : Obligations.NarrowWriteBytes := by
  unfold Obligations.NarrowWriteBytes
  intro s addr data hon hcap herr hchan
  have hw := Ctl.memWrite_wrote (c := s.ctl) ⟨herr, hchan⟩ addr data
  have hmem := State.onCtl_ctl_mem (s := s) (f := fun c => (c.memWrite addr data).1) hw.safe
  refine ⟨s.onCtl fun c => (c.memWrite addr data).1, State.ctlNext_on hon (if_pos hcap), ?bytes, ?canonical, State.onCtl_agt_mem s _⟩
  case bytes => rw [hmem]; exact hw.mem.1
  case canonical => rw [hmem]; exact hw.mem.2

end Sys2Proof.Machine
end

section
/-! PROOFS. The meter's firmware, Pattern, start, tap keys and intake (R409 to R412, R417, R425). -/

namespace Sys2Proof.Machine

open Sys2Proof.Claim

/-! ## Commands of the meter, whose island stays up through a controller reset (R427) -/

section
variable {s : State}

theorem State.meterNext_metering {f g : Ctl → Ctl} (hu : Metering s) (h : f s.ctl = g s.ctl) : s.meterNext f = ctlDoes s g := by
  unfold State.meterNext
  rw [if_pos hu, State.onCtl_congr h]

theorem exec_meterStart_of_phase {g : Ctl → Ctl} (h₁ : 1 ≤ s.ctl.pwr.phase) (h₃ : s.ctl.pwr.phase ≤ 3)
    (h : s.ctl.meterStart.rowInForce s.ctl.meter.pattern = g s.ctl) : exec .meterStart s = ctlDoes s g := by
  show execMeterStart s = _
  unfold execMeterStart
  rw [if_pos (decide_eq_true ⟨h₁, h₃⟩)]
  exact congrArg _ (State.onCtl_congr h)

end

/-- A METER row that stays in force changes nothing (R230). -/
theorem Ctl.rowInForce_of_same {c : Ctl} {was : MeterEnt} (h : c.meter.pattern = was) : c.rowInForce was = c := if_pos h

/-! ## METER_LOAD_FW (R402, R409) -/

section
variable {c d : Ctl} {val : Nat} {img : Bytes} {short : Bool}

theorem Ctl.meterLoadFw_without_key (h : bitsOf val 15 8 ≠ 0x3C) : c.meterLoadFw val = c := by
  unfold Ctl.meterLoadFw
  exact if_pos (.inr (.inr (.inl h)))

/-- What METER_LOAD_FW does with a metrology image that is well formed, once its checks against the fuses have passed. -/
def Ctl.loadImage (c : Ctl) (img : Bytes) : Ctl :=
  if imageOk metrologyKeys img = true ∧ c.kst.jobs.isEmpty = false then
    ({ c with meter := { c.meter with loading := some img } } : Ctl).onDie (·.fset Fl.MTR_STATUS_state 2)
  else if imageOk metrologyKeys img = true then c.meterStartImage img
  else c.loadResult 2

/-- The checks of R409 on an image read. -/
def Ctl.checkImage (c : Ctl) (img : Bytes) : Ctl :=
  let h := imageHdr img
  if !h.formOk ∨ h.kind ≠ 4 ∨ !(imageOk metrologyKeys img) then c.loadResult 2
  else if h.rollback < c.meter.rollback then c.loadResult 3
  else if c.meter.seals ≥ 128 then c.loadResult 4
  else if c.kst.jobs.isEmpty then c.meterStartImage img
  else ({ c with meter := { c.meter with loading := some img } } : Ctl).onDie (·.fset Fl.MTR_STATUS_state 2)

theorem Ctl.checkImage_of_newer (hform : (imageHdr img).formOk = true) (hkind : (imageHdr img).kind = 4)
    (hroll : c.meter.rollback ≤ (imageHdr img).rollback) (hseals : c.meter.seals < 128) : c.checkImage img = c.loadImage img := by
  unfold Ctl.checkImage Ctl.loadImage
  cases hok : imageOk metrologyKeys img with
  | false =>
    rw [if_pos (by simp), if_neg (by simp), if_neg (by simp)]
  | true =>
    rw [if_neg (by simp [hform, hkind]), if_neg (by omega), if_neg (by omega)]
    cases c.kst.jobs.isEmpty with
    | true => rw [if_pos rfl, if_neg (by simp), if_pos rfl]
    | false => rw [if_neg Bool.false_ne_true, if_pos ⟨rfl, rfl⟩]

theorem Ctl.meterLoadFw_of_read (hsealed : c.sealed = true) (h0 : bitOf val 0 = true) (hkey : bitsOf val 15 8 = 0x3C)
    (hst : c.die.fget Fl.MTR_STATUS_state ≠ 0) (hload : c.meter.loading = none)
    (hread : c.memRead (c.die.getN Reg.MTR_SRC_ADDR) (c.die.bget Reg.MTR_SRC_LEN 23 0) = (d, img, short)) :
    c.meterLoadFw val = d.checkImage img := by
  unfold Ctl.meterLoadFw
  rw [if_neg (by simp [hsealed, h0, hkey, hst]), if_neg (by simp [hload]), hread]
  rfl

end

/-! ## METER_LOAD_PATTERN (R410) -/

section
variable {c d : Ctl} {f : Bytes} {short : Bool} {x : Fail}

theorem Ctl.turnsAway_of_unsealed (hs : c.sealed = false) (hp : c.die.part.pelron = true) :
    c.die.turnsAway Blk.MTR = some (c.die.raise (Ev.ABSENT_ACCESS Blk.MTR) 0xFFFF) := by
  have habsent : c.die.absentBlock Blk.MTR = some 0xFFFF := by
    unfold Die.absentBlock
    rw [if_neg (by simp [hp]), if_pos ⟨rfl, by simpa [Ctl.sealed] using hs⟩]
  unfold Die.turnsAway
  rw [habsent]

theorem Ctl.written_of_turnsAway {blk : Nat} {g : Ctl → Ctl} {e : Die} (h : c.die.turnsAway blk = some e) :
    c.written blk g = { c with die := e } := by
  unfold Ctl.written
  rw [h]

theorem Ctl.meterLoadPattern_of_bad_prefix (hsealed : c.sealed = true) (hload : c.meter.loading = none)
    (hread : c.memRead (c.die.getN Reg.MTR_SRC_ADDR) (c.die.bget Reg.MTR_SRC_LEN 23 0) = (d, f, short))
    (hbad : prefixFail { unit := 2, part := d.die.part, fid := 0x3FFFF, mode := 0, rack := 0, slot := 0, fabricId := 0, hop := 0,
                         lkpLocked := false, epoch := 0, fw := d.meter.version, patternKey := none,
                         lastSeq := [(seqKey 4 0, d.meter.patSeq)], floor := 0, aligned := true, parts := [] }
      (c.die.bget Reg.MTR_SRC_LEN 23 0) f = some x) :
    c.meterLoadPattern = d.onDie fun d =>
      ((d.fset Fl.MTR_STATUS_load_result 6).fset Fl.MTR_STATUS_pattern_code x.code).fset Fl.MTR_STATUS_pattern_detail x.detail := by
  unfold Ctl.meterLoadPattern
  dsimp only
  rw [if_neg (by simp [hsealed]), if_neg (by simp [hload]), hread]
  dsimp only
  rw [hbad]

end

/-! ## METER_START (R425) -/

theorem Ctl.meterStart_of_first_run {c : Ctl} (hsealed : c.sealed = true) (hst : c.die.fget Fl.MTR_STATUS_state = 0)
    (hsnap : c.meter.snapshot = none) (hpow : c.meter.powered = false) :
    c.meterStart =
      ({ c with meter := { c.meter with insts := [], eSum := 0, firstOpen := none, gap := true },
                die := (c.die.setN Reg.MTR_SEQ (c.meter.checkpoint + 2 ^ 20)).fset Fl.MTR_STATUS_snapshot_valid 0 } : Ctl).meterUp.meterRaise
        Ev.SNAPSHOT_INVALID := by
  unfold Ctl.meterStart
  rw [if_neg (by simp [hsealed, hst])]
  dsimp only
  rw [hsnap]
  exact if_neg (by simp [hpow])

/-! ## Tap keys (R411, R412) -/

section
variable {a : Agt} {wm : Worm} {i : Nat}

theorem Agt.meterEncaps_of_slot (hm : markPriv (wormMark wm) = 3) (ht : a.die.testEn = false) (hi : a.tap.target = some i) :
    a.meterEncaps wm =
      let ct := slice wm.payload 0 1568
      let sl : TapSlot :=
        { held := true, keyId := tapKeyId ct, fid := markFid (wormMark wm),
          key := tapKey (Config.kemDecaps (agentKeyName a.dieId) ct) a.dieId a.fid (fieldAt wm.payload 1568 8), seq := 0,
          sending := a.tap.cfg.any fun e => e.tapKeyId = tapKeyId ct }
      { a with tap := a.tap.setSlot i sl } := by
  unfold Agt.meterEncaps
  rw [if_neg (not_not_intro hm), if_neg (by simp [ht]), hi]

theorem Agt.meterEncaps_of_test (hm : markPriv (wormMark wm) = 3) (ht : a.die.testEn = true) :
    a.meterEncaps wm = a.count Reg.MTP_CNT_ENCAPS_REFUSED := by
  unfold Agt.meterEncaps
  rw [if_neg (not_not_intro hm), if_pos ht]

theorem Ctl.meterRetry_of_due {c : Ctl} (h : ∀ t, c.meter.retryNs = some t → t ≤ c.die.up → t + 10000000000 ≤ c.die.up) :
    c.meterRetry =
      let c : Ctl := { c with meter := { c.meter with retryNs := some c.die.up } }
      c.cst.agents.foldl (fun c p =>
        if !p.2.named || p.2.lost || (c.meter.keys.filter fun k => k.fid = p.2.fid && k.dieId = p.2.dieId).any (·.seen) then c
        else c.meterEncaps p.2.fid p.2.dieId false) c := by
  have hdue : (c.meter.retryNs.any fun t => decide (t ≤ c.die.up ∧ c.die.up < 10000000000 + t)) = false := by
    cases hr : c.meter.retryNs with
    | none => rfl
    | some t =>
      have := h t hr
      simp only [Option.any_some, decide_eq_false_iff_not]
      omega
  unfold Ctl.meterRetry
  exact if_neg (by simp only [hdue, Bool.false_eq_true, not_false_eq_true])

end

/-! ## Intake (R417) -/

section
variable {c : Ctl} {wm : Worm} {k : MKey}

/-- A tap worm that the intake takes up, counted. -/
def Ctl.tapCounted (c : Ctl) : Ctl := { c with meter := { c.meter with intakeCount := c.meter.intakeCount + 1 } }

/-- A tap worm refused, with the counter that says why. -/
def Ctl.tapRefused (c : Ctl) (key : Nat) : Ctl := ({ c with meter := { c.meter with refused := c.meter.refused + 1 } } : Ctl).mcount key

/-- What the intake does with a well-formed tap worm. -/
def Ctl.tapRecord (c : Ctl) (w : Worm) : Ctl :=
  let p := w.payload
  match c.meter.keys.find? fun k => k.fid = fieldAt p 4 4 && k.keyId = fieldAt p 8 8 with
  | none => c.tapRefused Reg.MTR_CNT_KEY_UNKNOWN
  | some k =>
    if Config.kmac256 k.key (p.take 1984) 512 (ascii "YARULAIS TAP") ≠ slice p 1984 64 then
      let c := c.tapRefused Reg.MTR_CNT_BAD_MAC
      if !(mayRaise k.lastMac c.die.up 1000000000) then c
      else
        let c : Ctl := { c with meter := { c.meter with keys := c.meter.keys.map fun x =>
            if x.fid = k.fid then { x with lastMac := some c.die.up } else x } }
        c.meterRaise Ev.TAP_BAD_MAC
    else
      let c : Ctl := { c with meter := { c.meter with taken := c.meter.taken + 1, keys := c.meter.keys.map fun x =>
          if x.fid = k.fid && x.keyId = k.keyId then { x with seen := true, covered := true } else x } }
      let c := c.mcount Reg.MTR_CNT_TAKEN
      let seq := fieldAt p 16 8
      let c := if bitOf (byteAt p 1) 0 then c.takeValue k none seq 0 [fieldAt p 32 8] else c
      (List.range (min 40 (byteAt p 3))).foldl (fun c n =>
        let o := 64 + 48 * n
        c.takeValue k (some (fieldAt p o 2, byteAt p (o + 2))) seq (byteAt p (o + 3)) (tapCounts p o)) c

/-- While the meter is on and the second's intake has room, a worm is counted, and taken up where it is well formed. -/
theorem Ctl.takeTap_of_room (hpow : c.meter.powered = true) (hst : c.die.fget Fl.MTR_STATUS_state ≠ 0)
    (hsec : c.meter.intakeSec = c.die.ns / 1000000000) (hroom : c.meter.intakeCount < 4000000) :
    c.takeTap wm =
      if wm.op ≠ 0x8C ∨ wm.partition ≠ 0 ∨ wm.length ≠ 32 ∨ wm.enc ≠ 0 then c.tapCounted.tapRefused Reg.MTR_CNT_MALFORMED
      else c.tapCounted.tapRecord wm := by
  unfold Ctl.takeTap
  dsimp only
  rw [if_pos hsec, if_neg (by simp [hpow, hst]), if_neg (by omega)]
  rfl

theorem Ctl.tapRecord_of_plain
    (hk : (c.meter.keys.find? fun k => k.fid = fieldAt wm.payload 4 4 && k.keyId = fieldAt wm.payload 8 8) = some k)
    (henergy : bitOf (byteAt wm.payload 1) 0 = false) (hentries : byteAt wm.payload 3 = 0) :
    c.tapRecord wm =
      if Config.kmac256 k.key (wm.payload.take 1984) 512 (ascii "YARULAIS TAP") = slice wm.payload 1984 64 then
        ({ c with meter := { c.meter with taken := c.meter.taken + 1, keys := c.meter.keys.map fun x =>
          if x.fid = k.fid && x.keyId = k.keyId then { x with seen := true, covered := true } else x } } : Ctl).mcount Reg.MTR_CNT_TAKEN
      else
        let d := c.tapRefused Reg.MTR_CNT_BAD_MAC
        if !(mayRaise k.lastMac c.die.up 1000000000) then d
        else ({ d with meter := { d.meter with keys := d.meter.keys.map fun x =>
          if x.fid = k.fid then { x with lastMac := some c.die.up } else x } } : Ctl).meterRaise Ev.TAP_BAD_MAC := by
  unfold Ctl.tapRecord
  dsimp only
  rw [hk]
  dsimp only
  rw [ite_not]
  refine if_congr Iff.rfl ?_ rfl
  rw [hentries, henergy, if_neg Bool.false_ne_true]
  rfl

end

/-! ## What the commands answer -/

section
variable {s : State} {wm : Worm} {w : Who} {inBond : Nat}

theorem exec_meterLoadFw {val : Word} {g : Ctl → Ctl} (hu : On s) (ht : Takes s.ctl.die Blk.MTR)
    (h : (s.ctl.meterLoadFw val.toNat).rowInForce s.ctl.meter.pattern = g s.ctl) : exec (.meterLoadFw val) s = ctlDoes s g := by
  show execMeterLoadFw val s = _
  exact State.ctlNext_written hu ht h

theorem exec_meterLoadPattern {g : Ctl → Ctl} (hu : On s) (h : s.ctl.written Blk.MTR Ctl.meterLoadPattern = g s.ctl) :
    exec .meterLoadPattern s = ctlDoes s g := by
  show execMeterLoadPattern s = _
  exact State.ctlNext_on hu h

theorem exec_meterEncaps {g : Agt → Agt} (hu : Up s w) (h : (s.agt w).meterEncaps wm = g (s.agt w)) :
    exec (.meterEncaps w inBond wm) s = agtDoes s w fun a => a.works Blk.MTP g := by
  show execMeterEncaps w inBond wm s = _
  exact State.agtNext_up hu (Agt.works_congr h)

theorem exec_meterEncapsRetry {g : Ctl → Ctl} (hu : Metering s) (h : s.ctl.meterRetry = g s.ctl) :
    exec .meterEncapsRetry s = ctlDoes s fun c => c.works Blk.MTR g := by
  show execMeterEncapsRetry s = _
  exact State.meterNext_metering hu (Ctl.works_congr h)

theorem exec_meterTap {g : Ctl → Ctl} (hu : On s) (h : s.ctl.takeTap wm = g s.ctl) :
    exec (.meterTap wm) s = ctlDoes s fun c => c.works Blk.MTR g := by
  show execMeterTap wm s = _
  exact State.ctlNext_on hu (Ctl.works_congr h)

end

/-- Settles O22, by the checks of a load in their order, the meter's power, the agent's slots, and the form and key of a tap worm. -/
theorem meterIntake : Obligations.MeterIntake := by
  unfold Obligations.MeterIntake
  refine ⟨fun s val hu ht => exec_meterLoadFw hu ht rfl, fun s hu ht => exec_meterLoadPattern hu (Ctl.written_takes ht),
    fun s h => exec_meterStart_of_phase h.1 h.2 rfl, fun s w inBond wm hu => exec_meterEncaps hu rfl,
    fun s hu => exec_meterEncapsRetry hu rfl, fun s wm hu => exec_meterTap hu rfl, ?no_key, ?loaded, ?absent, ?bad_pattern, ?first_run,
    ?slot, ?test, ?retry, ?malformed, ?record⟩
  case no_key =>
    intro s val hu ht h
    refine exec_meterLoadFw hu ht ?_
    rw [Ctl.meterLoadFw_without_key h]
    exact Ctl.rowInForce_of_same rfl
  case loaded =>
    intro s val c img short hu ht hsealed h0 hkey hst hload hread hform hkind hroll hseals
    refine exec_meterLoadFw hu ht ?_
    rw [Ctl.meterLoadFw_of_read hsealed h0 hkey hst hload hread, Ctl.checkImage_of_newer hform hkind hroll hseals]
    rfl
  case absent =>
    intro s hu hs hp
    exact exec_meterLoadPattern hu (Ctl.written_of_turnsAway (Ctl.turnsAway_of_unsealed hs hp))
  case bad_pattern =>
    intro s x c f short hu ht hsealed hload hread hbad
    exact exec_meterLoadPattern hu ((Ctl.written_takes ht).trans (Ctl.meterLoadPattern_of_bad_prefix hsealed hload hread hbad))
  case first_run =>
    intro s h₁ h₃ hsealed hst hsnap hpow
    refine exec_meterStart_of_phase h₁ h₃ ?_
    rw [Ctl.meterStart_of_first_run hsealed hst hsnap hpow]
  case slot =>
    intro s w inBond i wm hu hm ht hi
    exact exec_meterEncaps hu (Agt.meterEncaps_of_slot hm ht hi)
  case test =>
    intro s w inBond wm hu hm ht
    exact exec_meterEncaps hu (Agt.meterEncaps_of_test hm ht)
  case retry =>
    intro s hu h
    exact exec_meterEncapsRetry hu (Ctl.meterRetry_of_due h)
  case malformed =>
    intro s wm hu hpow hst hsec hroom hbad
    exact exec_meterTap hu ((Ctl.takeTap_of_room hpow hst hsec hroom).trans (if_pos hbad))
  case record =>
    intro s wm k hu hpow hst hsec hroom hop hpart hlen henc hk henergy hentries
    refine exec_meterTap hu ((Ctl.takeTap_of_room hpow hst hsec hroom).trans ?_)
    rw [if_neg (by simp [hop, hpart, hlen, henc])]
    exact Ctl.tapRecord_of_plain (c := s.ctl.tapCounted) hk henergy hentries

end Sys2Proof.Machine
end

section
/-! PROOFS. Metered instances, intervals, batches and the ring they go out by (R418 to R424). -/

namespace Sys2Proof.Machine

open Sys2Proof.Claim

/-! ## Instances (R419) and intervals (R418) -/

section
variable {c : Ctl} {tag inst course interval energy : Nat}

theorem Ctl.meterOpen_of_new (hs : c.die.safe = false) (hn : (c.meter.insts.any fun i => i.tag = tag && i.inst = inst) = false) :
    c.meterOpen tag inst course =
      { c with meter := { c.meter with insts := c.meter.insts ++
        [{ tag := tag, inst := inst, openCourse := course, closeCourse := none, totals := [0, 0, 0, 0, 0], active := false, silent := 0,
           retired := false }] } } := by
  unfold Ctl.meterOpen
  exact if_neg (by simp only [hs, hn, Bool.false_eq_true, or_self, not_false_eq_true])

theorem Ctl.meterClose_of_not_safe (hs : c.die.safe = false) :
    c.meterClose tag inst course =
      { c with meter := { c.meter with insts := c.meter.insts.map fun i =>
        if i.tag = tag && i.inst = inst then { i with closeCourse := some course } else i } } := by
  unfold Ctl.meterClose
  exact if_neg (by simp only [hs, Bool.false_eq_true, not_false_eq_true])

theorem Ctl.intervalClose_of_due (hpow : c.meter.powered = true) (hst : c.die.fget Fl.MTR_STATUS_state ≠ 0)
    (hdue : (interval + 2) * c.meter.pattern.intervalUs * 1000 ≤ c.die.ns)
    (hnew : c.meter.closedNs < (interval + 1) * c.meter.pattern.intervalUs * 1000) :
    c.intervalClose interval energy = c.closeInterval interval energy := by
  unfold Ctl.intervalClose
  refine if_neg ?_
  rintro (h | ⟨-, h⟩ | h | ⟨h, -⟩)
  · simp [hpow] at h
  · exact hst h
  · omega
  · omega

theorem Ctl.intervalClose_too_soon (h : c.die.ns < (interval + 2) * c.meter.pattern.intervalUs * 1000) :
    c.intervalClose interval energy = c := by
  unfold Ctl.intervalClose
  exact if_pos (.inr (.inr (.inl h)))

end

/-! ## Batches (R422 to R424) -/

section
variable {c : Ctl} {b : Batch} {flags extra at_ p : Nat}

theorem Ctl.batchBoundary_of_busy (h : c.meter.signing = some b) :
    c.batchBoundary extra = { c with meter := { c.meter with lateDue := some (c.meter.lateDue.getD 0 ||| extra) } } := by
  unfold Ctl.batchBoundary
  exact if_pos (by rw [h]; rfl)

/-- Without a METER entry staged no interval closes early. -/
theorem Ctl.batchBoundary_of_free (hsign : c.meter.signing = none) (hstaged : c.meter.staged = none) :
    c.batchBoundary extra = if (c.closeBatch extra).sealed then c.closeBatch extra else (c.closeBatch extra).batchSigned := by
  unfold Ctl.batchBoundary
  rw [if_neg (by rw [hsign]; exact Bool.false_ne_true), hstaged]
  rfl

/-- The controller at a batch boundary of a new record period. -/
def Ctl.batchAt (c : Ctl) (at_ : Nat) : Ctl := { c with meter := { c.meter with batchNs := at_ } }

theorem Ctl.batchClose_of_new_period (hpow : c.meter.powered = true) (hst : c.die.fget Fl.MTR_STATUS_state ≠ 0)
    (hat : at_ = c.die.ns / (1000000 * c.meter.pattern.periodMs) * (1000000 * c.meter.pattern.periodMs)) (hnew : c.meter.batchNs < at_) :
    c.batchClose = (c.batchAt at_).batchBoundary 0 := by
  subst hat
  unfold Ctl.batchClose
  refine if_neg ?_
  rintro (h | ⟨-, h⟩ | ⟨h, -⟩)
  · simp [hpow] at h
  · exact hst h
  · omega

theorem Ctl.batchClose_in_same_period (hp : p = 1000000 * c.meter.pattern.periodMs) (h : c.die.ns / p * p ≤ c.meter.batchNs)
    (hns : c.meter.batchNs ≤ c.die.ns) : c.batchClose = c := by
  subst hp
  unfold Ctl.batchClose
  exact if_pos (.inr (.inr ⟨h, hns⟩))

/-- The controller once the batch being signed is done, with no boundary that waits for the signer. -/
def Ctl.signerFreed (c : Ctl) : Ctl := { c.batchSigned with meter := { c.batchSigned.meter with lateDue := none } }

theorem Ctl.signerDone_of_signing (hsign : c.meter.signing = some b) :
    c.signerDone =
      match c.meter.lateDue with
      | some flags => ((c.signerFreed.batchBoundary (flags + 4)).mcount Reg.MTR_CNT_LATE).meterRaise Ev.BATCH_LATE
      | none => c.signerFreed := by
  unfold Ctl.signerDone
  rw [if_neg (by rw [hsign]; exact Bool.false_ne_true)]
  rfl

theorem Ctl.signerDone_of_none_late (hsign : c.meter.signing = some b) (hlate : c.meter.lateDue = none) : c.signerDone = c.signerFreed := by
  rw [Ctl.signerDone_of_signing hsign, hlate]

theorem Ctl.signerDone_of_late (hsign : c.meter.signing = some b) (hlate : c.meter.lateDue = some flags) :
    c.signerDone = ((c.signerFreed.batchBoundary (flags + 4)).mcount Reg.MTR_CNT_LATE).meterRaise Ev.BATCH_LATE := by
  rw [Ctl.signerDone_of_signing hsign, hlate]

theorem Ctl.batchSigned_of_signing (hsign : c.meter.signing = some b) :
    c.batchSigned =
      let bytes := c.signedBytes b
      let c := ({ c with meter := { c.meter with signing := none, prevDigest := Config.shake256 bytes } } : Ctl).mcount Reg.MTR_CNT_BATCHES
      if c.ringFull ∨ !c.meter.held.isEmpty then
        ({ c with meter := { c.meter with held := c.meter.held ++ [b] } } : Ctl).meterRaise Ev.METER_RING_FULL
      else c.ringWrite bytes := by
  unfold Ctl.batchSigned
  rw [hsign]

end

/-! ## What the commands answer -/

section
variable {s : State} {tag inst course interval : Nat} {energy : Energy} {g : Ctl → Ctl}

theorem exec_meterIntervalClose (hu : Metering s) (h : s.ctl.intervalClose interval energy = g s.ctl) :
    exec (.meterIntervalClose interval energy) s = ctlDoes s fun c => c.works Blk.MTR g := by
  show execMeterIntervalClose interval energy s = _
  exact State.meterNext_metering hu (Ctl.works_congr h)

theorem exec_meterOpen (hu : Metering s) (h : s.ctl.meterOpen tag inst course = g s.ctl) :
    exec (.meterOpen tag inst course) s = ctlDoes s fun c => c.works Blk.MTR g := by
  show execMeterOpen tag inst course s = _
  exact State.meterNext_metering hu (Ctl.works_congr h)

theorem exec_meterClose (hu : Metering s) (h : s.ctl.meterClose tag inst course = g s.ctl) :
    exec (.meterClose tag inst course) s = ctlDoes s fun c => c.works Blk.MTR g := by
  show execMeterClose tag inst course s = _
  exact State.meterNext_metering hu (Ctl.works_congr h)

theorem exec_meterBatchClose (hu : Metering s) (h : s.ctl.batchClose.rowInForce s.ctl.meter.pattern = g s.ctl) :
    exec .meterBatchClose s = ctlDoes s fun c => c.works Blk.MTR g := by
  show execMeterBatchClose s = _
  exact State.meterNext_metering hu (Ctl.works_congr h)

theorem exec_meterBatchSigned (hu : Metering s) (h : s.ctl.signerDone.rowInForce s.ctl.meter.pattern = g s.ctl) :
    exec .meterBatchSigned s = ctlDoes s fun c => c.works Blk.MTR g := by
  show execMeterBatchSigned s = _
  exact State.meterNext_metering hu (Ctl.works_congr h)

end

/-- Settles O23, by whether an interval or a period is due, whether the signer is busy, and whether the ring has a free slot. -/
theorem meterBatches : Obligations.MeterBatches := by
  unfold Obligations.MeterBatches
  refine ⟨fun s interval energy hu => exec_meterIntervalClose hu rfl, fun s tag inst course hu => exec_meterOpen hu rfl,
    fun s tag inst course hu => exec_meterClose hu rfl, fun s hu => exec_meterBatchClose hu rfl,
    fun s hu => exec_meterBatchSigned hu rfl, ?opened, ?closed, ?interval, ?too_soon, ?busy, ?batch, ?twice, ?signed, ?late,
    fun c b => Ctl.batchSigned_of_signing, fun s val hu ht => State.ctlNext_written hu ht rfl⟩
  case opened =>
    intro s tag inst course hu hs hn
    exact exec_meterOpen hu (Ctl.meterOpen_of_new hs hn)
  case closed =>
    intro s tag inst course hu hs
    exact exec_meterClose hu (Ctl.meterClose_of_not_safe hs)
  case interval =>
    intro s interval energy hu hpow hst hdue hnew
    exact exec_meterIntervalClose hu (Ctl.intervalClose_of_due hpow hst hdue hnew)
  case too_soon =>
    intro s interval energy hu h
    show execMeterIntervalClose interval energy s = _
    exact State.meterNext_metering hu (Ctl.works_of_unchanged _ (Ctl.intervalClose_too_soon h))
  case busy =>
    intro s b at_ hu hpow hst hat hnew hsign
    refine exec_meterBatchClose hu ?_
    rw [Ctl.batchClose_of_new_period hpow hst hat hnew, Ctl.batchBoundary_of_busy (c := s.ctl.batchAt at_) hsign]
    exact Ctl.rowInForce_of_same rfl
  case batch =>
    intro s at_ hu hpow hst hat hnew hsign hstaged
    refine exec_meterBatchClose hu ?_
    rw [Ctl.batchClose_of_new_period hpow hst hat hnew, Ctl.batchBoundary_of_free (c := s.ctl.batchAt at_) hsign hstaged]
    rfl
  case twice =>
    intro s p hu hp h hns
    show execMeterBatchClose s = _
    refine State.meterNext_metering hu (Ctl.works_of_unchanged _ ?_)
    rw [Ctl.batchClose_in_same_period hp h hns]
    exact Ctl.rowInForce_of_same rfl
  case signed =>
    intro s b hu hsign hlate
    refine exec_meterBatchSigned hu ?_
    rw [Ctl.signerDone_of_none_late hsign hlate]
    rfl
  case late =>
    intro s b flags hu hsign hlate
    refine exec_meterBatchSigned hu ?_
    rw [Ctl.signerDone_of_late hsign hlate]
    rfl

end Sys2Proof.Machine
end

section
/-! PROOFS. Power and reset of the controller's module, and an agent's core-voltage floor (R438, R445, R530 to R536, R543). -/

namespace Sys2Proof.Machine

open Sys2Proof.Claim

/-! ## The pins, by the phase of the module -/

section
variable {c : Ctl} {ns : Nat}

theorem Ctl.modEnAssert_of_off (hm : c.pwr.modEn = false) (h0 : c.pwr.phase = 0) :
    c.modEnAssert =
      let evr : Evr := { c.die.evr with secBase := c.die.evr.savedSec, cycles := (c.die.evr.savedCycles + 1) % 2 ^ 24 }
      { c with pwr := { c.pwr with modEn := true, pwrFailN := true, phase := 1 }, die := { c.die with evr := evr } } := by
  unfold Ctl.modEnAssert
  rw [if_neg (by simp only [hm, Bool.false_eq_true, not_false_eq_true])]
  exact if_neg (not_not_intro h0)

theorem Ctl.leaveReset_of_power_good (h : c.pwr.phase = 1) (testEn : Bool) :
    c.leaveReset testEn =
      let c := c.restarted testEn
      { c with pwr := { c.pwr with phase := 2, rstN := true } } := by
  unfold Ctl.leaveReset
  exact if_neg (not_not_intro h)

theorem Ctl.rstPulse_of_long (h : c.pwr.phase = 2) (hns : 10000 ≤ ns) :
    c.rstPulse ns =
      let c := ({ c with die := c.die.freeVal.2 } : Ctl).restarted false
      { c with pwr := { c.pwr with phase := 1, rstN := false } } := by
  unfold Ctl.rstPulse
  rw [if_neg (not_not_intro h)]
  exact if_neg (by omega)

end

/-! ## The power-down sequence (R445, R534 to R536) -/

section
variable {s t : State} {k : PowerTrigger}

theorem State.powerTrigger_of_running (ht : t = s.onCtl (fun c => { c with pwr := c.pwr.trigger k })) (h : t.ctl.pwr.phase = 2) :
    s.powerTrigger k = (t.onCtl fun c => c.powerDown t.emb).onAgt .emb Agt.withdrawAll := by
  subst ht
  unfold State.powerTrigger
  dsimp only
  rw [h]
  rfl

theorem State.powerTrigger_of_sequence (ht : t = s.onCtl (fun c => { c with pwr := c.pwr.trigger k })) (h : t.ctl.pwr.phase = 3) :
    s.powerTrigger k = t := by
  subst ht
  unfold State.powerTrigger
  dsimp only
  rw [h]
  rfl

theorem exec_powerDownEnd_of_sequence (h : s.ctl.pwr.phase = 3) :
    exec .powerDownEnd s = .next ((s.onCtl Ctl.powerOff).onAgt .emb fun a => a.resetAssert false) := by
  show execPowerDownEnd s = _
  unfold execPowerDownEnd
  rw [if_pos h]

end

/-! ## The core-voltage floor (R543) -/

section
variable {d : Die} {val : Nat}

theorem Die.vcoreFloor_of_range (hlo : 600 ≤ bitsOf val 11 0) (hhi : bitsOf val 11 0 ≤ 800) :
    d.vcoreFloor val = (d.bset Reg.AGT_VCORE 11 0 (bitsOf val 11 0)).bset Reg.AGT_VCORE 43 32 0xFFF := by
  unfold Die.vcoreFloor
  exact if_neg (by omega)

theorem Die.vcoreFloor_of_other (h : bitsOf val 11 0 < 600 ∨ 800 < bitsOf val 11 0) : d.vcoreFloor val = d := by
  unfold Die.vcoreFloor
  exact if_pos h

theorem exec_vcoreFloorWrite {s : State} {w : Who} {v : Word} {g : Agt → Agt} (hu : Up s w) (ht : Takes (s.agt w).die Blk.AGT)
    (h : (s.agt w).onDie (·.vcoreFloor v.toNat) = g (s.agt w)) : exec (.vcoreFloorWrite w v) s = agtDoes s w g := by
  show execVcoreFloorWrite w v s = _
  exact State.agtNext_written hu ht h

end

/-! ## What the pins' commands answer -/

section
variable {s : State} {g : Ctl → Ctl}

theorem exec_modEnAssert (h : s.ctl.modEnAssert = g s.ctl) : exec .modEnAssert s = ctlDoes s g :=
  congrArg Host.Outcome.next (State.onCtl_congr h)

theorem exec_controllerLeaveReset {testEn : Bool} (h : s.ctl.leaveReset testEn = g s.ctl) :
    exec (.controllerLeaveReset testEn) s = ctlDoes s g :=
  congrArg Host.Outcome.next (State.onCtl_congr h)

theorem exec_controllerRstN {ns : Nat} (h : s.ctl.rstPulse ns = g s.ctl) : exec (.controllerRstN ns) s = ctlDoes s g :=
  congrArg Host.Outcome.next (State.onCtl_congr h)

theorem exec_powerDownTrigger {k : PowerTrigger} {t : State} (h : s.powerTrigger k = t) : exec (.powerDownTrigger k) s = .next t :=
  congrArg Host.Outcome.next h

end

/-- Settles O48, by the phase of the module that each pin finds, and by the range of the floor. -/
theorem powerSequences : Obligations.PowerSequences := by
  unfold Obligations.PowerSequences
  refine ⟨fun s w val hu ht => exec_vcoreFloorWrite hu ht rfl, fun _ => exec_modEnAssert rfl, fun _ _ => exec_controllerLeaveReset rfl,
    fun _ _ => exec_controllerRstN rfl, fun _ _ => exec_powerDownTrigger rfl,
    fun s => exec_powerDownEnd_of_sequence, ?enabled, ?left, ?pulse, ?triggered, ?pins, fun _ _ => rfl,
    fun s => exec_powerDownEnd_of_sequence, ?floor, ?ignored⟩
  case enabled =>
    intro s hm h0
    exact exec_modEnAssert (Ctl.modEnAssert_of_off hm h0)
  case left =>
    intro s testEn h
    exact exec_controllerLeaveReset (Ctl.leaveReset_of_power_good h testEn)
  case pulse =>
    intro s ns h hns
    exact exec_controllerRstN (Ctl.rstPulse_of_long h hns)
  case triggered =>
    intro s t k ht h
    exact exec_powerDownTrigger (State.powerTrigger_of_running ht h)
  case pins =>
    intro s t k ht h
    exact exec_powerDownTrigger (State.powerTrigger_of_sequence ht h)
  case floor =>
    intro s w val hu ht hlo hhi
    exact exec_vcoreFloorWrite hu ht (Agt.onDie_congr (Die.vcoreFloor_of_range hlo hhi))
  case ignored =>
    intro s w val hu ht h
    exact exec_vcoreFloorWrite hu ht (Agt.onDie_congr (g := id) (Die.vcoreFloor_of_other h))

end Sys2Proof.Machine
end
